-- ==== Sys2Proof/Word.lean ====
section
/-! DEFINITION. The word types of the module and the names of its places: cores, dies, lanes, ports, pages and the
parties that access them. -/
namespace Sys2Proof

/-- One byte. -/
abbrev Byte := BitVec 8
/-- A control register: 32 bits (17 R507). -/
abbrev Word := BitVec 32
/-- A 64-bit quantity: a g register, device time, a data-space address. -/
abbrev Dword := BitVec 64

/-- A physical core: compute die 0 to 23 and physical index cy * 66 + cx, 0 to 2,111 (01 R29, R30). -/
structure CoreId where
  die : Fin 24
  idx : Fin 2112
deriving DecidableEq, Repr

/-- A page of a unit of a die, as a control address names it (17 R505). -/
structure PageId where
  die : Fin 28
  unit : BitVec 16
  page : BitVec 4
deriving DecidableEq, Repr

/-- The parties that make control accesses (17 R506, R516, R536). -/
inductive Party where
  /-- firmware on the management controllers, TENANT 0xFF -/
  | firmware
  /-- the board processor over SMBus, TENANT 0xFF (16 R487) -/
  | board
  /-- the runtime of tenant t, through CTRL_WRITE and CTRL_READ (14 R448) -/
  | runtime (t : BitVec 8)
  /-- the program running on a core, through space 0x03 with SELF = 1 (06 R185) -/
  | program (c : CoreId)
deriving DecidableEq, Repr

/-- A control write of 4 or 8 bytes (17 R507). -/
structure CtlWrite where
  who : Party
  addr : BitVec 44
  wide : Bool
  data : Dword
deriving DecidableEq, Repr

/-- The predicate of a slot word and the core whose sequencer issues it (04 R126). -/
structure Slot where
  core : CoreId
  pred : BitVec 3
  neg : Bool
deriving DecidableEq, Repr

/-- The bit errors that an access finds in the scratchpad: the numbers of the 8-byte words with a single-bit and with
a double-bit error (06 R190). Errors come from outside the model. -/
structure Ecc where
  corr : List Nat
  unc : List Nat
deriving DecidableEq, Repr

/-- What a core finds wrong with itself beside its stores (08 R273, R298): a trip of the island's clock or supply monitor, an
uncorrectable error in a v register, a parity error in a g, a or m register, a parity error in the loop buffer's bundle at an
address. Errors come from outside the model. -/
inductive IslandErr where
  | monitor | vReg | scalarReg
  | loopBuf (pc : BitVec 20)
deriving DecidableEq, Repr

/-- What an LPDDR read finds in a line beside stored poison (12 R381, R383). -/
inductive LineEcc where
  | clean | corrected | uncorrectable
deriving DecidableEq, Repr

/-- The datapath errors of one array or jib pass or drain (02 R87): activation row-bus parity (both halves), weight
parity per half, double-bit accumulator error per half, and corrected accumulator words. -/
structure PathErr where
  rowBus : Bool
  weight : BitVec 2
  accum : BitVec 2
  corrected : Nat
deriving DecidableEq, Repr

/-- A flit of the tensor network (07 R223, R228): the header of its packet, whether it is the first and the last flit,
its virtual channel and its payload. -/
structure Flit where
  hdr : BitVec 168
  first : Bool
  tail : Bool
  vc : BitVec 4
  data : List Byte
deriving DecidableEq, Repr

/-- A router of a core, the tap of an edge die on the X wrap of a row (07 R218, R221), or a stop of a memory plane, request,
response, snoop or data: column 1 to 198 of the module's mesh, or an edge die at column 0 or 199 (07 R251, R252). -/
inductive Node where
  | router (c : CoreId)
  | tap (e : Fin 4) (row : Fin 128)
  | stop (plane : Fin 4) (x : Fin 200) (y : Fin 32)
deriving DecidableEq, Repr

/-- A network element with route banks: a core's router and interface, or the taps of an edge die (07 R247). -/
inductive Station where
  | core (c : CoreId)
  | taps (e : Fin 4)
deriving DecidableEq, Repr

/-- A request-plane flit (07 R254); in a write-back, BE 0 says that the line buffer keeps the line (assumption 13). -/
structure PReq where
  op : BitVec 5
  srcDie : BitVec 5
  srcUnit : BitVec 16
  tenant : BitVec 8
  tag : BitVec 12
  dstDie : BitVec 5
  size : BitVec 4
  addr : Dword
  be : BitVec 8
deriving DecidableEq, Repr

/-- An LPDDR channel: local channel of an edge die (12 R377). -/
structure Chan where
  e : Fin 4
  l : Fin 24
deriving DecidableEq, Repr

/-- A serial lane of an edge die (13). -/
structure LaneId where
  e : Fin 4
  n : Fin 16
deriving DecidableEq, Repr

/-- An Ethernet port: MAC q of an edge die (13). -/
structure PortId where
  e : Fin 4
  q : Fin 4
deriving DecidableEq, Repr

/-- A pusher of configuration streams: the halyard of edge die 24 + e, and whether it is the board port (11 R349). -/
structure Pusher where
  e : Fin 4
  board : Bool
deriving DecidableEq, Repr

/-- What a user clock edge does at one port of a fabric-RAM block (10 R327, R328). -/
structure RamOp where
  block : Nat
  portB : Bool
  addr : Nat
  we : Bool
  data : Dword
  err : LineEcc
deriving DecidableEq, Repr

/-- A source of user clocks (10 R316, R322, R323): the clock of a collar; of an edge die one of its four fabric PLLs, a
clock-capable user I/O pin (four per bank), a lane's parallel clock, the MAC clock of a port. -/
inductive FabClk where
  | collar (c : CoreId)
  | pll (e : Fin 4) (i : Fin 4)
  | pin (e : Fin 4) (i : Fin 16)
  | lane (l : LaneId)
  | mac (p : PortId)
deriving DecidableEq, Repr

/-- A signal that a region sees at one of its ports (10 R334, R335, R340; 13 R405): one that a collar's core drives, a bit of
device time (CORE_DT, DT_NS), PPS, one of the plane port, of the receive stream of MAC q, of raw lane n, a user pin, and a double-rate
input's level at the falling edge. -/
inductive RegSig where
  | core
  | time (bit : Fin 64)
  | pps
  | plane
  | mac (q : Fin 4)
  | rxData (n : Fin 16) (bit : Fin 256)
  | rxLock (n : Fin 16)
  | txReady (n : Fin 16)
  | pin (i : Fin 64)
  | pinFall (i : Fin 64)
deriving DecidableEq, Repr

/-- A port signal at an arrival of a region, as cluster * 256 + arrival, with the level that it has at the edge where the
module does not drive it itself: the spec names no wire for a port signal (assumption 24). -/
structure FabIn where
  region : BitVec 24
  place : Nat
  sig : RegSig
  level : Bool
deriving DecidableEq, Repr

/-- What the logic of a region asks of its ports at an edge (10 R334): a request of its plane port, a frame for the transmit
stream of MAC q, whose priority code point is `pcp`. -/
inductive FabOut where
  | plane (region : BitVec 24) (op : BitVec 5) (tag : BitVec 12) (addr : Dword) (data : List Byte)
  | mac (region : BitVec 24) (q : Fin 4) (sub : Fin 4) (pcp : Fin 8) (len : Nat) (bytes : List Byte)
deriving DecidableEq, Repr

/-- Who has made a request over the memory planes: a core, or an edge region through its plane port (07 R255; 10 R334). -/
inductive Requester where
  | core (c : CoreId)
  | region (e : Fin 4) (r : Fin 16)
deriving DecidableEq, Repr

/-- The direction of a user I/O pin (10 R340). -/
inductive PinDir where
  | input | output | bidir
deriving DecidableEq, Repr, Inhabited

/-- The pull of a user I/O pin (10 R340). -/
inductive PinPull where
  | none | up | down | keeper
deriving DecidableEq, Repr, Inhabited

/-- The settings of a user I/O pin (10 R340), its voltage apart, which is its bank's: its direction, the code of its drive, its
slew, its pull, its Schmitt trigger, its input, output and enable registers and whether they work on both clock edges, the spine
that clocks them, and the clusters and wires of its output, of the second half of a double-rate output, and of its enable. -/
structure PinCfg where
  dir : PinDir
  drive : Fin 4
  fast : Bool
  pull : PinPull
  schmitt : Bool
  inReg : Bool
  outReg : Bool
  enReg : Bool
  ddr : Bool
  spine : Fin 8
  out : Nat × Nat
  fall : Nat × Nat
  en : Nat × Nat
deriving DecidableEq, Repr, Inhabited

/-- A received Ethernet frame after the MAC: its addresses, tag, EtherType, whether it came under MACsec and under
which channel, its redundancy-tag number, its length from destination MAC to FCS, and its payload (13 R410 to R419). -/
structure RxFrame where
  dst : BitVec 48
  src : BitVec 48
  vid : Option (BitVec 12)
  etype : BitVec 16
  sci : Option Dword
  an : BitVec 2
  pn : Nat
  icvOk : Bool
  rtag : Option (BitVec 16)
  len : Nat
  pause : Bool
  ptp : Bool
  payload : List Byte
deriving DecidableEq, Repr

/-- A Ublexia frame that has passed MACsec and the stream filter (14 R438): the port of its arrival, the tenant of its
secure channel or of its destination MAC address, its source address, the device time of its last bit, its length, and its
bytes from the Ublexia header on. -/
structure UFrame where
  port : PortId
  mgmt : Bool
  chan : BitVec 8
  src : BitVec 48
  stamp : Dword
  len : Nat
  bytes : List Byte
deriving DecidableEq, Repr

/-- A rectangle of logical cores, bounds inclusive (14 R448). -/
structure Rect where
  xlo : Nat
  xhi : Nat
  ylo : Nat
  yhi : Nat
deriving DecidableEq, Repr

/-- The resources that TENANT_CREATE names (14 R458, R459). The window's base is in units of 96 MiB and its size in MiB (12
R399); a fabric-RAM range is an edge die with its first and last offset; the filters are entries filterBase to
filterBase + filters - 1 of every port's table, with one meter entry. -/
structure TenantRec where
  id : BitVec 8
  rects : List Rect
  winBase : Nat
  winSize : Nat
  regions : List (Fin 4 × Fin 16)
  fram : List (Fin 4 × Nat × Nat)
  ports : List PortId
  tclass : BitVec 3
  mac : BitVec 48
  filterBase : Nat
  filters : Nat
  meter : Nat
  home : Fin 4
  ringBase : Nat
  ringMiB : Nat
  replayWindow : Nat
  macsecRequired : Bool
  creditInit : Nat
  scis : List (PortId × Dword)
deriving DecidableEq, Repr

/-- What the curve check and the AES key unwrap of a key import give (15 R475, R476). -/
inductive Unwrap where
  | bad
  | key (sak : BitVec 256) (salt : BitVec 96) (ssci : BitVec 32)
deriving DecidableEq, Repr, Inhabited

end Sys2Proof
end

