-- ==== Sys2Proof/Syntax.lean ====
section
/-! DEFINITION. The commands of the block: one constructor per row of spec/opcode_table.json, with the operands the
row's rules name. The table gives no bits, so the operands are this model's (assumption 4). -/
namespace Sys2Proof

/-- A command. `o : Slot` gives the core and the predicate of a Slovo operation; `who` the party of a register write;
`e : Ecc` the bit errors an access finds. -/
inductive Instr where
  /-- RESET_N_ASSERT (R483): RESET_N driven to 0 holds every block of the module in reset. -/
  | resetNAssert
  /-- RESET_N_RELEASE (R484): RESET_N rises while PWR_OK is 1; every block leaves reset, CFG_MODE is sampled and device time starts at 0. -/
  | resetNRelease (cfgMode : Bool)
  /-- PWR_OK_RISE (R483): Once the input lies within 40 to 58 V and every rail is in tolerance, the module raises PWR_OK. -/
  | pwrOkRise (mv : Nat) (railsOk : Bool)
  /-- INPUT_POWER_DROP (R485): The input falls below 38 V or PWR_OK falls, which resets the whole module and loses all state. -/
  | inputPowerDrop (mv : Nat) (pwrOkFalls : Bool)
  /-- REF_LOSS (R486): A reference clock absent for 10 µs sets PG_FAULT.REF and enters CLK_REF. -/
  | refLoss (lane : Bool)
  /-- GOVERNOR_STEP (R491): Every 1 µs the governor measures input power and, if the 1 ms average exceeds the bound, lowers the ceiling g or the scale k. -/
  | governorStep (mv ma avgW : Nat)
  /-- GOVERNOR_RAISE (R491): Every 10 µs below 97 % of the bound, the governor raises k and then g. -/
  | governorRaise (avgW : Nat)
  /-- JUNCTION_READ (R494): Every 10 µs the junction sensors are read, and the governor responds to the hottest junction. -/
  | junctionRead (tj : Nat) (die : Fin 28)
  /-- THERMAL_TRIP (R494): A junction at 110 °C or above for 100 µs stops every core island and edge-fabric clock and sets PG_FAULT.TRIP. -/
  | thermalTrip (die : Fin 28)
  /-- ISLAND_CLOCK_CHANGE (R489): A change of an island's effective frequency takes effect within 200 ns, without stopping the island. -/
  | islandClockChange (c : CoreId)
  /-- CLK_ALL (R504): A write of CLK_ALL sets CLK_SET of every core island of the die. -/
  | clkAll (who : Party) (die : Fin 28) (v : Word)
  /-- SMB_CONTROL_WRITE (R487): SMBus command 0xA0 posts a control write under TENANT 0xFF. -/
  | smbControlWrite (pecOk : Bool) (addr : Dword) (data : Word)
  /-- SMB_CONTROL_READ (R487): SMBus command 0xA1 starts a control read under TENANT 0xFF. -/
  | smbControlRead (pecOk : Bool) (addr : Dword)
  /-- SMB_RESULT_READ (R487): SMBus command 0xA2 returns the status, error and data of the last 0xA0 or 0xA1. -/
  | smbResultRead (pecOk : Bool)
  /-- REGISTER_WRITE (R17): A control write to a register with no row of its own acts according to its access code. -/
  | registerWrite (w : CtlWrite)
  /-- BLK_ERR_WRITE (R513): A write to BLK_ERR clears CODE and COUNT field by field, and codes entered in the same cc are entered after the write. -/
  | blkErrWrite (who : Party) (page : PageId) (v : Word) (codes : List (BitVec 16))
  /-- BLK_CLAMP_WRITE (R514): A write to BLK_CLAMP clears COUNT and OFFSET field by field. -/
  | blkClampWrite (who : Party) (page : PageId) (v : Word) (clamped : List (BitVec 16))
  /-- SOFT_RESET (R22): BLK_CTRL.SOFT_RESET returns the block's registers to their reset values and applies the block's own reset behaviour. -/
  | softReset (who : Party) (page : PageId)
  /-- BLK_ENABLE (R496): A write of BLK_CTRL.ENABLE requests a block power transition to ON or to OFF. -/
  | blkEnable (who : Party) (page : PageId) (on : Bool)
  /-- POWER_TRANSITION_END (R496): A block power transition completes, and a transition toward the last requested state starts if that state differs. -/
  | powerTransitionEnd (page : PageId)
  /-- TIME_NOW_READ (R430): A read of TIME_NOW_LO returns device time [31:0] and latches [63:32] into TIME_NOW_HI. -/
  | timeNowRead (who : Party) (die : Fin 28)
  /-- NOP (R126): A Slovo NOP slot does nothing. -/
  | nop (o : Slot) (k : Fin 4)
  /-- BR (R129): A relative branch to the bundle address plus sext(imm22) × 16. -/
  | br (o : Slot) (imm : BitVec 22)
  /-- BRR (R129): A branch to the address held in g[ga], with alignment and range checks. -/
  | brr (o : Slot) (ga : BitVec 5)
  /-- CALL (R129): Writes the return address to g15 and branches relative. -/
  | call (o : Slot) (imm : BitVec 22)
  /-- LOOP (R139): Pushes a hardware loop whose trip count is taken from g[ga]. -/
  | loop (o : Slot) (ga : BitVec 5) (blm1 : BitVec 6) (sm1 : BitVec 2) (rot : Bool)
  /-- LOOPI (R139): Pushes a hardware loop whose trip count is immediate. -/
  | loopi (o : Slot) (n : BitVec 13) (blm1 : BitVec 6) (sm1 : BitVec 2) (rot : Bool)
  /-- ISSUE (R144): Sends a matrix or transfer descriptor to its queue, increments its completion counter and stalls while there is no room. -/
  | issue (o : Slot) (cls : BitVec 2) (ctr : BitVec 2) (ga : BitVec 5) (e : Ecc)
  /-- WAIT (R146): Stalls until the selected completion counters are at or below N and, optionally, until device time reaches g[ga]. -/
  | wait (o : Slot) (mask : BitVec 4) (n : BitVec 4) (time : Bool) (ga : BitVec 5)
  /-- FENCE (R129): Stalls until earlier stores to spaces 0x01 to 0x03 are acknowledged and earlier CLW writes are accepted. -/
  | fence (o : Slot)
  /-- MFS (R123): Reads a special register into g[gd]. -/
  | mfs (o : Slot) (gd : BitVec 5) (sidx : BitVec 6)
  /-- MTS (R123): Writes g[ga] to a special register. -/
  | mts (o : Slot) (ga : BitVec 5) (sidx : BitVec 6)
  /-- CLR (R147): Reads a collar register, waiting for the collar's reply. -/
  | clr (o : Slot) (gd : BitVec 5) (idx : BitVec 10)
  /-- CLR_TIMEOUT (R147): A CLR unanswered after 4,096 cc ends with g[gd] := 0, COLLAR_TO set and SEQ_COLLAR_TO counted. -/
  | clrTimeout (c : CoreId)
  /-- CLW (R147): Posts a write to a collar register. -/
  | clw (o : Slot) (ga : BitVec 5) (idx : BitVec 10)
  /-- EVENT (R129): Posts a program event code into the sequencer's 8-entry buffer, stalling while it is full. -/
  | event (o : Slot) (code : BitVec 16)
  /-- HALT (R129): The sequencer enters HALTED after this bundle. -/
  | halt (o : Slot)
  /-- ADD (R130): gd := ga + gb. -/
  | add (o : Slot) (k : Fin 2) (gd ga gb : BitVec 5)
  /-- SUB (R130): gd := ga − gb. -/
  | sub (o : Slot) (k : Fin 2) (gd ga gb : BitVec 5)
  /-- AND (R130): Bitwise and of two registers. -/
  | and (o : Slot) (k : Fin 2) (gd ga gb : BitVec 5)
  /-- OR (R130): Bitwise or of two registers. -/
  | or (o : Slot) (k : Fin 2) (gd ga gb : BitVec 5)
  /-- XOR (R130): Bitwise exclusive or of two registers. -/
  | xor (o : Slot) (k : Fin 2) (gd ga gb : BitVec 5)
  /-- SHL (R130): Logical shift left by gb[5:0]. -/
  | shl (o : Slot) (k : Fin 2) (gd ga gb : BitVec 5)
  /-- SHR (R130): Logical shift right by gb[5:0]. -/
  | shr (o : Slot) (k : Fin 2) (gd ga gb : BitVec 5)
  /-- SHA (R130): Arithmetic shift right by gb[5:0]. -/
  | sha (o : Slot) (k : Fin 2) (gd ga gb : BitVec 5)
  /-- MUL (R130): Low 64 bits of ga × gb. -/
  | mul (o : Slot) (k : Fin 2) (gd ga gb : BitVec 5)
  /-- MIN (R130): Signed minimum of two registers. -/
  | smin (o : Slot) (k : Fin 2) (gd ga gb : BitVec 5)
  /-- MAX (R130): Signed maximum of two registers. -/
  | smax (o : Slot) (k : Fin 2) (gd ga gb : BitVec 5)
  /-- CMPLT (R130): pd := ga < gb, signed. -/
  | cmplt (o : Slot) (k : Fin 2) (pd : BitVec 3) (ga gb : BitVec 5)
  /-- CMPLTU (R130): pd := ga < gb, unsigned. -/
  | cmpltu (o : Slot) (k : Fin 2) (pd : BitVec 3) (ga gb : BitVec 5)
  /-- CMPEQ (R130): pd := ga = gb. -/
  | cmpeq (o : Slot) (k : Fin 2) (pd : BitVec 3) (ga gb : BitVec 5)
  /-- PLOG (R130): Predicate logic through a truth table. -/
  | plog (o : Slot) (k : Fin 2) (pd pa pb : BitVec 3) (tt : BitVec 4)
  /-- ADDI (R130): gd := ga + imm12. -/
  | addi (o : Slot) (k : Fin 2) (gd ga : BitVec 5) (imm : BitVec 12)
  /-- ANDI (R130): gd := ga and imm12. -/
  | andi (o : Slot) (k : Fin 2) (gd ga : BitVec 5) (imm : BitVec 12)
  /-- ORI (R130): gd := ga or imm12. -/
  | ori (o : Slot) (k : Fin 2) (gd ga : BitVec 5) (imm : BitVec 12)
  /-- XORI (R130): gd := ga xor imm12. -/
  | xori (o : Slot) (k : Fin 2) (gd ga : BitVec 5) (imm : BitVec 12)
  /-- SHLI (R130): Shift left by an immediate count. -/
  | shli (o : Slot) (k : Fin 2) (gd ga : BitVec 5) (imm : BitVec 12)
  /-- SHRI (R130): Logical shift right by an immediate count. -/
  | shri (o : Slot) (k : Fin 2) (gd ga : BitVec 5) (imm : BitVec 12)
  /-- SHAI (R130): Arithmetic shift right by an immediate count. -/
  | shai (o : Slot) (k : Fin 2) (gd ga : BitVec 5) (imm : BitVec 12)
  /-- CMPLTI (R130): pd := ga < imm12, signed. -/
  | cmplti (o : Slot) (k : Fin 2) (pd : BitVec 3) (ga : BitVec 5) (imm : BitVec 12)
  /-- CMPEQI (R130): pd := ga = imm12. -/
  | cmpeqi (o : Slot) (k : Fin 2) (pd : BitVec 3) (ga : BitVec 5) (imm : BitVec 12)
  /-- MOVI (R130): gd := sext(imm17). -/
  | movi (o : Slot) (k : Fin 2) (gd : BitVec 5) (imm : BitVec 17)
  /-- SHLOR (R130): gd := (gd << 16) or imm17[15:0]. -/
  | shlor (o : Slot) (k : Fin 2) (gd : BitVec 5) (imm : BitVec 17)
  /-- SETA (R131): Sets address a_n. -/
  | seta (o : Slot) (n : BitVec 3) (ga : BitVec 5) (imm : BitVec 12)
  /-- SETM (R131): Sets modifier m_n. -/
  | setm (o : Slot) (n : BitVec 3) (ga : BitVec 5) (imm : BitVec 12)
  /-- SETB (R131): Sets circular base_n. -/
  | setb (o : Slot) (n : BitVec 3) (ga : BitVec 5) (imm : BitVec 12)
  /-- SETL (R131): Sets circular length len_n; a length of 0 or above 2^20 is an AGU fault. -/
  | setl (o : Slot) (n : BitVec 3) (ga : BitVec 5) (imm : BitVec 12)
  /-- SETMD (R131): Sets generator mode to post-modify or circular. -/
  | setmd (o : Slot) (n : BitVec 3) (ga : BitVec 5) (imm : BitVec 12)
  /-- GETA (R131): Copies a_n into a g register. -/
  | geta (o : Slot) (n : BitVec 3) (gd : BitVec 5) (imm : BitVec 12)
  /-- LDB (R133): Loads 1 byte, zero-extended. -/
  | ldb (o : Slot) (r : BitVec 6) (n : BitVec 3) (am : BitVec 2) (off : BitVec 11) (e : Ecc)
  /-- LDH (R133): Loads 2 bytes, zero-extended. -/
  | ldh (o : Slot) (r : BitVec 6) (n : BitVec 3) (am : BitVec 2) (off : BitVec 11) (e : Ecc)
  /-- LDW (R133): Loads 4 bytes, zero-extended. -/
  | ldw (o : Slot) (r : BitVec 6) (n : BitVec 3) (am : BitVec 2) (off : BitVec 11) (e : Ecc)
  /-- LDD (R133): Loads 8 bytes. -/
  | ldd (o : Slot) (r : BitVec 6) (n : BitVec 3) (am : BitVec 2) (off : BitVec 11) (e : Ecc)
  /-- STB (R133): Stores 1 byte. -/
  | stb (o : Slot) (r : BitVec 6) (n : BitVec 3) (am : BitVec 2) (off : BitVec 11)
  /-- STH (R133): Stores 2 bytes. -/
  | sth (o : Slot) (r : BitVec 6) (n : BitVec 3) (am : BitVec 2) (off : BitVec 11)
  /-- STW (R133): Stores 4 bytes. -/
  | stw (o : Slot) (r : BitVec 6) (n : BitVec 3) (am : BitVec 2) (off : BitVec 11)
  /-- STD (R133): Stores 8 bytes. -/
  | std (o : Slot) (r : BitVec 6) (n : BitVec 3) (am : BitVec 2) (off : BitVec 11)
  /-- LDV (R133): Loads each active lane of a v register. -/
  | ldv (o : Slot) (r : BitVec 6) (n : BitVec 3) (am : BitVec 2) (off : BitVec 11) (e : Ecc)
  /-- STV (R133): Stores each active lane of a v register. -/
  | stv (o : Slot) (r : BitVec 6) (n : BitVec 3) (am : BitVec 2) (off : BitVec 11)
  /-- LDVB (R133): Loads one 32-bit word into every active lane. -/
  | ldvb (o : Slot) (r : BitVec 6) (n : BitVec 3) (am : BitVec 2) (off : BitVec 11) (e : Ecc)
  /-- VPUSH (R336): Places a vector as four beats in a collar outbound FIFO, stalling until four places are free. -/
  | vpush (o : Slot) (r : BitVec 6) (stream : Bool)
  /-- VPULL (R336): Takes four beats from a collar inbound FIFO into v, stalling until four are present. -/
  | vpull (o : Slot) (r : BitVec 6) (stream : Bool)
  /-- RLB_MISS_FILL (R196): A remote-line-buffer miss completes when its line arrives, possibly marked poisoned. -/
  | rlbMissFill (c : CoreId) (data : List Byte) (poisoned : Bool)
  /-- FADD_S (R116): binary32 addition, rounded once. -/
  | faddS (o : Slot) (vd va vb : BitVec 6) (mod : BitVec 4)
  /-- FSUB_S (R116): binary32 subtraction. -/
  | fsubS (o : Slot) (vd va vb : BitVec 6) (mod : BitVec 4)
  /-- FMUL_S (R116): binary32 multiplication. -/
  | fmulS (o : Slot) (vd va vb : BitVec 6) (mod : BitVec 4)
  /-- FMA_S (R116): binary32 fused multiply-add. -/
  | fmaS (o : Slot) (vd va vb : BitVec 6) (mod : BitVec 4)
  /-- FMIN_S (R160): binary32 minimumNumber. -/
  | fminS (o : Slot) (vd va vb : BitVec 6) (mod : BitVec 4)
  /-- FMAX_S (R160): binary32 maximumNumber. -/
  | fmaxS (o : Slot) (vd va vb : BitVec 6) (mod : BitVec 4)
  /-- FDIV_S (R116): binary32 division. -/
  | fdivS (o : Slot) (vd va vb : BitVec 6) (mod : BitVec 4)
  /-- FSQRT_S (R116): binary32 square root. -/
  | fsqrtS (o : Slot) (vd va vb : BitVec 6) (mod : BitVec 4)
  /-- FADD_D (R116): binary64 addition. -/
  | faddD (o : Slot) (vd va vb : BitVec 6) (mod : BitVec 4)
  /-- FSUB_D (R116): binary64 subtraction. -/
  | fsubD (o : Slot) (vd va vb : BitVec 6) (mod : BitVec 4)
  /-- FMUL_D (R116): binary64 multiplication. -/
  | fmulD (o : Slot) (vd va vb : BitVec 6) (mod : BitVec 4)
  /-- FMA_D (R116): binary64 fused multiply-add. -/
  | fmaD (o : Slot) (vd va vb : BitVec 6) (mod : BitVec 4)
  /-- FDIV_D (R116): binary64 division. -/
  | fdivD (o : Slot) (vd va vb : BitVec 6) (mod : BitVec 4)
  /-- FSQRT_D (R116): binary64 square root. -/
  | fsqrtD (o : Slot) (vd va vb : BitVec 6) (mod : BitVec 4)
  /-- HADD_B (R116): BF16 addition. -/
  | haddB (o : Slot) (vd va vb : BitVec 6) (mod : BitVec 4)
  /-- HMUL_B (R116): BF16 multiplication. -/
  | hmulB (o : Slot) (vd va vb : BitVec 6) (mod : BitVec 4)
  /-- HFMA_B (R116): BF16 fused multiply-add. -/
  | hfmaB (o : Slot) (vd va vb : BitVec 6) (mod : BitVec 4)
  /-- HADD_H (R116): FP16 addition. -/
  | haddH (o : Slot) (vd va vb : BitVec 6) (mod : BitVec 4)
  /-- HMUL_H (R116): FP16 multiplication. -/
  | hmulH (o : Slot) (vd va vb : BitVec 6) (mod : BitVec 4)
  /-- HFMA_H (R116): FP16 fused multiply-add. -/
  | hfmaH (o : Slot) (vd va vb : BitVec 6) (mod : BitVec 4)
  /-- FCMPLT_S (R160): binary32 less-than compare into a lane mask. -/
  | fcmpltS (o : Slot) (vd va vb : BitVec 6) (mod : BitVec 4)
  /-- FCMPEQ_S (R160): binary32 equality compare into a lane mask. -/
  | fcmpeqS (o : Slot) (vd va vb : BitVec 6) (mod : BitVec 4)
  /-- FCMPLE_S (R160): binary32 less-or-equal compare into a lane mask. -/
  | fcmpleS (o : Slot) (vd va vb : BitVec 6) (mod : BitVec 4)
  /-- SEL (R137): Per-lane select between va and vb by the lanes of vd. -/
  | sel (o : Slot) (vd va vb : BitVec 6) (mod : BitVec 4)
  /-- IADD (R162): 32-bit wrapping integer addition. -/
  | iadd (o : Slot) (vd va vb : BitVec 6) (mod : BitVec 4)
  /-- ISUB (R162): 32-bit wrapping integer subtraction. -/
  | isub (o : Slot) (vd va vb : BitVec 6) (mod : BitVec 4)
  /-- VAND (R162): Bitwise and of lanes. -/
  | vand (o : Slot) (vd va vb : BitVec 6) (mod : BitVec 4)
  /-- VOR (R162): Bitwise or of lanes. -/
  | vor (o : Slot) (vd va vb : BitVec 6) (mod : BitVec 4)
  /-- VXOR (R162): Bitwise exclusive or of lanes. -/
  | vxor (o : Slot) (vd va vb : BitVec 6) (mod : BitVec 4)
  /-- CVT (R138): Converts elements between the formats that R105 lists. -/
  | cvt (o : Slot) (vd va vb : BitVec 6) (mod : BitVec 4)
  /-- MXQ (R168): Quantises 32 binary32 values into one MX block. -/
  | mxq (o : Slot) (vd va vb : BitVec 6) (mod : BitVec 4)
  /-- MXD (R168): Dequantises one MX block into 32 binary32 values. -/
  | mxd (o : Slot) (vd va vb : BitVec 6) (mod : BitVec 4)
  /-- NORM (R164): Normalisation step, SCALEB or MANT. -/
  | norm (o : Slot) (vd va vb : BitVec 6) (mod : BitVec 4)
  /-- GETEXP (R163): Extracts the unbiased exponent as an INT32. -/
  | getexp (o : Slot) (vd va vb : BitVec 6) (mod : BitVec 4)
  /-- RED (R166): Reduction in fixed tree order. -/
  | red (o : Slot) (vd va vb : BitVec 6) (mod : BitVec 4)
  /-- APX (R169): Approximates a transcendental function. -/
  | apx (o : Slot) (vd va vb : BitVec 6) (mod : BitVec 4)
  /-- RAND (R174): Writes one word of each element's draw to the lanes. -/
  | rand (o : Slot) (vd va vb : BitVec 6) (mod : BitVec 4)
  /-- SAMPLE (R177): Adds Gumbel noise from the draw to each logit. -/
  | sample (o : Slot) (vd va vb : BitVec 6) (mod : BitVec 4)
  /-- DROP (R178): Builds a drop-out mask against RNG_KEEP. -/
  | drop (o : Slot) (vd va vb : BitVec 6) (mod : BitVec 4)
  /-- BCAST (R162): Broadcasts one lane of va to every active lane. -/
  | bcast (o : Slot) (vd va vb : BitVec 6) (mod : BitVec 4)
  /-- PERM (R162): Permutes lanes by indices taken modulo L. -/
  | perm (o : Slot) (vd va vb : BitVec 6) (mod : BitVec 4)
  /-- REKEY (R176): RNG_FR_CTRL.REKEY draws a new hidden key for the free-running generator. -/
  | rekey (who : Party) (c : CoreId)
  /-- SEQ_START (R151): SEQ_CTRL.START runs the sequencer from SEQ_PC, or queues the start. -/
  | seqStart (who : Party) (c : CoreId)
  /-- SEQ_STOP (R152): SEQ_CTRL.STOP completes the bundle in issue, or abandons a stalled one, and enters STOPPING. -/
  | seqStop (who : Party) (c : CoreId)
  /-- STOPPING_END (R151): When register writes have drained, STOPPING ends in STOPPED, HALTED or FAULTED, and a queued START or SAVE runs. -/
  | stoppingEnd (c : CoreId)
  /-- STEP (R151): SEQ_CTRL.STEP issues one bundle and then stops. -/
  | step (who : Party) (c : CoreId) (e : Ecc)
  /-- SAVE (R156): SEQ_CTRL.SAVE requests a context save, refused with CTX_INVALID for a bad address. -/
  | save (who : Party) (c : CoreId)
  /-- CONTEXT_SAVE (R157): Once every counter is 0, the sequencer writes its context image. -/
  | contextSave (c : CoreId)
  /-- CONTEXT_SAVE_DONE (R156): The image write completes; the sequencer returns to its previous state and CTX_DONE is raised. -/
  | contextSaveDone (c : CoreId)
  /-- RESTORE (R156): SEQ_CTRL.RESTORE requests a context restore, refused in RUNNING or STOPPING or for a bad address. -/
  | restore (who : Party) (c : CoreId)
  /-- CONTEXT_RESTORE (R158): Once every counter is 0, the sequencer reads and checks the image and restores state or fails. -/
  | contextRestore (c : CoreId) (e : Ecc)
  /-- DESCRIPTOR_TAKE_UP (R60): A matrix unit takes up its next queued descriptor and checks it completely before reading operands. -/
  | descriptorTakeUp (c : CoreId) (u : Fin 3)
  /-- PASS_START (R64): An array pass starts once the previous pass's spacing allows, and streams its rows through the cells. -/
  | passStart (c : CoreId) (u : Fin 3) (p : PathErr) (e : Ecc)
  /-- GROUP_DRAIN (R66): A finished n tile's bank is converted and written out to C_OUT and the tap. -/
  | groupDrain (c : CoreId) (u : Fin 3) (p : PathErr) (e : Ecc)
  /-- GROUP_RETRY (R89): A poisoned group is run once again from C_IN or +0, or ends the descriptor POISONED. -/
  | groupRetry (c : CoreId) (u : Fin 3)
  /-- EPILOGUE_TAP_BEAT (R337): One output-row beat passes to the collar epilogue tap when it accepts it. -/
  | epilogueTapBeat (c : CoreId)
  /-- EPILOGUE_END_BEAT (R337): The end beat of a tap descriptor, carrying RESULT, passes to the collar. -/
  | epilogueEndBeat (c : CoreId)
  /-- DESCRIPTOR_COMPLETE (R81): A matrix descriptor completes; its status record is written and copied into the LAST registers, and the sequencer is signalled. -/
  | descriptorComplete (c : CoreId) (u : Fin 3)
  /-- ZERO (R193): SPAD_CTRL.ZERO starts writing zero with valid ECC to every scratchpad word. -/
  | zero (who : Party) (c : CoreId)
  /-- ZEROING_END (R193): Zeroing completes, ZERO_DONE is raised, and waiting accesses proceed in arrival order. -/
  | zeroingEnd (c : CoreId)
  /-- RLB_FLUSH (R199): SPAD_CTRL.RLB_FLUSH writes back every dirty line and keeps the lines valid. -/
  | rlbFlush (who : Party) (c : CoreId)
  /-- RLB_INVAL (R199): SPAD_CTRL.RLB_INVAL writes back every dirty line and invalidates the buffer. -/
  | rlbInval (who : Party) (c : CoreId)
  /-- RLB_DONE (R199): A flush or invalidation of the remote-line buffer completes. -/
  | rlbDone (c : CoreId)
  /-- RETAIN (R194): A write of SPAD_PWR.RETAIN requests retention entry (1) or wake (0). -/
  | retain (who : Party) (c : CoreId) (on : Bool)
  /-- RETENTION_ENTRY (R194): After 64 idle cc the scratchpad writes back the buffer, suspends the scrubber and lowers its supply. -/
  | retentionEntry (c : CoreId)
  /-- SPAD_WAKE_DONE (R195): The scratchpad wake completes and READY returns. -/
  | spadWakeDone (c : CoreId)
  /-- SCRUB_READ (R192): Every 1,024 cc the scrubber reads one line, correcting or poisoning it. -/
  | scrubRead (c : CoreId) (line : Fin 16384) (e : Ecc)
  /-- TRANSFER_START (R200): A queued transfer starts in queue order, after earlier transfers if ORDER = 1. -/
  | transferStart (c : CoreId) (e : Ecc)
  /-- TRANSFER_COMPLETE (R210): When every selected part has succeeded or failed, the status record is written and the counter decremented. -/
  | transferComplete (c : CoreId) (id : Nat)
  /-- NI_TIMEOUT_EXPIRY (R259): A packet or request unanswered within NI_TIMEOUT fails its part with NET_LINK_TIMEOUT. -/
  | niTimeoutExpiry (c : CoreId) (tag : BitVec 12)
  /-- FLIT_RECEIVE (R226): A flit arrives on a link, its CRC is checked, and the router forwards, ejects or discards it. -/
  | flitReceive (n : Node) (port : Fin 4) (f : Flit) (crcOk : Bool)
  /-- IDLE_FLIT (R272): A router sends an idle flit on each up link at least every 256 cc. -/
  | idleFlit (c : CoreId)
  /-- LINK_SILENCE (R272): A link that delivers nothing for 4 µs is declared down and an ACCUSE report is sent. -/
  | linkSilence (n : Node) (port : Fin 4)
  /-- RAISE (R227): RTR_LINK_CTRL.RAISE starts sending idle flits on a down link. -/
  | raise (who : Party) (c : CoreId) (ports : BitVec 4)
  /-- LINK_UP (R227): After 64 consecutive good flits the link end comes up. -/
  | linkUp (n : Node) (port : Fin 4)
  /-- RAISE_TIMEOUT (R227): An end not up within 4 µs leaves the link down and raises LINK_DOWN again. -/
  | raiseTimeout (n : Node) (port : Fin 4)
  /-- TAP_LINK_RAISE (R226): A tap raises its end of a wrap link when the other end starts sending idle flits. -/
  | tapLinkRaise (e : Fin 4) (row : Fin 128) (port : Fin 4)
  /-- WRITE_PACKET (R229): A WRITE packet is ejected at its destination interface, partition-checked, written and acknowledged. -/
  | writePacket (c : CoreId) (hdr : BitVec 168) (data : List Byte)
  /-- READ_PACKET (R229): A READ packet is answered by one RDATA or by an error ACK. -/
  | readPacket (c : CoreId) (hdr : BitVec 168) (e : Ecc)
  /-- ACK_PACKET (R229): An ACK reaches the requesting interface and completes or fails a transfer packet. -/
  | ackPacket (c : CoreId) (hdr : BitVec 168)
  /-- RDATA (R229): Read data reaches the requesting interface and is written to the destination. -/
  | rdata (c : CoreId) (hdr : BitVec 168) (data : List Byte)
  /-- ARM (R247): RTR_EPOCH.ARM sets the SPARE bank ARMED and the other DRAINING, or is refused. -/
  | arm (who : Party) (n : Station)
  /-- RTR_RETIRE (R247): RTR_EPOCH.RETIRE makes the DRAINING bank SPARE, or is refused while OLD_HELD is nonzero. -/
  | rtrRetire (who : Party) (n : Station)
  /-- FLIP (R247): NI_EPOCH.FLIP arms a flip at NI_FLIP_TIME and clears the new bit's counters. -/
  | flip (who : Party) (n : Station)
  /-- EPOCH_FLIP (R247): At the first frame boundary at or after NI_FLIP_TIME, the interface stamps and uses the new bank. -/
  | epochFlip (n : Station)
  /-- NI_RETIRE (R250): NI_EPOCH.RETIRE retires the old bank and, with HOLD, resends unanswered packets and clears HOLD. -/
  | niRetire (who : Party) (n : Station)
  /-- DRAIN_SAMPLE (R270): AGT_DRAIN_CTRL.SAMPLE starts summing the die's inj and rem counters. -/
  | drainSample (who : Party) (die : Fin 28) (bit : Bool)
  /-- DRAIN_SAMPLE_DONE (R270): A drain sample completes within 20 µs and updates AGT_DRAIN_INJ and AGT_DRAIN_REM. -/
  | drainSampleDone (die : Fin 28)
  /-- AGT_BCAST_DATA (R270): Writes a word at the set offset in the page of every live core of the die. -/
  | agtBcastData (who : Party) (die : Fin 28) (v : Word)
  /-- RDS (R257): The directory handles read shared. -/
  | rds (q : PReq) (e : LineEcc)
  /-- RDO (R257): The directory handles read with ownership. -/
  | rdo (q : PReq) (e : LineEcc)
  /-- UPG (R257): The directory upgrades S to M. -/
  | upg (q : PReq) (e : LineEcc)
  /-- WB (R257): The directory takes a write-back of an M line. -/
  | wb (q : PReq) (data : List Byte) (poisoned : Bool)
  /-- RD (R257): An uncached 64 B read for a transfer part, at a directory or a fabric-RAM port. -/
  | rd (q : PReq) (e : LineEcc)
  /-- WR (R257): An uncached write under byte enables, at a directory or a fabric-RAM port. -/
  | wr (q : PReq) (be : Dword) (data : List Byte) (e : LineEcc)
  /-- CRD (R255): A control read of 4 or 8 B reaches its unit. -/
  | crd (q : PReq)
  /-- CWR (R255): A control write of 4 or 8 B reaches its unit. -/
  | cwr (q : PReq) (data : Dword)
  /-- PLANE_CMD (R255): A command delivery from a Ublexia engine reaches a network interface. -/
  | planeCmd (q : PReq) (data : List Byte)
  /-- CFG (R255): A configuration frame reaches a halyard or a memory-network agent for its collars. -/
  | cfg (e : Fin 4) (die : Fin 28) (region : BitVec 24) (frame : Nat) (words : List Word)
  /-- SNP_INV (R258): A line buffer invalidates a line, writing it back if M. -/
  | snpInv (c : CoreId) (line : Nat)
  /-- SNP_DOWN (R258): A line buffer downgrades M to S, writing the line back. -/
  | snpDown (c : CoreId) (line : Nat)
  /-- PLANE_ACK (R255): A completer's acknowledgement reaches the requester. -/
  | planeAck (to_ : Requester) (tag : BitVec 12) (status : BitVec 16)
  /-- CDATA (R255): Control read data reaches the requester. -/
  | cdata (c : CoreId) (tag : BitVec 12) (data : Dword)
  /-- SNP_RSP (R257): A snoop response reaches the directory. -/
  | snpRsp (c : CoreId) (line : Nat) (data : Option (List Byte)) (poisoned : Bool)
  /-- UNBLOCK (R257): A line buffer's data receipt lets the directory end the transaction. -/
  | unblock (c : CoreId) (line : Nat)
  /-- DATA_HDR (R255): The directory's data header reaches the requester, and line data follows. -/
  | dataHdr (to_ : Requester) (tag : BitVec 12) (status : BitVec 16) (data : List Byte)
  /-- FAULT_REPORT_ARRIVAL (R274): A fault report arriving at the health controller is stamped and queued, or dropped if the queue is full. -/
  | faultReportArrival (die : Fin 24) (w : Dword)
  /-- SELF (R275): A SELF report is folded into the suspect table and declares the suspect FAILED. -/
  | reportSelf (die : Fin 24) (unc : Bool)
  /-- ACCUSE (R275): An ACCUSE report is folded as an accusation from its port. -/
  | reportAccuse (die : Fin 24) (unc : Bool)
  /-- LINK (R275): A LINK report is folded as an accusation of the far end. -/
  | reportLink (die : Fin 24) (unc : Bool)
  /-- SUSPECT_WINDOW_EXPIRY (R275): An OPEN entry with no report for WINDOW cc becomes CLOSED. -/
  | suspectWindowExpiry (die : Fin 24) (entry : Fin 16)
  /-- STORM_WINDOW_END (R278): At each 1 µs window end, STORM ends after 10 consecutive quiet windows. -/
  | stormWindowEnd (die : Fin 24)
  /-- HC_RELEASE (R301): Makes FAILED or CLOSED suspect entries FREE. -/
  | hcRelease (who : Party) (die : Fin 24) (mask : Word)
  /-- REEF (R281): Firmware remaps a FAILED core to a spare through detect, quiesce, spare boot, refill, route swap, restart and replay. -/
  | reef (c : CoreId) (ok64 ok65 routerWorks : Bool)
  /-- BACKGROUND_SELF_TEST (R286): Firmware self-tests a reefed core and marks it REPATRIABLE if it passes. -/
  | backgroundSelfTest (c : CoreId) (pass : Bool)
  /-- CHECKPOINT_RUN (R290): Firmware folds committed journal entries into the older base-image slot and moves JLIMIT. -/
  | checkpointRun (t : BitVec 8)
  /-- RECORDER_EPOCH_END (R294): At each recorder epoch boundary an EPOCH record is written. -/
  | recorderEpochEnd (t : BitVec 8)
  /-- REG_RVALID (R338): A collar's register read data reaches the core, or is discarded after a timeout. -/
  | regRvalid (c : CoreId) (v : Word)
  /-- COL_RDATA_READ (R342): A read of COL_RDATA performs a register-port read at COL_RIDX. -/
  | colRdataRead (who : Party) (c : CoreId)
  /-- COL_RDATA_WRITE (R342): A write of COL_RDATA performs a register-port write. -/
  | colRdataWrite (who : Party) (c : CoreId) (v : Word)
  /-- COL_RDATA_TIMEOUT (R342): A COL_RDATA read unanswered after 4,096 fc returns 0. -/
  | colRdataTimeout (c : CoreId)
  /-- SYNC (R354): A SYNC word opens a stream, whose header words are then checked. -/
  | streamSync (p : Pusher) (hdr len svn : Word)
  /-- STREAM_NOP (R354): A stream NOP command does nothing. -/
  | streamNop (p : Pusher) (arg : BitVec 24)
  /-- DECL (R354): Adds a region to the declared set. -/
  | decl (p : Pusher) (arg : BitVec 24)
  /-- DECLR (R354): Adds a rectangle of collars to the declared set. -/
  | declr (p : Pusher) (arg : BitVec 24) (rect : Word)
  /-- SET (R359): Makes one region the current set; in a privileged stream it also declares the region. -/
  | streamSet (p : Pusher) (arg : BitVec 24)
  /-- SETR (R354): Makes a rectangle of collars the current set. -/
  | setr (p : Pusher) (arg : BitVec 24) (rect : Word)
  /-- STREAM_ADD (R354): Adds a region to the current set. -/
  | streamAdd (p : Pusher) (arg : BitVec 24)
  /-- ADDR (R354): Adds a rectangle of collars to the current set. -/
  | addr (p : Pusher) (arg : BitVec 24) (rect : Word)
  /-- WRITE (R354): Writes a frame into every region of the current set. -/
  | streamWrite (p : Pusher) (arg : BitVec 24) (frame : List Word)
  /-- REPEAT (R354): Writes the last frame at the following indices. -/
  | streamRepeat (p : Pusher) (arg : BitVec 24)
  /-- CRC (R361): The CRC value word is checked; a mismatch rejects the stream. -/
  | streamCrc (p : Pusher) (arg : BitVec 24) (value : Word)
  /-- SIG (R360): The signature block is taken and handed to the security block for verification. -/
  | streamSig (p : Pusher) (arg : BitVec 24) (block : List Word)
  /-- SIGNATURE_VERIFIED (R361): Signature verification completes; a failure or an SVN below the fuse count rejects the stream. -/
  | signatureVerified (p : Pusher)
  /-- START (R354): Ends the stream, applies the foreign rule, and marks the boot step. -/
  | streamStart (p : Pusher) (arg : BitVec 24)
  /-- REGION_CLEAR_DONE (R358): A declared region's configuration memory clear completes and its waiting frames flow. -/
  | regionClearDone (region : BitVec 24)
  /-- STREAM_IDLE_TIMEOUT (R357): A stream with no word for HAL_IDLE ms is truncated with CFG_TRUNCATED. -/
  | streamIdleTimeout (p : Pusher)
  /-- RELEASE_STAGE_1 (R366): Once all checks pass and all frames are acknowledged, the region's outputs leave park values and it becomes RELEASING. -/
  | releaseStage1 (p : Pusher)
  /-- RELEASE_STAGE_2 (R366): At T + 128 ns, write enables, plane requests and MAC transmit streams are enabled. -/
  | releaseStage2 (region : BitVec 24)
  /-- RELEASE_STAGE_3 (R366): At T + 256 ns the set-reset is released through the synchronisers and the region becomes RUNNING. -/
  | releaseStage3 (region : BitVec 24)
  /-- CFG_DONE_RISE (R364): CFG_DONE rises 64 ns after stage 3 of the full configuration. -/
  | cfgDoneRise
  /-- MC_START (R364): The management controllers start within 1 ms of the FIRMWARE stream passing. -/
  | mcStart
  /-- SERIAL_WRITE (R350): Serial command 0xC5 carries stream bytes. -/
  | serialWrite (bytes : List Byte)
  /-- SERIAL_STATUS (R350): Serial command 0xC6 drives HAL_STATUS on CFG_D[3:0]. -/
  | serialStatus
  /-- CLOG_POP (R372): HAL_CLOG_POP removes the oldest clamp-log entry. -/
  | clogPop (who : Party) (e : Fin 4)
  /-- SHR_CLEAR (R367): SHR_CTRL.CLEAR takes a RUNNING or FAILED region to EMPTY. -/
  | shrClear (who : Party) (region : BitVec 24)
  /-- CONFIG_FRAME_CHECK (R370): The frame checker reads a configuration frame, corrects single-bit errors and fails regions on double-bit errors. -/
  | configFrameCheck (region : BitVec 24) (frame : Nat) (e : LineEcc)
  /-- LPD_WIN_WRITE (R379): A write of a tenant window register is applied or ignored under the window rules. -/
  | lpdWinWrite (who : Party) (e : Fin 4) (t : Fin 64) (hi : Bool) (v : Word)
  /-- REFRESH (R388): A per-bank refresh falls due, and is issued, postponed or forced. -/
  | refresh (ch : Chan) (bank : Fin 32) (urgent : Bool)
  /-- TEMPERATURE_POLL (R388): Every 16 ms the device temperature is polled, and HOT is set or cleared. -/
  | temperaturePoll (ch : Chan) (hot : Bool)
  /-- NEIGHBOUR_REFRESH (R389): A neighbour-queue entry is served by refreshing rows r ± 1 and r ± 2. -/
  | neighbourRefresh (ch : Chan) (bank : Fin 32)
  /-- SELF_REFRESH_ENTRY (R390): After LPD_SR_IDLE µs with empty queues, the channel enters self-refresh. -/
  | selfRefreshEntry (ch : Chan)
  /-- SELF_REFRESH_EXIT (R390): A request arriving in self-refresh makes the channel exit within 1.5 µs. -/
  | selfRefreshExit (ch : Chan)
  /-- RECENTRE (R394): Every 250 ms firmware re-centres the read and write delays of an ACTIVE channel. -/
  | recentre (ch : Chan) (dly : List (BitVec 6 × BitVec 6))
  /-- LPDDR_SCRUB (R395): The scrubber reads a line, correcting it or rewriting it as poisoned. -/
  | lpddrScrub (ch : Chan) (co : Nat) (e : LineEcc)
  /-- TRAINING_RUN (R392): LPD_TR_CTRL.RUN sends pattern bursts and compares them per pin. -/
  | trainingRun (who : Party) (ch : Chan)
  /-- TRAINING_STOP (R392): LPD_TR_CTRL.STOP ends a run after the burst in progress. -/
  | trainingStop (who : Party) (ch : Chan)
  /-- FILL (R392): LPD_TR_CTRL.FILL writes pattern lines with valid check bytes. -/
  | fill (who : Party) (ch : Chan)
  /-- TR_DONE (R392): A RUN or FILL completes and TR_DONE is raised. -/
  | trDone (ch : Chan) (errs : List (Nat × BitVec 16 × BitVec 16))
  /-- BEGIN (R393): LPD_CTRL.BEGIN resets and initialises the devices and enters TRAINING. -/
  | lpdBegin (who : Party) (ch : Chan)
  /-- LPD_GO (R393): LPD_CTRL.GO takes a trained channel to ACTIVE. -/
  | lpdGo (who : Party) (ch : Chan) (fullRate : Bool)
  /-- OFFLINE (R393): LPD_CTRL.OFFLINE takes a channel OFFLINE and raises TRAIN_FAIL. -/
  | lpdOffline (who : Party) (ch : Chan)
  /-- LANE_CLAIM (R401): Setting LQ_CFG.RAW claims a lane for an edge region, or releasing it retrains the lane. -/
  | laneClaim (who : Party) (l : LaneId) (raw : Bool) (region : BitVec 4)
  /-- LANE_POWER_REQUEST (R408): A write of LQ_CFG.PWR requests a lane power state. -/
  | lanePowerRequest (who : Party) (l : LaneId) (pwr : BitVec 2)
  /-- LANE_POWER_DONE (R408): A lane reaches a power state, raises PWR_DONE and starts the last requested transition. -/
  | lanePowerDone (l : LaneId)
  /-- INJECT_ONE (R403): LQ_INJECT.ONE inverts one transmitted bit. -/
  | injectOne (who : Party) (l : LaneId)
  /-- PRBS_RELOCK (R403): After 64 mismatches within 1,024 bits the checker relocks and raises PRBS_ERR. -/
  | prbsRelock (l : LaneId)
  /-- SCAN_START (R404): LQ_SCAN_CTRL.START begins an eye scan. -/
  | scanStart (who : Party) (l : LaneId)
  /-- SCAN_STOP (R404): LQ_SCAN_CTRL.STOP ends a scan, keeping the partial count. -/
  | scanStop (who : Party) (l : LaneId) (count : Word)
  /-- SCAN_DONE (R404): An eye scan completes, SCAN_BUSY clears and SCAN_DONE is raised. -/
  | scanDone (l : LaneId) (count : Word)
  /-- LQ_SLIP (R406): A write of LQ_SLIP requests one bit-slip. -/
  | lqSlip (who : Party) (l : LaneId)
  /-- RX_SLIP (R406): An RX_SLIP pulse from the region requests one bit-slip. -/
  | rxSlip (l : LaneId)
  /-- BIT_SLIP (R406): A requested slip takes effect in the fourth parallel-clock cycle. -/
  | bitSlip (l : LaneId)
  /-- LOCK_LOST (R406): A lane loses clock-recovery lock; relock resets the slip position. -/
  | lockLost (l : LaneId)
  /-- MODE_CHANGE (R409): A write of ETH_CFG.MODE takes the port's sub-ports down, aborts frames and retrains lanes. -/
  | modeChange (who : Party) (p : PortId) (mode : BitVec 3)
  /-- ETH_LINK_UP (R409): A sub-port link comes up. -/
  | ethLinkUp (p : PortId) (sub : Fin 4) (mgmt : Bool)
  /-- ETH_LINK_DOWN (R409): A sub-port link goes down. -/
  | ethLinkDown (p : PortId) (sub : Fin 4) (mgmt : Bool)
  /-- FRAME_RECEIVE (R411): A received Ethernet frame is stamped, length- and FCS-checked, then passes MACsec and the stream filters. -/
  | frameReceive (p : PortId) (sub : Fin 4) (f : RxFrame) (fcsOk : Bool) (fec : LineEcc)
  /-- METER_CREDIT (R418): At each multiple of 1,024 ns the meter buckets are credited. -/
  | meterCredit (p : PortId)
  /-- RECOVERY_RESET (R419): A recovery function that passes no frame for RESET µs resets its history. -/
  | recoveryReset (p : PortId) (r : Fin 64)
  /-- FRAME_TRANSMIT (R414): A frame or fragment begins transmission when its gate is open and it can end by the close. -/
  | frameTransmit (p : PortId) (sub : Fin 4)
  /-- TSN_SWAP (R416): TSN_SWAP requests a gate-list change at the next change time. -/
  | tsnSwap (who : Party) (p : PortId)
  /-- GATE_LIST_CHANGE (R416): At Tc the new gate list starts its first cycle and SWAPPED is raised. -/
  | gateListChange (p : PortId)
  /-- TIME_LOCK (R422): Device time locks to its source, stepping once at the first lock if the offset exceeds 1 µs. -/
  | timeLock (offset : Int)
  /-- HOLDOVER_ENTRY (R423): Loss of the time source enters HOLDOVER at the last frequency. -/
  | holdoverEntry
  /-- TIME_FAULT (R422): An offset above 100 µs for 10 s sets TIME_STAT.FAULT. -/
  | timeFault
  /-- PPS_IN_EDGE (R424): A PPS_IN rising edge marks the start of the second in TIME_TOD_SEC. -/
  | ppsInEdge
  /-- PPS_OUT_RISE (R424): PPS_OUT rises when device time mod 10^9 = 0. -/
  | ppsOutRise
  /-- HELLO (R435): A HELLO negotiates a version and opens a new session, answered by HELLO_REPLY. -/
  | hello (f : UFrame)
  /-- CMD (R438): A CMD frame is judged by the home engine and, if accepted, recorded and its commands queued. -/
  | cmd (f : UFrame)
  /-- UBX_ACK (R438): An ACK frame applies its ACK field to the device's unacknowledged frames. -/
  | ubxAck (f : UFrame)
  /-- ACK_DELAY_EXPIRY (R441): An accepted frame unacknowledged after ACK_DELAY µs is acknowledged by an ACK frame. -/
  | ackDelayExpiry (t : BitVec 8)
  /-- RETRANSMIT_TIMEOUT (R443): After RTO every unacknowledged REPLY and EVENT is resent, up to RETRIES, after which the session is LOST. -/
  | retransmitTimeout (t : BitVec 8)
  /-- COMMAND_COMPLETE (R447): A command completes, and its reply record is packed into a REPLY frame. -/
  | commandComplete (t : BitVec 8)
  /-- UBX_NOP (R448): The NOP command does nothing. -/
  | ubxNop (t : BitVec 8)
  /-- CLOSE (R448): Ends the session once earlier replies and events are acknowledged. -/
  | close (t : BitVec 8)
  /-- DELIVER (R449): Writes data into the scratchpads of a rectangle, with the first line written last. -/
  | deliver (t : BitVec 8)
  /-- WRITE_MEM (R448): Writes data to a data-space address. -/
  | writeMem (t : BitVec 8)
  /-- READ_MEM (R448): Reads bytes from a data-space address. -/
  | readMem (t : BitVec 8)
  /-- CTRL_WRITE (R448): Writes a register of the pages of a rectangle of logical cores. -/
  | ctrlWrite (t : BitVec 8)
  /-- CTRL_READ (R448): Reads a register of one logical core. -/
  | ctrlRead (t : BitVec 8)
  /-- LOAD_REGION (R450): Firmware checks and pushes a weave stream from the tenant's window to the halyard. -/
  | loadRegion (t : BitVec 8)
  /-- CLEAR_REGION (R448): Firmware clears a collar or edge region of the tenant. -/
  | clearRegion (t : BitVec 8)
  /-- RESERVE (R243): Firmware checks a slot reservation and brings it into use by an epoch swap. -/
  | reserve (t : BitVec 8)
  /-- UNRESERVE (R243): Removes every path of a stream by an epoch swap. -/
  | unreserve (t : BitVec 8)
  /-- FILTER (R448): Installs a stream filter and meter within the tenant's allotment. -/
  | filter (t : BitVec 8)
  /-- REPLAY_DECLARE (R448): Declares the journal and replay block of the replay domain. -/
  | replayDeclare (t : BitVec 8)
  /-- CHECKPOINT (R290): Requests a checkpoint and replies with S_c on completion. -/
  | checkpoint (t : BitVec 8)
  /-- REPATRIATE (R286): Returns a REPATRIABLE position to its original core. -/
  | repatriate (t : BitVec 8)
  /-- RECORD_READ (R448): Returns whole recorder records from FROM_SEQ. -/
  | recordRead (t : BitVec 8)
  /-- IMAGE_READ (R448): Returns bytes of a base-image slot. -/
  | imageRead (t : BitVec 8)
  /-- SEED (R448): Draws a seed from the security bit generator and records it in a SEED record. -/
  | seedDraw (t : BitVec 8)
  /-- ATTEST (R471): Returns a signed attestation report and the certificates. -/
  | attest (t : BitVec 8)
  /-- TENANT_CREATE (R459): Checks and builds a tenant, installing its filters last. -/
  | tenantCreate (r : TenantRec)
  /-- TENANT_DESTROY (R460): Removes a tenant's filters, stops its cores and clears all its resources. -/
  | tenantDestroy (t : BitVec 8)
  /-- TENANT_STATUS (R459): Returns a tenant's record and session state. -/
  | tenantStatus (t : BitVec 8)
  /-- EMIT_GO (R452): A write of EMIT_GO sends the channel's pairs, minus repeats, as a TOKENS record and frame. -/
  | emitGo (who : Party) (e : Fin 4) (t : Fin 64) (ch : Fin 4) (count : BitVec 5)
  /-- GO_FORWARD (R451): A GO from an emit page on another die reaches the home engine. -/
  | goForward (t : Fin 64)
  /-- EVENT_CODE_TAKE (R456): The engine takes a program event code from a sequencer buffer while its queue has room. -/
  | eventCodeTake (c : CoreId)
  /-- EVENT_FRAME_BUILD (R456): An EVENT frame is built when a record has waited ACK_DELAY µs. -/
  | eventFrameBuild (t : BitVec 8)
  /-- COMMIT_FW (R470): Starts blowing FIRMWARE anti-rollback fuse pairs up to the loaded SVN. -/
  | commitFw (who : Party)
  /-- COMMIT_STATIC (R470): Starts blowing STATIC anti-rollback fuse pairs. -/
  | commitStatic (who : Party)
  /-- COMMIT_SHELL (R470): Starts blowing SHELL anti-rollback fuse pairs. -/
  | commitShell (who : Party)
  /-- COMMIT_DONE (R470): A commit reaches its target count and COMMIT_DONE is raised. -/
  | commitDone
  /-- REVOKE_A (R469): Revokes image key A, unless the firmware was verified under key A. -/
  | revokeA (who : Party)
  /-- REVOKE_B (R469): Revokes image key B, unless the firmware was verified under key B. -/
  | revokeB (who : Party)
  /-- OWNER_FUSE (R469): Fuses the owner key once from SEC_OWNER. -/
  | ownerFuse (who : Party)
  /-- IMPORT (R475): Starts unwrapping an imported key into a slot AN. -/
  | importKey (who : Party)
  /-- IMPORT_DONE (R476): An import completes, loading the AN or failing with its code. -/
  | importDone
  /-- ERASE (R477): Zeroes every AN of the selected key slot. -/
  | erase (who : Party)
  /-- RETEST (R480): Runs the entropy start-up tests again. -/
  | retest (who : Party)
  /-- ENTROPY_READY (R478): After 1,024 start-up samples pass both tests, the bit generator becomes READY. -/
  | entropyReady (pass : Bool)
  /-- RESEED (R478): Every 1 ms or 65,536 requests the generator reseeds with 384 bits. -/
  | reseed (healthy : Bool)
  /-- TAP_RESET (R531): The TAPs reset when PWR_OK rises or after five TCK cycles with TMS at 1. -/
  | tapReset
  /-- EXTEST (R532): EXTEST, CLAMP or HIGHZ makes the boundary register drive the covered pins and blocks board streams. -/
  | extest (mode : Fin 4)
  /-- COLLAR_OUTBOUND_BEAT (R336): At the collar clock edge ending an fc in which OBn_VALID and OBn_READY were both 1, one outbound beat passes from the core's FIFO to the collar. -/
  | collarOutboundBeat (c : CoreId) (stream : Bool)
  /-- COLLAR_INBOUND_BEAT (R336): A beat that the collar presents with IBn_VALID is taken into the core's inbound FIFO when a place is free. -/
  | collarInboundBeat (c : CoreId) (stream : Bool) (beat : BitVec 256)
  /-- FABRIC_CLOCK_EDGE (R316): A rising edge of a user clock (collar clock, global net, lane or MAC clock) loads enabled flip-flops and clocks the fabric-RAM user ports and raw-lane ports of its domain. -/
  | fabricClockEdge (clk : FabClk) (ins : List FabIn) (rx : List (BitVec 2)) (rams : List RamOp) (outs : List FabOut)
  /-- CLOCK_RECOVERY_LOCK (R406): A lane's clock recovery locks (RX_LOCK rises), resetting the slip position to 0 and making RX_DATA meaningful. -/
  | clockRecoveryLock (l : LaneId)
  /-- PRBS_CHECKER_LOCK (R403): A lane's pattern checker locks on its own to the received pattern and starts counting compared bits and mismatches. -/
  | prbsCheckerLock (l : LaneId) (bits : Dword) (errs : Word)
  /-- VERIFICATION_END (R420): The frame-preemption verify procedure on a port completes, setting PREEMPT_ACTIVE, or fails and raises PREEMPT_FAIL. -/
  | verificationEnd (p : PortId) (ok : Bool)
  /-- ISLAND_MONITOR_TRIP (R273): An island's clock or supply monitor trips and sends a SELF report to the die's health controller. -/
  | islandMonitorTrip (c : CoreId) (x : IslandErr)
deriving DecidableEq, Repr

end Sys2Proof
end

