-- ==== Sys2Proof/Config.lean ====
section
/-! DEFINITION. What a part or an implementation fixes, and the free values: constants without a body, so that nothing
can be proved of their values. -/
namespace Sys2Proof

/-- The free values: the n-th value the module draws where the spec states none (assumption 1). -/
opaque Config.free : Nat → Nat

/-- Whether the part is LZ49K-1536-CP (else LZ49K-0768-CP), 00 R1. -/
opaque Config.large : Bool

/-- The fused or derived registers: ARR_FUSE, SEC_SERIAL, SEC_KA_PUB, SEC_ID_PUB, ETH latencies, by register key
(02 R94, 13 R427, 15 R482). -/
opaque Config.fused : Nat → Word

/-- APX's value at an operand of function vb where the spec states a bound and no value: a fixed function of the operand
bits (05 R169, R170; assumption 6). -/
opaque Config.apx : Nat → Word → Word

/-- The hidden key of a core's free-running generator, by the release of RESET_N that drew it and the core's number (05
R176; assumption 1). -/
opaque Config.hiddenKey : Nat → Nat → BitVec 64

/-- The digests of the security block, as a function of the bytes they are taken over (15 R471, R472; assumption 7). -/
opaque Config.sha384 : List Byte → BitVec 384

/-- Whether r and s are a signature of a digest under the public key of a KEY_ID; that of 0x10 is the owner key (15 R468;
assumption 7). -/
opaque Config.ecdsaOk : Nat → Option (List Word) → BitVec 384 → List Word → Bool

/-- r and s over the bytes of an attestation report, with a nonce (15 R471; assumption 7). -/
opaque Config.reportSig : List Byte → Nat → List Byte

/-- The DER certificates of the product CA and of the device identity (15 R467, R471; assumption 7). -/
opaque Config.caCert : List Byte
opaque Config.idCert : List Byte

/-- What the device's key-agreement key makes of an importer's public key and a wrapped key, for slot * 4 + AN (15 R475;
assumption 7). -/
opaque Config.unwrap : Nat → List Word → List Word → Unwrap

/-- The 802.1Q tag of a session's frames, if they are tagged, by the session's number (14 R431; assumption 55). -/
opaque Config.tag : Nat → Option (BitVec 16)

/-! The layout of the clock and pin settings of an edge die is not given: what its die-static frames 32 to 35, as four numbers,
make of each is free (10 R323, R340; 11 R344, R348; assumption 47). -/

/-- The source of a global clock net of edge die 24 + e, from its settings. -/
opaque Config.netSource : Nat → List Nat → Fin 16 → Option FabClk

/-- The net that a clock spine of a region of edge die 24 + e selects, from the settings. -/
opaque Config.spineNet : Nat → List Nat → Nat → Fin 8 → Option (Fin 16)

/-- The spine that clocks a cluster of an edge region, and the one that clocks a port of a fabric-RAM block. -/
opaque Config.clusterSpine : Nat → List Nat → Nat → Nat → Fin 8
opaque Config.ramSpine : Nat → List Nat → Nat → Bool → Fin 8

/-- The settings of user pin 0 to 63 of edge die 24 + e. -/
opaque Config.pinCfg : Nat → List Nat → Nat → PinCfg

/-- The edge region to which firmware assigns a user pin (10 R340; assumption 47). -/
opaque Config.pinRegion : Nat → Nat → Option (Fin 16)

/-- The clamps of the PLL and pin fields of a settings frame that is not zero: which of the codes 9, 10 and 11, at which bit. -/
opaque Config.ioClamps : Nat → Nat → List (Fin 3 × Fin 2048)

/-- The cluster and outbound wire that drives a shell crossing of an edge region, by region and crossing; the spec does not
say which (assumption 24). -/
opaque Config.crossing : Nat → Nat → Nat × Nat

/-- The crossing that carries a bit of a lane's TX_DATA, by lane and bit (11 R348; assumption 24). -/
opaque Config.txCross : Nat → Nat → Nat

/-- The local wire on which the CO of cell 15 of a cluster is readable (10 R318; assumption 24). -/
opaque Config.coWire : Nat

/-- The installed LPDDR capacity per channel in GiB (00 R1, 12 R376). -/
def Config.chanGiB : Nat := if Config.large then 16 else 8

/-- The installed LPDDR capacity in bytes: 96 channels (12 R377). -/
def Config.lpddrBytes : Nat := 96 * Config.chanGiB * 2 ^ 30

end Sys2Proof
end

