-- ==== Sys2Proof/Machine/RegTable.lean ====
section
/-! DEFINITION. The register tables of the pages: for every block type its registers with their offsets, the fields a
write takes, the bits a write of 1 clears, their reset values and their clamps (17 R509 to R517 and the chapters'
tables). Registers whose value follows from other state are listed with the value at reset and read by Control.lean. -/
namespace Sys2Proof.Machine

/-- The block of a page (17 R509, R510). -/
inductive Blk where
  | seq | arr | jib | vec | spad | rng | rtr | col | ni | hc | time | agt | recd | hal | shr | ubx | emit | sec | gov
  | lpd | win | lq | mac | mmac | tsn
deriving DecidableEq, Repr

/-- A clamp of R19: the field at lsb of the given width, when it lies in lo to hi, becomes dest. -/
structure Clamp where
  lsb : Nat
  width : Nat
  lo : Nat
  hi : Nat
  dest : Nat
deriving DecidableEq, Repr

/-- A run of count registers at off, off + stride, ...: the bits of RW fields, the bits of W1C fields, the reset value,
and the clamps. Bits in neither mask are RO, WO or RSV and no write changes them. -/
structure RegSpec where
  off : Nat
  count : Nat
  stride : Nat
  rw : Nat
  w1c : Nat
  reset : Nat
  clamps : List Clamp
deriving DecidableEq, Repr

/-- A read-only register. -/
def RegSpec.ro (off : Nat) (reset : Nat := 0) : RegSpec := ⟨off, 1, 4, 0, 0, reset, []⟩

/-- Several read-only registers. -/
def RegSpec.ros (off count stride : Nat) (reset : Nat := 0) : RegSpec := ⟨off, count, stride, 0, 0, reset, []⟩

/-- A register with RW fields. -/
def RegSpec.w (off rw reset : Nat) (clamps : List Clamp := []) : RegSpec := ⟨off, 1, 4, rw, 0, reset, clamps⟩

/-- Several registers with RW fields. -/
def RegSpec.ws (off count stride rw reset : Nat) (clamps : List Clamp := []) : RegSpec :=
  ⟨off, count, stride, rw, 0, reset, clamps⟩

/-- A register with W1C fields. -/
def RegSpec.c (off w1c : Nat) : RegSpec := ⟨off, 1, 4, 0, w1c, 0, []⟩

/-- All 32 bits. -/
abbrev allOnes : Nat := 0xFFFFFFFF

/-- The field must lie in lo to hi (w bits at lsb): the nearest legal value (R19). -/
def Clamp.range (lsb width lo hi : Nat) : List Clamp :=
  [⟨lsb, width, hi + 1, 2 ^ width - 1, hi⟩] ++ (if lo = 0 then [] else [⟨lsb, width, 0, lo - 1, lo⟩])

/-- ARR_ and JIB_ registers (02 R93, R94). -/
def regsArr : List RegSpec :=
  [.w 0x040 3 3, .ro 0x044, .ro 0x048, .ro 0x04C, .c 0x050 1, .c 0x054 1, .ro 0x058, .ro 0x05C, .c 0x064 0x80000000,
   .ros 0x068 5 4]

/-- SEQ_ registers (04 R154, R155). -/
def regsSeq : List RegSpec :=
  [.ro 0x044, .w 0x048 0x000FFFF0 0, .c 0x04C 1, .ro 0x050, .ro 0x054, .ro 0x058, .w 0x05C 0xFFFFFFC0 0,
   .w 0x060 allOnes 0, .ro 0x064, .ros 0x068 5 4]

/-- VEC_ registers (05 R182). -/
def regsVec : List RegSpec := [.c 0x040 0x1F, .w 0x044 allOnes 0, .ro 0x048, .ro 0x04C]

/-- RNG_ registers (05 R183). -/
def regsRng : List RegSpec :=
  [.ws 0x040 6 4 allOnes 0, .w 0x058 3 1, .w 0x05C 0x01FFFFFF 0x01000000 (Clamp.range 0 25 0 0x1000000), .ro 0x064,
   .ro 0x068]

/-- SPAD_ and RLB_ registers (06 R215, R216). -/
def regsSpad : List RegSpec :=
  [.w 0x044 1 0, .ro 0x048, .ros 0x04C 4 4, .c 0x05C 1, .w 0x060 1 1, .ros 0x064 4 4]

/-- RTR_ registers (07 R264, R265). IN_PORT 5 to 7 clears the slot's VALID and is handled by the write (Control). -/
def regsRtr : List RegSpec :=
  [.ws 0x040 2 4 0xFF7F03FF 0 (Clamp.range 0 9 0 383), .ro 0x048, .w 0x04C 0xFFF 900 (Clamp.range 0 12 900 2000),
   .ro 0x050 0xF, .ro 0x054, .c 0x058 1, .ros 0x05C 4 4, .ros 0x080 16 4, .ws 0x400 256 4 allOnes 0]

/-- NI_ registers (07 R268, R269). -/
def regsNi : List RegSpec :=
  [.w 0x040 0xFF 0 [⟨0, 8, 0x40, 0xFE, 0⟩], .w 0x044 4 0, .w 0x048 0xFFFFFC00 0, .w 0x04C allOnes 0,
   .w 0x050 0xFFFF 100 (Clamp.range 0 16 10 10000), .ro 0x054, .w 0x058 0xF 7 (Clamp.range 0 4 1 8),
   .ros 0x05C 6 4, .c 0x074 1, .ro 0x078, .ws 0x080 8 8 0x81FF01FF 0, .ws 0x084 8 8 0x7F7F 0,
   .w 0x0C0 0xFFF00000 0, .w 0x0C4 0x1FF 0, .ws 0x0D0 4 8 0x83FFFFFF 0, .ws 0x0D4 4 8 0x00FFFFFF 0,
   .ws 0x400 128 4 allOnes 0, .ws 0x800 128 16 0x01FF01FF 0, .ws 0x804 128 16 0x00037F7F 0, .ws 0x808 128 16 allOnes 0,
   .ws 0x80C 128 16 0xFFFF 0]

/-- AGT_ registers (07 R270). -/
def regsAgtAll : List RegSpec :=
  [.ro 0x040, .w 0x044 2 0, .ro 0x048, .ro 0x04C, .w 0x050 0x1F 0, .w 0x054 0xFFC 0, .ro 0x05C]

/-- The tap registers of R537, on an edge die. -/
def regsTap : List RegSpec := [.ro 0x060, .c 0x064 1, .ro 0x068]

/-- The registers of an agent page. -/
def regsAgt (edge : Bool) : List RegSpec := regsAgtAll ++ (if edge then regsTap else [])

/-- The clamps of HC_CFG (08 R301). -/
def hcClamps : List Clamp := [⟨0, 16, 0, 255, 256⟩, ⟨16, 3, 5, 7, 4⟩, ⟨16, 3, 0, 1, 2⟩]

/-- HC_ registers (08 R301). -/
def regsHc : List RegSpec :=
  [.w 0x040 0x7FFFF 0x31000 hcClamps, .ro 0x044, .ros 0x048 4 4,
   .ros 0x080 64 4]

/-- REC_ registers (08 R303): from 0x048 they act on the selected tenant. -/
def regsRec : List RegSpec :=
  [.w 0x040 0x3F 1 (Clamp.range 0 6 1 63), .w 0x044 allOnes 1000000 (Clamp.range 0 32 1000 1000000000),
   .ros 0x048 8 4]

/-- COL_ registers (10 R342) and the shroud registers of a collar page (11 R375). -/
def regsCol : List RegSpec :=
  [.ro 0x044, .ro 0x048, .ro 0x04C, .ro 0x050, .ro 0x054, .w 0x080 1 0, .ro 0x084, .w 0x088 0x3FF 0, .ros 0x090 5 4]

/-- Shroud registers of the edge regions (11 R375). -/
def regsShr : List RegSpec :=
  [.ros 0x104 16 0x20, .w 0x108 0 0xFF, .ws 0x128 15 0x20 0xFF 0 [⟨0, 8, 0x40, 0xFE, 0⟩], .ros 0x10C 16 0x20,
   .ros 0x110 16 0x20, .ros 0x114 16 0x20]

/-- HAL_ registers (11 R372). -/
def regsHal : List RegSpec :=
  [.w 0x040 1 0, .ro 0x044, .ro 0x048, .ro 0x04C, .w 0x050 0xFF 0, .ros 0x054 4 4, .c 0x064 0x80000000, .ro 0x068,
   .ro 0x06C, .ro 0x070, .ros 0x078 4 4, .w 0x088 0xFFFF 1000 (Clamp.range 0 16 1 60000)]

/-- LPD_ registers (12 R397, R398). -/
def regsLpd : List RegSpec :=
  [.ro 0x040, .w 0x044 3 3, .w 0x04C 0x1FFF 128 (Clamp.range 0 13 0 4096),
   .w 0x050 0xFFFF 100 (Clamp.range 0 16 1 65535), .w 0x054 0xFF 0, .w 0x058 0xFF 24 (Clamp.range 0 8 1 168),
   .ws 0x060 2 4 0xFFFF 1000 (Clamp.range 0 16 100 65535), .w 0x068 0xFFFF 2000 (Clamp.range 0 16 100 65535),
   .w 0x06C 0xFFFF 4000 (Clamp.range 0 16 100 65535), .ros 0x070 4 4, .ro 0x080, .ro 0x084, .c 0x088 1, .ro 0x08C,
   .ros 0x090 7 4, .w 0x104 0x37 0 [⟨0, 3, 7, 7, 0⟩], .w 0x108 allOnes 1 [⟨0, 32, 0, 0, 1⟩], .w 0x10C allOnes 0,
   .w 0x110 0xFFFFFF 0, .w 0x114 0xFFFFFFC0 0, .w 0x118 3 0, .ro 0x11C, .ros 0x140 24 4 0xFFFF0000,
   .ws 0x1A0 24 4 0x3F3F 0x2020, .w 0x200 0x3F3F 0x2020, .w 0x204 0x7F 0x40]

/-- The LPDDR window page (12 R399): tenants 1 to 63. -/
def regsWin : List RegSpec :=
  [.ro 0x040 (96 * Config.chanGiB), .ws 0x108 63 8 0x80007FFF 0, .ws 0x10C 63 8 0x1FFFFF 0]

/-- The clamps of LQ_PRBS (13 R426). -/
def prbsClamps : List Clamp :=
  [⟨0, 4, 9, 15, 0⟩, ⟨4, 4, 9, 15, 0⟩, ⟨8, 2, 1, 1, 0⟩, ⟨8, 2, 3, 3, 0⟩, ⟨10, 6, 41, 63, 40⟩, ⟨10, 6, 0, 9, 10⟩]

/-- LQ_ registers of one lane at its base (13 R426). -/
def regsLane (b : Nat) : List RegSpec :=
  [.w b 0x3FF7 0 [⟨12, 2, 3, 3, 0⟩], .ro (b + 4),
   .w (b + 8) 0xFFFF 0 prbsClamps,
   .ro (b + 0x10), .ro (b + 0x14), .ro (b + 0x18), .w (b + 0x1C) 0x00F37F3F 0 [⟨16, 2, 3, 3, 1⟩], .ro (b + 0x24),
   .ro (b + 0x2C)]

/-- LQ_ registers of a quad. -/
def regsLq : List RegSpec := regsLane 0x100 ++ regsLane 0x140 ++ regsLane 0x180 ++ regsLane 0x1C0

/-- The clamps of ETH_CFG (13 R409, R427). -/
def macClamps : List Clamp := [⟨0, 3, 7, 7, 0⟩, ⟨8, 14, 9217, 16383, 9216⟩, ⟨8, 14, 0, 1517, 1518⟩]

/-- The clamps of the management MAC's ETH_CFG: MODE 0 alone. -/
def mmacClamps : List Clamp := [⟨0, 3, 1, 7, 0⟩, ⟨8, 14, 9217, 16383, 9216⟩, ⟨8, 14, 0, 1517, 1518⟩]

/-- ETH_ registers (13 R427). The latencies are fixed values of the part. -/
def regsMac : List RegSpec :=
  [.w 0x040 0x3FFFFF 0x240000 macClamps, .ro 0x044,
   .ro 0x048 ((Config.fused 1).toNat % 2 ^ 20), .ro 0x04C ((Config.fused 2).toNat % 2 ^ 20),
   .ros 0x100 8 4, .ros 0x140 8 4, .ros 0x180 8 4, .ros 0x1C0 8 4]

/-- ETH_ registers of the management MAC: MODE 0 only (13, the MAC pages). -/
def regsMmac : List RegSpec :=
  [.w 0x040 0x3FFFFF 0x240000 mmacClamps, .ro 0x044,
   .ro 0x048 ((Config.fused 1).toNat % 2 ^ 20), .ro 0x04C ((Config.fused 2).toNat % 2 ^ 20),
   .ros 0x100 8 4, .ros 0x140 8 4, .ros 0x180 8 4, .ros 0x1C0 8 4]

/-- The clamps of TSN_RCV (13 R429). -/
def rcvClamps : List Clamp := [⟨0, 6, 33, 63, 32⟩, ⟨0, 6, 0, 1, 2⟩, ⟨8, 24, 0, 0, 1⟩]

/-- TSN_ registers (13 R428, R429); offsets from 0x1000 lie in pages 1 to 3 (17 R508). -/
def regsTsn : List RegSpec :=
  [.w 0x040 0xFF03 0, .ro 0x044, .w 0x048 0xFFFFFF 0x00FAC688, .ws 0x050 2 0x10 allOnes 0, .ws 0x054 2 0x10 allOnes 0,
   .ws 0x058 2 0x10 allOnes 1000000000 (Clamp.range 0 32 1024 1000000000),
   .ws 0x05C 2 0x10 0x1FF 1 (Clamp.range 0 9 1 256), .ros 0x074 3 4,
   .ws 0x400 512 4 allOnes 0xFF [⟨8, 24, 0, 0, 1⟩],
   .ws 0x1000 256 16 allOnes 0, .ws 0x1004 256 16 allOnes 0 [⟨29, 2, 3, 3, 0⟩], .ws 0x1008 256 16 0xFF01FFFF 0,
   .ws 0x100C 256 16 0x3FFFFFFF 0 [⟨15, 3, 4, 7, 0⟩],
   .ros 0x2000 1024 4, .ws 0x3000 128 16 allOnes 0, .ws 0x3004 128 16 allOnes 0, .ws 0x3008 128 16 allOnes 0,
   .ws 0x300C 128 16 0x1FFFF 0,
   .ws 0x3800 64 16 0xFFFFFF7F 0 rcvClamps, .ros 0x3804 64 16, .ros 0x3808 64 16,
   .ros 0x380C 64 16]

/-- TIME_CFG and TIME_TOD_SEC, on die 24 alone (13 R430). -/
def regsTimeSrc (on : Bool) : List RegSpec :=
  if on then [.w 0x040 0xFF00FF 0x00640000 [⟨0, 2, 3, 3, 0⟩, ⟨16, 8, 201, 255, 200⟩, ⟨16, 8, 0, 0, 1⟩], .w 0x058 allOnes 0, .w 0x05C allOnes 0] else []

/-- The other TIME_ registers (13 R430). -/
def regsTimeAll : List RegSpec :=
  [.ro 0x044, .ro 0x048, .ro 0x04C, .ro 0x050, .ro 0x054, .ro 0x060, .ro 0x064, .ro 0x068]

/-- The island-clock registers of a compute die (16 R504). -/
def regsClk (on : Bool) : List RegSpec :=
  if on then
    [.w 0x080 0xFFF 0 (Clamp.range 0 12 0 2111), .w 0x084 0xFFF 900 (Clamp.range 0 12 900 2000), .ro 0x088 900,
     .ro 0x08C 2000, .ro 0x094 1800]
  else []

/-- TIME_ registers (13 R430) and, on a compute die, the island-clock registers (16 R504). -/
def regsTime (die : Nat) : List RegSpec :=
  regsTimeSrc (decide (die = 24)) ++ regsTimeAll ++ regsClk (decide (die < 24))

/-- The clamps of UBX_CFG (14 R464). -/
def ubxClamps : List Clamp := [⟨0, 8, 0, 0, 1⟩, ⟨8, 16, 0, 9, 10⟩, ⟨24, 4, 0, 0, 1⟩]

/-- UBX_ registers (14 R464): from 0x048 they act on the selected tenant. -/
def regsUbx : List RegSpec :=
  [.w 0x040 0x3F 1 (Clamp.range 0 6 1 63),
   .w 0x044 0x0FFFFFFF 0x0800C814 ubxClamps,
   .ros 0x048 4 4, .w 0x058 0x7F 0x40 (Clamp.range 0 7 1 64), .ros 0x05C 9 4]

/-- EMIT_ registers of one channel (14 R465). -/
def regsEmitChan (b : Nat) : List RegSpec :=
  [.ws b 2 4 allOnes 0, .ros (b + 0x0C) 4 4, .ws (b + 0x40) 32 4 allOnes 0]

/-- EMIT_ registers of an emit page. -/
def regsEmit : List RegSpec := regsEmitChan 0x100 ++ regsEmitChan 0x200 ++ regsEmitChan 0x300 ++ regsEmitChan 0x400

/-- SEC_ registers (15 R482). Serial number and public keys are fused or derived values of the part. -/
def regsSec : List RegSpec :=
  [.ro 0x040, .ro 0x048 (Config.fused 3).toNat, .ro 0x04C (Config.fused 4).toNat, .ro 0x050, .ro 0x054,
   .w 0x058 0x33F 0, .ro 0x05C, .ro 0x060, .ro 0x064, .ro 0x068]

/-- PG_ registers (16 R503). -/
def regsGov : List RegSpec :=
  [.w 0x040 0xFFFF 15000 (Clamp.range 0 16 6000 15000), .w 0x044 0xFF01 0x5F01 (Clamp.range 8 8 70 100), .ro 0x048,
   .ro 0x04C 2000, .ro 0x050 256, .ro 0x054, .ro 0x058, .ro 0x05C, .ro 0x060 15000, .ro 0x064, .ro 0x068,
   .c 0x06C 0xF, .ro 0x070, .ro 0x074 0x7FFF]

/-- The registers of a block from offset 0x040 on; `die` matters to the agent and time pages. -/
def Blk.regs (die : Nat) : Blk → List RegSpec
  | .seq => regsSeq
  | .arr => regsArr ++ [.ro 0x060]
  | .jib => regsArr
  | .vec => regsVec
  | .spad => regsSpad
  | .rng => regsRng
  | .rtr => regsRtr
  | .col => regsCol
  | .ni => regsNi
  | .hc => regsHc
  | .time => regsTime die
  | .agt => regsAgt (decide (24 ≤ die))
  | .recd => regsRec
  | .hal => regsHal
  | .shr => regsShr
  | .ubx => regsUbx
  | .emit => regsEmit
  | .sec => regsSec
  | .gov => regsGov
  | .lpd => regsLpd
  | .win => regsWin
  | .lq => regsLq
  | .mac => regsMac
  | .mmac => regsMmac
  | .tsn => regsTsn

/-- BLK_ID's type code (17 R517). -/
def Blk.type : Blk → Nat
  | .seq => 0x0101 | .arr => 0x0102 | .jib => 0x0103 | .vec => 0x0104 | .spad => 0x0105 | .rng => 0x0106
  | .rtr => 0x0201 | .ni => 0x0202 | .agt => 0x0203 | .hal => 0x0301 | .col => 0x0302 | .shr => 0x0302
  | .lpd => 0x0401 | .win => 0x0401 | .lq => 0x0501 | .mac => 0x0502 | .mmac => 0x0502 | .tsn => 0x0503
  | .ubx => 0x0504 | .emit => 0x0504 | .sec => 0x0601 | .hc => 0x0701 | .recd => 0x0702 | .gov => 0x0801
  | .time => 0x0802

/-- BLK_CAPS (17 R511 and each block's chapter; 0 for the clock-and-time block, whose chapter gives none:
assumption 8). -/
def Blk.caps : Blk → Nat
  | .seq => 0x00404420 | .arr => 0x1FF | .jib => 0xFF | .vec => 0x20 | .spad => 0x00040400 | .rng => 0
  | .rtr => 0x40C | .ni => 0x00081040 | .agt => 4 | .hal => 0x20 | .col => 1 | .shr => 0x10
  | .lpd => 0x00028000 + Config.chanGiB | .win => 0x3F | .lq => 0x084D0004 | .mac => 4 | .mmac => 4
  | .tsn => 0x00408008 | .ubx => 0x101 | .emit => 4 | .sec => 0x40 | .hc => 0x10 | .recd => 0x3F | .gov => 0
  | .time => 0

/-- The bits of BLK_IRQ_STAT and BLK_IRQ_EN that the block's chapter uses. -/
def Blk.irqs : Blk → Nat
  | .seq => 0x1F | .arr => 0x1F | .jib => 0x1F | .vec => 7 | .spad => 0xF | .rng => 0 | .rtr => 0xF | .ni => 0x1F
  | .agt => 0 | .hal => 0x3F | .col => 7 | .shr => 7 | .lpd => 0x1F | .win => 0 | .lq => 0xF | .mac => 7 | .mmac => 7
  | .tsn => 7 | .ubx => 0xF | .emit => 0 | .sec => 0xF | .hc => 0x1F | .recd => 3 | .gov => 0xF | .time => 7

/-- The common header (17 R511). BLK_STATUS is read from other state; BLK_ERR and BLK_CLAMP are cleared field by field
(R513, R514), by the commands of their own. BLK_CTRL's RW bit is ENABLE. -/
def Blk.header (b : Blk) : List RegSpec :=
  [.ro 0x000 (b.type * 65536 + 0x100), .ro 0x004 b.caps, .w 0x008 1 1, .ro 0x00C, .c 0x010 b.irqs, .w 0x014 b.irqs 0,
   .ro 0x018, .ro 0x01C]

/-- The specification of the register at an offset of a block, if any table lists it (17 R21). -/
def Blk.find (b : Blk) (die off : Nat) : Option RegSpec :=
  let l := if off < 0x40 then b.header else b.regs die
  l.find? (fun r => decide (r.off ≤ off) && decide ((off - r.off) % r.stride = 0) && decide ((off - r.off) / r.stride < r.count))

/-- The block of a page of a unit of a die, if it is implemented (17 R509, R510). -/
def blkAt (die unit page : Nat) : Option Blk :=
  if die < 24 ∧ unit < 2112 then
    match page with
    | 0 => some .seq | 1 => some .arr | 2 => some .arr | 3 => some .jib | 4 => some .vec | 5 => some .spad
    | 6 => some .rng | 7 => some .rtr | 8 => some .col | 9 => some .ni | _ => none
  else if 28 ≤ die then none
  else if unit / 4 = 0xF220 / 4 then if 24 ≤ die ∧ page < 4 then some .tsn else none
  else if page ≠ 0 then none
  else if unit = 0xF002 then some .time
  else if unit = 0xF003 then some .agt
  else if die < 24 then if unit = 0xF001 then some .hc else none
  else if unit = 0xF010 then some .recd
  else if unit = 0xF020 then some .hal
  else if unit = 0xF021 then some .shr
  else if unit = 0xF030 then some .ubx
  else if 0xF041 ≤ unit ∧ unit ≤ 0xF07F then some .emit
  else if unit = 0xF080 then if die = 24 then some .sec else none
  else if unit = 0xF090 then some .gov
  else if 0xF100 ≤ unit ∧ unit ≤ 0xF117 then some .lpd
  else if unit = 0xF118 then some .win
  else if 0xF200 ≤ unit ∧ unit ≤ 0xF203 then some .lq
  else if 0xF210 ≤ unit ∧ unit ≤ 0xF213 then some .mac
  else if unit = 0xF214 then if die = 24 then some .mmac else none
  else none

/-- The key of a page: the control address without its top field (17 R505). -/
def pageAt (die unit page : Nat) : Nat := die * 2 ^ 32 + unit * 2 ^ 16 + page * 2 ^ 12

/-- The die, unit, page and offset of a register key. -/
def keyDie (k : Nat) : Nat := k / 2 ^ 32
def keyUnit (k : Nat) : Nat := k / 2 ^ 16 % 2 ^ 16
def keyPage (k : Nat) : Nat := k / 2 ^ 12 % 16
def keyOff (k : Nat) : Nat := k % 4096

/-- The block of a register key. -/
def keyBlk (k : Nat) : Option Blk := blkAt (keyDie k) (keyUnit k) (keyPage k)

/-- The offset of a key within its block: the scheduler's pages follow each other (17 R508). -/
def blkOff (b : Blk) (k : Nat) : Nat := if b = .tsn then keyPage k * 4096 + keyOff k else keyOff k

/-- The specification of the register of a key. -/
def keySpec (k : Nat) : Option RegSpec :=
  match keyBlk k with
  | none => none
  | some b => b.find (keyDie k) (blkOff b k)

/-- The key of register `off` of the engine page of edge die 24 + e as the page shows it for tenant t (14 R464). -/
def ubxKey (e t off : Nat) : Nat := 2 ^ 40 + e * 2 ^ 32 + t * 4096 + off

/-- The key of register `off` of the recorder page of edge die 24 + e for tenant t (08 R303). -/
def recKey (e t off : Nat) : Nat := 2 ^ 41 + e * 2 ^ 32 + t * 4096 + off

/-- The reset value of the register of a key (R22); 0 where no table lists one. The banked copies of UBX_CREDIT_INIT
reset to 0x40 (14 R464). -/
def regReset (k : Nat) : Word :=
  if 2 ^ 40 ≤ k then if k < 2 ^ 41 ∧ keyOff k = 0x058 then 0x40 else 0
  else match keySpec k with
    | none => 0
    | some r => BitVec.ofNat 32 r.reset

end Sys2Proof.Machine
end

