-- ==== Sys2Proof/Machine/State.lean ====
section
/-! DEFINITION. The state of the module as plain data, and the state right after reset. Everything that exists many
times over (cores, channels, lanes, registers, memory) is held sparsely: a list of (key, value) pairs with strictly
rising keys and no entry equal to what an unlisted key reads as (Ops.lean, Sparse). -/
namespace Sys2Proof.Machine

/-- A sparse store: (key, value) pairs, keys strictly rising. -/
abbrev Map (α : Type) := List (Nat × α)

/-- One level of the hardware loop stack (04 R139, R141, R157). -/
structure LoopEntry where
  first : BitVec 20
  last : BitVec 20
  stages : Nat
  rot : Bool
  n : Nat
  done : Nat
deriving DecidableEq, Repr

/-- SEQ_STATE.STATE (04 R151). -/
inductive SeqState where
  | idle | running | stopping | stopped | halted | faulted | saving | restoring
deriving DecidableEq, Repr

/-- Why the bundle in issue is stalled (04 R152, R154). -/
inductive Stall where
  | none | wait | event | vpush | vpull | other
deriving DecidableEq, Repr

/-- A matrix descriptor in a unit's queue (02 R44, R54): its 8 words, or 16 for a split pair, as read at issue; the
completion counter of its ISSUE, and whether that counter still counts it (04 R145); RNG_SEED at issue (05 R172). -/
structure MatJob where
  words : List Dword
  ctr : Fin 4
  counted : Bool
  seed : Dword
deriving DecidableEq, Repr

/-- Bytes of the scratchpad that a unit has taken in, at their scratchpad addresses, with the poison marks of their
words. -/
structure Snap where
  mem : List Host.Cell
  poison : Map Bool
deriving DecidableEq, Repr

/-- A group that holds an accumulator bank (02 R66, R87): its place, the k tiles added, the bank, its flags; what its first
attempt raised, and the marks of R87 to R89. -/
structure Group where
  chunk : Nat
  tile : Nat
  kt : Nat
  acc : Map Word
  flags : BitVec 5
  sat : Bool
  lostFlags : BitVec 5
  lostSat : Bool
  poisoned : Bool
  retried : Bool
deriving DecidableEq, Repr

/-- One half of a running descriptor (a descriptor that is not split has half 0 alone): the groups in its two banks, oldest
first; the chunk and tile of the first group that has no bank yet; the weight registers, active and shadow, each with the
number of its pass (02 R65); the flags of the half; whether it has ended POISONED. -/
structure HalfRun where
  groups : List Group
  next : Option (Nat × Nat)
  tiles : List (Nat × Snap)
  flags : BitVec 5
  sat : Bool
  dead : Bool
deriving DecidableEq, Repr

/-- One beat of the epilogue tap (10 R335, R337). -/
structure TapBeat where
  fmt : BitVec 2
  row : BitVec 16
  col : BitVec 16
  cnt : Nat
  pid : BitVec 16
  unit : Bool
  data : BitVec 512
deriving DecidableEq, Repr

/-- The place of an offence: its cycle, m, k, n, half, and cause (02 R85, R86). -/
structure FoPlace where
  cycle : Nat
  m : Nat
  k : Nat
  n : Nat
  half : Nat
  cause : Nat
deriving DecidableEq, Repr

/-- The descriptor a unit has taken up (02 R60, R64, R74, R81): its halves, the cycle at which its last pass started and that
pass's rows, the offence it has captured, the jib's activation buffer, half 1's tap beats that wait for the end of half 0's,
and the end beats sent. -/
structure MatRun where
  h0 : HalfRun
  h1 : HalfRun
  retried : Bool
  foTaken : Bool
  start : Nat
  rows : Nat
  fo : Option FoPlace
  bufA : Option Snap
  held : List TapBeat
  end0 : Bool
  end1 : Bool
deriving DecidableEq, Repr

/-- A matrix unit: its queue, head first, its progress in the head, and the jib's second activation buffer, with the A of
the next descriptor (02 R44, R74). -/
structure MatUnit where
  jobs : List MatJob
  run : Option MatRun
  nextA : Option Snap
deriving DecidableEq, Repr

/-- One selected part of a transfer: packets and requests not yet answered, and the code of its failure, 0 for none
(06 R207, R208). -/
structure Part where
  idx : Nat
  left : Nat
  code : BitVec 16
deriving DecidableEq, Repr

/-- A transfer in a core's queue (06 R200, R201). -/
structure XferJob where
  id : Nat
  words : List Dword
  ctr : Fin 4
  counted : Bool
  started : Bool
  parts : List Part
deriving DecidableEq, Repr

/-- A packet or request of a transfer part that waits to be sent or for its answer (07 R229, R250, R259): its
transaction tag, the data-space address and bytes it reads or writes, where read data goes, the stream of a guaranteed
packet, the epoch bit it was stamped with, and the bytes of a write. -/
structure Outst where
  tag : BitVec 12
  job : Nat
  part : Nat
  isRead : Bool
  addr : Dword
  len : Nat
  dst : Dword
  stream : BitVec 8
  stamp : Bool
  data : List Byte
deriving DecidableEq, Repr

/-- A memory-plane read of the sequencer's slot 2 in space 0x02 or 0x03 (06 R196): its address, its tag, whether its
bundle has been given up, so that the answer is discarded, and the status and data of its answer once that has come. -/
structure SeqRead where
  addr : Dword
  tag : BitVec 12
  dropped : Bool
  ans : Option (BitVec 16 × List Byte)
deriving DecidableEq, Repr

/-- A line of the remote-line buffer (06 R196, R198; 07 R256): its line number in the window, M or S, dirty, poisoned,
and whether the access that missed has still to use it (it is not counted as a hit). -/
structure RlbLine where
  line : Nat
  own : Bool
  dirty : Bool
  poisoned : Bool
  fresh : Bool
  data : List Byte
deriving DecidableEq, Repr

/-- An outstanding miss of the remote-line buffer (06 R196): its line, whether with ownership, whether an upgrade of a
held line (UPG), and the error status that answered it, 0 while none has. -/
structure Miss where
  line : Nat
  own : Bool
  upg : Bool
  status : BitVec 16
deriving DecidableEq, Repr

/-- Retention of a scratchpad (06 R194, R195). -/
inductive Retention where
  | on | entering | retained | waking
deriving DecidableEq, Repr

/-- The state of a route bank (07 R246). -/
inductive Bank where
  | spare | armed | draining
deriving DecidableEq, Repr

/-- One end of a link: failed replays in a row, and whether it is being raised (07 R226, R227). -/
structure LinkEnd where
  fails : Nat
  raising : Bool
deriving DecidableEq, Repr

/-- The flits inside routers or taps (07 R224, R231, R240): those that each input port holds, oldest first; those in the
bridge FIFO of the link towards each port, oldest first, which is also what the sender's replay buffer keeps of them; the
channel that each output served last, plus 1; the guaranteed flits that each output has sent in the slot in progress, under
4 those that the interface has injected. A router has input ports 0 to 3 and 4, its own interface; the taps of an edge die use
row * 4 + port, with ports 0 and 1 and 2, the edge die's own flits. -/
structure Switch where
  held : Map (List Flit)
  bridge : Map (List Flit)
  last : Map Nat
  gs : Map Nat
deriving DecidableEq, Repr

/-- No flit anywhere. -/
def Switch.empty : Switch := { held := [], bridge := [], last := [], gs := [] }

/-- A collar register read that waits for REG_RVALID: the sequencer's CLR with its destination, or COL_RDATA, read alone,
with COL_RIDX as the low half of 8 bytes, or by a CTRL_READ of a tenant (10 R338, R342). -/
inductive ColRead where
  | seq (gd : BitVec 5)
  | host
  | pair
  | cmd (t : BitVec 8)
  | dropped
deriving DecidableEq, Repr

/-- What a physical core holds beside its control registers (04 R122, R123, R143; 02 R44; 05 R176; 06; 07 R246; 10 R336):
`loopBuf` the bundles of the loop buffer by address, `rngPosted` the posted stores to the own generator page that are not
acknowledged, `cc` the count of cc, `frKey` the key of the last REKEY, `fr` the lanes' free-running states. -/
structure Core where
  g : Map Dword
  a : Map Dword
  m : Map Word
  base : Map (BitVec 56)
  len : Map (BitVec 21)
  mode : BitVec 8
  v : Map (BitVec 1024)
  p : BitVec 8
  cnt : Map Nat
  loops : List LoopEntry
  loopBuf : Map (BitVec 128)
  pc : BitVec 20
  pcOut : Option Dword
  rotG : BitVec 4
  rotV : BitVec 5
  vl : Nat
  vf : BitVec 5
  st : SeqState
  back : SeqState
  after : SeqState
  pendStart : Bool
  pendSave : Bool
  ctx : Option (BitVec 16)
  stall : Stall
  events : List (BitVec 16)
  stepping : Bool
  u0 : MatUnit
  u1 : MatUnit
  u2 : MatUnit
  tapQ : List TapBeat
  spad : List Host.Cell
  poison : Map Bool
  zeroing : Bool
  rlbOp : Nat
  retention : Retention
  wake : Bool
  rlb : List RlbLine
  misses : List Miss
  jobs : List XferJob
  outst : List Outst
  unsent : List Outst
  seqReads : List SeqRead
  posted : Nat
  rngPosted : Nat
  nextTag : Nat
  nextJob : Nat
  ni0 : Bank
  ni1 : Bank
  rt0 : Bank
  rt1 : Bank
  links : Map LinkEnd
  sw : Switch
  ob0 : List (BitVec 2 × BitVec 256)
  ob1 : List (BitVec 2 × BitVec 256)
  ib0 : List (BitVec 256)
  ib1 : List (BitVec 256)
  colReads : List ColRead
  colAnswer : Word
  ibLast0 : BitVec 256
  ibLast1 : BitVec 256
  cc : Dword
  frKey : Option Dword
  fr : Map (BitVec 128)
deriving DecidableEq, Repr

/-- A group before its first pass. -/
def Group.start (chunk tile : Nat) : Group :=
  { chunk := chunk, tile := tile, kt := 0, acc := [], flags := 0, sat := false, lostFlags := 0, lostSat := false,
    poisoned := false, retried := false }

/-- A half with nothing to do. -/
def HalfRun.idle : HalfRun := { groups := [], next := none, tiles := [], flags := 0, sat := false, dead := false }

/-- A matrix unit with nothing queued. -/
def MatUnit.empty : MatUnit := { jobs := [], run := none, nextA := none }

/-- A core right after reset (04 R122: all 0, p0 reads 1, vl holds L = 32; 06 R193: zeroed scratchpad; 07 R266: banks
SPARE). -/
def Core.reset : Core :=
  { g := [], a := [], m := [], base := [], len := [], mode := 0, v := [], p := 1, cnt := [], loops := [], loopBuf := [], pc := 0, pcOut := none,
    rotG := 0, rotV := 0, vl := 32, vf := 0, st := .idle, back := .idle, after := .stopped, pendStart := false,
    pendSave := false, ctx := none,
    stall := .none, events := [], stepping := false, u0 := .empty, u1 := .empty, u2 := .empty,
    tapQ := [], spad := [], poison := [], zeroing := false, rlbOp := 0, retention := .on, wake := false, rlb := [],
    misses := [], jobs := [], outst := [], unsent := [], seqReads := [], posted := 0, rngPosted := 0, nextTag := 0, nextJob := 0, ni0 := .spare, ni1 := .spare, rt0 := .spare,
    rt1 := .spare, links := [], sw := .empty, ob0 := [], ob1 := [], ib0 := [], ib1 := [], colReads := [], colAnswer := 0, ibLast0 := 0, ibLast1 := 0, cc := 0, frKey := none, fr := [] }

/-- The taps of an edge die (07 R221, R226, R247, R248): their route banks, whether their last ARM was taken, the flip;
the flits they injected, ejected and discarded, keyed by stamp bit, and those received and sent per wrap link, keyed by
2 + (row * 4 + port) * 2 + stamp bit; their link ends, keyed by row * 4 + port; the flits in them. -/
structure Taps where
  b0 : Bank
  b1 : Bank
  armed : Bool
  stamp : Bool
  flipPending : Bool
  inj : Map Nat
  rem : Map Nat
  links : Map LinkEnd
  down : Map Bool
  sw : Switch
deriving DecidableEq, Repr

/-- The taps after reset (07 R266). -/
def Taps.reset : Taps :=
  { b0 := .spare, b1 := .spare, armed := false, stamp := false, flipPending := false, inj := [], rem := [], links := [],
    down := [], sw := .empty }

/-- The state of a directory entry: SC is kept with its sharers' dies (07 R256). -/
inductive DirState where
  | u
  | s (cores : List Nat)
  | sc (dies : List Nat)
  | m (core : Nat)
deriving DecidableEq, Repr

/-- A directory transaction that is not finished (07 R257): the request (its operation number and flit, with the data of WR or
WB and the poison mark of WB), the cores that still owe an answer, with the agents' shares of a snoop (R256), whether the
requester's UNBLOCK is awaited, and, in an eviction (operation 0), the line that waits for the way. -/
structure DirTxn where
  op : Nat
  req : PReq
  be : Dword
  data : List Byte
  poisoned : Bool
  owed : List Nat
  unblock : Bool
  err : LineEcc
  room : Option Nat
deriving DecidableEq, Repr

/-- The directory's entry for a line: its state, the transaction in progress and the requests that wait in arrival
order (07 R257). -/
structure DirEntry where
  st : DirState
  txn : Option DirTxn
  waiting : List DirTxn
deriving DecidableEq, Repr

/-- A line cached nowhere. -/
def DirEntry.empty : DirEntry := { st := .u, txn := none, waiting := [] }

/-- The state of a suspect-table entry (08 R275). -/
inductive SuspectState where
  | free | opened | failed | closed
deriving DecidableEq, Repr

/-- An entry of the suspect table (08 R275, R301), with the time of its last report and that of its declaration as FAILED. -/
structure Suspect where
  st : SuspectState
  suspect : BitVec 12
  self : Bool
  accusers : BitVec 4
  count : Nat
  codeFirst : BitVec 16
  codeLast : BitVec 16
  firstTime : Dword
  lastTime : Dword
  failedAt : Dword
deriving DecidableEq, Repr

/-- A free entry. -/
def Suspect.empty : Suspect :=
  { st := .free, suspect := 0, self := false, accusers := 0, count := 0, codeFirst := 0, codeLast := 0, firstTime := 0,
    lastTime := 0, failedAt := 0 }

/-- A health controller (08 R274 to R278): reports waiting with their stamps, the suspect table, STORM, the number of the 1 us
window that is counted and its reports, the quiet windows in a row, the time of the last rise of its interrupt output under STORM, and
whether a rise is held back. -/
structure Hc where
  queue : List (Dword × Dword)
  table : Map Suspect
  storm : Bool
  win : Nat
  window : Nat
  quiet : Nat
  lastIrq : Option Dword
  held : Bool
deriving DecidableEq, Repr

/-- A health controller after reset. -/
def Hc.reset : Hc := { queue := [], table := [], storm := false, win := 0, window := 0, quiet := 0, lastIrq := none, held := false }

/-- What firmware holds of a physical core's place (01 R32, R34; 08 R279, R280, R286). -/
inductive CoreMark where
  | serving | idleSpare | removed | reefed | repatriable
deriving DecidableEq, Repr

/-- A configuration stream of a pusher (11 R354 to R361); `sig` is the KEY_ID, r and s of its SIG block, `words` the words of a
privileged stream from SYNC to the CRC value, `ended` says that its START has come and its signature has not been verified
yet. -/
structure Stream where
  opened : Bool
  rejected : Bool
  typ : Nat
  strict : Bool
  tenant : BitVec 8
  len : Nat
  svn : Nat
  pos : Nat
  crc : Word
  declared : List (BitVec 24)
  begun : Bool
  cur : List (BitVec 24)
  last : List Word
  lastIdx : Nat
  foreign : Bool
  crcOk : Bool
  sig : Option (Word × List Word)
  sigOk : Bool
  words : List Word
  ended : Bool
  regionNo : Nat
  frameNo : Nat
deriving DecidableEq, Repr

/-- No stream open. -/
def Stream.closed : Stream :=
  { opened := false, rejected := false, typ := 0, strict := false, tenant := 0, len := 0, svn := 0, pos := 0, crc := 0,
    declared := [], begun := false, cur := [], last := [], lastIdx := 0, foreign := false, crcOk := false, sig := none,
    sigOk := false, words := [], ended := false, regionNo := 0, frameNo := 0 }

/-- An entry of the clamp log (11 R362, R372): code, region, frame, lowest bit. -/
structure ClampEntry where
  code : Nat
  region : BitVec 24
  frame : Nat
  bit : Nat
deriving DecidableEq, Repr

/-- A halyard (11 R352, R355, R361, R362): its two streams and the input buffers of their pushers, the clamp log, the regions
whose stream has passed its checks and waits for release, the bytes of the serial port that make no whole word yet, and whether
the management port is given a tenant's stream. -/
structure Hal where
  board : Stream
  mc : Stream
  log : List ClampEntry
  overflow : Bool
  readyBoard : List (BitVec 24)
  readyMc : List (BitVec 24)
  bytes : List Byte
  bufBoard : List Word
  bufMc : List Word
  forTenant : Bool
deriving DecidableEq, Repr

/-- A halyard after reset. -/
def Hal.reset : Hal :=
  { board := .closed, mc := .closed, log := [], overflow := false, readyBoard := [], readyMc := [], bytes := [],
    bufBoard := [], bufMc := [], forTenant := false }

/-- The state of a region (11 R375). -/
inductive RegionState where
  | empty | loading | releasing | running | failed
deriving DecidableEq, Repr

/-- A region of configuration memory (11 R343, R366, R367): its state, the port that loads it, the code of its last
failure, whether a clear is in progress, the release stage reached, the device time of stage 1, the rising edges of each clock
spine since stage 3, and of a collar the frames of its last RUNNING image (R369). SHR_OWNER and the counters of R375 are
registers. -/
structure Region where
  st : RegionState
  loader : Nat
  err : BitVec 16
  clearing : Bool
  stage : Nat
  at_ : Dword
  edges : Map Nat
  image : Option (List (Nat × List Word))
deriving DecidableEq, Repr

/-- A region after RESET_N: EMPTY and shrouded (11 R364, R375). -/
def Region.reset : Region := { st := .empty, loader := 0, err := 0, clearing := false, stage := 0, at_ := 0, edges := [], image := none }

/-- LPD_STAT.STATE (12 R398). -/
inductive ChanState where
  | untrained | training | active | selfRefresh | offline
deriving DecidableEq, Repr

/-- A training helper in progress (12 R392): a run, a run that STOP ends, a fill. -/
inductive Helper where
  | none | run | stopping | fill
deriving DecidableEq, Repr

/-- An LPDDR channel beside its registers (12 R388 to R394): refreshes postponed per bank, neighbour queues per bank,
the mask in force in self-refresh, the segments that have lost their contents, and delays that wait for the exit. -/
structure ChanRun where
  st : ChanState
  helper : Helper
  postponed : Map Nat
  neighbours : Map (List Nat)
  maskNow : BitVec 8
  lost : BitVec 8
  recentre : List (BitVec 6 × BitVec 6)
deriving DecidableEq, Repr

/-- A channel after reset: UNTRAINED (12 R393). -/
def ChanRun.reset : ChanRun :=
  { st := .untrained, helper := .none, postponed := [], neighbours := [], maskNow := 0, lost := 0,
    recentre := [] }

/-- LQ_STAT_k.STATE (13 R426). -/
inductive LaneState where
  | off | starting | on | light | deep | entering
deriving DecidableEq, Repr

/-- A serial lane beside its registers (13 R402 to R408): its power state, the state it is on the way to, the state
requested last, lock, pending bit-slip, eye scan, pattern lock, a write of LQ_SCAN_CFG that waits for the scan's end, and of a
raw lane the received bits that make no whole word yet, the bits that a bit-slip has still to discard, and RX_DATA. -/
structure Lane where
  st : LaneState
  goal : Nat
  want : Nat
  moving : Bool
  lock : Bool
  slip : Bool
  scan : Bool
  prbs : Bool
  nextScan : Option Word
  rxTail : List Bool
  rxDrop : Nat
  rxData : BitVec 256
deriving DecidableEq, Repr

/-- A lane after reset: LQ_STAT reads 0, and the lane is on its way to ON, which PWR asks for (13 R407, R426; assumption
20). -/
def Lane.reset : Lane :=
  { st := .off, goal := 0, want := 0, moving := true, lock := false, slip := false, scan := false, prbs := false,
    nextScan := none, rxTail := [], rxDrop := 0, rxData := 0 }

/-- What a user I/O pin shows: the level it is driven to, none while it is high-impedance, its pull, its Schmitt trigger, and its
drive in mA, slew and voltage (10 R340). -/
structure PinOut where
  drive : Option Bool
  pull : PinPull
  schmitt : Bool
  mA : Nat
  fast : Bool
  v18 : Bool
deriving DecidableEq, Repr

/-- High-impedance with a weak pull-down (10 R324, R340). -/
def PinOut.parked : PinOut := { drive := none, pull := .down, schmitt := false, mA := 0, fast := false, v18 := false }

/-- The registers at a user I/O pin (10 R340): the inputs and the outputs of the rising and of the falling edge, the enable. -/
structure PinReg where
  inp : Bool
  inFall : Bool
  out : Bool
  fall : Bool
  en : Bool
deriving DecidableEq, Repr

/-- Registers at a pin that no edge has reached. -/
def PinReg.reset : PinReg := { inp := false, inFall := false, out := false, fall := false, en := false }

/-- The token frame of a GO (14 R452): its number in the token-frame series, the step, the pairs of user and token. -/
structure TokFrame where
  seq : BitVec 32
  step : Dword
  pairs : List (Word × Word)
deriving DecidableEq, Repr

/-- A frame that waits to be transmitted: its class, its length L of R414, the tenant that sends it, its bytes, how many of
the L bytes have left in earlier fragments (R420), and what it carries if it is a token frame. -/
structure TxFrame where
  cls : Fin 8
  len : Nat
  tenant : BitVec 8
  bytes : List Byte
  gone : Nat
  tok : Option TokFrame
deriving DecidableEq, Repr

/-- A frame or fragment in transmission: the frame, the device times of its begin and of its last bit, the bytes it
carries, whether the frame's class is preemptable. -/
structure Sending where
  frame : TxFrame
  start : Nat
  fin : Nat
  len : Nat
  pre : Bool
deriving DecidableEq, Repr

/-- A recovery function's history (13 R419): none after a reset, else the last number and the numbers seen. -/
structure History where
  fresh : Bool
  last : BitVec 16
  seen : List (BitVec 16)
  since : Dword
deriving DecidableEq, Repr

/-- An Ethernet port beside its registers (13 R413 to R420): frames waiting per sub-port, the frame or fragment in
transmission, meter buckets in units of 1/15,625 byte, recovery histories, the pending gate-list change and the start of the operating list. -/
structure Port where
  tx : Map (List TxFrame)
  sending : Map (Option Sending)
  committed : Map Nat
  excess : Map Nat
  seen : Map History
  swapAt : Option Dword
deriving DecidableEq, Repr

/-- A port after reset. -/
def Port.reset : Port := { tx := [], sending := [], committed := [], excess := [], seen := [], swapAt := none }

/-- UBX_STATE.STATE (14 R464). -/
inductive SessState where
  | none | open_ | lost | closing
deriving DecidableEq, Repr

/-- A command of an accepted frame (14 R445): the SESSION and SEQ of its frame, OP, ORDER, CMD_ID and arguments; `started` while a
command runs on after its start (CTRL_READ of COL_RDATA, LOAD_REGION, UNRESERVE). -/
structure QCmd where
  sess : BitVec 32
  seq : BitVec 32
  op : BitVec 16
  order : Bool
  id : BitVec 32
  args : List Byte
  started : Bool
deriving DecidableEq, Repr

/-- A finished command whose reply record is not yet packed (14 R447). -/
structure Reply where
  sess : BitVec 32
  seq : BitVec 32
  id : BitVec 32
  op : BitVec 16
  status : BitVec 16
  data : List Byte
deriving DecidableEq, Repr

/-- A device frame that waits for the host's acknowledgement (14 R443). -/
structure DevFrame where
  kind : Nat
  seq : BitVec 32
  body : List Byte
deriving DecidableEq, Repr

/-- An event record (14 R454). -/
structure EvRec where
  code : BitVec 16
  kind : Nat
  count : Nat
  x : BitVec 16
  y : BitVec 16
  src : BitVec 16
  detail : Word
  time : Dword
deriving DecidableEq, Repr

/-- A tenant's session (14 R435 to R443). -/
structure Session where
  st : SessState
  id : BitVec 32
  version : BitVec 8
  maxFrame : Nat
  expect : BitVec 32
  credit : BitVec 32
  creditInit : Nat
  txSeq : BitVec 32
  unack : List DevFrame
  resends : Nat
  tokSeq : BitVec 32
  host : BitVec 48
  port : PortId
  mgmt : Bool
  ackDue : Bool
  ending : Bool
deriving DecidableEq, Repr

/-- No session. -/
def Session.closed : Session :=
  { st := .none, id := 0, version := 0, maxFrame := 0, expect := 0, credit := 0, creditInit := 0, txSeq := 0, unack := [],
    resends := 0, tokSeq := 0, host := 0, port := ⟨0, 0⟩, mgmt := false, ackDue := false, ending := false }

/-- A record of a recorder ring (08 R293): type, SEQ, time, body, its offset in the ring and its size there. -/
structure Rec where
  typ : Nat
  seq : BitVec 32
  time : Dword
  body : List Byte
  off : Nat
  size : Nat
deriving DecidableEq, Repr

/-- A tenant's recorder ring (08 R292 to R295). `used` counts the bytes from the tail to the head, `epoch` the records
since the last EPOCH record; `since` is a device time of the epoch that they belong to; `full` says that a record has found
no room since the tail last moved. -/
structure Ring where
  base : Nat
  size : Nat
  head : Nat
  tail : Nat
  used : Nat
  seq : BitVec 32
  written : Nat
  recs : List Rec
  epoch : List Rec
  since : Nat
  full : Bool
deriving DecidableEq, Repr

/-- No ring. -/
def Ring.empty : Ring :=
  { base := 0, size := 0, head := 0, tail := 0, used := 0, seq := 0, written := 0, recs := [], epoch := [], since := 0, full := false }

/-- A base-image slot of a core (08 R287): the step it reflects, the journal offset of the first header after it, the
scratchpad image, the context image. -/
structure Slot2 where
  step : Nat
  jptr : Nat
  spad : List Host.Cell
  ctx : List Byte
deriving DecidableEq, Repr

/-- The replay of a tenant (08 R287 to R297; 14 R448 REPLAY_DECLARE). Slots are keyed logical index * 2 + slot; `newer`
is the newer slot; `upTo` the step at which the last replay has caught up with the point of failure, 0 for none; `log`
the commands delivered, each with the step it was delivered at, and `redo` those that a replay has still to deliver again
(R296). -/
structure Replay where
  jbase : Nat
  jsize : Nat
  rb : Nat
  domain : List Rect
  slots : Map Slot2
  newer : Nat
  upTo : Nat
  log : List (Nat × QCmd)
  redo : List (Nat × QCmd)
  diverged : Bool
deriving DecidableEq, Repr

/-- A link of a path: the core whose output port it is, the input port the stream comes in by, and the output port. -/
structure PathLink where
  core : Nat
  inp : Nat
  out : Nat
deriving DecidableEq, Repr

/-- A slot reservation (07 R243): stream, F_MIN, ends, the slots of its links, and the links that hold them. -/
structure Reservation where
  stream : BitVec 8
  fmin : Nat
  sx : Nat
  sy : Nat
  dx : Nat
  dy : Nat
  slots : List Nat
  links : List PathLink
deriving DecidableEq, Repr

/-- A GO that an emit page has forwarded to the home engine (14 R451): the edge die and channel of its page, the STEP and
the pairs it took. -/
structure Go where
  e : Nat
  ch : Nat
  step : Dword
  pairs : List (Word × Word)
deriving DecidableEq, Repr

/-- What the module holds for a tenant (14 R458). `highest` is one more than the highest STEP emitted for a user, 0 for
none; `goes` the GOs on their way to the home engine; `suppressed` the token frames that a reef has held back (01 R43). -/
structure Tenant where
  live : Bool
  res : TenantRec
  sess : Session
  cmds : List QCmd
  replies : List Reply
  events : List EvRec
  progEvents : List EvRec
  lostEvents : Nat
  highest : Map Nat
  goes : List Go
  suppressed : List TokFrame
  ring : Ring
  replay : Option Replay
  streams : List Reservation
  measure : BitVec 384
  loads : Nat
deriving DecidableEq, Repr

/-- The reef of a position of tenant t (08 R279 to R286): the position, the core that leaves and the one that takes over, none
where no spare is left (R285), whether the old router still works, the replay step, the time of the declaration, the end times
of the phases so far, whether its route swap has been made, and the stream with the collar image that firmware has still to
push. -/
structure Reefing where
  t : Nat
  x : Nat
  y : Nat
  old : Nat
  new : Option Nat
  works : Bool
  step : Nat
  decl : Dword
  ends : List Dword
  swapped : Bool
  stream : List Word
deriving DecidableEq, Repr

/-- The record of no tenant. -/
def TenantRec.empty : Sys2Proof.TenantRec :=
  { id := 0, rects := [], winBase := 0, winSize := 0, regions := [], fram := [], ports := [], tclass := 0, mac := 0,
    filterBase := 0, filters := 0, meter := 0, home := 0, ringBase := 0, ringMiB := 0, replayWindow := 0, macsecRequired := false, creditInit := 64,
    scis := [] }

/-- A tenant id that is free. -/
def Tenant.free : Tenant :=
  { live := false, res := TenantRec.empty, sess := .closed, cmds := [], replies := [], events := [], progEvents := [],
    lostEvents := 0, highest := [], goes := [], suppressed := [], ring := .empty, replay := none, streams := [], measure := 0, loads := 0 }

/-- A MACsec association of a key slot (15 R474). -/
structure KeyAn where
  loaded : Bool
  sak : BitVec 256
  salt : BitVec 96
  ssci : BitVec 32
  pn : Nat
deriving DecidableEq, Repr

/-- An association that is not loaded. -/
def KeyAn.empty : KeyAn := { loaded := false, sak := 0, salt := 0, ssci := 0, pn := 0 }

/-- A receive channel (14 R461): the association in use and the highest packet number seen under it, none before the
first valid frame; the association before it, its highest packet number and the time of the move. -/
structure RxChan where
  cur : Option (BitVec 2 × Nat)
  prev : Option (BitVec 2 × Nat × Dword)
deriving DecidableEq, Repr

/-- The security block beside its registers (15). Fuse counts and keys are fused state: they survive a reset.
`importing` is the slot and AN of the import that runs, slot * 4 + AN, and what it gives; `txAn` and `newAn` the transmitting and the most
recently loaded AN of a slot, 0 for none, else AN + 1; `testing` says that the entropy start-up tests run. -/
structure Sec where
  svnFw : Nat
  svnStatic : Nat
  svnShell : Nat
  revokedA : Bool
  revokedB : Bool
  owner : Option (List Word)
  fwKey : Nat
  loadedFw : Nat
  loadedStatic : Nat
  loadedShell : Map Nat
  mFw : BitVec 384
  mStatic : BitVec 384
  mShell : Map (BitVec 384)
  commit : Option (Nat × Nat)
  importing : Option (Nat × Unwrap)
  pub : Map Word
  wrap : Map Word
  ownerBuf : Map Word
  keys : Map KeyAn
  txAn : Map Nat
  newAn : Map Nat
  testing : Bool
  entOk : Bool
  ready : Bool
  served : Nat
  seeded : Dword
deriving DecidableEq, Repr

/-- The power state of a block (16 R496, R497): the transition in progress, the state requested last. -/
structure BlkPower where
  on : Bool
  moving : Bool
  want : Bool
  pendingOn : Bool
  resetDue : Bool
deriving DecidableEq, Repr

/-- A block that is ON. -/
def BlkPower.reset : BlkPower := { on := true, moving := false, want := true, pendingOn := false, resetDue := false }

/-- The boundary-scan mode in force (18 R532). -/
inductive TapMode where
  | idcode | extest | clamp | highz
deriving DecidableEq, Repr

/-- The pins of the board (16 R483, 11 R349, 13 R424). -/
inductive Pin where
  | pwrOk | faultN | thermN | cfgDone | cfgErrN | cfgRdy | cfgD | ppsOut
deriving DecidableEq, Repr

/-- What the module, or one of its parts, sends out. Arrival is a command of its own, so a message that has been sent
stays listed. -/
inductive Msg where
  /-- the module drives a pin to a level; under a boundary test the boundary register drives the pin instead (18 R532) -/
  | pin (p : Pin) (level : Nat)
  /-- a packet enters the rigging at the router of its core; the flits that the router forwards follow as `flit` -/
  | packet (core : Nat) (hdr : BitVec 168) (data : List Byte)
  /-- a flit forwarded by a router or tap on a port; port 4 hands it to the router's own interface -/
  | flit (n : Node) (port : Nat) (f : Flit)
  /-- a link asks its sender for a replay -/
  | replay (n : Node) (port : Nat)
  /-- an idle flit -/
  | idle (n : Node) (port : Nat)
  /-- a request-plane flit, or a response to a directory, with its data and the poison mark of a written-back line: op of
  07 R255 -/
  | plane (op : Nat) (q : PReq) (data : List Byte) (poisoned : Bool)
  /-- a snoop to a core's line buffer, or for a die -/
  | snoop (op : Nat) (core : Nat) (line : Nat)
  /-- a response to a requester: op, die, unit, tag, status, data, and the poison mark of a line -/
  | answer (op : Nat) (die : Nat) (unit : Nat) (tag : Nat) (status : BitVec 16) (data : List Byte) (poisoned : Bool)
  /-- a fault report to the health controller of a die (08 R271) -/
  | report (die : Nat) (w : Dword)
  /-- an interrupt output of a page rises, delivered to an edge die's management controller (17 R515) -/
  | irq (page : Nat) (edge : Nat)
  /-- a Ublexia frame of a tenant: kind, SEQ, ACK, CREDIT, body (14 R432) -/
  | ubx (t : BitVec 8) (port : PortId) (mgmt : Bool) (kind : Nat) (seq ack credit : BitVec 32) (body : List Byte)
  /-- a frame or fragment of n bytes whose transmission begins on a sub-port -/
  | wire (p : PortId) (sub : Nat) (f : TxFrame) (n : Nat)
  /-- the frame in transmission on a sub-port is ended with an invalid FCS -/
  | abort (p : PortId) (sub : Nat) (f : TxFrame)
  /-- a user I/O pin of edge die 24 + e changes what it shows (10 R340) -/
  | userPin (e : Nat) (i : Nat) (o : PinOut)
  /-- the symbols of a word that a raw lane transmits (13 R402) -/
  | symbols (lane : Nat) (l : List Nat)
  /-- an answer reaches the plane port of an edge region (10 R334): tag, status, data -/
  | regionPlane (region : Nat) (tag : Nat) (status : BitVec 16) (data : List Byte)
  /-- one transmitted bit of a lane is inverted (13 R403) -/
  | inverted (lane : Nat)
  /-- a received frame handed to an edge region or a management controller -/
  | handed (p : PortId) (dest : Nat) (region : Nat) (f : RxFrame)
  /-- the answer to a control access: ACK STATUS and the data of a read (17 R516) -/
  | ctl (status : BitVec 16) (data : Dword)
  /-- bytes returned on the SMBus or the serial configuration port -/
  | bytes (smbus : Bool) (b : List Byte)
  /-- a core's signal reaches its collar: an outbound beat of stream 0 or 1, a tap beat (2), an end beat (3), a register
  read (4) or write (5) -/
  | collar (core : Nat) (kind : Nat) (idx : Nat) (data : BitVec 512)
deriving DecidableEq, Repr

/-- The module. -/
structure State where
  /-- commands waiting, first in, first out -/
  pending : List Instr
  /-- what has been sent out, oldest first -/
  sent : List Msg
  /-- free values drawn so far (the model's own, assumption 1) -/
  freeCtr : Nat
  /-- the release of RESET_N that drew the hidden keys in force (05 R176; the model's own, assumption 1) -/
  keyGen : Nat
  resetN : Bool
  pwrOk : Bool
  inReset : Bool
  releaseWaits : Bool
  inputMv : Nat
  cfgMode : Bool
  ceilHalf : Bool
  tripped : Bool
  hotJunction : Bool
  time : Dword
  regs : Map Word
  cores : Map Core
  taps : Map Taps
  planeEnds : Map LinkEnd
  planeDown : Map Bool
  remap : Map Nat
  marks : Map CoreMark
  reefs : List Reefing
  clkSet : Map Nat
  clkEff : Map Nat
  power : Map BlkPower
  dir : Map DirEntry
  lpddr : List Host.Cell
  lpoison : Map Bool
  lfresh : Map Bool
  fram : List Host.Cell
  ramOut : Map Dword
  ffs : Map Bool
  cross : Map Bool
  ioPins : Map PinOut
  ioRegs : Map PinReg
  cfgmem : Map (List Word)
  regions : Map Region
  hal : Map Hal
  boot : Nat
  shells : BitVec 4
  cfgDone : Bool
  cfgRdy : Bool
  mcOn : Bool
  hc : Map Hc
  chans : Map ChanRun
  lanes : Map Lane
  ports : Map Port
  tenants : Map Tenant
  ubxIn : List UFrame
  rxChans : Map RxChan
  sec : Sec
  smbStatus : Nat
  smbErr : BitVec 16
  smbData : Word
  ppsUntil : Option Dword
  jtag : TapMode
deriving DecidableEq, Repr

/-- The security block at the first reset of a part: nothing revoked or fused but the secret (15 R466; the fused counts
are DESIGN CHOICE 0, assumption 5). -/
def Sec.reset : Sec :=
  { svnFw := 0, svnStatic := 0, svnShell := 0, revokedA := false, revokedB := false, owner := none, fwKey := 0,
    loadedFw := 0, loadedStatic := 0, loadedShell := [], mFw := 0, mStatic := 0, mShell := [], commit := none,
    importing := none, pub := [], wrap := [], ownerBuf := [], keys := [], txAn := [], newAn := [], testing := true, entOk := false, ready := false,
    served := 0, seeded := 0 }

/-- The module right after RESET_N is released: the input at 48 V, PWR_OK high, every scratchpad zeroed, every sparse
store empty (13 R422, 16 R484, R501). -/
def State.reset : State :=
  { pending := [], sent := [], freeCtr := 0, keyGen := 0, resetN := true, pwrOk := true, inReset := false, releaseWaits := false,
    inputMv := 48000, cfgMode := false, ceilHalf := false, tripped := false, hotJunction := false, time := 0,
    regs := [], cores := [], taps := [], planeEnds := [], planeDown := [], remap := [], marks := [], reefs := [], clkSet := [], clkEff := [], power := [], dir := [], lpddr := [],
    lpoison := [], lfresh := [], fram := [], ramOut := [], ffs := [], cross := [], ioPins := [], ioRegs := [], cfgmem := [], regions := [], hal := [], boot := 0, shells := 0,
    cfgDone := false, cfgRdy := true, mcOn := false, hc := [], chans := [], lanes := [], ports := [], tenants := [], ubxIn := [], rxChans := [],
    sec := .reset, smbStatus := 0, smbErr := 0, smbData := 0, ppsUntil := none, jtag := .idcode }

/-- Why the machine stops with a fault. No command of this block does: every row of the table has an effect in the
spec, and a device fault is state. The one constructor stands for the type the host asks for; nothing raises it. -/
inductive Fault where
  /-- raised by nobody; safe -/
  | noFault
deriving DecidableEq, Repr

/-- Why a command has no meaning. -/
inductive Refusal where
  /-- raised by exec's arm of a command whose meaning is not written yet; safe: the machine stops where the hardware
  goes on -/
  | notModelled (mnemonic : String)
deriving DecidableEq, Repr

end Sys2Proof.Machine
end

