-- ==== Sys2Proof/Machine/Ops.lean ====
section
/-! DEFINITION. The named operations over the sparse stores, the control registers, the cores and what is sent out.
A block has no exception entry (the prompt's block form): a device fault is a change of state made here by
`enterCode` (BLK_ERR) and `raiseIrq` (BLK_IRQ_STAT). -/
namespace Sys2Proof.Machine

/-! Sparse stores -/

/-- The value at a key; an unlisted key reads as the default of that key. -/
def Sparse.get {α : Type} (d : Nat → α) : Map α → Nat → α
  | [], k => d k
  | (a, v) :: r, k => if a = k then v else Sparse.get d r k

/-- Every entry but those of key k. -/
def Sparse.erase {α : Type} : Map α → Nat → Map α
  | [], _ => []
  | (a, v) :: r, k => if a = k then Sparse.erase r k else (a, v) :: Sparse.erase r k

/-- Inserts an entry before the first larger key. -/
def Sparse.insert {α : Type} : Map α → Nat → α → Map α
  | [], k, v => [(k, v)]
  | (a, w) :: r, k, v => if k < a then (k, v) :: (a, w) :: r else (a, w) :: Sparse.insert r k v

/-- Writes a key. Writing what an unlisted key reads as removes the entry, so that equal stores are equal lists. -/
def Sparse.put {α : Type} [DecidableEq α] (d : Nat → α) (m : Map α) (k : Nat) (v : α) : Map α :=
  if v = d k then Sparse.erase m k else Sparse.insert (Sparse.erase m k) k v

/-- The keys of a store rise strictly and lie above `lo`. -/
def Sparse.rising {α : Type} : Option Nat → Map α → Bool
  | _, [] => true
  | none, (a, _) :: r => Sparse.rising (some a) r
  | some b, (a, _) :: r => decide (b < a) && Sparse.rising (some a) r

/-- The canonical form: keys strictly rising, no entry equal to its default. -/
def Sparse.wf {α : Type} [DecidableEq α] (d : Nat → α) (m : Map α) : Bool :=
  Sparse.rising none m && m.all (fun p => decide (p.2 ≠ d p.1))

/-- The canonical form of a byte store whose unlisted bytes read 0. -/
abbrev Memory.wf (m : List Host.Cell) : Bool := Sparse.wf (fun _ => (0 : Byte)) m

/-- One byte of a store. -/
def Memory.read (m : List Host.Cell) (a : Nat) : Byte := Sparse.get (fun _ => (0 : Byte)) m a

/-- Writes one byte. -/
def Memory.write (m : List Host.Cell) (a : Nat) (b : Byte) : List Host.Cell := Sparse.put (fun _ => (0 : Byte)) m a b

/-- n bytes from a, lowest address first. -/
def Memory.readN (m : List Host.Cell) (a : Nat) : Nat → List Byte
  | 0 => []
  | n + 1 => Memory.read m a :: Memory.readN m (a + 1) n

/-- Writes bytes from a on. -/
def Memory.writeN (m : List Host.Cell) (a : Nat) : List Byte → List Host.Cell
  | [] => m
  | b :: r => Memory.writeN (Memory.write m a b) (a + 1) r

/-- Writes the bytes whose enable is set (06 R189). -/
def Memory.writeBE (m : List Host.Cell) (a : Nat) : List (Bool × Byte) → List Host.Cell
  | [] => m
  | (e, b) :: r => Memory.writeBE (if e then Memory.write m a b else m) (a + 1) r

/-! Bytes and words: little-endian (00 R14), and network order for wire fields -/

/-- Little-endian value of bytes. -/
def leNat : List Byte → Nat
  | [] => 0
  | b :: r => b.toNat + 256 * leNat r

/-- The n low bytes of a number, little-endian. -/
def leBytes : Nat → Nat → List Byte
  | 0, _ => []
  | n + 1, x => BitVec.ofNat 8 x :: leBytes n (x / 256)

/-- Network-order value of bytes. -/
def beNat (l : List Byte) : Nat := l.foldl (fun x b => 256 * x + b.toNat) 0

/-- The n low bytes of a number in network order. -/
def beBytes (n x : Nat) : List Byte := (leBytes n x).reverse

/-- Bits [lo + w - 1 : lo] of a number. -/
def bits (x lo w : Nat) : Nat := x / 2 ^ lo % 2 ^ w

/-- A number with bits [lo + w - 1 : lo] replaced by v. -/
def setBits (x lo w v : Nat) : Nat := x - bits x lo w * 2 ^ lo + v % 2 ^ w * 2 ^ lo

/-- 1 for true. -/
def b2n (b : Bool) : Nat := if b then 1 else 0

/-- The n bytes at offset o of a list, missing bytes as 0. -/
def bytesAt (l : List Byte) (o n : Nat) : List Byte :=
  let t := (l.drop o).take n
  t ++ List.replicate (n - t.length) 0

/-- ceil(a / b). -/
def ceilDiv (a b : Nat) : Nat := (a + b - 1) / b

/-- CRC-32C, reflected, one byte (08 R293, 11 R354, 04 R157). -/
def crcByte (c : Word) (b : Byte) : Word :=
  (List.range 8).foldl (fun (x : Word) _ => if x.getLsbD 0 then (x >>> 1) ^^^ 0x82F63B78#32 else x >>> 1)
    (c ^^^ b.setWidth 32)

/-- CRC-32C of bytes: start all ones, result inverted. -/
def crc32c (l : List Byte) : Word := ~~~ (l.foldl crcByte 0xFFFFFFFF#32)

/-- CRC-32C taken on from a running state over one 32-bit word's bytes. -/
def crcWord (c : Word) (w : Word) : Word := (leBytes 4 w.toNat).foldl crcByte c

/-! Keys -/

/-- The key of a page id. -/
def PageId.key (p : Sys2Proof.PageId) : Nat := pageAt p.die.val p.unit.toNat p.page.toNat

/-- The number of a physical core in the module. -/
def coreNo (c : CoreId) : Nat := c.die.val * 2112 + c.idx.val

/-- The core of a number; numbers beyond the last core wrap round. -/
def coreOf (n : Nat) : CoreId :=
  ⟨⟨n / 2112 % 24, Nat.mod_lt _ (by decide)⟩, ⟨n % 2112, Nat.mod_lt _ (by decide)⟩⟩

/-- The page of a core, by the core's number (17 R510). -/
def corePage (n page : Nat) : Nat := pageAt (n / 2112) (n % 2112) page

/-- The page of a unit of edge die 24 + e. -/
def edgePage (e : Nat) (unit : Nat) : Nat := pageAt (24 + e) unit 0

/-- The edge die that serves a die's interrupts (17 R515). -/
def servingEdge (d : Nat) : Nat := if 24 ≤ d then d else 24 + 2 * (d % 6 / 3) + d / 6 / 2

/-! Error codes (17 R519) -/

def Code.cfgCrc : BitVec 16 := 0x1001
def Code.cfgSignature : BitVec 16 := 0x1002
def Code.cfgClampedStrict : BitVec 16 := 0x1003
def Code.cfgForeignFrame : BitVec 16 := 0x1004
def Code.cfgMultiDrive : BitVec 16 := 0x1005
def Code.cfgTruncated : BitVec 16 := 0x1006
def Code.cfgGrammar : BitVec 16 := 0x1007
def Code.cfgRegionBusy : BitVec 16 := 0x1008
def Code.cfgNotOwner : BitVec 16 := 0x1009
def Code.cfgUpset : BitVec 16 := 0x100A
def Code.numInvalid : BitVec 16 := 0x2001
def Code.numOverflow : BitVec 16 := 0x2002
def Code.numPoisoned : BitVec 16 := 0x2003
def Code.numDescriptor : BitVec 16 := 0x2004
def Code.netLinkTimeout : BitVec 16 := 0x3001
def Code.netPartition : BitVec 16 := 0x3002
def Code.netRouteNone : BitVec 16 := 0x3003
def Code.xferDescriptor : BitVec 16 := 0x3004
def Code.netReservation : BitVec 16 := 0x3005
def Code.memUncorrectable : BitVec 16 := 0x4001
def Code.memTrainFail : BitVec 16 := 0x4002
def Code.ucpVersion : BitVec 16 := 0x5001
def Code.ucpSequence : BitVec 16 := 0x5002
def Code.ucpAuth : BitVec 16 := 0x5003
def Code.ucpCredit : BitVec 16 := 0x5004
def Code.ucpMalformed : BitVec 16 := 0x5005
def Code.ucpUnsupported : BitVec 16 := 0x5006
def Code.ucpResource : BitVec 16 := 0x5007
def Code.ucpNotReady : BitVec 16 := 0x5008
def Code.secRollback : BitVec 16 := 0x6001
def Code.secEntropy : BitVec 16 := 0x6002
def Code.secUnwrap : BitVec 16 := 0x6003
def Code.secKeyInUse : BitVec 16 := 0x6004
def Code.reefDone : BitVec 16 := 0x7001
def Code.reefExhausted : BitVec 16 := 0x7002
def Code.storm : BitVec 16 := 0x7003
def Code.ctxLanesShort : BitVec 16 := 0x7004
def Code.xferPartial : BitVec 16 := 0x7005
def Code.seqFault : BitVec 16 := 0x7006
def Code.ctxInvalid : BitVec 16 := 0x7007
def Code.replayDiverged : BitVec 16 := 0x7008
def Code.recorderFull : BitVec 16 := 0x7009
def Code.pwrCap : BitVec 16 := 0x8001
def Code.thermal : BitVec 16 := 0x8002
def Code.pwrInput : BitVec 16 := 0x8003
def Code.clkRef : BitVec 16 := 0x8004

/-! What is sent out, and free values -/

/-- Appends to what has been sent out. -/
def State.send (s : State) (m : Msg) : State := { s with sent := s.sent ++ [m] }

/-- Draws a value the spec leaves open: it is free (assumption 1). -/
def State.draw (s : State) : Nat × State := (Config.free s.freeCtr, { s with freeCtr := s.freeCtr + 1 })

/-! Registers -/

/-- A control register. -/
def State.reg (s : State) (k : Nat) : Word := Sparse.get regReset s.regs k

/-- Sets a control register whole. -/
def State.setReg (s : State) (k : Nat) (v : Word) : State := { s with regs := Sparse.put regReset s.regs k v }

/-- A field of a control register. -/
def State.fld (s : State) (k lo w : Nat) : Nat := bits (s.reg k).toNat lo w

/-- Sets a field of a control register. -/
def State.setFld (s : State) (k lo w v : Nat) : State :=
  s.setReg k (BitVec.ofNat 32 (setBits (s.reg k).toNat lo w v))

/-- A bit of a control register. -/
def State.bit (s : State) (k b : Nat) : Bool := (s.reg k).getLsbD b

/-- A counter that wraps. -/
def State.incWrap (s : State) (k : Nat) (n : Nat := 1) : State := s.setReg k (s.reg k + BitVec.ofNat 32 n)

/-- A counter that saturates at 2^32 - 1. -/
def State.incSat (s : State) (k : Nat) (n : Nat := 1) : State :=
  s.setReg k (BitVec.ofNat 32 (min 0xFFFFFFFF ((s.reg k).toNat + n)))

/-- A 64-bit register in a _LO and _HI pair. -/
def State.reg64 (s : State) (k : Nat) : Dword := s.reg (k + 4) ++ s.reg k

/-- Sets a pair. -/
def State.setReg64 (s : State) (k : Nat) (v : Dword) : State :=
  (s.setReg k (v.setWidth 32)).setReg (k + 4) ((v >>> 32).setWidth 32)

/-- A 64-bit counter that wraps. -/
def State.inc64 (s : State) (k : Nat) (n : Nat := 1) : State := s.setReg64 k (s.reg64 k + BitVec.ofNat 64 n)

/-- The interrupt output of a page (17 R515). -/
def State.irqOut (s : State) (page : Nat) : Bool := decide (s.reg (page + 0x10) &&& s.reg (page + 0x14) ≠ 0)

/-- Delivers a rise of a page's interrupt output to the serving edge die (17 R515). -/
def State.irqRise (before after : State) (page : Nat) : State :=
  if after.irqOut page && !before.irqOut page then after.send (.irq page (servingEdge (keyDie page))) else after

/-- Sets bits of BLK_IRQ_STAT. -/
def State.raiseIrq (s : State) (page : Nat) (m : Word) : State :=
  State.irqRise s (s.setReg (page + 0x10) (s.reg (page + 0x10) ||| m)) page

/-- The numerically lowest code of a list that is not 0; 0 for none. -/
def lowestCode : List (BitVec 16) → BitVec 16
  | [] => 0
  | c :: r => let m := lowestCode r; if m = 0 then c else if c < m then c else m

/-- BLK_ERR after the codes of one cc are entered (17 R513). -/
def errEntered (v : Word) (codes : List (BitVec 16)) : Word :=
  let code := v.setWidth 16
  let code' : BitVec 16 := if code = 0 then lowestCode codes else code
  BitVec.ofNat 16 (min 65535 ((v >>> 16).toNat + codes.length)) ++ code'

/-- BLK_ERR after a write (17 R513): a 1 in a half clears that half. BLK_CLAMP is written alike (R514). -/
def halvesCleared (v w : Word) : Word :=
  (if w >>> 16 = 0 then (v >>> 16).setWidth 16 else (0 : BitVec 16))
    ++ (if w.setWidth 16 = (0 : BitVec 16) then v.setWidth 16 else (0 : BitVec 16))

/-- Enters the codes of one cc into BLK_ERR. -/
def State.enterCodes (s : State) (page : Nat) (codes : List (BitVec 16)) : State :=
  s.setReg (page + 0x18) (errEntered (s.reg (page + 0x18)) codes)

/-- Enters one code into BLK_ERR. -/
def State.enterCode (s : State) (page : Nat) (code : BitVec 16) : State := s.enterCodes page [code]

/-- BLK_CLAMP after a clamp at an offset (17 R514). -/
def clampEntered (v : Word) (off : BitVec 16) : Word :=
  off ++ BitVec.ofNat 16 (min 65535 ((v.setWidth 16 : BitVec 16).toNat + 1))

/-- Records a clamp of the register at an offset. -/
def State.clampAt (s : State) (page off : Nat) : State :=
  s.setReg (page + 0x1C) (clampEntered (s.reg (page + 0x1C)) (BitVec.ofNat 16 off))

/-- Every register of a page takes its reset value but BLK_CTRL, whose ENABLE a SOFT_RESET leaves (00 R22, 17 R511). -/
def State.pageReset (s : State) (page : Nat) : State :=
  { s with regs := s.regs.filter (fun p => decide (p.1 < page) || decide (page + 4096 ≤ p.1) || decide (p.1 = page + 8)) }

/-! Sparse parts of the state -/

def State.core (s : State) (n : Nat) : Core := Sparse.get (fun _ => Core.reset) s.cores n
def State.setCore (s : State) (n : Nat) (c : Core) : State :=
  { s with cores := Sparse.put (fun _ => Core.reset) s.cores n c }
def State.modCore (s : State) (n : Nat) (f : Core → Core) : State := s.setCore n (f (s.core n))

def State.tap (s : State) (e : Nat) : Taps := Sparse.get (fun _ => Taps.reset) s.taps e
def State.setTap (s : State) (e : Nat) (t : Taps) : State := { s with taps := Sparse.put (fun _ => Taps.reset) s.taps e t }

def State.dirAt (s : State) (line : Nat) : DirEntry := Sparse.get (fun _ => DirEntry.empty) s.dir line
def State.setDir (s : State) (line : Nat) (d : DirEntry) : State :=
  { s with dir := Sparse.put (fun _ => DirEntry.empty) s.dir line d }

def State.hcAt (s : State) (die : Nat) : Hc := Sparse.get (fun _ => Hc.reset) s.hc die
def State.setHc (s : State) (die : Nat) (h : Hc) : State := { s with hc := Sparse.put (fun _ => Hc.reset) s.hc die h }

def State.halAt (s : State) (e : Nat) : Hal := Sparse.get (fun _ => Hal.reset) s.hal e
def State.setHal (s : State) (e : Nat) (h : Hal) : State := { s with hal := Sparse.put (fun _ => Hal.reset) s.hal e h }

def State.region (s : State) (r : Nat) : Region := Sparse.get (fun _ => Region.reset) s.regions r
def State.setRegion (s : State) (r : Nat) (v : Region) : State :=
  { s with regions := Sparse.put (fun _ => Region.reset) s.regions r v }

def State.chan (s : State) (k : Nat) : ChanRun := Sparse.get (fun _ => ChanRun.reset) s.chans k
def State.setChan (s : State) (k : Nat) (v : ChanRun) : State :=
  { s with chans := Sparse.put (fun _ => ChanRun.reset) s.chans k v }

def State.lane (s : State) (k : Nat) : Lane := Sparse.get (fun _ => Lane.reset) s.lanes k
def State.setLane (s : State) (k : Nat) (v : Lane) : State :=
  { s with lanes := Sparse.put (fun _ => Lane.reset) s.lanes k v }

def State.port (s : State) (k : Nat) : Port := Sparse.get (fun _ => Port.reset) s.ports k
def State.setPort (s : State) (k : Nat) (v : Port) : State :=
  { s with ports := Sparse.put (fun _ => Port.reset) s.ports k v }

def State.tenant (s : State) (t : Nat) : Tenant := Sparse.get (fun _ => Tenant.free) s.tenants t
def State.setTenant (s : State) (t : Nat) (v : Tenant) : State :=
  { s with tenants := Sparse.put (fun _ => Tenant.free) s.tenants t v }

def State.blk (s : State) (page : Nat) : BlkPower := Sparse.get (fun _ => BlkPower.reset) s.power page
def State.setBlk (s : State) (page : Nat) (v : BlkPower) : State :=
  { s with power := Sparse.put (fun _ => BlkPower.reset) s.power page v }

/-- CLK_SET of a core island, 900 MHz at reset (16 R488). -/
def State.clk (s : State) (n : Nat) : Nat := Sparse.get (fun _ => 900) s.clkSet n
def State.setClk (s : State) (n v : Nat) : State := { s with clkSet := Sparse.put (fun _ => 900) s.clkSet n v }

/-- The frequency an island runs at in MHz, 900 at reset (16 R488, R504). -/
def State.eff (s : State) (n : Nat) : Nat := Sparse.get (fun _ => 900) s.clkEff n
def State.setEff (s : State) (n v : Nat) : State := { s with clkEff := Sparse.put (fun _ => 900) s.clkEff n v }

/-- Replaces the entries of keys lo to lo + n - 1 by one value. -/
def Sparse.putRange {α : Type} [DecidableEq α] (d : α) (m : Map α) (lo n : Nat) (v : α) : Map α :=
  m.filter (fun p => decide (p.1 < lo))
    ++ (if v = d then [] else (List.range n).map (fun i => (lo + i, v)))
    ++ m.filter (fun p => decide (lo + n ≤ p.1))

/-- Runs a command while the module is out of reset: RESET_N at 0 holds every block in reset (16 R483). -/
def State.whenUp (s : State) (f : State → State) : State := if s.inReset then s else f s

/-- Runs on a core whose island runs (16 R494). -/
def State.onIsland (s : State) (f : State → State) : State := if s.inReset || s.tripped then s else f s

/-- The outcome of a command that completes. -/
abbrev done (s : State) : Host.Outcome State Fault Refusal := .next s

end Sys2Proof.Machine
end

