-- ==== Sys2Proof/Machine/Access.lean ====
section
/-! DEFINITION. Places and parties: logical and physical cores, who may write a page (17 R516, R536), the answers to
control accesses, and the events of tenants (14 R454 to R456). -/
namespace Sys2Proof.Machine

/-! Logical coordinates (01 R29 to R34) -/

/-- The physical core that serves logical (X, Y) before any reef (01 R31). -/
def homeNo (x y : Nat) : Nat := (y / 32 * 6 + x / 64) * 2112 + (y % 32 * 66 + x % 64)

/-- The physical core that serves logical (X, Y). -/
def State.physOf (s : State) (x y : Nat) : Nat := Sparse.get (fun k => k) s.remap (homeNo x y)

/-- Lets physical core n serve logical (X, Y) (01 R34, 08 R281). -/
def State.setPhys (s : State) (x y n : Nat) : State :=
  { s with remap := Sparse.put (fun k => k) s.remap (homeNo x y) n }

/-- Logical X and Y of a physical core that is no spare. -/
def homeXY (n : Nat) : Nat × Nat :=
  let d := n / 2112
  let i := n % 2112
  (d % 6 * 64 + i % 66, d / 6 * 32 + i / 66)

/-- Whether a physical core lies in a spare column (01 R30). -/
def isSpareCol (n : Nat) : Bool := decide (64 ≤ n % 2112 % 66)

/-- The logical coordinates that a physical core serves, if any. -/
def State.logOf (s : State) (n : Nat) : Option (Nat × Nat) :=
  match s.remap.find? (fun p => p.2 = n) with
  | some p => some (homeXY p.1)
  | none => if isSpareCol n || s.remap.any (fun p => p.1 = n) then none else some (homeXY n)

/-- The logical coordinates of a core as an event record gives them: 0xFFFF each where it serves none (14 R454). -/
def State.eventXY (s : State) (n : Nat) : BitVec 16 × BitVec 16 :=
  match s.logOf n with
  | some (x, y) => (BitVec.ofNat 16 x, BitVec.ofNat 16 y)
  | none => (0xFFFF, 0xFFFF)

/-! Parties -/

/-- NI_TENANT of a core: the id of its owner (07 R260). -/
def State.niTenant (s : State) (n : Nat) : BitVec 8 := (s.reg (corePage n 9 + 0x40)).setWidth 8

/-- Whether the party is the runtime of the tenant that owns core n, or the program running on core n. -/
def State.owns (s : State) (who : Party) (n : Nat) : Bool :=
  match who with
  | .firmware => false
  | .board => false
  | .runtime t => decide (t ≠ 0) && decide (s.niTenant n = t)
  | .program c => decide (coreNo c = n)

/-- The core of a register key. -/
def keyCore (k : Nat) : Nat := keyDie k * 2112 + keyUnit k

/-- Whether a party may write the register of a key (17 R516, R536 and each block's chapter; emit page and MAC page:
assumption 9). -/
def State.mayWrite (s : State) (who : Party) (k : Nat) : Bool :=
  let fw := decide (who = .firmware)
  let bd := decide (who = .board)
  match keyBlk k with
  | none => false
  | some b =>
    match b with
    | .seq | .arr | .jib | .vec | .spad | .rng => fw || bd || s.owns who (keyCore k)
    | .col =>
      if keyOff k < 0x80 then fw
      else if keyOff k = 0x88 ∨ keyOff k = 0x8C then
        (match who with | .runtime _ => s.owns who (keyCore k) | _ => false)
      else fw || s.owns who (keyCore k)
    | .time => if keyOff k < 0x80 then fw || bd else fw
    | .gov => fw || bd
    | .sec => fw || bd
    | .emit =>
      (match who with | .program c => decide (s.niTenant (coreNo c) = BitVec.ofNat 8 (keyUnit k - 0xF040)) | _ => false)
    | _ => fw

/-- Whether a party may read a page: TENANT 0xFF reads every page, a tenant those of its cores and its emit pages
(07 R261). -/
def State.mayRead (s : State) (who : Party) (k : Nat) : Bool :=
  match who with
  | .firmware => true
  | .board => true
  | .runtime t =>
    match keyBlk k with
    | none => false
    | some .emit => decide (t = BitVec.ofNat 8 (keyUnit k - 0xF040))
    | some _ => decide (keyDie k < 24) && decide (keyUnit k < 2112) && s.owns who (keyCore k)
  | .program c =>
    match keyBlk k with
    | none => false
    | some .emit => decide (s.niTenant (coreNo c) = BitVec.ofNat 8 (keyUnit k - 0xF040))
    | some _ => decide (keyDie k < 24) && decide (keyUnit k < 2112)
        && (s.owns who (keyCore k) || (decide (s.niTenant (coreNo c) ≠ 0) && decide (s.niTenant (keyCore k) = s.niTenant (coreNo c))))

/-- The answer to a control access (17 R516). -/
def State.answerCtl (s : State) (status : BitVec 16) (data : Dword := 0) : State := s.send (.ctl status data)

/-- The status that a party without a page to write gets: TENANT 0xFF learns that there is no such page (17 R506), any
other refusal is NET_PARTITION (R516). -/
def State.refusal (who : Party) (k : Nat) : BitVec 16 :=
  if keyBlk k = none ∧ (who = .firmware ∨ who = .board) then Code.netRouteNone else Code.netPartition

/-- A control write that acts: the party is checked, the action runs, the write is answered. A refused write changes
nothing but its answer (17 R516). -/
def State.ctl (s : State) (who : Party) (k : Nat) (act : State → State) : State :=
  if s.mayWrite who k then (act s).answerCtl 0 else s.answerCtl (State.refusal who k)

/-! Finished commands (14 R447) -/

/-- A command of tenant t is finished: it leaves the queue and its reply record waits to be packed. -/
def State.finish (s : State) (t : Nat) (c : QCmd) (status : BitVec 16) (data : List Byte) : State :=
  let tn := s.tenant t
  let r : Reply := { sess := c.sess, seq := c.seq, id := c.id, op := c.op, status := status, data := data }
  s.setTenant t { tn with cmds := tn.cmds.erase c, replies := tn.replies ++ [r] }

/-! Fault reports (08 R271) -/

/-- A fault report word: KIND, SUSPECT, REPORTER, PAGE, CODE, PORT. -/
def reportWord (kind suspect reporter page : Nat) (code : BitVec 16) (port : Nat) : Dword :=
  BitVec.ofNat 64 (kind + suspect * 2 ^ 4 + reporter * 2 ^ 16 + page * 2 ^ 28 + code.toNat * 2 ^ 32 + port * 2 ^ 48)

/-- A SELF report of core n about itself, from one of its pages, to the health controller of its die (08 R273). -/
def State.selfReport (s : State) (n page : Nat) (code : BitVec 16) : State :=
  s.send (.report (n / 2112) (reportWord 1 (n % 2112) (n % 2112) page code 0))

/-! Tenant events (14 R454 to R456) -/

/-- The tenants that exist. -/
def State.liveTenants (s : State) : List Nat := (s.tenants.filter (fun p => p.2.live)).map (·.1)

/-- The registers of tenant t's engine page on its home die. -/
def State.ubx (s : State) (t off : Nat) : Nat := ubxKey (s.tenant t).res.home.val t off

/-- Puts a record into the pending table, or merges it with the pending record of the same CODE, KIND, SRC, X and Y. A
full table loses the event (14 R456). -/
def mergeEvent (r : EvRec) : List EvRec → Option (List EvRec)
  | [] => none
  | p :: l =>
    if p.code = r.code ∧ p.kind = r.kind ∧ p.src = r.src ∧ p.x = r.x ∧ p.y = r.y then
      some ({ p with count := min 65535 (p.count + 1) } :: l)
    else (mergeEvent r l).map (p :: ·)

/-- A KIND 0 or KIND 2 event of tenant t. -/
def State.event (s : State) (t : Nat) (code : BitVec 16) (kind : Nat) (x y : BitVec 16) (src : Nat) (detail : Word) : State :=
  let tn := s.tenant t
  if !tn.live then s
  else
    let r : EvRec := { code := code, kind := kind, count := 1, x := x, y := y, src := BitVec.ofNat 16 src, detail := detail, time := s.time }
    match mergeEvent r tn.events with
    | some l => s.setTenant t { tn with events := l }
    | none =>
      if tn.events.length < 128 then s.setTenant t { tn with events := tn.events ++ [r] }
      else
        ((s.setTenant t { tn with lostEvents := tn.lostEvents + 1 }).incSat (s.ubx t 0x78)).raiseIrq
          (edgePage tn.res.home.val 0xF030) 8

/-- A KIND 0 event about core n, for its owner. -/
def State.coreEvent (s : State) (n : Nat) (code : BitVec 16) (src : Blk) (detail : Word) : State :=
  let xy := s.eventXY n
  s.event (s.niTenant n).toNat code 0 xy.1 xy.2 src.type detail

/-- An event of every tenant. -/
def State.eventAll (s : State) (code : BitVec 16) (src : Nat) (detail : Word) : State :=
  s.liveTenants.foldl (fun s t => s.event t code 0 0xFFFF 0xFFFF src detail) s

/-- The tenants that own a core of a die (08 R278, R279). -/
def State.dieTenants (s : State) (die : Nat) : List Nat :=
  s.liveTenants.filter (fun t =>
    (s.tenant t).res.rects.any (fun r =>
      decide (r.xlo / 64 ≤ die % 6) && decide (die % 6 ≤ r.xhi / 64) && decide (r.ylo / 32 ≤ die / 6) && decide (die / 6 ≤ r.yhi / 32)))

end Sys2Proof.Machine
end

