-- ==== Sys2Proof/Machine/Power.lean ====
section
/-! DEFINITION. Input power, the power governor, junctions, island clocks and the readiness map (chapter 16). -/
namespace Sys2Proof.Machine

/-- The module governor's page (16, the power governor page). -/
def govPage : Nat := edgePage 0 0xF090

/-- The clock-and-time page of a die. -/
def timePage (die : Nat) : Nat := pageAt die 0xF002 0

/-! Pins: FAULT_N and THERM_N follow the state (16 R483) -/

/-- FAULT_N is low while any bit of PG_FAULT is set. -/
def State.faultLow (s : State) : Bool := decide (s.fld (govPage + 0x6C) 0 4 ≠ 0)

/-- The page of LPDDR channel c, 0 to 95 (17 R509). -/
def lpdPage (c : Nat) : Nat := edgePage (c / 24) (0xF100 + c % 24)

/-- THERM_N is low while a junction is at or above 100 °C or an LPDDR device reports HOT. -/
def State.thermLow (s : State) : Bool :=
  s.hotJunction || (List.range 96).any (fun c => s.bit (lpdPage c + 0x40) 4)

/-- Sends the new levels of FAULT_N and THERM_N where they changed. -/
def State.pins (before after : State) : State :=
  let s1 := if after.faultLow = before.faultLow then after else after.send (.pin .faultN (b2n (!after.faultLow)))
  if after.thermLow = before.thermLow then s1 else s1.send (.pin .thermN (b2n (!after.thermLow)))

/-- Sets PG_FAULT bit b, raises FAULT and enters a code, if one is given (16 R486, R502). -/
def State.pgFault (s : State) (b : Nat) (code : Option (BitVec 16)) : State :=
  let s1 := s.setFld (govPage + 0x6C) b 1 1
  let s2 := match code with | some c => s1.enterCode govPage c | none => s1
  State.pins s (s2.raiseIrq govPage 4)

/-- Sets or clears a bit of PG_READY; every change raises READY_CHG (16 R499, R500). -/
def State.setReady (s : State) (b : Nat) (v : Bool) : State :=
  if s.bit (govPage + 0x70) b = v then s
  else (s.setFld (govPage + 0x70) b 1 (b2n v)).raiseIrq govPage 8

/-- PG_FAULT.DIE with the first failed die in DIE_ID (16 R486, R503). -/
def State.dieFault (s : State) (die : Nat) : State :=
  let s1 := if s.bit (govPage + 0x6C) 3 then s else s.setFld (govPage + 0x6C) 8 5 die
  (s1.pgFault 3 none).setReady 13 false

/-- Whether a function of the readiness map is ready. -/
def State.ready (s : State) (b : Nat) : Bool := s.bit (govPage + 0x70) b

/-! Reset (16 R483 to R485) -/

/-- A fuse count after a commit towards a target was cut short: a value d picks between the two, never above the target
(15 R470). -/
def cutShort (count target d : Nat) : Nat := if target ≤ count then count else count + d % (target - count + 1)

/-- The security block after a reset: the fused counts, revocations and the owner key stay (15 R466). A commit that the reset
cuts short leaves its count between the old value and the target. -/
def Sec.afterReset (x : Sec) (d : Nat) : Sec :=
  let cut := fun (ty n : Nat) => match x.commit with
    | some (k, target) => if k = ty then cutShort n target d else n
    | none => n
  { Sec.reset with
    svnFw := cut 1 x.svnFw, svnStatic := cut 2 x.svnStatic, svnShell := cut 3 x.svnShell, revokedA := x.revokedA,
    revokedB := x.revokedB, owner := x.owner }

/-- Every block at its reset values. What lies outside the reset stays: the queue, what has been sent, the pins, the
input voltage, the fuses, the boundary-scan port. -/
def State.afterReset (s : State) : State :=
  { State.reset with
      pending := s.pending, sent := s.sent, freeCtr := s.freeCtr + 1, keyGen := s.freeCtr + 1, resetN := s.resetN, pwrOk := s.pwrOk,
      inReset := s.inReset, releaseWaits := s.releaseWaits, inputMv := s.inputMv, cfgMode := s.cfgMode, jtag := s.jtag,
      sec := s.sec.afterReset (Config.free s.freeCtr) }

/-- The pins that a reset moves: FAULT_N and THERM_N rise, CFG_DONE falls. -/
def State.resetPins (before after : State) : State :=
  let s1 := State.pins before after
  if before.cfgDone then s1.send (.pin .cfgDone 0) else s1

/-- RESET_N is driven to 0: every block is held in reset (16 R483). -/
def execResetNAssert (s : State) : Host.Outcome State Fault Refusal :=
  done (State.resetPins s { s.afterReset with resetN := false, inReset := true, releaseWaits := false })

/-- RESET_N rises. While PWR_OK is 0 the release waits for it (16 R484); CFG_MODE is sampled (11 R349). -/
def execResetNRelease (cfgMode : Bool) (s : State) : Host.Outcome State Fault Refusal :=
  done (
    if s.resetN then s
    else if s.pwrOk then { s.afterReset with resetN := true, inReset := false, releaseWaits := false, cfgMode := cfgMode }
    else { s with resetN := true, releaseWaits := true, cfgMode := cfgMode })

/-- The input lies within 40 to 58 V and the rails are in tolerance: PWR_OK rises, and a release of RESET_N that waited
for it takes effect (16 R483, R484). The test access ports reset (18 R531). -/
def execPwrOkRise (mv : Nat) (railsOk : Bool) (s : State) : Host.Outcome State Fault Refusal :=
  done (
    if s.pwrOk || !railsOk || decide (mv < 40000) || decide (58000 < mv) then s
    else
      let s1 := { s with pwrOk := true, inputMv := mv, jtag := .idcode }.send (.pin .pwrOk 1)
      if s1.releaseWaits then { s1 with inReset := false, releaseWaits := false } else s1)

/-- An input between 38 and 40 V or between 58 and 60 V (16 R485). -/
def inBand (mv : Nat) : Bool :=
  (decide (38000 ≤ mv) && decide (mv < 40000)) || (decide (58000 < mv) && decide (mv ≤ 60000))

/-- An input in the warning band sets PG_FAULT.INPUT and enters PWR_INPUT; it is entered again once the bit has been
cleared or the input has left the band (16 R485). -/
def State.inputBand (s : State) (mv : Nat) : State :=
  let s1 := { s with inputMv := mv }
  if inBand mv && !(inBand s.inputMv && s.bit (govPage + 0x6C) 0) then s1.pgFault 0 (some Code.pwrInput) else s1

/-- An input below 38 V, or a fall of PWR_OK, resets the module as RESET_N does; an input in the warning band is
recorded (16 R485). While RESET_N stays at 1 the module leaves reset again after PWR_OK. -/
def execInputPowerDrop (mv : Nat) (pwrOkFalls : Bool) (s : State) : Host.Outcome State Fault Refusal :=
  done (
    if decide (mv < 38000) || pwrOkFalls then
      let s1 := State.resetPins s { s.afterReset with pwrOk := false, inReset := true, releaseWaits := s.resetN, inputMv := mv }
      if s.pwrOk then s1.send (.pin .pwrOk 0) else s1
    else s.whenUp fun s => s.inputBand mv)

/-! Island clocks (16 R488) -/

/-- The region id of the collar of core n (11 R343). -/
def collarRegion (n : Nat) : Nat := n / 2112 * 2 ^ 19 + n % 2112

/-- A frame of configuration memory: 64 words, zero until written (11 R344, R348). -/
def State.frame (s : State) (region f : Nat) : List Word :=
  Sparse.get (fun _ => List.replicate 64 (0 : Word)) s.cfgmem (region * 65536 + f)

/-- Writes a frame. -/
def State.setFrame (s : State) (region f : Nat) (ws : List Word) : State :=
  { s with cfgmem := Sparse.put (fun _ => List.replicate 64 (0 : Word)) s.cfgmem (region * 65536 + f) ws }

/-- A frame as one number: bit b of the frame is bit b (11 R344). -/
def frameNat : List Word → Nat
  | [] => 0
  | w :: r => w.toNat + 2 ^ 32 * frameNat r

/-- Whether a collar holds an image (11 R375). -/
def State.collarLoaded (s : State) (n : Nat) : Bool :=
  let st := (s.region (collarRegion n)).st
  decide (st = .running) || decide (st = .releasing)

/-- The collar limit: FMAX, clamped to 100 to 1,000 MHz, times the divisor, or 2,000 MHz without an image (10 R322; 11 R345, R362;
16 R488). -/
def State.clkLim (s : State) (n : Nat) : Nat :=
  if s.collarLoaded n then
    min 1000 (max 100 (bits (frameNat (s.frame (collarRegion n) 0)) 256 12)) * (if s.bit (corePage n 8 + 0x80) 0 then 4 else 2)
  else 2000

/-- The governor's ceiling g in units of 0.5 MHz. -/
def State.ceil2 (s : State) : Nat := s.fld (govPage + 0x4C) 0 12 * 2 + b2n s.ceilHalf

/-- The effective frequency of an island in MHz, rounded down (16 R488). -/
def State.fEff (s : State) (n : Nat) : Nat :=
  let floor2 := if s.bit (govPage + 0x44) 0 then s.fld (corePage n 7 + 0x4C) 0 12 * 2 else 0
  min (s.clk n) (min (s.clkLim n) (s.fld (govPage + 0x50) 0 9 * max s.ceil2 floor2 / 512))

/-! The governor (16 R491 to R493) -/

/-- The stage: 2 while k is below 1, 1 while g is below 2,000, else 0. -/
def State.stage (s : State) : Nat :=
  if s.fld (govPage + 0x50) 0 9 < 256 then 2 else if s.ceil2 < 4000 then 1 else 0

/-- Sets g, in half MHz, and k, in 1/256. -/
def State.setGK (s : State) (g2 k : Nat) : State :=
  { (s.setFld (govPage + 0x4C) 0 12 (g2 / 2)).setFld (govPage + 0x50) 0 9 k with ceilHalf := decide (g2 % 2 = 1) }

/-- One lowering step: g by 100 MHz down to 900, then k by 4/256 down to 16/256 (16 R491). -/
def State.lower (s : State) : State :=
  if s.ceil2 > 1800 then s.setGK (max 1800 (s.ceil2 - 200)) (s.fld (govPage + 0x50) 0 9)
  else s.setGK s.ceil2 (max 16 (s.fld (govPage + 0x50) 0 9 - 4))

/-- One raising step: k by 1/256 up to 1, then g by 12.5 MHz up to 2,000 (16 R491). -/
def State.raiseGK (s : State) : State :=
  if s.fld (govPage + 0x50) 0 9 < 256 then s.setGK s.ceil2 (s.fld (govPage + 0x50) 0 9 + 1)
  else s.setGK (min 4000 (s.ceil2 + 25)) 256

/-- Whether the hottest junction lies above TJ_TARGET (16 R494). -/
def State.overTj (s : State) : Bool :=
  decide (s.fld (govPage + 0x44) 8 8 * 8 < s.fld (govPage + 0x64) 0 12)

/-- PG_STAT after a step: the stage, and its cause while one runs. -/
def State.setStat (s : State) (power thermal : Bool) : State :=
  let st := s.stage
  let c := b2n power + 2 * b2n thermal
  let cause := if st = 0 then 0 else if c = 0 then s.fld (govPage + 0x48) 2 2 else c
  s.setReg (govPage + 0x48) (BitVec.ofNat 32 (st + 4 * cause))

/-- A stage that begins enters PWR_CAP and raises STRETCH (16 R493). -/
def State.stageBegins (old : Nat) (s : State) : State :=
  if old < s.stage then (s.enterCode govPage Code.pwrCap).raiseIrq govPage 1 else s

/-- The bound of R36 in W: the cap, or the input voltage times 330 A if lower. -/
def State.bound (s : State) (mv : Nat) : Nat := min (s.fld (govPage + 0x40) 0 16) (mv * 330 / 1000)

/-- The measurements of a step: PG_VIN, PG_IIN, PG_POWER and PG_BOUND. -/
def State.measured (s : State) (mv ma avgW : Nat) : State :=
  (((s.setReg (govPage + 0x54) (BitVec.ofNat 32 (min mv 65535))).setReg (govPage + 0x58)
    (BitVec.ofNat 32 (min ma 0xFFFFF))).setReg (govPage + 0x5C) (BitVec.ofNat 32 (min avgW 65535))).setReg
    (govPage + 0x60) (BitVec.ofNat 32 (s.bound mv))

/-- Whether route state is armed on every die: in all 50,688 routers and the taps of four edge dies (R499 ROUTES). -/
def State.routesArmed (s : State) : Bool :=
  decide ((s.cores.filter (fun p => decide (p.1 < 50688) && (decide (p.2.rt0 ≠ .spare) || decide (p.2.rt1 ≠ .spare)))).length = 50688)
    && (List.range 4).all (fun e => decide ((s.tap e).b0 ≠ .spare) || decide ((s.tap e).b1 ≠ .spare))

/-- The readiness that the governor shows from 1 ms after the release of RESET_N: POWER; SCRATCHPAD, since the release
leaves every scratchpad zeroed; ROUTES; HEALTH while PG_FAULT.DIE is 0 (R499). -/
def State.started (s : State) : State :=
  let s1 := (s.setReady 0 true).setReady 11 true
  (if s1.routesArmed then s1.setReady 12 true else s1).setReady 13 (!s1.bit (govPage + 0x6C) 3)

/-- The 1 us step of the governor (16 R491 to R493). -/
def State.govStep (s : State) (mv ma avgW : Nat) : State :=
  let s1 := (s.measured mv ma avgW).inputBand mv
  let s2 := if 1000000 ≤ s1.time.toNat then s1.started else s1
  let high := decide (s2.bound mv < avgW)
  let s3 := if high || s2.overTj then s2.lower else s2
  let s4 := State.stageBegins s2.stage (s3.setStat high s2.overTj)
  if s4.stage = 0 then s4 else s4.incSat (govPage + 0x68)

/-- Every 1 us: the measurements, the input band, and one lowering step while the 1 ms average exceeds the bound or the
hottest junction its target. -/
def execGovernorStep (mv ma avgW : Nat) (s : State) : Host.Outcome State Fault Refusal :=
  done (s.whenUp fun s => s.govStep mv ma avgW)

/-- Every 10 us below 97 % of the bound, and with no junction over its target: one raising step (16 R491, R494). -/
def execGovernorRaise (avgW : Nat) (s : State) : Host.Outcome State Fault Refusal :=
  done (s.whenUp fun s =>
    if avgW * 100 < s.fld (govPage + 0x60) 0 16 * 97 ∧ s.overTj = false then (s.raiseGK).setStat false false else s)

/-- The hottest junction is read: PG_TJ, the target, 100 °C (16 R494). -/
def State.junction (s : State) (tj die : Nat) : State :=
  let before := s.overTj
  let hot := decide (800 ≤ tj)
  let s1 := s.setReg (govPage + 0x64) (BitVec.ofNat 32 (min tj 4095 + die * 65536))
  let s2 := if s1.overTj && !before then (s1.enterCode govPage Code.thermal).raiseIrq govPage 2 else s1
  let s3 := { s2 with hotJunction := hot }
  let s4 := if hot && !s.hotJunction then (s3.raiseIrq govPage 2).eventAll Code.thermal Blk.gov.type (BitVec.ofNat 32 die) else s3
  State.pins s (s4.setReady 14 (!hot))

/-- Every 10 us the junction sensors are read; tj is the hottest in 1/8 °C. -/
def execJunctionRead (tj : Nat) (die : Fin 28) (s : State) : Host.Outcome State Fault Refusal :=
  done (s.whenUp fun s => s.junction tj die.val)

/-- A junction at 110 °C or above for 100 us: every core island and edge-fabric clock stops with its state held, and
only a reset restarts the module (16 R494). -/
def execThermalTrip (_die : Fin 28) (s : State) : Host.Outcome State Fault Refusal :=
  done (s.whenUp fun s => { s.pgFault 2 (some Code.thermal) with tripped := true })

/-- A change of an island's effective frequency takes effect, within 200 ns of its cause: the island runs on at the
frequency that R488 gives it, which CLK_EFF shows (16 R489). -/
def execIslandClockChange (c : CoreId) (s : State) : Host.Outcome State Fault Refusal :=
  done (s.whenUp fun s => s.setEff (coreNo c) (s.fEff (coreNo c)))

/-- A value as CLK_SET takes it, and whether it was clamped (16 R504). -/
def clkClamp (v : Nat) : Nat × Bool :=
  let f := v % 4096
  if f < 900 then (900, true) else if 2000 < f then (2000, true) else (f, false)

/-- CLK_ALL: CLK_SET of every core island of the die (16 R504). -/
def State.clkAllSet (s : State) (die v : Nat) : State :=
  let r := clkClamp v
  let s1 := { s with clkSet := Sparse.putRange 900 s.clkSet (die * 2112) 2112 r.1 }
  if r.2 then s1.clampAt (timePage die) 0x90 else s1

/-- A write of CLK_ALL. On an edge die the register is not listed and the write is ignored (17 R21). -/
def execClkAll (who : Party) (die : Fin 28) (v : Word) (s : State) : Host.Outcome State Fault Refusal :=
  done (s.whenUp fun s =>
    s.ctl who (timePage die.val + 0x90) fun s => if die.val < 24 then s.clkAllSet die.val v.toNat else s)

/-- Every lane that holds lock loses it (16 R486): LOCK_LOST of its quad. -/
def State.refLostLanes (s : State) : State :=
  (List.range 64).foldl (fun s k =>
    let l := s.lane k
    if l.lock then
      (s.setLane k { l with lock := false, prbs := false }).raiseIrq (edgePage (k / 16) (0xF200 + k % 16 / 4)) 1
    else s) s

/-- Time enters HOLDOVER: TIME_STAT.LOCKED 0, HOLDOVER 1, HOLDOVER raised (13 R423). The status is kept on die 24; the
other dies' pages show it. -/
def State.holdover (s : State) : State :=
  ((s.setFld (timePage 24 + 0x44) 1 1 0).setFld (timePage 24 + 0x44) 2 1 1).raiseIrq (timePage 24) 2

/-- The 100 MHz or the 156.25 MHz reference (lane = true) is absent for 10 us: PG_FAULT.REF and CLK_REF, HOLDOVER, and
the lanes lose lock. R486 gives all of it to either reference. -/
def execRefLoss (_lane : Bool) (s : State) : Host.Outcome State Fault Refusal :=
  done (s.whenUp fun s => ((s.pgFault 1 (some Code.clkRef)).holdover).refLostLanes)

end Sys2Proof.Machine
end

