-- ==== Sys2Proof/Machine/Lpddr.lean ====
section
/-! DEFINITION. LPDDR memory (chapter 12): channels and windows (R377 to R379), lines with poison (R381 to R383), late
requests (R386), refresh (R388, R389), self-refresh (R390, R391), training (R392 to R394), scrubbing (R395). The order in which a
channel serves its queues (R384, R385, R387) decides only when a request is served: a request is served with the command that
makes it, and what its wait would show is free (assumption 67). -/
namespace Sys2Proof.Machine

/-! Addresses (R377, R378, R380) -/

/-- The channel and channel offset of a physical address. -/
def chanCo (pa : Nat) : Nat × Nat := (pa / 256 % 96, pa / 256 / 96 * 256 + pa % 256)

/-- The physical address of a channel offset. -/
def paOf (ch co : Nat) : Nat := (co / 256 * 96 + ch) * 256 + co % 256

/-- The global number of a channel. -/
def chanNo (c : Chan) : Nat := c.e.val * 24 + c.l.val

/-- Bytes of a channel. -/
def chanBytes : Nat := Config.chanGiB * 2 ^ 30

/-- The PASR segment of a channel offset: its top three bits. -/
def segOf (co : Nat) : Nat := co / (chanBytes / 8)

/-- The bank (rank, bank, group) and the row of a channel offset (R380). -/
def bankRow (co : Nat) : Nat × Nat :=
  ((bits co 15 1) * 16 + (bits co 13 2 ^^^ bits co 18 2) * 4 + (bits co 11 2 ^^^ bits co 16 2), co / 65536)

/-! Windows (R378, R379) -/

/-- The key of LPD_WIN_t_LO on the window page of edge die 24 + e. -/
def winKey (e t : Nat) : Nat := edgePage e 0xF118 + 0x100 + 8 * t

/-- Base and size in bytes of tenant t's window, if it is VALID. -/
def State.window (s : State) (e t : Nat) : Option (Nat × Nat) :=
  if t ≠ 0 ∧ t < 64 ∧ s.bit (winKey e t) 31 then
    some (s.fld (winKey e t) 0 15 * (96 * 2 ^ 20), s.fld (winKey e t + 4) 0 21 * 2 ^ 20)
  else none

/-- The physical address of a request of a TENANT for len bytes at an offset, judged by the window page of edge die
24 + e, or the code that refuses it. -/
def State.translate (s : State) (e : Nat) (t : BitVec 8) (o len : Nat) : Except (BitVec 16) Nat :=
  if t = 0xFF then if o + len ≤ Config.lpddrBytes then .ok o else .error Code.netRouteNone
  else match s.window e t.toNat with
    | some (b, sz) => if o + len ≤ sz then .ok (b + o) else .error Code.netPartition
    | none => .error Code.netPartition

/-- Whether the windows of a page leave a range of bytes to tenant t: inside the installed capacity, meeting no other
VALID window. -/
def State.windowFits (s : State) (e t base size : Nat) : Bool :=
  decide (base + size ≤ Config.lpddrBytes) && (List.range 64).all (fun u =>
    match s.window e u with
    | some (b, sz) => decide (u = t) || decide (base + size ≤ b) || decide (b + sz ≤ base) || decide (size = 0) || decide (sz = 0)
    | none => true)

/-- A write of a window register under the rules of R379. -/
def State.winWrite (s : State) (e t : Nat) (hi : Bool) (v : Word) : State :=
  let k := winKey e t
  let off := 0x100 + 8 * t + (if hi then 4 else 0)
  if t = 0 then s
  else if s.bit k 31 then
    if !hi && !v.getLsbD 31 then s.setReg k (v &&& 0x7FFF) else s.clampAt (edgePage e 0xF118) off
  else if hi then s.setReg (k + 4) (v &&& 0x1FFFFF)
  else if !v.getLsbD 31 then s.setReg k (v &&& 0x7FFF)
  else if s.windowFits e t (bits v.toNat 0 15 * (96 * 2 ^ 20)) (s.fld (k + 4) 0 21 * 2 ^ 20) then s.setReg k (v &&& 0x80007FFF)
  else s.clampAt (edgePage e 0xF118) off

/-- LPD_WIN_WRITE. -/
def execLpdWinWrite (who : Party) (e : Fin 4) (t : Fin 64) (hi : Bool) (v : Word) (s : State) : Host.Outcome State Fault Refusal :=
  done (s.whenUp fun s => s.ctl who (winKey e.val t.val + (if hi then 4 else 0)) fun s => s.winWrite e.val t.val hi v)

/-! Lines (R381 to R383) -/

/-- Whether requests to a channel are served, answered with an error (OFFLINE), or wait. -/
def State.chanServes (s : State) (ch : Nat) : Bool := decide ((s.chan ch).st = .active)
def State.chanOffline (s : State) (ch : Nat) : Bool := decide ((s.chan ch).st = .offline)

/-- Whether a line lost its contents to a masked segment and has not been written since (R391). -/
def State.lineLost (s : State) (pa : Nat) : Bool :=
  let c := chanCo pa
  (s.chan c.1).lost.getLsbD (segOf c.2) && !Sparse.get (fun _ => false) s.lfresh (pa / 64)

/-- The tenant whose window holds a physical address, by the page of an edge die, and the offset in it. -/
def State.winTenant (s : State) (e pa : Nat) : Option (Nat × Nat) :=
  (List.range 64).findSome? (fun t =>
    match s.window e t with
    | some (b, sz) => if b ≤ pa ∧ pa < b + sz then some (t, pa - b) else none
    | none => none)

/-- An uncorrectable or poisoned line is read: counted, captured, raised, entered, and told to the window's tenant. -/
def State.lpdUnc (s : State) (pa : Nat) (stored : Bool) : State :=
  let c := chanCo pa
  let pg := lpdPage c.1
  let s1 := s.incSat (pg + 0x84)
  let s2 := if s1.bit (pg + 0x88) 0 then s1
    else (s1.setReg (pg + 0x88) (BitVec.ofNat 32 (1 + b2n stored * 2 + c.2 / 64 % 2 ^ 26 * 64))).setReg (pg + 0x8C)
      (BitVec.ofNat 32 (c.2 / 2 ^ 32 % 4))
  let s3 := (s2.raiseIrq pg 1).enterCode pg Code.memUncorrectable
  match s3.winTenant (c.1 / 24) pa with
  | some (t, o) => s3.event t Code.memUncorrectable 0 0xFFFF 0xFFFF Blk.lpd.type (BitVec.ofNat 32 (o / 64))
  | none => s3

/-- An access to a row: when it activates the row, a draw selects the activate for neighbour refresh; a full queue serves
its oldest entry first (R389). Whether a row is open, and the draw, are free (assumption 1). -/
def State.activate (s : State) (pa : Nat) : State :=
  let c := chanCo pa
  let pg := lpdPage c.1
  let n := s.fld (pg + 0x4C) 0 13
  if n = 0 then s
  else
    let d := s.draw.1
    let s1 := s.draw.2
    if d % 2 = 0 ∨ n ≤ d / 2 % 65536 then s1
    else
      let r := bankRow c.2
      let ch := s1.chan c.1
      let q := Sparse.get (fun _ => []) ch.neighbours r.1
      let s2 := if 4 ≤ q.length then (s1.incWrap (pg + 0x90)).incSat (pg + 0x94) else s1
      s2.setChan c.1 { ch with neighbours := Sparse.put (fun _ => []) ch.neighbours r.1 ((if 4 ≤ q.length then q.drop 1 else q) ++ [r.2]) }

/-- A request of a port 0 to 3 is served. Whether its age had reached the target LPD_TGT_p is free; one that had is counted in
LPD_LATE_p and raises LATE (R386). -/
def State.served (s : State) (pa port : Nat) : State :=
  let pg := lpdPage (chanCo pa).1
  let s1 := s.draw.2.activate pa
  if s.draw.1 % 2 = 1 then (s1.incSat (pg + 0x70 + 4 * port)).raiseIrq pg 4 else s1

/-- A read meets a queued write of its line or not, which is free; one that does puts its row into in-order mode (R385). -/
def State.metWrite (s : State) (pa : Nat) : State :=
  if s.draw.1 % 2 = 1 then s.draw.2.incWrap (lpdPage (chanCo pa).1 + 0x9C) else s.draw.2

/-- The bytes of a line whose contents were lost: arbitrary, or uncorrectable. -/
def freeLine (c : Nat) : List Byte := (List.range 64).map (fun i => BitVec.ofNat 8 (Config.free (c + 1 + i)))

/-- Reads the line at pa for a port: its bytes, and whether they are poisoned or uncorrectable. -/
def State.readLine (s : State) (port pa : Nat) (e : LineEcc) : State × List Byte × Bool :=
  let pg := lpdPage (chanCo pa).1
  let s0 := ((s.served pa port).metWrite pa).incWrap (pg + 0xA4)
  let stored := Sparse.get (fun _ => false) s0.lpoison (pa / 64)
  if s0.lineLost pa then
    let c := s0.freeCtr
    let s1 := { s0 with freeCtr := c + 65 }
    if Config.free c % 2 = 1 then (s1.lpdUnc pa false, freeLine c, true) else (s1, freeLine c, false)
  else
    let d := Memory.readN s0.lpddr pa 64
    if stored then (s0.lpdUnc pa true, d, true)
    else match e with
      | .clean => (s0, d, false)
      | .corrected => (s0.incSat (pg + 0x80), d, false)
      | .uncorrectable => (s0.lpdUnc pa false, d, true)

/-- Stores a whole line with valid check bytes, or poisoned. -/
def State.storeLine (s : State) (pa : Nat) (data : List Byte) (poisoned : Bool) : State :=
  { s with
    lpddr := Memory.writeN s.lpddr pa (bytesAt data 0 64),
    lpoison := Sparse.put (fun _ => false) s.lpoison (pa / 64) poisoned,
    lfresh := if (s.chan (chanCo pa).1).lost.getLsbD (segOf (chanCo pa).2) then Sparse.put (fun _ => false) s.lfresh (pa / 64) true else s.lfresh }

/-- Bytes merged over a line under byte enables. -/
def mergeLine (old new : List Byte) (be : Dword) : List Byte :=
  (List.range 64).map (fun i => if be.getLsbD i then new.getD i 0 else old.getD i 0)

/-- Writes a line for a port under byte enables (R382): a whole line clears poison; a partial write to a line that reads poisoned or
uncorrectable leaves it poisoned and is answered MEM_UNCORRECTABLE. -/
def State.writeLine (s : State) (port pa : Nat) (be : Dword) (data : List Byte) (e : LineEcc) : State × BitVec 16 :=
  let pg := lpdPage (chanCo pa).1
  if be = 0xFFFFFFFFFFFFFFFF then (((s.served pa port).storeLine pa data false).incWrap (pg + 0xA8), 0)
  else
    let r := s.readLine port pa e
    if r.2.2 then ((r.1.storeLine pa r.2.1 true).incWrap (pg + 0xA8), Code.memUncorrectable)
    else ((r.1.storeLine pa (mergeLine r.2.1 data be) false).incWrap (pg + 0xA8), 0)

/-! Refresh (R388, R389) -/

/-- Runs on a channel's page. -/
def State.modChan (s : State) (ch : Nat) (f : ChanRun → ChanRun) : State := s.setChan ch (f (s.chan ch))

/-- A refresh of a bank falls due: postponed under urgent traffic up to 8 times, then forced; without urgent traffic it is
issued, and the postponed ones with it. In self-refresh, and before training, the controller issues none. -/
def State.refreshDue (s : State) (ch bank : Nat) (urgent : Bool) : State :=
  let c := s.chan ch
  let p := Sparse.get (fun _ => 0) c.postponed bank
  if c.st ≠ .active then s
  else if urgent = true ∧ p < 8 then s.setChan ch { c with postponed := Sparse.put (fun _ => 0) c.postponed bank (p + 1) }
  else
    let s1 := s.setChan ch { c with postponed := Sparse.put (fun _ => 0) c.postponed bank 0 }
    if urgent then s1.incSat (lpdPage ch + 0x98) else s1

/-- REFRESH. -/
def execRefresh (ch : Chan) (bank : Fin 32) (urgent : Bool) (s : State) : Host.Outcome State Fault Refusal :=
  done (s.whenUp fun s => s.refreshDue (chanNo ch) bank.val urgent)

/-- The reading of the device temperature: HOT follows it; a reading above range raises HOT and enters THERMAL. -/
def State.temperature (s : State) (ch : Nat) (hot : Bool) : State :=
  let pg := lpdPage ch
  let s1 := s.setFld (pg + 0x40) 4 1 (b2n hot)
  State.pins s (if hot then (s1.raiseIrq pg 8).enterCode pg Code.thermal else s1)

/-- TEMPERATURE_POLL. -/
def execTemperaturePoll (ch : Chan) (hot : Bool) (s : State) : Host.Outcome State Fault Refusal :=
  done (s.whenUp fun s => s.temperature (chanNo ch) hot)

/-- NEIGHBOUR_REFRESH: the oldest entry of a bank's neighbour queue is served. -/
def execNeighbourRefresh (ch : Chan) (bank : Fin 32) (s : State) : Host.Outcome State Fault Refusal :=
  done (s.whenUp fun s =>
    let k := chanNo ch
    let c := s.chan k
    match Sparse.get (fun _ => []) c.neighbours bank.val with
    | [] => s
    | _ :: r =>
      (s.setChan k { c with neighbours := Sparse.put (fun _ => []) c.neighbours bank.val r }).incWrap (lpdPage k + 0x90))

/-! Self-refresh (R390, R391) -/

/-- Sets a channel's state and shows it in LPD_STAT. -/
def State.chanTo (s : State) (ch : Nat) (st : ChanState) : State :=
  let v := match st with | .untrained => 0 | .training => 1 | .active => 2 | .selfRefresh => 3 | .offline => 4
  (s.modChan ch (fun c => { c with st := st })).setFld (lpdPage ch + 0x40) 0 3 v

/-- Enters self-refresh: the mask takes effect, and the masked segments lose their contents. -/
def State.enterSelfRefresh (s : State) (ch : Nat) : State :=
  let mask : BitVec 8 := BitVec.ofNat 8 (s.fld (lpdPage ch + 0x54) 0 8)
  let s1 := (s.modChan ch (fun c => { c with maskNow := mask, lost := c.lost ||| mask })).incWrap (lpdPage ch + 0xA0)
  { s1 with
    lfresh := s1.lfresh.filter (fun p =>
      decide ((chanCo (p.1 * 64)).1 ≠ ch) || !mask.getLsbD (segOf (chanCo (p.1 * 64)).2)) }.chanTo ch .selfRefresh

/-- SELF_REFRESH_ENTRY: an ACTIVE channel with SR_EN whose queues have been empty. -/
def execSelfRefreshEntry (ch : Chan) (s : State) : Host.Outcome State Fault Refusal :=
  done (s.whenUp fun s =>
    let k := chanNo ch
    if (s.chan k).st = .active ∧ (s.chan k).helper = .none ∧ s.bit (lpdPage k + 0x44) 1 then s.enterSelfRefresh k else s)

/-- Writes the delays of pins 0, 1, ... (R394). -/
def State.setDelays (s : State) (ch : Nat) (dly : List (BitVec 6 × BitVec 6)) : State :=
  ((dly.take 24).zipIdx).foldl (fun s p => s.setReg (lpdPage ch + 0x1A0 + 4 * p.2) (BitVec.ofNat 32 (p.1.1.toNat + p.1.2.toNat * 256))) s

/-- SELF_REFRESH_EXIT: a re-centring that waited is made on the exit. -/
def execSelfRefreshExit (ch : Chan) (s : State) : Host.Outcome State Fault Refusal :=
  done (s.whenUp fun s =>
    let k := chanNo ch
    if (s.chan k).st = .selfRefresh then
      ((s.setDelays k (s.chan k).recentre).modChan k (fun c => { c with recentre := [], maskNow := 0 })).chanTo k .active
    else s)

/-- RECENTRE: at once on an ACTIVE channel, on the next exit in self-refresh. -/
def execRecentre (ch : Chan) (dly : List (BitVec 6 × BitVec 6)) (s : State) : Host.Outcome State Fault Refusal :=
  done (s.whenUp fun s =>
    let k := chanNo ch
    match (s.chan k).st with
    | .active => s.setDelays k dly
    | .selfRefresh => s.modChan k (fun c => { c with recentre := dly })
    | _ => s)

/-! Scrubbing (R395) -/

/-- The scrubber reads a line: corrected, or rewritten as poisoned and reported; a line already poisoned stays so. -/
def State.scrubLine (s : State) (ch co : Nat) (e : LineEcc) : State :=
  let pa := paOf ch (co / 64 * 64)
  let c := s.chan ch
  let masked := decide (c.st = .selfRefresh) && c.maskNow.getLsbD (segOf co)
  if !s.bit (lpdPage ch + 0x44) 0 || masked || !(decide (c.st = .active) || decide (c.st = .selfRefresh)) || decide (chanBytes ≤ co) then s
  else if Sparse.get (fun _ => false) s.lpoison (pa / 64) then s
  else match e with
    | .clean => s
    | .corrected => s.incSat (lpdPage ch + 0x80)
    | .uncorrectable => { (s.lpdUnc pa false) with lpoison := Sparse.put (fun _ => false) s.lpoison (pa / 64) true }

/-- LPDDR_SCRUB. -/
def execLpddrScrub (ch : Chan) (co : Nat) (e : LineEcc) (s : State) : Host.Outcome State Fault Refusal :=
  done (s.whenUp fun s => s.scrubLine (chanNo ch) co e)

/-! Training (R392, R393) -/

/-- A write of LPD_TR_CTRL: a command that is not taken is ignored and recorded. -/
def State.trTake (s : State) (ch : Nat) (h : Helper) : State :=
  let c := s.chan ch
  let pg := lpdPage ch
  if (c.st = .training ∨ c.st = .active) ∧ c.helper = .none then
    let s1 := (s.setChan ch { c with helper := h }).setFld (pg + 0x11C) 0 1 1
    if h = .run then (List.range 24).foldl (fun s k => s.setReg (pg + 0x140 + 4 * k) 0xFFFF0000) s1 else s1
  else s.clampAt pg 0x100

/-- TRAINING_RUN. -/
def execTrainingRun (who : Party) (ch : Chan) (s : State) : Host.Outcome State Fault Refusal :=
  done (s.whenUp fun s => s.ctl who (lpdPage (chanNo ch) + 0x100) fun s => s.trTake (chanNo ch) .run)

/-- LPD_TR_CTRL.STOP: a run ends after the burst in progress. -/
def State.trStop (s : State) (ch : Nat) : State := s.modChan ch (fun c => if c.helper = .run then { c with helper := .stopping } else c)

/-- TRAINING_STOP. -/
def execTrainingStop (who : Party) (ch : Chan) (s : State) : Host.Outcome State Fault Refusal :=
  done (s.whenUp fun s => s.ctl who (lpdPage (chanNo ch) + 0x100) fun s => s.trStop (chanNo ch))

/-- FILL. -/
def execFill (who : Party) (ch : Chan) (s : State) : Host.Outcome State Fault Refusal :=
  done (s.whenUp fun s => s.ctl who (lpdPage (chanNo ch) + 0x100) fun s => s.trTake (chanNo ch) .fill)

/-- The first line and the number of lines of a FILL that lie in the channel. -/
def State.fillRange (s : State) (ch : Nat) : Nat × Nat :=
  let pg := lpdPage ch
  let co := (s.fld (pg + 0x114) 6 26 * 64 + s.fld (pg + 0x118) 0 2 * 2 ^ 32)
  (co / 64, min (s.fld (pg + 0x110) 0 24) ((chanBytes - co) / 64))

/-- The bytes of a pattern line: the fixed pattern repeated; the spec gives no layout of the others on a line, and they are
free. -/
def State.patternLine (s : State) (ch : Nat) : List Byte :=
  let pg := lpdPage ch
  if s.fld (pg + 0x104) 0 3 = 5 then (List.replicate 16 (leBytes 4 (s.reg (pg + 0x10C)).toNat)).flatten
  else freeLine s.freeCtr

/-- A FILL writes its lines with valid check bytes. Zeros remove what is listed there. -/
def State.fillLines (s : State) (ch : Nat) : State :=
  let r := s.fillRange ch
  let hit (pa : Nat) : Bool := decide ((chanCo pa).1 = ch) && decide (r.1 ≤ (chanCo pa).2 / 64) && decide ((chanCo pa).2 / 64 < r.1 + r.2)
  let s1 := { s with
    lpddr := s.lpddr.filter (fun p => !hit p.1),
    lpoison := s.lpoison.filter (fun p => !hit (p.1 * 64)) }
  let s2 := s1.incWrap (lpdPage ch + 0xA8) r.2
  let zero := decide (s.fld (lpdPage ch + 0x104) 0 3 = 5) && decide (s.reg (lpdPage ch + 0x10C) = 0)
  if zero && decide ((s.chan ch).lost = 0) then s2
  else (List.range r.2).foldl (fun s i =>
    let d := s.patternLine ch
    ({ s with freeCtr := s.freeCtr + 65 }).storeLine (paOf ch ((r.1 + i) * 64)) d false) s2

/-- TR_DONE: a run ends with its compare errors (pin, errors, first failing burst), or a FILL has written its lines. -/
def execTrDone (ch : Chan) (errs : List (Nat × BitVec 16 × BitVec 16)) (s : State) : Host.Outcome State Fault Refusal :=
  done (s.whenUp fun s =>
    let k := chanNo ch
    let pg := lpdPage k
    let ends (s : State) : State := ((s.modChan k (fun c => { c with helper := .none })).setFld (pg + 0x11C) 0 1 0).raiseIrq pg 16
    match (s.chan k).helper with
    | .none => s
    | .fill => ends (s.fillLines k)
    | _ =>
      let l := errs.filter (fun x => decide (x.1 < 24))
      let s1 := l.foldl (fun s x => s.setReg (pg + 0x140 + 4 * x.1) (x.2.2 ++ x.2.1)) s
      ends (s1.setFld (pg + 0x11C) 1 1 (b2n (l.any (fun x => decide (x.2.1 ≠ 0))))))

/-- LPD_CTRL.BEGIN: the devices are reset and initialised at the boot rate. -/
def State.lpdBegin (s : State) (k : Nat) : State :=
  if (s.chan k).st = .untrained ∨ (s.chan k).st = .offline then s.chanTo k .training else s.clampAt (lpdPage k) 0x48

/-- LPD_CTRL.GO: the trained channel is ACTIVE, at 12,800 Mb/s or, derated, at 9,600. The last of 96 sets
PG_READY.LPDDR (16 R499). -/
def State.lpdGo (s : State) (k : Nat) (fullRate : Bool) : State :=
  if (s.chan k).st = .training then
    let s1 := ((s.chanTo k .active).setFld (lpdPage k + 0x40) 8 8 (if fullRate then 128 else 96)).setFld (lpdPage k + 0x40) 3 1
      (b2n (!fullRate))
    if (List.range 96).all (fun i => decide ((s1.chan i).st = .active) || decide ((s1.chan i).st = .selfRefresh)) then s1.setReady 10 true
    else s1
  else s.clampAt (lpdPage k) 0x48

/-- LPD_CTRL.OFFLINE. -/
def State.lpdOffline (s : State) (k : Nat) : State :=
  if (s.chan k).st = .untrained ∨ (s.chan k).st = .training then
    ((s.chanTo k .offline).raiseIrq (lpdPage k) 2).enterCode (lpdPage k) Code.memTrainFail
  else s.clampAt (lpdPage k) 0x48

/-- A write of LPD_CTRL.BEGIN. -/
def execLpdBegin (who : Party) (ch : Chan) (s : State) : Host.Outcome State Fault Refusal :=
  done (s.whenUp fun s => s.ctl who (lpdPage (chanNo ch) + 0x48) fun s => s.lpdBegin (chanNo ch))

/-- A write of LPD_CTRL.GO. -/
def execLpdGo (who : Party) (ch : Chan) (fullRate : Bool) (s : State) : Host.Outcome State Fault Refusal :=
  done (s.whenUp fun s => s.ctl who (lpdPage (chanNo ch) + 0x48) fun s => s.lpdGo (chanNo ch) fullRate)

/-- A write of LPD_CTRL.OFFLINE. -/
def execLpdOffline (who : Party) (ch : Chan) (s : State) : Host.Outcome State Fault Refusal :=
  done (s.whenUp fun s => s.ctl who (lpdPage (chanNo ch) + 0x48) fun s => s.lpdOffline (chanNo ch))

end Sys2Proof.Machine
end

