-- ==== Sys2Proof/Machine/Router.lean ====
section
/-! DEFINITION. The rigging's routers and taps (chapter 07): topology (R217 to R221), routing (R230 to R235), discards,
links and their replays (R226, R227, R272), the buffers, credits and slots by which flits move (R224, R231, R240 to R244), and
the route banks of routers and taps (R246, R247, R266). A flit moves on in the command that brings it, or, once it has had to
wait, as device time passes (assumption 76). -/
namespace Sys2Proof.Machine

/-! Headers (R228) -/

/-- A field of a header. -/
def hdrFld (h : BitVec 168) (lo w : Nat) : Nat := bits h.toNat lo w

/-- A header with a field replaced. -/
def hdrSet (h : BitVec 168) (lo w v : Nat) : BitVec 168 := BitVec.ofNat 168 (setBits h.toNat lo w v)

/-- The flits of a packet: the header rides in the first of its payload flits; a packet without payload is one flit. -/
def flitsOf (h : BitVec 168) : Nat := if hdrFld h 0 2 = 0 ∨ hdrFld h 0 2 = 3 then max 1 (hdrFld h 46 3) else 1

/-- The virtual channel of a header in route set A (0) or B (1) (R231). -/
def vcOf (h : BitVec 168) (set : Nat) : Nat :=
  (if hdrFld h 3 1 = 1 ∧ hdrFld h 0 2 = 0 then 8 else if 2 ≤ hdrFld h 0 2 then 4 else 0) + 2 * set + hdrFld h 117 1

/-- The flits of a packet. -/
def packetFlits (h : BitVec 168) (data : List Byte) : List Flit :=
  (List.range (flitsOf h)).map (fun i =>
    { hdr := h, first := decide (i = 0), tail := decide (i + 1 = flitsOf h), vc := BitVec.ofNat 4 (vcOf h 0),
      data := (data.drop (64 * i)).take 64 })

/-- Whether a header is malformed (R230). -/
def malformed (h : BitVec 168) : Bool :=
  let k := hdrFld h 0 2
  let len := hdrFld h 46 3
  (if k = 2 then decide (len ≠ 0) else decide (len = 0) || decide (4 < len))
    || (if hdrFld h 5 1 = 1 then decide (hdrFld h 15 7 / 64 ≠ hdrFld h 6 2 % 2) else decide (383 < hdrFld h 6 9))

/-! Topology (R218, R220, R221) -/

/-- One end of a link: a port of a router, of a tap, or of a stop of a memory plane. -/
inductive Place where
  | core (n p : Nat)
  | tap (e row p : Nat)
  | stop (plane x y p : Nat)
deriving DecidableEq, Repr

/-- The router page of a core. -/
def rtrPage (n : Nat) : Nat := corePage n 7

/-- The logical row of a core. -/
def rowOfCore (n : Nat) : Nat := n / 2112 / 6 * 32 + n % 2112 / 66

/-- The other end of a link of a router. Ports: 0 east, 1 west, 2 north, 3 south. -/
def coreFar (n p : Nat) : Option Place :=
  let d := n / 2112
  let cx := n % 66
  let cy := n % 2112 / 66
  let half := rowOfCore n / 64
  match p with
  | 0 => if cx < 65 then some (.core (n + 1) 1) else if d % 6 < 5 then some (.core ((d + 1) * 2112 + cy * 66) 1)
      else some (.tap (2 + half) (rowOfCore n) 1)
  | 1 => if 0 < cx then some (.core (n - 1) 0) else if 0 < d % 6 then some (.core ((d - 1) * 2112 + cy * 66 + 65) 0)
      else some (.tap half (rowOfCore n) 0)
  | 2 => if cy < 31 then some (.core (n + 66) 3) else if 64 ≤ cx then none
      else some (.core ((if d / 6 < 3 then d + 6 else d - 18) * 2112 + cx) 3)
  | _ => if 0 < cy then some (.core (n - 66) 2) else if 64 ≤ cx then none
      else some (.core ((if 0 < d / 6 then d - 6 else d + 18) * 2112 + 31 * 66 + cx) 2)

/-- The router that a wrap ends at. -/
def wrapCore (e row : Nat) : Nat := (row / 32 * 6 + (if e < 2 then 0 else 5)) * 2112 + row % 32 * 66 + (if e < 2 then 0 else 65)

/-- The other end of a link of a tap: its router, or the tap at the other side over the return path. -/
def tapFar (e row p : Nat) : Option Place :=
  if 2 ≤ p then none
  else if e < 2 then if p = 0 then some (.core (wrapCore e row) 1) else some (.tap (e + 2) row 0)
  else if p = 1 then some (.core (wrapCore e row) 0) else some (.tap (e - 2) row 1)

/-- The other end of a link of a stop. The mesh has 198 columns of stops, 1 to 198, and 32 rows; the edge dies stand at columns
0 and 199, which have no links north and south (R252). -/
def stopFar (plane x y p : Nat) : Option Place :=
  match p with
  | 0 => if x < 199 then some (.stop plane (x + 1) y 1) else none
  | 1 => if 0 < x then some (.stop plane (x - 1) y 0) else none
  | 2 => if y < 31 ∧ 0 < x ∧ x < 199 then some (.stop plane x (y + 1) 3) else none
  | 3 => if 0 < y ∧ 0 < x ∧ x < 199 then some (.stop plane x (y - 1) 2) else none
  | _ => none

/-- The other end of a link. -/
def Place.far : Place → Option Place
  | .core n p => coreFar n p
  | .tap e row p => tapFar e row p
  | .stop plane x y p => stopFar plane x y p

/-- Whether a port lies on a link that the two columns of a pair share (R218, R226). -/
def sharedLink (n p : Nat) : Bool :=
  decide (n % 66 < 64) && ((decide (p = 2) && decide (n % 2112 / 66 = 31)) || (decide (p = 3) && decide (n % 2112 / 66 = 0)))

/-- The router that is the end of a link: of a shared link, the one of the even column (R226). -/
def linkEndCore (n p : Nat) : Nat := if sharedLink n p then n - n % 66 % 2 else n

/-- The place of a node's port. -/
def nodePlace : Node → Nat → Place
  | .router c, p => .core (linkEndCore (coreNo c) p) p
  | .tap e row, p => .tap e.val row.val p
  | .stop plane x y, p => .stop plane.val x.val y.val p

/-! The memory planes' mesh (R252, R253) -/

/-- The die of a stop: each compute die has 33 columns and 8 rows of stops, each edge die the ends of 16 rows. -/
def stopDie (x y : Nat) : Nat :=
  if x = 0 then 24 + y / 16 else if x = 199 then 26 + y / 16 else y / 8 * 6 + (x - 1) / 33

/-- The number of a stop's port among all ends of plane links. -/
def stopKey (plane x y p : Nat) : Nat := ((plane * 200 + x) * 32 + y) * 4 + p

/-- Whether the link at an end numbered by stopKey crosses from one die to another. -/
def crossesDies (k : Nat) : Bool :=
  let x := k / 128 % 200
  let y := k / 4 % 32
  match stopFar 0 x y (k % 4) with
  | some (.stop _ a b _) => decide (stopDie x y ≠ stopDie a b)
  | _ => false

/-- Where a party of the memory planes attaches: the stop of a core or of a die's agent, or an edge die. -/
inductive PlaneEnd where
  | stop (x y : Nat)
  | edge (e : Nat)
deriving DecidableEq, Repr

/-- The attachment of a unit: cores cx = 2 sx, 2 sx + 1 and cy = 4 sy to 4 sy + 3 share stop (sx, sy); a die's agent, and the
other units of the die that are no core, are at its stop (0, 0). -/
def planeEnd (die unit : Nat) : PlaneEnd :=
  if 24 ≤ die then .edge (die - 24)
  else
    let i := if unit < 2112 then unit else 0
    .stop (1 + die % 6 * 33 + i % 66 / 2) (die / 6 * 8 + i / 66 / 4)

/-- The column of an edge die, and its attached row nearest to a row. -/
def edgeCol (e : Nat) : Nat := if e < 2 then 0 else 199
def edgeRow (e y : Nat) : Nat := max (16 * (e % 2)) (min y (16 * (e % 2) + 15))

/-- The virtual channel of a plane message and the corners of its way (R253): from a stop on channel 0 in Y, then X, to an edge
die by its nearest row; from an edge die on channel 1 in X, then Y. Where between two edge dies, which no link joins, is not
stated: in X to the last column of stops, in Y, and in. -/
def planeWay : PlaneEnd → PlaneEnd → Nat × List (Nat × Nat)
  | .stop x0 y0, .stop x1 y1 => (0, [(x0, y0), (x0, y1), (x1, y1)])
  | .stop x0 y0, .edge e => (0, [(x0, y0), (x0, edgeRow e y0), (edgeCol e, edgeRow e y0)])
  | .edge e, .stop x1 y1 => (1, [(edgeCol e, edgeRow e y1), (x1, edgeRow e y1), (x1, y1)])
  | .edge e, .edge d =>
    let y0 := edgeRow e 16
    let y1 := edgeRow d y0
    let x := if d < 2 then 1 else 198
    (1, [(edgeCol e, y0), (x, y0), (x, y1), (edgeCol d, y1)])

/-- Whether a way with these corners runs over the link east (p = 0) or north (p = 2) of (x, y). -/
def onWay (x y p : Nat) : List (Nat × Nat) → Bool
  | a :: b :: r =>
    (if p = 0 then decide (a.2 = y) && decide (b.2 = y) && decide (min a.1 b.1 ≤ x) && decide (x < max a.1 b.1)
      else decide (p = 2) && decide (a.1 = x) && decide (b.1 = x) && decide (min a.2 b.2 ≤ y) && decide (y < max a.2 b.2))
    || onWay x y p (b :: r)
  | _ => false

/-- Whether a plane carries a message: no link of its way is down. -/
def State.planeCarries (s : State) (plane : Nat) (src dst : PlaneEnd) : Bool :=
  s.planeDown.all (fun d => decide (d.1 / 25600 ≠ plane) || !onWay (d.1 / 128 % 200) (d.1 / 4 % 32) (d.1 % 4) (planeWay src dst).2)

/-! Where flits are (R224, R231) -/

/-- The switch that a place belongs to, and the number of the place's port in it. -/
def State.switchAt (s : State) : Place → Switch × Nat
  | .core n p => ((s.core n).sw, p)
  | .tap e row p => ((s.tap e).sw, row * 4 + p)
  | .stop _ _ _ _ => (.empty, 0)

/-- Replaces the switch that a place belongs to. -/
def State.setSwitch (s : State) (pl : Place) (w : Switch) : State :=
  match pl with
  | .core n _ => s.modCore n (fun c => { c with sw := w })
  | .tap e _ _ => s.setTap e { (s.tap e) with sw := w }
  | .stop _ _ _ _ => s

/-- The flits that an input port holds. -/
def State.heldAt (s : State) (pl : Place) : List Flit := Sparse.get (fun _ => []) (s.switchAt pl).1.held (s.switchAt pl).2

/-- The flits in the bridge of the link towards a place. -/
def State.bridgeAt (s : State) (pl : Place) : List Flit := Sparse.get (fun _ => []) (s.switchAt pl).1.bridge (s.switchAt pl).2

def State.setHeld (s : State) (pl : Place) (l : List Flit) : State :=
  let w := s.switchAt pl
  s.setSwitch pl { w.1 with held := Sparse.put (fun _ => []) w.1.held w.2 l }

def State.setBridge (s : State) (pl : Place) (l : List Flit) : State :=
  let w := s.switchAt pl
  s.setSwitch pl { w.1 with bridge := Sparse.put (fun _ => []) w.1.bridge w.2 l }

/-- The router of the other column of a pair. -/
def pairCore (n : Nat) : Nat := if n % 66 % 2 = 0 then n + 1 else n - 1

/-! Links (R226, R227) -/

/-- The agent page of a die. -/
def agtPage (die : Nat) : Nat := pageAt die 0xF003 0

/-- The link end at a place. -/
def State.linkAt (s : State) : Place → LinkEnd
  | .core n p => Sparse.get (fun _ => ⟨0, false⟩) (s.core n).links p
  | .tap e row p => Sparse.get (fun _ => ⟨0, false⟩) (s.tap e).links (row * 4 + p)
  | .stop plane x y p => Sparse.get (fun _ => ⟨0, false⟩) s.planeEnds (stopKey plane x y p)

def State.setLink (s : State) (pl : Place) (l : LinkEnd) : State :=
  match pl with
  | .core n p => s.modCore n (fun c => { c with links := Sparse.put (fun _ => (⟨0, false⟩ : LinkEnd)) c.links p l })
  | .tap e row p =>
    s.setTap e { (s.tap e) with links := Sparse.put (fun _ => (⟨0, false⟩ : LinkEnd)) (s.tap e).links (row * 4 + p) l }
  | .stop plane x y p => { s with planeEnds := Sparse.put (fun _ => (⟨0, false⟩ : LinkEnd)) s.planeEnds (stopKey plane x y p) l }

/-- Whether a link end is up. -/
def State.linkUp (s : State) : Place → Bool
  | .core n p => s.bit (rtrPage n + 0x50) p
  | .tap e row p => !Sparse.get (fun _ => false) (s.tap e).down (row * 4 + p)
  | .stop plane x y p => !Sparse.get (fun _ => false) s.planeDown (stopKey plane x y p)

/-- Shows a link end up or down: RTR_LINK_STAT of the router, and of the other column of a shared link; for a tap,
AGT_TAP_LINKS (R226, R537); for a stop, AGT_LINKS_DOWN, which counts the die's crossing links (R270). -/
def State.showLink (s : State) (pl : Place) (up : Bool) : State :=
  match pl with
  | .core n p =>
    let s1 := s.setFld (rtrPage n + 0x50) p 1 (b2n up)
    if sharedLink n p then s1.setFld (rtrPage (n + 1) + 0x50) p 1 (b2n up) else s1
  | .tap e row p =>
    let m := Sparse.put (fun _ => false) (s.tap e).down (row * 4 + p) (!up)
    (s.setTap e { (s.tap e) with down := m }).setReg (agtPage (24 + e) + 0x68) (BitVec.ofNat 32 m.length)
  | .stop plane x y p =>
    let m := Sparse.put (fun _ => false) s.planeDown (stopKey plane x y p) (!up)
    let here := m.filter (fun d => crossesDies d.1 && decide (stopDie (d.1 / 128 % 200) (d.1 / 4 % 32) = stopDie x y))
    ({ s with planeDown := m } : State).setReg (agtPage (stopDie x y) + 0x5C) (BitVec.ofNat 32 here.length)

/-- The report of a link end, KIND 2 or 3, about a router at its far end; the spec names no code for a down link and no
page for a tap, so these are free (R271, assumption 1). Of a memory-plane link the far die's agent is the suspect (08 R298);
an edge die has no health controller. -/
def State.linkReport (s : State) (pl : Place) (kind : Nat) : State :=
  match pl, pl.far with
  | .core n _, some (.core f q) =>
    s.draw.2.send (.report (f / 2112) (reportWord kind (f % 2112) (n % 2112) 7 (BitVec.ofNat 16 s.draw.1) q))
  | .tap _ _ _, some (.core f q) =>
    s.draw.2.send (.report (f / 2112) (reportWord kind (f % 2112) 0xFFF (s.draw.1 / 65536 % 16) (BitVec.ofNat 16 s.draw.1) q))
  | .stop _ _ _ _, some (.stop _ a b q) =>
    if stopDie a b < 24 then s.draw.2.send (.report (stopDie a b) (reportWord kind 0xF03 0xF03 0 (BitVec.ofNat 16 s.draw.1) q)) else s
  | _, _ => s

/-- What is on a link towards a place is lost: the replay buffer is empty when the link comes up again (R227). -/
def State.emptyLink (s : State) (pl : Place) : State :=
  match pl with
  | .core n p =>
    let s1 := s.setBridge pl []
    if sharedLink n p then s1.setBridge (.core (pairCore n) p) [] else s1
  | _ => s.setBridge pl []

/-- One end of a link goes down: a router raises LINK_DOWN; with kind 2 or 3 the end reports its far end (R226, R272). -/
def State.endDown (s : State) (pl : Place) (kind : Nat) : State :=
  let s1 := ((s.showLink pl false).setLink pl ⟨0, false⟩).emptyLink pl
  let s2 := match pl with
    | .core n _ => s1.raiseIrq (rtrPage n) 1
    | _ => s1
  if kind = 0 then s2 else s2.linkReport pl kind

/-- A link is declared down at both ends. -/
def State.linkDown (s : State) (pl : Place) (kind farKind : Nat) : State :=
  if !s.linkUp pl then s
  else
    let s1 := s.endDown pl kind
    match pl.far with
    | some q => s1.endDown q farKind
    | none => s1

/-- A flit with a bad CRC: it is discarded and a replay asked for; the eighth in a row is the seventh failed replay, and
the link goes down (R226). -/
def State.badCrc (s : State) (nd : Node) (p : Nat) : State :=
  let pl := nodePlace nd p
  let l := s.linkAt pl
  if 7 ≤ l.fails then s.linkDown pl 3 3
  else
    let s1 := (s.setLink pl { l with fails := l.fails + 1 }).send (.replay nd p)
    match pl with
    | .core n _ => s1.incSat (rtrPage n + 0x5C)
    | _ => s1

/-! Discards (R235, R265, R537) -/

/-- A router discards a flit that came in on a port. -/
def State.discard (s : State) (n cause inp : Nat) (f : Flit) : State :=
  let pg := rtrPage n
  let s1 := (s.incSat (pg + 0x54)).incWrap (pg + 0x64 + 4 * hdrFld f.hdr 2 1)
  let s2 := if s1.bit (pg + 0x58) 0 then s1
    else s1.setReg (pg + 0x58) (BitVec.ofNat 32 (1 + cause * 2 + inp * 16 + hdrFld f.hdr 57 12 * 65536))
  s2.raiseIrq pg 2

/-- Adds to a count of a tap. -/
def Taps.addInj (t : Taps) (k : Nat) : Taps := { t with inj := Sparse.put (fun _ => 0) t.inj k (Sparse.get (fun _ => 0) t.inj k + 1) }
def Taps.addRem (t : Taps) (k : Nat) : Taps := { t with rem := Sparse.put (fun _ => 0) t.rem k (Sparse.get (fun _ => 0) t.rem k + 1) }

/-- A tap discards a flit. -/
def State.tapDiscard (s : State) (e row cause : Nat) (f : Flit) : State :=
  let pg := agtPage (24 + e)
  let s1 := (s.setTap e ((s.tap e).addRem (hdrFld f.hdr 2 1))).incSat (pg + 0x60)
  if s1.bit (pg + 0x64) 0 then s1
  else s1.setReg (pg + 0x64) (BitVec.ofNat 32 (1 + cause * 2 + row * 256 + hdrFld f.hdr 57 12 * 65536))

/-! Routing (R232 to R235) -/

/-- What a router does with a flit: eject it, send it on (port, segment, whether a dimension starts, route set), or
discard it with MISROUTE. -/
inductive Hop where
  | eject
  | go (port seg : Nat) (start : Bool) (set : Nat)
  | lost
deriving DecidableEq, Repr

/-- The direction with fewer hops; ties go positive. -/
def dirX (src dst : Nat) : Nat := if (dst + 384 - src) % 384 ≤ 192 then 0 else 1
def dirY (src dst : Nat) : Nat := if (dst + 128 - src) % 128 ≤ 64 then 2 else 3

/-- The opposite port: a flit goes on in the direction it arrived. -/
def ahead (inp : Nat) : Nat := if inp % 2 = 0 then inp + 1 else inp - 1

/-- Dimension order (R232) and edge destinations (R233) at a router with logical X `lx`, if it has one, and logical Y
`ly`. -/
def hopPlain (lx : Option Nat) (ly inp : Nat) (h : BitVec 168) : Hop :=
  let dx := hdrFld h 6 9
  let dy := hdrFld h 15 7
  let edge := decide (hdrFld h 5 1 = 1)
  let moveX := decide (inp < 2)
  match lx with
  | none => if inp = 4 then .lost else .go (ahead inp) (hdrFld h 115 2) false (if edge && moveX then 1 else 0)
  | some x =>
    if edge then
      if moveX then .go (ahead inp) 0 false 1
      else if ly = dy then .go (if hdrFld h 6 2 < 2 then 1 else 0) 0 true 1
      else if inp = 4 then .go (dirY ly dy) 0 true 0
      else .go (ahead inp) 0 false 0
    else if inp = 2 ∨ inp = 3 then
      if ly ≠ dy then .go (ahead inp) 0 false 0 else if x = dx then .eject else .lost
    else if x ≠ dx then if inp = 4 then .go (dirX x dx) 0 true 0 else .go (ahead inp) 0 false 0
    else if ly = dy then .eject
    else .go (dirY ly dy) 0 true 0

/-- A source route from segment i on (R234); `moved` says that a segment has ended at this router. `free` stands for the
shortest direction in X from a router without logical X, which the spec does not give. -/
def hopRoute (lx : Option Nat) (ly inp : Nat) (h : BitVec 168) (free : Nat) : Nat → Nat → Bool → Hop
  | 0, _, _ => if hdrFld h 5 1 = 1 then .lost else if lx = some (hdrFld h 6 9) ∧ ly = hdrFld h 15 7 then .eject else .lost
  | fuel + 1, i, moved =>
    let r := hdrFld h (119 + 12 * i) 12
    let inX := decide (i % 2 = 0)
    let target := if bits r 2 1 = 1 then bits r 3 9 else if inX then hdrFld h 6 9 else hdrFld h 15 7
    let there := if inX then decide (lx = some target) else decide (ly = target)
    if bits r 0 2 = 0 ∨ there = true then hopRoute lx ly inp h free fuel (i + 1) true
    else if !moved && decide (inp ≠ 4) && decide ((inp < 2) = (inX = true)) then .go (ahead inp) i false (i / 2)
    else
      let p := match bits r 0 2 with
        | 1 => if inX then (match lx with | some x => dirX x target | none => free % 2) else dirY ly target
        | 2 => if inX then 0 else 2
        | _ => if inX then 1 else 3
      .go p i true (i / 2)

/-- A router's banks. -/
def Core.rtBank (c : Core) (b : Nat) : Bank := if b = 0 then c.rt0 else c.rt1

/-! Flits inside routers and taps (R224, R231, R240, R241, R244) -/

/-- How many flits are in the bridge of the link towards a place; two columns share the bridge of a shared link. -/
def State.bridgeLen (s : State) (pl : Place) : Nat :=
  (s.bridgeAt pl).length + (match pl with
    | .core n p => if sharedLink n p then (s.bridgeAt (.core (pairCore n) p)).length else 0
    | _ => 0)

/-- Whether the sender has a credit for channel v towards an input port that holds, or is about to get, the flits l (R231): 4
flits of a channel; beyond them, the guaranteed channels share 48 places. -/
def credit (l : List Flit) (v : Nat) : Bool :=
  let count (w : Nat) : Nat := (l.filter (fun f => decide (f.vc.toNat = w))).length
  decide (count v < 4) || (decide (8 ≤ v) && decide (((List.range 4).foldl (fun m i => m + (count (8 + i) - 4)) 0) < 48))

/-- Whether the link towards a place takes a flit of channel v now (R224). -/
def State.mayCarry (s : State) (pl : Place) (v : Nat) : Bool :=
  decide (s.bridgeLen pl < 16) && credit (s.heldAt pl ++ s.bridgeAt pl) v

/-- The first flit of each channel at an input port. -/
def headFlits (l : List Flit) : List Flit := (List.range 16).filterMap (fun v => l.find? (fun f => decide (f.vc.toNat = v)))

/-- What becomes of a flit at a router or tap. -/
inductive Out where
  | eject
  | discard (cause : Nat)
  | go (port : Nat) (f : Flit)
deriving DecidableEq, Repr

/-- What becomes of a flit at a router, from input port inp (R230 to R235, R246). -/
def State.routeOut (s : State) (n inp : Nat) (f : Flit) : Out :=
  let b := hdrFld f.hdr 2 1
  let st := rtrPage n + 0x40 + 4 * b
  let lx := if s.bit st 9 then some (s.fld st 0 9) else none
  let ly := s.fld st 16 7
  if malformed f.hdr then .discard 0
  else if (s.core n).rtBank b = .spare then .discard 4
  else
    let seg := hdrFld f.hdr 115 2
    match (if hdrFld f.hdr 4 1 = 1 then hopRoute lx ly inp f.hdr s.draw.1 (4 - seg) seg false else hopPlain lx ly inp f.hdr) with
    | .eject => .eject
    | .lost => .discard 4
    | .go p seg start set =>
      let dl := if start then 0 else hdrFld f.hdr 117 1
      let wrap := s.bit st (24 + p)
      if (coreFar n p).isSome && (!s.linkUp (.core n p) || s.bit st (28 + p)) then .discard 1
      else if (coreFar n p).isNone then .discard 2
      else if wrap = true ∧ dl = 1 then .discard 3
      else
        let h := hdrSet (hdrSet f.hdr 115 2 seg) 117 1 (if wrap then 1 else dl)
        .go p { f with hdr := h, vc := BitVec.ofNat 4 (vcOf h set) }

/-- Whether the route of a flit at a router rests on a free choice: a source route where the router has no logical X. -/
def State.routeFree (s : State) (n : Nat) (f : Flit) : Bool :=
  decide (hdrFld f.hdr 4 1 = 1) && !s.bit (rtrPage n + 0x40 + 4 * hdrFld f.hdr 2 1) 9

/-- The slot in progress (R239). -/
def State.slotNow (s : State) : Nat := s.time.toNat % 1024 / 4

/-- The input that a router's slot map names for slot i of output p, in the bank of a state (R240). -/
def State.slotInput (s : State) (n p i : Nat) (st : Bank) : Option Nat :=
  ([0, 1].find? (fun b => decide ((s.core n).rtBank b = st))).bind (fun b =>
    let v := s.fld (rtrPage n + 0x400 + 0x200 * b + 0x80 * p + 4 * (i / 8)) (4 * (i % 8)) 4
    if 8 ≤ v then some (v - 8) else none)

/-- The network-interface page of a core. -/
def niPage (n : Nat) : Nat := corePage n 9

/-- The epoch bit that an interface stamps. -/
def State.stampBit (s : State) (n : Nat) : Bool := s.bit (niPage n + 0x44) 3

/-- The stream of slot i in the live slot map of an interface. -/
def State.niSlot (s : State) (n i : Nat) : Nat := s.fld (niPage n + 0x400 + 0x100 * b2n (s.stampBit n) + 4 * (i / 4)) (8 * (i % 4)) 8

/-- Whether a stream has a slot in the interface's live slot map (R245). -/
def State.hasSlot (s : State) (n stream : Nat) : Bool := (List.range 256).any (fun i => decide (s.niSlot n i = stream))

/-- Whether an interface may inject a waiting flit now: of a guaranteed one, in a slot of its stream, at most Q (R241). -/
def State.mayInject (s : State) (n : Nat) (f : Flit) : Bool :=
  let stream := hdrFld f.hdr 49 8
  decide (f.vc.toNat < 8) || !s.hasSlot n stream
    || (decide (s.niSlot n s.slotNow = stream) && decide (Sparse.get (fun _ => 0) (s.core n).sw.gs 4 < s.fld (niPage n + 0x58) 0 4))

/-- The flits at the heads of a router's input channels, with their input ports and what becomes of them. -/
def State.offers (s : State) (n : Nat) : List (Nat × Flit × Out) :=
  (List.range 5).flatMap (fun inp =>
    ((headFlits (s.heldAt (.core n inp))).filter (fun f => decide (inp ≠ 4) || s.mayInject n f)).map (fun f => (inp, f, s.routeOut n inp f)))

/-- The order of input channels in the round. -/
def turnOf (inp : Nat) (f : Flit) : Nat := inp * 16 + f.vc.toNat + 1

/-- The flit that an output sends next, with the input it is at and as it leaves (R240): the guaranteed flit that the newer
bank's slot names, the one that the older bank's names, or the next in the round of the channels that are ready. -/
def State.pick (s : State) (n p : Nat) (l : List (Nat × Flit × Out)) : Option (Nat × Flit × Flit) :=
  let ready := l.filterMap (fun x => match x.2.2, coreFar n p with
    | .go q g, some far => if q = p ∧ s.mayCarry far g.vc.toNat = true then some (x.1, x.2.1, g) else none
    | _, _ => none)
  let slot (st : Bank) : Option (Nat × Flit × Flit) :=
    (s.slotInput n p s.slotNow st).bind (fun i => ready.find? (fun x => decide (x.1 = i) && decide (8 ≤ x.2.1.vc.toNat)))
  match slot .armed, slot .draining with
  | some x, _ => some x
  | none, some x => some x
  | none, none =>
    match ready.find? (fun x => decide (Sparse.get (fun _ => 0) (s.core n).sw.last p < turnOf x.1 x.2.1)) with
    | some x => some x
    | none => ready.head?

/-- A flit leaves the input port that holds it. -/
def State.unhold (s : State) (pl : Place) (f : Flit) : State := s.setHeld pl ((s.heldAt pl).erase f)

/-- A router sends a flit on: it enters the bridge of the link. -/
def State.forward (s : State) (n p : Nat) (x : Nat × Flit × Flit) : State :=
  let (inp, f, g) := x
  let s1 := (if s.routeFree n f then s.draw.2 else s).unhold (.core n inp) f
  let up (m : Map Nat) (k : Nat) : Map Nat := Sparse.put (fun _ => 0) m k (Sparse.get (fun _ => 0) m k + 1)
  let s2 := s1.modCore n (fun c => { c with sw :=
    { c.sw with last := Sparse.put (fun _ => 0) c.sw.last p (turnOf inp f),
                gs := if f.vc.toNat < 8 then c.sw.gs else if inp = 4 then up (up c.sw.gs p) 4 else up c.sw.gs p } })
  let s3 := match coreFar n p with
    | some far => s2.setBridge far (s2.bridgeAt far ++ [g])
    | none => s2
  (s3.send (.flit (.router (coreOf n)) p g)).incWrap (rtrPage n + 0x84 + 16 * p + 8 * hdrFld f.hdr 2 1)

/-- One flit of a router is ejected, discarded or sent on; none where every one waits. -/
def State.moveOne (s : State) (n : Nat) : Option State :=
  let l := s.offers n
  let stays (o : Out) : Bool := match o with | .go _ _ => true | _ => false
  match l.find? (fun x => !stays x.2.2) with
  | some (inp, f, .eject) =>
    some (((if s.routeFree n f then s.draw.2 else s).unhold (.core n inp) f).send (.flit (.router (coreOf n)) 4 f))
  | some (inp, f, .discard c) => some (((if s.routeFree n f then s.draw.2 else s).unhold (.core n inp) f).discard n c inp f)
  | _ => (List.range 4).findSome? (fun p => (s.pick n p l).map (fun x => s.forward n p x))

/-- Moves flits of a router while one can move. -/
def State.moveSome : Nat → State → Nat → State
  | 0, s, _ => s
  | k + 1, s, n => match s.moveOne n with
    | some t => State.moveSome k t n
    | none => s

/-- Moves every flit of a router that can move. -/
def State.moveAll (s : State) (n : Nat) : State := s.moveSome ((s.core n).sw.held.foldl (fun m p => m + p.2.length) 0) n

/-- A flit is held at an input port of a router, and what can move does. -/
def State.routeFlit (s : State) (n inp : Nat) (f : Flit) : State :=
  (s.setHeld (.core n inp) (s.heldAt (.core n inp) ++ [f])).moveAll n

/-- The end of a slot at a router (R244): an output whose slot named a guaranteed flit that still waits, and which sent fewer
than Q for the floor's clock, counts an underrun. -/
def State.slotEnd (s : State) (n : Nat) : State :=
  let i := (s.time.toNat + 1023) % 1024 / 4
  let q := 4 * s.fld (rtrPage n + 0x4C) 0 12 / 1000
  let short := (List.range 4).filter (fun p =>
    decide (Sparse.get (fun _ => 0) (s.core n).sw.gs p < q)
      && (s.offers n).any (fun x => (decide (some x.1 = s.slotInput n p i .armed) || decide (some x.1 = s.slotInput n p i .draining))
        && decide (8 ≤ x.2.1.vc.toNat) && (match x.2.2 with | .go r _ => decide (r = p) | _ => false)))
  let s1 := short.foldl (fun (s : State) _ => (s.incSat (rtrPage n + 0x60)).raiseIrq (rtrPage n) 4) s
  s1.modCore n (fun c => { c with sw := { c.sw with gs := [] } })

/-- The flits of the DRAINING bank that a router and its input bridges hold (R265). -/
def State.oldHeld (s : State) (n : Nat) : Nat :=
  match [0, 1].find? (fun b => decide ((s.core n).rtBank b = .draining)) with
  | none => 0
  | some b => (List.range 4).foldl (fun m p =>
      m + ((s.heldAt (.core n p) ++ s.bridgeAt (.core n p)).filter (fun f => decide (hdrFld f.hdr 2 1 = b))).length) 0

/-- The way that an edge die's flit takes from its tap: the output port, 0 towards positive X and 1 towards negative, and
whether it crosses the wrap first (R233). A flit for another edge die moves toward that die's side. -/
def injectWay (e : Nat) (h : BitVec 168) : Nat × Bool :=
  let dx := hdrFld h 6 9
  let pos := if hdrFld h 5 1 = 1 then decide (2 ≤ hdrFld h 6 2) else if e < 2 then decide (dx ≤ 384 - dx) else decide (dx + 1 ≤ 383 - dx)
  (b2n (!pos), decide (pos = decide (2 ≤ e)))

/-- What becomes of a flit at a tap, from port inp: one for its edge die is ejected, any other goes on over the other port,
the edge die's own over the one that injectWay gives (R221, R537). -/
def State.tapOut (s : State) (e row inp : Nat) (f : Flit) : Out :=
  let t := s.tap e
  let out := if inp = 2 then (injectWay e f.hdr).1 else 1 - inp
  if malformed f.hdr then .discard 0
  else if (if hdrFld f.hdr 2 1 = 0 then t.b0 else t.b1) = .spare then .discard 4
  else if hdrFld f.hdr 5 1 = 1 ∧ hdrFld f.hdr 6 2 = e then .eject
  else if !s.linkUp (.tap e row out) then .discard 1
  else .go out f

/-- The flits at the heads of a tap's input channels. -/
def State.tapOffers (s : State) (e row : Nat) : List (Nat × Flit × Out) :=
  (List.range 3).flatMap (fun inp => (headFlits (s.heldAt (.tap e row inp))).map (fun f => (inp, f, s.tapOut e row inp f)))

/-- A tap sends a flit on over port out. -/
def State.tapForward (s : State) (e row out : Nat) (x : Nat × Flit) : State :=
  let s1 := s.unhold (.tap e row x.1) x.2
  let t := s1.tap e
  let s2 := s1.setTap e ({ t with sw := { t.sw with last := Sparse.put (fun _ => 0) t.sw.last (row * 4 + out) (x.1 + 1) } }.addRem
    (2 + (row * 4 + out) * 2 + hdrFld x.2.hdr 2 1))
  let s3 := match tapFar e row out with
    | some far => s2.setBridge far (s2.bridgeAt far ++ [x.2])
    | none => s2
  s3.send (.flit (.tap (Fin.ofNat 4 e) (Fin.ofNat 128 row)) out x.2)

/-- One flit of a tap is ejected, discarded or sent on; through flits and injected ones take turns, one flit each (R221). -/
def State.tapMoveOne (s : State) (e row : Nat) : Option State :=
  let l := s.tapOffers e row
  let stays (o : Out) : Bool := match o with | .go _ _ => true | _ => false
  match l.find? (fun x => !stays x.2.2) with
  | some (inp, f, .eject) =>
    let s1 := s.unhold (.tap e row inp) f
    some ((s1.setTap e ((s1.tap e).addRem (hdrFld f.hdr 2 1))).send (.flit (.tap (Fin.ofNat 4 e) (Fin.ofNat 128 row)) 4 f))
  | some (inp, f, .discard c) => some ((s.unhold (.tap e row inp) f).tapDiscard e row c f)
  | _ => [0, 1].findSome? (fun out =>
      let ready := l.filter (fun x => match x.2.2, tapFar e row out with
        | .go q g, some far => decide (q = out) && s.mayCarry far g.vc.toNat
        | _, _ => false)
      match ready.find? (fun x => decide (x.1 + 1 ≠ Sparse.get (fun _ => 0) (s.tap e).sw.last (row * 4 + out))) with
      | some x => some (s.tapForward e row out (x.1, x.2.1))
      | none => ready.head?.map (fun x => s.tapForward e row out (x.1, x.2.1)))

/-- Moves flits of a tap while one can move. -/
def State.tapMoveSome : Nat → State → Nat → Nat → State
  | 0, s, _, _ => s
  | k + 1, s, e, row => match s.tapMoveOne e row with
    | some t => State.tapMoveSome k t e row
    | none => s

/-- Moves every flit of a tap that can move. -/
def State.tapSettle (s : State) (e row : Nat) : State :=
  s.tapMoveSome ((List.range 3).foldl (fun m p => m + (s.heldAt (.tap e row p)).length) 0) e row

/-- A flit is held at a port of a tap, and what can move does. -/
def State.tapFlit (s : State) (e row p : Nat) (f : Flit) : State :=
  (s.setHeld (.tap e row p) (s.heldAt (.tap e row p) ++ [f])).tapSettle e row

/-- An edge die's flit enters at its tap, stamped with the taps' bit and counted (R221, R233, R537). -/
def State.tapInject (s : State) (e row : Nat) (f : Flit) : State :=
  let t := s.tap e
  let h := hdrSet (hdrSet f.hdr 2 1 (b2n t.stamp)) 117 1 (b2n (injectWay e f.hdr).2)
  (s.setTap e (t.addInj (b2n t.stamp))).tapFlit e row 2 { f with hdr := h, vc := BitVec.ofNat 4 (vcOf h 0) }

/-- The flits that waited move on as credits return; at the end of a slot the underruns are counted (R224, R240, R244). -/
def State.moveFlits (s : State) : State :=
  let live := s.cores.filter (fun p => decide (p.2.sw.held ≠ []) || decide (p.2.sw.gs ≠ []))
  let s1 := if s.time.toNat % 4 = 0 then live.foldl (fun (s : State) p => s.slotEnd p.1) s else s
  let s2 := if s.tripped then s1 else live.foldl (fun (s : State) p => s.moveAll p.1) s1
  s2.taps.foldl (fun (s : State) p => p.2.sw.held.foldl (fun (s : State) q => s.tapSettle p.1 (q.1 / 4)) s) s2

/-- A good flit arrives on a link: its failed replays start again from 0. -/
def State.goodFlit (s : State) (pl : Place) : State :=
  if (s.linkAt pl).fails = 0 then s else s.setLink pl { (s.linkAt pl) with fails := 0 }

/-- The oldest flit in its bridge arrives on an up link and is counted; the routing of plane messages is their commands'. -/
def State.flitIn (s : State) (nd : Node) (p : Nat) (f : Flit) : State :=
  let pl := nodePlace nd p
  let s1 := s.goodFlit pl
  match nd with
  | .stop _ _ _ => s1
  | .router c =>
    let at_ := Place.core (coreNo c) p
    ((s1.setBridge at_ (s1.bridgeAt at_).tail).incWrap (rtrPage (coreNo c) + 0x80 + 16 * p + 8 * hdrFld f.hdr 2 1)).routeFlit (coreNo c) p f
  | .tap e row =>
    let s2 := s1.setBridge pl (s1.bridgeAt pl).tail
    (s2.setTap e.val ((s2.tap e.val).addInj (2 + (row.val * 4 + p) * 2 + hdrFld f.hdr 2 1))).tapFlit e.val row.val p f

/-- The place where the flits of a node's port arrive: unlike a link's end, each column of a pair has its own. -/
def arrivalPlace : Node → Nat → Place
  | .router c, p => .core (coreNo c) p
  | .tap e row, p => .tap e.val row.val p
  | .stop plane x y, p => .stop plane.val x.val y.val p

/-- Runs a router's command while its island runs; taps and stops have no island. -/
def State.atNode (s : State) (nd : Node) (f : State → State) : State :=
  match nd with
  | .router _ => if s.inReset || s.tripped then s else f s
  | _ => s.whenUp f

/-- Whether a node is a stop of a memory plane. -/
def nodeIsStop : Node → Bool
  | .stop _ _ _ => true
  | _ => false

/-- Whether a port of a node takes the edge die's own flits. -/
def ownPort : Node → Nat → Option (Nat × Nat)
  | .tap e row, 2 => some (e.val, row.val)
  | _, _ => none

/-- FLIT_RECEIVE. The flit that arrives is the oldest in the link's bridge, which loses and reorders none (R224); with a bad CRC
it stays there to be sent again, and any other flit is an idle one. A link that is down carries nothing. At port 2 of a tap the
edge die hands over a flit of its own. At a stop the flit is one hop of a plane message (R253). -/
def execFlitReceive (n : Node) (port : Fin 4) (f : Flit) (crcOk : Bool) (s : State) : Host.Outcome State Fault Refusal :=
  done (s.atNode n fun s =>
    match ownPort n port.val with
    | some (e, row) => s.tapInject e row f
    | none =>
      if !s.linkUp (nodePlace n port.val) || (nodePlace n port.val).far.isNone then s
      else if crcOk = false then s.badCrc n port.val
      else if nodeIsStop n || decide ((s.bridgeAt (arrivalPlace n port.val)).head? = some f) then s.flitIn n port.val f
      else s)

/-- IDLE_FLIT: a router sends idle flits on its up links and on those it raises (R227, R272). -/
def execIdleFlit (c : CoreId) (s : State) : Host.Outcome State Fault Refusal :=
  done (s.atNode (.router c) fun s =>
    (List.range 4).foldl (fun s p =>
      let pl := Place.core (linkEndCore (coreNo c) p) p
      if pl.far.isSome && (s.linkUp pl || (s.linkAt pl).raising) then s.send (.idle (.router c) p) else s) s)

/-- LINK_SILENCE: an up link of the rigging has delivered nothing for 4 us: it is declared down, and this end sends ACCUSE
(R272). -/
def execLinkSilence (n : Node) (port : Fin 4) (s : State) : Host.Outcome State Fault Refusal :=
  done (s.atNode n fun s => if (nodePlace n port.val).far.isNone || nodeIsStop n then s else s.linkDown (nodePlace n port.val) 2 3)

/-- The node and port of a place. -/
def Place.node : Place → Node × Nat
  | .core n p => (.router (coreOf n), p)
  | .tap e row p => (.tap (Fin.ofNat 4 e) (Fin.ofNat 128 row), p)
  | .stop plane x y p => (.stop (Fin.ofNat 4 plane) (Fin.ofNat 200 x) (Fin.ofNat 32 y), p)

/-- Starts the raise of a link end that is down: it sends idle flits (R227). -/
def State.raiseEnd (s : State) (pl : Place) : State :=
  if s.linkUp pl || pl.far.isNone then s else (s.setLink pl ⟨0, true⟩).send (.idle pl.node.1 pl.node.2)

/-- RTR_LINK_CTRL.RAISE of a port: at a router of an X wrap it raises both ends of the return path too (R226). -/
def State.raiseLink (s : State) (n p : Nat) : State :=
  let s1 := s.raiseEnd (.core n p)
  match coreFar n p with
  | some (.tap e row q) =>
    let s2 := s1.raiseEnd (.tap e row (1 - q))
    (match tapFar e row (1 - q) with
      | some far => s2.raiseEnd far
      | none => s2)
  | _ => s1

/-- RTR_LINK_CTRL.RAISE for the ports of a mask. It acts at the router that is the link's end (R226, R227). -/
def State.raisePorts (s : State) (n : Nat) (ports : Nat) : State :=
  (List.range 4).foldl (fun s p => if bits ports p 1 = 1 ∧ linkEndCore n p = n then s.raiseLink n p else s) s

/-- A write of RTR_LINK_CTRL. -/
def execRaise (who : Party) (c : CoreId) (ports : BitVec 4) (s : State) : Host.Outcome State Fault Refusal :=
  done (s.whenUp fun s => s.ctl who (rtrPage (coreNo c) + 0x6C) fun s => s.raisePorts (coreNo c) ports.toNat)

/-- LINK_UP: an end that is being raised has received 64 good flits in a row. -/
def execLinkUp (n : Node) (port : Fin 4) (s : State) : Host.Outcome State Fault Refusal :=
  done (s.atNode n fun s =>
    let pl := nodePlace n port.val
    if (s.linkAt pl).raising then (s.showLink pl true).setLink pl ⟨0, false⟩ else s)

/-- RAISE_TIMEOUT: an end that has not come up within 4 us stays down and raises LINK_DOWN again. -/
def execRaiseTimeout (n : Node) (port : Fin 4) (s : State) : Host.Outcome State Fault Refusal :=
  done (s.atNode n fun s =>
    let pl := nodePlace n port.val
    if (s.linkAt pl).raising then
      let s1 := s.setLink pl ⟨0, false⟩
      match pl with
      | .core n _ => s1.raiseIrq (rtrPage n) 1
      | _ => s1
    else s)

/-- TAP_LINK_RAISE: the other end sends idle flits, and the tap raises its own end. -/
def execTapLinkRaise (e : Fin 4) (row : Fin 128) (port : Fin 4) (s : State) : Host.Outcome State Fault Refusal :=
  done (s.whenUp fun s => s.raiseEnd (.tap e.val row.val port.val))

/-! Route banks (R246, R247, R266) -/

/-- The banks after an ARM, the bank it armed, or none where a DRAINING bank refuses it. -/
def armBanks (b0 b1 : Bank) : Option (Bank × Bank × Nat) :=
  match b0, b1 with
  | .spare, .spare => some (.armed, .spare, 0)
  | .armed, .spare => some (.draining, .armed, 1)
  | .spare, .armed => some (.armed, .draining, 0)
  | _, _ => none

/-- The banks after a RETIRE. -/
def Bank.retired : Bank → Bank
  | .draining => .spare
  | b => b

/-- RTR_EPOCH after a change of the banks; OLD_HELD is computed when it is read. -/
def State.showRtr (s : State) (n : Nat) (armed : Bool) : State :=
  let c := s.core n
  s.setReg (rtrPage n + 0x48) (BitVec.ofNat 32 (b2n (decide (c.rt1 = .armed)) * 4 + b2n armed * 8
    + b2n (decide (c.rt0 = .draining) || decide (c.rt1 = .draining)) * 16))

/-- RTR_EPOCH.ARM at a router: the counters of the bank's bit are cleared. -/
def State.rtrArm (s : State) (n : Nat) : State :=
  let pg := rtrPage n
  match armBanks (s.core n).rt0 (s.core n).rt1 with
  | none => (s.showRtr n false).raiseIrq pg 8
  | some (b0, b1, m) =>
    let s1 := (s.modCore n (fun c => { c with rt0 := b0, rt1 := b1 })).setReg (pg + 0x64 + 4 * m) 0
    let s2 := (List.range 4).foldl (fun s p => (s.setReg (pg + 0x80 + 16 * p + 8 * m) 0).setReg (pg + 0x84 + 16 * p + 8 * m) 0) s1
    s2.showRtr n true

/-- The counts per wrap link of one stamp bit start again from 0. -/
def clearLinkCounts (m : Map Nat) (b : Nat) : Map Nat := m.filter (fun p => decide (p.1 < 2) || decide (p.1 % 2 ≠ b))

/-- ARM at the taps of an edge die. -/
def State.tapArm (s : State) (e : Nat) : State :=
  let t := s.tap e
  match armBanks t.b0 t.b1 with
  | none => s.setTap e { t with armed := false }
  | some (b0, b1, m) =>
    s.setTap e { t with b0 := b0, b1 := b1, armed := true, inj := clearLinkCounts t.inj m, rem := clearLinkCounts t.rem m }

/-- The key of the epoch control of a station: RTR_EPOCH or NI_EPOCH of a core, the agent page for taps. -/
def stationKey (ni : Bool) : Station → Nat
  | .core c => if ni then corePage (coreNo c) 9 + 0x44 else rtrPage (coreNo c) + 0x48
  | .taps e => agtPage (24 + e.val) + 0x40

/-- A write of ARM. -/
def execArm (who : Party) (n : Station) (s : State) : Host.Outcome State Fault Refusal :=
  done (s.whenUp fun s => s.ctl who (stationKey false n) fun s =>
    match n with
    | .core c => s.rtrArm (coreNo c)
    | .taps e => s.tapArm e.val)

/-- RTR_EPOCH.RETIRE at a router: refused while OLD_HELD is nonzero. -/
def State.rtrRetire (s : State) (n : Nat) : State :=
  if s.oldHeld n ≠ 0 then s.raiseIrq (rtrPage n) 8
  else (s.modCore n (fun c => { c with rt0 := c.rt0.retired, rt1 := c.rt1.retired })).showRtr n (s.bit (rtrPage n + 0x48) 3)

/-- A write of RTR_EPOCH.RETIRE; at taps it retires the bank that drains. -/
def execRtrRetire (who : Party) (n : Station) (s : State) : Host.Outcome State Fault Refusal :=
  done (s.whenUp fun s => s.ctl who (stationKey false n) fun s =>
    match n with
    | .core c => s.rtrRetire (coreNo c)
    | .taps e => s.setTap e.val { (s.tap e.val) with b0 := (s.tap e.val).b0.retired, b1 := (s.tap e.val).b1.retired })

end Sys2Proof.Machine
end

