-- ==== Sys2Proof/Machine/Flags.lean ====
section
/-! DEFINITION. The exception flags (03 R117) and the exact values, formats and roundings that set them (R95 to R105).
A finite value is sign, magnitude m and exponent e, standing for m * 2^e; a value that has been truncated carries a
sticky lowest bit, so that every rounding of it is the rounding of the exact value. -/
namespace Sys2Proof.Machine

/-! Flags, in the order of R117 -/

/-- The five flags: INVALID, DIVZERO, OVERFLOW, UNDERFLOW, INEXACT from bit 0 upward. -/
abbrev Flags := BitVec 5

def fInvalid : Flags := 1
def fDivzero : Flags := 2
def fOverflow : Flags := 4
def fUnderflow : Flags := 8
def fInexact : Flags := 16

/-! Formats (R95) -/

/-- What the top exponent pattern holds: infinities and NaNs as IEEE 754, one NaN pattern (E4M3), or values. -/
inductive Special where
  | ieee | e4m3 | finite
deriving DecidableEq, Repr

/-- A floating format: mantissa bits, exponent bits, bias. -/
structure Fmt where
  mb : Nat
  eb : Nat
  bias : Nat
  sp : Special
deriving DecidableEq, Repr

def Fmt.fp4 : Fmt := ⟨1, 2, 1, .finite⟩
def Fmt.e2m3 : Fmt := ⟨3, 2, 1, .finite⟩
def Fmt.e3m2 : Fmt := ⟨2, 3, 3, .finite⟩
def Fmt.e4m3 : Fmt := ⟨3, 4, 7, .e4m3⟩
def Fmt.e5m2 : Fmt := ⟨2, 5, 15, .ieee⟩
def Fmt.bf16 : Fmt := ⟨7, 8, 127, .ieee⟩
def Fmt.fp16 : Fmt := ⟨10, 5, 15, .ieee⟩
def Fmt.fp32 : Fmt := ⟨23, 8, 127, .ieee⟩
def Fmt.fp64 : Fmt := ⟨52, 11, 1023, .ieee⟩

/-- The width of a format in bits. -/
def Fmt.width (f : Fmt) : Nat := 1 + f.eb + f.mb

/-- The exponent of the smallest normal value. -/
def Fmt.emin (f : Fmt) : Int := 1 - (f.bias : Int)

/-- The largest biased exponent of a finite value. -/
def Fmt.topExp (f : Fmt) : Nat := match f.sp with | .ieee => 2 ^ f.eb - 2 | _ => 2 ^ f.eb - 1

/-- The largest mantissa field at that exponent. -/
def Fmt.topMant (f : Fmt) : Nat := match f.sp with | .e4m3 => 2 ^ f.mb - 2 | _ => 2 ^ f.mb - 1

/-- The canonical NaN (R99); the finite formats have none. -/
def Fmt.canon (f : Fmt) : Nat :=
  match f.sp with
  | .ieee => (2 ^ f.eb - 1) * 2 ^ f.mb + 2 ^ (f.mb - 1)
  | .e4m3 => 0x7F
  | .finite => 0

/-- The bits of the largest finite value, of an infinity, of a zero, with a sign. -/
def Fmt.signed (f : Fmt) (neg : Bool) (x : Nat) : Nat := if neg then 2 ^ (f.eb + f.mb) + x else x
def Fmt.largest (f : Fmt) (neg : Bool) : Nat := f.signed neg (f.topExp * 2 ^ f.mb + f.topMant)
def Fmt.infBits (f : Fmt) (neg : Bool) : Nat := f.signed neg ((2 ^ f.eb - 1) * 2 ^ f.mb)

/-! Values (R96, R99) -/

/-- A value: a NaN with its sign and its mantissa field aligned to 52 bits, an infinity, or m * 2^e. -/
inductive FVal where
  | nan (signalling neg : Bool) (pay : Nat)
  | inf (neg : Bool)
  | fin (neg : Bool) (m : Nat) (e : Int)
deriving DecidableEq, Repr

/-- The value of the bits of a format. -/
def Fmt.unpack (f : Fmt) (x : Nat) : FVal :=
  let mant := x % 2 ^ f.mb
  let ex := x / 2 ^ f.mb % 2 ^ f.eb
  let neg := decide (x / 2 ^ (f.mb + f.eb) % 2 = 1)
  if f.sp = .ieee ∧ ex = 2 ^ f.eb - 1 then
    if mant = 0 then .inf neg
    else .nan (f ≠ Fmt.e5m2 ∧ mant < 2 ^ (f.mb - 1)) neg (mant * 2 ^ (52 - f.mb))
  else if f.sp = .e4m3 ∧ ex = 15 ∧ mant = 7 then .nan false neg (mant * 2 ^ (52 - f.mb))
  else if ex = 0 then .fin neg mant (f.emin - f.mb)
  else .fin neg (2 ^ f.mb + mant) ((ex : Int) - f.bias - f.mb)

def FVal.isNan : FVal → Bool | .nan _ _ _ => true | _ => false
def FVal.isSig : FVal → Bool | .nan sg _ _ => sg | _ => false
def FVal.isInf : FVal → Bool | .inf _ => true | _ => false
def FVal.isZero : FVal → Bool | .fin _ 0 _ => true | _ => false
def FVal.neg? : FVal → Bool | .nan _ n _ => n | .inf n => n | .fin n _ _ => n
def FVal.negate : FVal → FVal | .nan a n p => .nan a (!n) p | .inf n => .inf (!n) | .fin n m e => .fin (!n) m e

/-- The bits of a NaN in a format: binary32 and binary64 keep sign and payload, made quiet; the others are canonical
(R99, R105, R116; the sign: assumption 12). -/
def Fmt.nanBits (f : Fmt) (v : FVal) : Nat :=
  match v with
  | .nan _ n p =>
    if f.mb = 23 ∨ f.mb = 52 then
      f.signed n ((2 ^ f.eb - 1) * 2 ^ f.mb + (2 ^ (f.mb - 1) ||| (p / 2 ^ (52 - f.mb)) % 2 ^ f.mb))
    else f.canon
  | _ => f.canon

/-! Rounding (R100) -/

/-- The rounding mode: to nearest even, to odd, or stochastic with b bits whose value is u. -/
inductive Rm where
  | rne | rto | sr (b u : Nat)
deriving DecidableEq, Repr

/-- m * 2^e rounded to a multiple of 2^q: the multiple, and whether the value was not representable (R100). -/
def roundAt (rm : Rm) (m : Nat) (e q : Int) : Nat × Bool :=
  if q ≤ e then (m * 2 ^ (e - q).toNat, false)
  else
    let sh := (q - e).toNat
    let lo := m / 2 ^ sh
    let r := m % 2 ^ sh
    if r = 0 then (lo, false)
    else
      let up := match rm with
        | .rne => decide (2 ^ sh < 2 * r) || (decide (2 * r = 2 ^ sh) && decide (lo % 2 = 1))
        | .rto => decide (lo % 2 = 0)
        | .sr b u => decide (u < r * 2 ^ b / 2 ^ sh)
      (if up then lo + 1 else lo, true)

/-- The exponent of the leading bit of m * 2^e, m not 0. -/
def topBit (m : Nat) (e : Int) : Int := (Nat.log2 m : Int) + e

/-- r * 2^q as bits of a format, where q is the exponent of the lowest mantissa bit at r's magnitude. -/
def Fmt.encode (f : Fmt) (neg : Bool) (r : Nat) (q : Int) : Nat :=
  if r < 2 ^ f.mb then f.signed neg r
  else
    let (r, q) := if 2 ^ (f.mb + 1) ≤ r then (r / 2, q + 1) else (r, q)
    f.signed neg ((q + f.mb + f.bias).toNat * 2 ^ f.mb + r % 2 ^ f.mb)

/-- Whether r * 2^q exceeds the largest finite value. -/
def Fmt.exceeds (f : Fmt) (r : Nat) (q : Int) : Bool :=
  let topQ : Int := (f.topExp : Int) - f.bias - f.mb
  decide ((2 ^ f.mb + f.topMant) * 2 ^ (topQ - min q topQ).toNat < r * 2 ^ (q - min q topQ).toNat)

/-- What an overflow gives: infinity, the largest finite value, or E4M3's NaN (R101). -/
def Fmt.overflow (f : Fmt) (rm : Rm) (sat neg : Bool) : Nat :=
  match rm with
  | .rto => f.largest neg
  | _ =>
    if sat || decide (f.sp = .finite) then f.largest neg
    else match f.sp with
      | .e4m3 => f.canon
      | _ => f.infBits neg

/-- The exact value m * 2^e rounded to a format with its flags (R100 to R103). `sat` acts on an FP8 destination,
`flush` turns a tiny result into a zero (R110). -/
def Fmt.round (f : Fmt) (rm : Rm) (sat flush neg : Bool) (m : Nat) (e : Int) : Nat × Flags :=
  if m = 0 then (f.signed neg 0, 0)
  else
    let top := topBit m e
    let tiny := decide (top < f.emin)
    if tiny && flush then (f.signed neg 0, fUnderflow ||| fInexact)
    else
      let q := max top f.emin - f.mb
      let (r, inexact) := roundAt rm m e q
      if f.exceeds r q then (f.overflow rm sat neg, fOverflow ||| fInexact)
      else
        (f.encode neg r q,
          (if inexact then fInexact else 0) ||| (if tiny && inexact then fUnderflow else 0))

/-! Exact arithmetic -/

/-- The exact sum of two finite values: a signed integer and its exponent; whether it is -0 (R103). -/
def exactAdd (n1 : Bool) (m1 : Nat) (e1 : Int) (n2 : Bool) (m2 : Nat) (e2 : Int) : Bool × Nat × Int :=
  let e := min e1 e2
  let a : Int := (if n1 then -1 else 1) * (m1 * 2 ^ (e1 - e).toNat : Nat)
  let b : Int := (if n2 then -1 else 1) * (m2 * 2 ^ (e2 - e).toNat : Nat)
  let x := a + b
  if x = 0 then (n1 && n2 && decide (m1 = 0) && decide (m2 = 0), 0, e) else (decide (x < 0), x.natAbs, e)

/-- The flag of signalling operands. -/
def sigFlag (l : List FVal) : Flags := if l.any FVal.isSig then fInvalid else 0

/-- The first NaN of the operands as a result (R116). -/
def Fmt.firstNan (f : Fmt) : List FVal → Nat
  | [] => f.canon
  | v :: r => if v.isNan then f.nanBits v else f.firstNan r

/-- Addition, rounded once (R116, R161). -/
def Fmt.add (f : Fmt) (rm : Rm) (a b : FVal) : Nat × Flags :=
  if a.isNan || b.isNan then (f.firstNan [a, b], sigFlag [a, b])
  else match a, b with
    | .inf x, .inf y => if x = y then (f.infBits x, 0) else (f.canon, fInvalid)
    | .inf x, _ => (f.infBits x, 0)
    | _, .inf y => (f.infBits y, 0)
    | .fin n1 m1 e1, .fin n2 m2 e2 =>
      let (n, m, e) := exactAdd n1 m1 e1 n2 m2 e2
      f.round rm false false n m e
    | _, _ => (f.canon, 0)

/-- Subtraction: a NaN operand keeps its sign. -/
def Fmt.sub (f : Fmt) (rm : Rm) (a b : FVal) : Nat × Flags := f.add rm a (if b.isNan then b else b.negate)

/-- Multiplication, rounded once. -/
def Fmt.mul (f : Fmt) (rm : Rm) (a b : FVal) : Nat × Flags :=
  if a.isNan || b.isNan then (f.firstNan [a, b], sigFlag [a, b])
  else
    let n := a.neg? ^^ b.neg?
    if a.isInf || b.isInf then if a.isZero || b.isZero then (f.canon, fInvalid) else (f.infBits n, 0)
    else match a, b with
      | .fin _ m1 e1, .fin _ m2 e2 => f.round rm false false n (m1 * m2) (e1 + e2)
      | _, _ => (f.canon, 0)

/-- Fused multiply-add a * b + c, rounded once. Zero times infinity is invalid whatever the addend (R161). -/
def Fmt.fma (f : Fmt) (rm : Rm) (a b c : FVal) : Nat × Flags :=
  let zi := (a.isZero && b.isInf) || (a.isInf && b.isZero)
  if a.isNan || b.isNan then (f.firstNan [a, b, c], sigFlag [a, b, c])
  else if zi then (if c.isNan then f.nanBits c else f.canon, fInvalid)
  else if c.isNan then (f.nanBits c, sigFlag [c])
  else
    let n := a.neg? ^^ b.neg?
    if a.isInf || b.isInf then
      (match c with
        | .inf x => if x = n then (f.infBits n, 0) else (f.canon, fInvalid)
        | _ => (f.infBits n, 0))
    else match c with
      | .inf x => (f.infBits x, 0)
      | .fin n3 m3 e3 =>
        (match a, b with
          | .fin _ m1 e1, .fin _ m2 e2 =>
            let (n', m, e) := exactAdd n (m1 * m2) (e1 + e2) n3 m3 e3
            f.round rm false false n' m e
          | _, _ => (f.canon, 0))
      | _ => (f.canon, 0)

/-- Division, rounded once: the quotient to 80 bits or more with a sticky bit (R161, R117). -/
def Fmt.div (f : Fmt) (rm : Rm) (a b : FVal) : Nat × Flags :=
  if a.isNan || b.isNan then (f.firstNan [a, b], sigFlag [a, b])
  else
    let n := a.neg? ^^ b.neg?
    match a, b with
    | .inf _, .inf _ => (f.canon, fInvalid)
    | .inf _, _ => (f.infBits n, 0)
    | _, .inf _ => (f.signed n 0, 0)
    | .fin _ m1 e1, .fin _ m2 e2 =>
      if m2 = 0 then if m1 = 0 then (f.canon, fInvalid) else (f.infBits n, fDivzero)
      else
        let num := m1 * 2 ^ 160
        let q := num / m2
        let st := if num % m2 = 0 then 0 else 1
        f.round rm false false n (2 * q + st) (e1 - e2 - 161)
    | _, _ => (f.canon, 0)

/-- The integer square root of a number below 2^260, bit by bit. -/
def isqrt (x : Nat) : Nat :=
  ((List.range 130).reverse).foldl (fun r i => if (r + 2 ^ i) * (r + 2 ^ i) ≤ x then r + 2 ^ i else r) 0

/-- Square root, rounded once; the root of -0 is -0 (R161). -/
def Fmt.sqrt (f : Fmt) (rm : Rm) (a : FVal) : Nat × Flags :=
  match a with
  | .nan sg _ _ => (f.nanBits a, if sg then fInvalid else 0)
  | .inf n => if n then (f.canon, fInvalid) else (f.infBits false, 0)
  | .fin n m e =>
    if m = 0 then (f.signed n 0, 0)
    else if n then (f.canon, fInvalid)
    else
      let m2 := if e % 2 = 0 then m else 2 * m
      let e2 := if e % 2 = 0 then e else e - 1
      let big := m2 * 2 ^ 200
      let r := isqrt big
      let st := if r * r = big then 0 else 1
      f.round rm false false false (2 * r + st) (e2 / 2 - 101)

/-- The order of two numbers, -0 below +0: whether a is below b. A NaN is not ordered. -/
def fLess (a b : FVal) : Bool :=
  match a, b with
  | .nan _ _ _, _ => false
  | _, .nan _ _ _ => false
  | .inf x, .inf y => x && !y
  | .inf x, _ => x
  | _, .inf y => !y
  | .fin n1 m1 e1, .fin n2 m2 e2 =>
    let e := min e1 e2
    let x : Int := (if n1 then -1 else 1) * (m1 * 2 ^ (e1 - e).toNat : Nat)
    let y : Int := (if n2 then -1 else 1) * (m2 * 2 ^ (e2 - e).toNat : Nat)
    decide (x < y) || (decide (x = 0) && decide (y = 0) && n1 && !n2)

/-- Whether two numbers are equal; -0 equals +0. -/
def fEq (a b : FVal) : Bool := !a.isNan && !b.isNan && !fLess a b && !fLess b a || (a.isZero && b.isZero)

/-- minimumNumber and maximumNumber (05 R160): a NaN loses to a number, two NaNs give the first made quiet. -/
def Fmt.minmax (f : Fmt) (isMax : Bool) (xa xb : Nat) : Nat × Flags :=
  let a := f.unpack xa
  let b := f.unpack xb
  let fl := sigFlag [a, b]
  if a.isNan then (if b.isNan then f.nanBits a else xb, fl)
  else if b.isNan then (xa, fl)
  else if isMax then (if fLess a b then xb else xa, fl)
  else (if fLess b a then xb else xa, fl)

/-! Conversions (R105) -/

/-- A value converted to a floating format: exact where the destination holds it, else rounded once. -/
def Fmt.ofVal (f : Fmt) (rm : Rm) (sat : Bool) (v : FVal) : Nat × Flags :=
  match v with
  | .nan sg _ _ => (f.nanBits v, if sg then fInvalid else 0)
  | .inf n =>
    (match f.sp with
      | .e4m3 => if sat then (f.largest n, fOverflow ||| fInexact) else (f.canon, fInvalid)
      | _ =>
        if sat && decide (f = Fmt.e5m2) then (f.largest n, fOverflow ||| fInexact) else (f.infBits n, 0))
  | .fin n m e => f.round rm (sat && decide (f.width = 8)) false n m e

/-- A value converted to an integer of the given range: rounded to an integer, then limited with INVALID; a finite value that
the result differs from sets INEXACT (assumption 15). -/
def toIntFmt (w : Nat) (rm : Rm) (v : FVal) : Nat × Flags :=
  let hi : Int := 2 ^ (w - 1) - 1
  let lo : Int := -(2 ^ (w - 1))
  let enc (x : Int) : Nat := (x % 2 ^ w).toNat
  match v with
  | .nan _ _ _ => (0, fInvalid)
  | .inf n => (enc (if n then lo else hi), fInvalid)
  | .fin n m e =>
    let (r, inexact) := roundAt rm m e 0
    let x : Int := if n then -(r : Int) else r
    if hi < x then (enc hi, fInvalid ||| fInexact)
    else if x < lo then (enc lo, fInvalid ||| fInexact)
    else (enc x, if inexact then fInexact else 0)

/-- The two's-complement value of w bits. -/
def sIntOf (w x : Nat) : Int := if 2 ^ (w - 1) ≤ x % 2 ^ w then (x % 2 ^ w : Int) - 2 ^ w else (x % 2 ^ w : Int)

/-- An integer as a value. -/
def intVal (x : Int) : FVal := .fin (decide (x < 0)) x.natAbs 0

end Sys2Proof.Machine
end

