-- ==== Sys2Proof/Machine/Approx.lean ====
section
/-! DEFINITION. The functions that APX bounds and SAMPLE's noise, computed in fixed point with 320 fraction bits, which
is enough to judge every binary32 result against its bound (05 R169, R170, R177). A function value that lies below
2^-320 is taken as one unit of that weight, with the sign of the exact value. -/
namespace Sys2Proof.Machine

/-- The weight of a fixed-point unit is 2^-320. -/
def fxOne : Int := 2 ^ 320

/-- Product and quotient, rounded down. -/
def fxMul (a b : Int) : Int := a * b / fxOne
def fxDiv (a b : Int) : Int := a * fxOne / b

/-- m * 2^e as fixed point, rounded down. -/
def fxOf (neg : Bool) (m : Nat) (e : Int) : Int :=
  let x : Nat := if -320 ≤ e then m * 2 ^ (e + 320).toNat else m / 2 ^ (-(e + 320)).toNat
  if neg then -(x : Int) else (x : Int)

/-- atanh(t) for |t| up to 1/3, or atan(t) for t up to 1/5: the odd series, its terms alternating for atan. -/
def fxAtan (alt : Bool) (t : Int) : Int :=
  let t2 := fxMul t t
  ((List.range 110).foldl (fun (r : Int × Int) k =>
    (r.1 + (if alt && decide (k % 2 = 1) then -1 else 1) * (r.2 / (2 * k + 1 : Nat)), fxMul r.2 t2)) (0, t)).1

def fxLn2 : Int := 2 * fxAtan false (fxOne / 3)
def fxPi : Int := 16 * fxAtan true (fxOne / 5) - 4 * fxAtan true (fxOne / 239)

/-- The natural logarithm of m * 2^e, m not 0. -/
def fxLn (m : Nat) (e : Int) : Int :=
  let k : Nat := Nat.log2 m
  let f := fxOf false m (-(k : Int))
  2 * fxAtan false (fxDiv (f - fxOne) (f + fxOne)) + ((k : Int) + e) * fxLn2

/-- e^y for y between -400 and 200; beyond these bounds the value at the bound. -/
def fxExp (y : Int) : Int :=
  let y := max (-400 * fxOne) (min (200 * fxOne) y)
  let n := y / fxLn2
  let r := y - n * fxLn2
  let x := ((List.range 90).foldl (fun (a : Int × Int) k => (a.1 + a.2, fxMul a.2 r / (k + 1 : Nat))) (0, fxOne)).1
  max 1 (if 0 ≤ n then x * 2 ^ n.toNat else x / 2 ^ (-n).toNat)

/-- sin(pi * x) for x in fixed point. -/
def fxSinPi (x : Int) : Int :=
  let r := x % (2 * fxOne)
  let neg := decide (fxOne ≤ r)
  let r := if neg then r - fxOne else r
  let r := if fxOne < 2 * r then fxOne - r else r
  let y := fxMul fxPi r
  let y2 := fxMul y y
  let v := ((List.range 60).foldl (fun (a : Int × Int) k =>
    (a.1 + a.2, -(fxMul a.2 y2) / ((2 * k + 2) * (2 * k + 3) : Nat))) (0, y)).1
  if neg then -v else v

/-- 1 / (1 + e^-x). -/
def fxSigmoid (x : Int) : Int :=
  if 0 ≤ x then min (fxOne - 1) (fxDiv fxOne (fxOne + fxExp (-x)))
  else max 1 (fxDiv (fxExp x) (fxOne + fxExp x))

/-- tanh(x). -/
def fxTanh (x : Int) : Int :=
  let a := min (300 * fxOne) x.natAbs
  let t := fxExp (-2 * a)
  let v := min (fxOne - 1) (fxDiv (fxOne - t) (fxOne + t))
  if x < 0 then -v else v

/-- erf(x), by its series of positive terms; from 12 on, where it differs from 1 by less than 2^-200, the last value below 1. -/
def fxErf (x : Int) : Int :=
  let a : Int := x.natAbs
  let v :=
    if 12 * fxOne ≤ a then fxOne - 1
    else
      let a2 := fxMul a a
      let s := ((List.range 1200).foldl (fun (r : Int × Int) k => (r.1 + r.2, 2 * fxMul r.2 a2 / (2 * k + 3 : Nat))) (0, a)).1
      let rootPi : Int := isqrtBig (fxPi * fxOne).toNat
      min (fxOne - 1) (fxDiv (2 * fxMul s (fxExp (-a2))) rootPi)
  if x < 0 then -v else v
where
  /-- The integer square root of a number below 2^660. -/
  isqrtBig (x : Nat) : Nat :=
    ((List.range 330).reverse).foldl (fun r i => if (r + 2 ^ i) * (r + 2 ^ i) ≤ x then r + 2 ^ i else r) 0

/-- The value of function fn at x = (-1)^neg * m * 2^e, m not 0 (R169). The logarithms and RSQRT take m * 2^e alone. -/
def apxReal (fn : Nat) (neg : Bool) (m : Nat) (e : Int) : Int :=
  let x := fxOf neg m e
  let rootTwo : Int := fxErf.isqrtBig (2 * fxOne * fxOne).toNat
  match fn with
  | 0 => fxExp (fxMul (max (-500 * fxOne) (min (300 * fxOne) x)) fxLn2)
  | 1 => fxExp x
  | 2 => fxDiv (fxLn m e) fxLn2
  | 3 => fxLn m e
  | 4 => (if neg then -1 else 1) * (if e ≤ 320 then fxOne * 2 ^ (320 - e).toNat / 2 ^ 320 / m else 1)
  | 5 =>
    let m2 := if e % 2 = 0 then m else 2 * m
    let e2 := (if e % 2 = 0 then e else e - 1) / 2
    let r : Int := fxErf.isqrtBig (2 ^ 640 / m2)
    if 0 ≤ e2 then r / 2 ^ e2.toNat else r * 2 ^ (-e2).toNat
  | 6 => fxSinPi x
  | 7 => fxSinPi (x + fxOne / 2)
  | 8 => fxTanh x
  | 9 => fxSigmoid x
  | 10 => fxMul x (fxOne + fxErf (fxDiv x rootTwo)) / 2
  | 11 => fxMul x (fxSigmoid x)
  | _ => fxErf x

/-- The bound of function fn: ulps, and the absolute bound in fixed point (R169). -/
def apxBound (fn : Nat) (inUnit : Bool) : Int × Int :=
  match fn with
  | 0 => (1, 0)
  | 2 => (1, if inUnit then fxOne / 2 ^ 23 else 0)
  | 3 => (2, if inUnit then fxOne / 2 ^ 23 else 0)
  | 4 => (1, 0)
  | 5 => (1, 0)
  | 6 => (2, fxOne / 2 ^ 24)
  | 7 => (2, fxOne / 2 ^ 24)
  | 10 => (4, fxOne / 2 ^ 24)
  | 11 => (4, fxOne / 2 ^ 24)
  | _ => (2, 0)

/-- The ulp of a value in binary32, subnormals included. -/
def fxUlp (y : Int) : Int := 2 ^ (max (-126) ((Nat.log2 y.natAbs : Int) - 320) - 23 + 320).toNat

/-- A fixed-point value rounded to nearest even in binary32. -/
def fxRound (y : Int) : Nat := (Fmt.fp32.round .rne false false (decide (y < 0)) y.natAbs (-320)).1

/-- Whether the bits z are an approximation of y within bound b; a zero has the sign of y. -/
def apxWithin (z : Nat) (y b : Int) : Bool :=
  match Fmt.fp32.unpack z with
  | .fin n m e => decide ((fxOf n m e - y).natAbs ≤ b.natAbs) && (decide (m ≠ 0) || decide (n = decide (y < 0)))
  | .inf n => decide (n = decide (y < 0)) && decide ((2 : Int) ^ 448 ≤ y.natAbs + b)
  | _ => false

/-- APX where R169 bounds the result and states no value: the part's own value at these operand bits (Config.apx, a free
value) if it lies within the bound, else the exact value rounded to nearest (assumption 6). -/
def apxValue (fn x : Nat) (y : Int) (inUnit : Bool) : Nat :=
  let b := apxBound fn inUnit
  let z := (Config.apx fn (BitVec.ofNat 32 x)).toNat
  if apxWithin z y (max (b.1 * fxUlp y) b.2) then z else fxRound y

/-- The flags of a result that is none of R170's exact ones: overflow, a subnormal or zero result, any other. -/
def apxFlags (z : Nat) : Flags :=
  let mag := z % 2 ^ 31
  if mag = 0x7F800000 then fOverflow ||| fInexact else if mag < 0x00800000 then fUnderflow ||| fInexact else fInexact

/-- The exact results of R170 at a finite operand x = (-1)^neg * m * 2^e; `p` is the exponent of m * 2^e if that is a
power of two. -/
def apxExact (fn : Nat) (neg : Bool) (m : Nat) (e : Int) : Option Nat :=
  let f := Fmt.fp32
  let pow (k : Int) (n : Bool) : Nat := (f.round .rne false false n 1 k).1
  let int (x : Int) : Nat := (f.round .rne false false (decide (x < 0)) x.natAbs 0).1
  let p : Option Int := if m ≠ 0 ∧ m = 2 ^ Nat.log2 m then some (topBit m e) else none
  let whole := decide (0 ≤ e) || decide (m % 2 ^ (-e).toNat = 0)
  let half := !whole && (decide (-1 ≤ e) || decide (m % 2 ^ (-e - 1).toNat = 0))
  let n : Nat := if 0 ≤ e then m * 2 ^ e.toNat else m / 2 ^ (-e).toNat
  match fn with
  | 0 => if whole && (if neg then decide (n ≤ 149) else decide (n ≤ 127)) then some (pow (if neg then -(n : Int) else n) false) else none
  | 1 => if m = 0 then some (pow 0 false) else none
  | 2 => if neg then none else p.map int
  | 3 => if neg then none else p.bind (fun k => if k = 0 then some 0 else none)
  | 4 => p.bind (fun k => if -127 ≤ k ∧ k ≤ 127 then some (pow (-k) neg) else none)
  | 5 => if neg then none else p.bind (fun k => if k % 2 = 0 then some (pow (-(k / 2)) false) else none)
  | 6 => if whole then some (f.signed neg 0) else if half then some (pow 0 (neg ^^ decide (n % 2 = 1))) else none
  | 7 => if whole then some (pow 0 (decide (n % 2 = 1))) else if half then some 0 else none
  | 9 => if m = 0 then some (pow (-1) false) else none
  | _ => if m = 0 then some (f.signed neg 0) else none

/-- The result at an infinity: none where it is invalid. -/
def apxInf (fn : Nat) (neg : Bool) : Option Nat :=
  let f := Fmt.fp32
  let one (n : Bool) : Nat := f.signed n 0x3F800000
  match fn with
  | 0 => some (if neg then 0 else f.infBits false)
  | 1 => some (if neg then 0 else f.infBits false)
  | 2 => if neg then none else some (f.infBits false)
  | 3 => if neg then none else some (f.infBits false)
  | 4 => some (f.signed neg 0)
  | 5 => if neg then none else some 0
  | 6 => none
  | 7 => none
  | 8 => some (one neg)
  | 9 => some (if neg then 0 else one false)
  | 10 => some (if neg then f.signed true 0 else f.infBits false)
  | 11 => some (if neg then f.signed true 0 else f.infBits false)
  | _ => some (one neg)

/-- APX of one binary32 lane (R169, R170). -/
def apxLane (fn x : Nat) : Nat × Flags :=
  let f := Fmt.fp32
  match f.unpack x with
  | .nan sg n p => (f.nanBits (.nan sg n p), if sg then fInvalid else 0)
  | .inf n => match apxInf fn n with
    | some z => (z, 0)
    | none => (f.canon, fInvalid)
  | .fin neg m e =>
    let logs := decide (fn = 2) || decide (fn = 3)
    if m = 0 ∧ logs then (f.infBits true, fDivzero)
    else if m = 0 ∧ (fn = 4 ∨ fn = 5) then (f.infBits neg, fDivzero)
    else if neg ∧ (logs ∨ fn = 5) then (f.canon, fInvalid)
    else match apxExact fn neg m e with
      | some z => (z, 0)
      | none =>
        let z := apxValue fn x (apxReal fn neg m e)
          (decide (fxOne / 2 ≤ fxOf neg m e) && decide (fxOf neg m e ≤ 2 * fxOne))
        (z, apxFlags z)

/-- SAMPLE's noise: -ln(-ln u) of u = (2r + 1) * 2^-25, rounded to nearest even (R177). -/
def gumbel (r : Nat) : Nat := fxRound (-(fxLn (-(fxLn (2 * r + 1) (-25))).natAbs (-320)))

end Sys2Proof.Machine
end

