-- ==== Sys2Proof/Machine/Rng.lean ====
section
/-! DEFINITION. The random-bit generators (05 R171 to R176, R183): the keyed function, its inputs and its advance, the
free-running bits, and REKEY. -/
namespace Sys2Proof.Machine

/-- The four words of the generator. -/
structure Quad where
  x0 : Word
  x1 : Word
  x2 : Word
  x3 : Word
deriving DecidableEq, Repr

/-- The key word k[i mod 3] of a seed (R171). -/
def rngKey (seed : Dword) (i : Nat) : Word :=
  let lo : Word := seed.setWidth 32
  let hi : Word := (seed >>> 32).setWidth 32
  if i % 3 = 0 then lo else if i % 3 = 1 then hi else lo ^^^ hi ^^^ 0x6C3A95E1#32

/-- inject(i). -/
def Quad.inject (x : Quad) (seed : Dword) (i : Nat) : Quad :=
  { x0 := x.x0 + rngKey seed i, x1 := x.x1 + rngKey seed (i + 1), x2 := x.x2 + rngKey seed (i + 2),
    x3 := x.x3 + rngKey seed i + BitVec.ofNat 32 i }

/-- The rotation counts of the rounds. -/
def rotA : List Nat := [7, 19, 11, 27, 5, 23, 14, 30, 9, 21]
def rotB : List Nat := [25, 3, 18, 12, 29, 8, 22, 16, 1, 20]

/-- Round r without its injection. -/
def Quad.mix (x : Quad) (r : Nat) : Quad :=
  let a := rotA.getD r 0
  let b := rotB.getD r 0
  if r % 2 = 0 then
    let i := x.x0 + x.x1
    let p := x.x2 + x.x3
    { x0 := i, x1 := x.x1.rotateLeft a ^^^ i, x2 := p, x3 := x.x3.rotateLeft b ^^^ p }
  else
    let i := x.x0 + x.x3
    let p := x.x2 + x.x1
    { x0 := i, x3 := x.x3.rotateLeft a ^^^ i, x2 := p, x1 := x.x1.rotateLeft b ^^^ p }

/-- Round r, with its injection after an odd round. -/
def Quad.round (seed : Dword) (x : Quad) (r : Nat) : Quad :=
  if r % 2 = 0 then x.mix r else (x.mix r).inject seed ((r + 1) / 2)

/-- Four words as 128 bits, and back. -/
def Quad.join (x : Quad) : BitVec 128 := x.x3 ++ x.x2 ++ x.x1 ++ x.x0
def Quad.of (v : BitVec 128) : Quad :=
  { x0 := v.setWidth 32, x1 := (v >>> 32).setWidth 32, x2 := (v >>> 64).setWidth 32, x3 := (v >>> 96).setWidth 32 }

/-- The state of the keyed function after its first n rounds. -/
def keyedRounds (seed idx : Dword) (tensor draw : Word) (n : Nat) : Quad :=
  (List.range n).foldl (Quad.round seed)
    (Quad.inject { x0 := idx.setWidth 32, x1 := (idx >>> 32).setWidth 32, x2 := tensor, x3 := draw } seed 0)

/-- The keyed function: 128 bits, w0 lowest (R171). -/
def keyed (seed idx : Dword) (tensor draw : Word) : BitVec 128 :=
  (keyedRounds seed idx tensor draw 10).join

/-- Word i of a draw. -/
def rngWord (d : BitVec 128) (i : Nat) : Nat := bits d.toNat (32 * i) 32

/-- The bits of a stochastic rounding: w2[31:28], or w2[31:29] in 3-bit mode (R174, R179). -/
def srBits (d : BitVec 128) (b : Nat) : Nat := rngWord d 2 / 2 ^ (32 - b)

/-- The generator page of a core. -/
def rngPage (n : Nat) : Nat := corePage n 6

/-- The draw of element j under the generator registers of a state (R172). -/
def State.keyedDraw (s : State) (n j : Nat) : BitVec 128 :=
  keyed (s.reg64 (rngPage n + 0x40)) (s.reg64 (rngPage n + 0x50) + BitVec.ofNat 64 j) (s.reg (rngPage n + 0x48))
    (s.reg (rngPage n + 0x4C))

/-- After a vector instruction that drew e elements: RNG_DRAWS counts them, and RNG_BASE advances if AUTO = 1 (R172). -/
def State.drewKeyed (s : State) (n e : Nat) : State :=
  let s1 := s.inc64 (rngPage n + 0x64) e
  if s.bit (rngPage n + 0x58) 0 then
    s1.setReg64 (rngPage n + 0x50) (s.reg64 (rngPage n + 0x50) + BitVec.ofNat 64 e)
  else s1

/-! The free-running generator (R176) -/

/-- The update of a lane's state in one cc: xor with the count of cc, then rounds 0 to 3 with inject(0) and inject(1) under
the hidden key. -/
def frUpdate (key cc : Dword) (v : BitVec 128) : BitVec 128 :=
  let x := ((Quad.of (v ^^^ cc.setWidth 128)).inject key 0).mix 0
  ((((x.mix 1).inject key 1).mix 2).mix 3).join

/-- A lane's state. -/
def Core.frLane (c : Core) (j : Nat) : BitVec 128 := Sparse.get (fun _ => (0 : BitVec 128)) c.fr j

/-- k clock cycles of a core's island: each counts in cc and updates every lane's state. -/
def Core.ticks (key : Dword) : Nat → Core → Core
  | 0, c => c
  | k + 1, c =>
    Core.ticks key k { c with
      cc := c.cc + 1,
      fr := (List.range 32).foldl (fun m j => Sparse.put (fun _ => (0 : BitVec 128)) m j (frUpdate key (c.cc + 1) (c.frLane j))) [] }

/-- The hidden key in force: that of the last REKEY, else the one drawn at the last release of RESET_N. -/
def State.hiddenKey (s : State) (n : Nat) : Dword := (s.core n).frKey.getD (Config.hiddenKey s.keyGen n)

/-- The clock of core n reaches a cc that a command observes: a free number of cycles, one at least, has passed since the
last one observed (assumption 1). -/
def State.ticked (s : State) (n : Nat) : State := s.draw.2.modCore n (Core.ticks (s.hiddenKey n) (s.draw.1 + 1))

/-- The free-running bits of element j of e elements in vl lanes: the state of the lane in which the element begins, after
the update of the cc of the instruction. -/
def State.freeDraw (s : State) (n vl e j : Nat) : BitVec 128 := ((s.ticked n).core n).frLane (j * vl / e)

/-- REKEY draws a hidden key from the security block's bit generator, in use from the next cc, and has no effect while that
is not READY (R176, R183; 15 R480). -/
def State.rekey (s : State) (n : Nat) : State :=
  if s.sec.ready then
    let s1 := s.ticked n
    let s2 := s1.draw.2.modCore n (fun c => { c with frKey := some (BitVec.ofNat 64 s1.draw.1) })
    { s2 with sec := { s2.sec with served := s2.sec.served + 1 } }
  else s

/-- A write of RNG_FR_CTRL.REKEY. -/
def execRekey (who : Party) (c : CoreId) (s : State) : Host.Outcome State Fault Refusal :=
  done (s.whenUp fun s => s.ctl who (rngPage (coreNo c) + 0x60) fun s => s.rekey (coreNo c))

end Sys2Proof.Machine
end

