-- ==== Sys2Proof/Machine/Seq.lean ====
section
/-! DEFINITION. The sequencer: its registers and their rotation (04 R122, R140), the issue of a bundle with its precise
faults, stalls, branches and loops (R125 to R128, R139 to R143, R149, R150). -/
namespace Sys2Proof.Machine

/-! Registers (04 R122, R140) -/

/-- The physical g register of a logical name. -/
def physG (rot : BitVec 4) (i : BitVec 5) : Nat :=
  if i.toNat < 16 then i.toNat else 16 + (i.toNat - 16 + 16 - rot.toNat) % 16

/-- The physical v register of a logical name. -/
def physV (rot : BitVec 5) (i : BitVec 6) : Nat :=
  if i.toNat < 32 then i.toNat else 32 + (i.toNat - 32 + 32 - rot.toNat) % 32

/-- A physical g register; g0 reads 0. -/
def Core.gPhys (c : Core) (i : Nat) : Dword := if i = 0 then 0 else Sparse.get (fun _ => (0 : Dword)) c.g i

/-- The g register of a logical name. -/
def Core.gr (c : Core) (i : BitVec 5) : Dword := c.gPhys (physG c.rotG i)

/-- Writes a physical g register; a write to g0 is discarded. -/
def Core.setG (c : Core) (i : Nat) (v : Dword) : Core :=
  if i = 0 then c else { c with g := Sparse.put (fun _ => (0 : Dword)) c.g i v }

/-- A physical v register. -/
def Core.vPhys (c : Core) (i : Nat) : BitVec 1024 := Sparse.get (fun _ => (0 : BitVec 1024)) c.v i

/-- The v register of a logical name. -/
def Core.vr (c : Core) (i : BitVec 6) : BitVec 1024 := c.vPhys (physV c.rotV i)

/-- Writes a physical v register. -/
def Core.setV (c : Core) (i : Nat) (v : BitVec 1024) : Core :=
  { c with v := Sparse.put (fun _ => (0 : BitVec 1024)) c.v i v }

/-- A predicate; p0 reads 1. -/
def Core.pr (c : Core) (i : BitVec 3) : Bool := decide (i = 0) || c.p.getLsbD i.toNat

/-- Writes a predicate; a write to p0 is discarded. -/
def Core.setP (c : Core) (i : BitVec 3) (b : Bool) : Core :=
  if i = 0 then c else { c with p := BitVec.ofNat 8 (setBits c.p.toNat i.toNat 1 (b2n b)) }

/-- The address, modifier, base and length of a generator. -/
def Core.ar (c : Core) (n : BitVec 3) : Dword := Sparse.get (fun _ => (0 : Dword)) c.a n.toNat
def Core.setA (c : Core) (n : BitVec 3) (v : Dword) : Core := { c with a := Sparse.put (fun _ => (0 : Dword)) c.a n.toNat v }
def Core.mr (c : Core) (n : BitVec 3) : Word := Sparse.get (fun _ => (0 : Word)) c.m n.toNat
def Core.setM (c : Core) (n : BitVec 3) (v : Word) : Core := { c with m := Sparse.put (fun _ => (0 : Word)) c.m n.toNat v }
def Core.baseOf (c : Core) (n : BitVec 3) : BitVec 56 := Sparse.get (fun _ => (0 : BitVec 56)) c.base n.toNat
def Core.setBase (c : Core) (n : BitVec 3) (v : BitVec 56) : Core :=
  { c with base := Sparse.put (fun _ => (0 : BitVec 56)) c.base n.toNat v }
def Core.lenOf (c : Core) (n : BitVec 3) : BitVec 21 := Sparse.get (fun _ => (0 : BitVec 21)) c.len n.toNat
def Core.setLen (c : Core) (n : BitVec 3) (v : BitVec 21) : Core :=
  { c with len := Sparse.put (fun _ => (0 : BitVec 21)) c.len n.toNat v }

/-- A completion counter. -/
def Core.ctr (c : Core) (i : Nat) : Nat := Sparse.get (fun _ => (0 : Nat)) c.cnt i
def Core.setCtr (c : Core) (i v : Nat) : Core := { c with cnt := Sparse.put (fun _ => (0 : Nat)) c.cnt i v }

/-- A descriptor completes: its counter loses 1, never below 0, if it still counts (04 R145). -/
def Core.countDown (c : Core) (i : Nat) (counted : Bool) : Core :=
  if counted then c.setCtr i (c.ctr i - 1) else c

/-! The result of a slot -/

/-- A precise fault: its cause (R150), the effective address of a memory fault, the BLK_ERR code. -/
structure Flt where
  cause : Nat
  addr : Option Dword
  code : BitVec 16
deriving DecidableEq, Repr

/-- The causes of R150. -/
def Flt.illegal : Flt := ⟨1, none, Code.seqFault⟩
def Flt.misaligned (a : Dword) : Flt := ⟨2, some a, Code.seqFault⟩
def Flt.access (a : Dword) : Flt := ⟨3, some a, Code.seqFault⟩
def Flt.refused (a : Dword) : Flt := ⟨3, some a, Code.netPartition⟩
def Flt.agu : Flt := ⟨4, none, Code.seqFault⟩
def Flt.loop : Flt := ⟨5, none, Code.seqFault⟩
def Flt.issue : Flt := ⟨6, none, Code.seqFault⟩
def Flt.poison (a : Dword) : Flt := ⟨7, some a, Code.memUncorrectable⟩

/-- A register that a slot names as a destination (R127). -/
inductive Dest where
  | g (i : Nat) | p (i : Nat) | a (i : Nat) | m (i : Nat) | base (i : Nat) | len (i : Nat) | mode (i : Nat) | v (i : Nat)
deriving DecidableEq, Repr

/-- Where slot 0 sends control: a taken branch (and whether it can pop loops), the skip of a loop with N = 0, or a loop
that is pushed. -/
inductive Jump where
  | none
  | branch (target : Int) (pops : Bool)
  | skip (target : Int)
  | push (l : LoopEntry)
deriving DecidableEq, Repr

/-- What a slot's operation does, given the state before its bundle: whether it is illegal whatever its predicate, the
registers it names, its fault, its stall, where it sends control, whether it halts, its effects, those effects that come
before every slot's (05 R173), what its checks have found when it faults (06 R190: bit errors), and what it does while it
alone makes the bundle wait. -/
structure SlotOp where
  op : Nat
  illegal : Bool := false
  dests : List Dest := []
  fault : Option Flt := none
  stall : Stall := .none
  jump : Jump := .none
  halt : Bool := false
  pre : State → State := fun s => s
  onFault : State → State := fun s => s
  act : State → State := fun s => s
  wait : State → State := fun s => s

/-- A slot of a bundle: its number, whether its predicate lets it execute, its operation. -/
structure SlotIn where
  slot : Nat
  on : Bool
  what : SlotOp

/-! Faults (04 R149, R150, R155) -/

/-- Whether a CLR waits for its reply: its register write has not drained (R147). -/
def Core.reads (c : Core) : Bool := c.colReads.any (fun r => match r with | .seq _ => true | _ => false)

/-- The memory-plane reads of a bundle that is given up: answers that are still to come will be discarded, and their tags
stay taken until then. -/
def Core.dropReads (c : Core) : List SeqRead :=
  (c.seqReads.filter (fun r => r.ans.isNone)).map (fun r => { r with dropped := true })

/-- The sequencer comes to rest in a state: at once, or, while it stops or a register write has not drained, when
STOPPING ends. -/
def Core.rest (c : Core) (st : SeqState) : Core :=
  if c.st = .stopping ∨ c.reads = true then
    { c with st := .stopping, after := st, stall := .none, stepping := false, seqReads := c.dropReads }
  else { c with st := st, stall := .none, stepping := false, seqReads := c.dropReads }

/-- Holds the fault in SEQ_FAULT, SEQ_FAULT_PC and SEQ_FAULT_ADDR unless an earlier one is held. -/
def State.holdFault (s : State) (n slot op : Nat) (f : Flt) (pc : BitVec 20) : State :=
  let pg := corePage n 0
  if s.bit (pg + 0x4C) 0 then s
  else
    let s1 := s.setReg (pg + 0x4C) (BitVec.ofNat 32 (1 + f.cause * 2 + slot * 32 + op * 65536))
    let s2 := s1.setReg (pg + 0x50) (pc.setWidth 32)
    s2.setReg64 (pg + 0x54) (f.addr.getD 0)

/-- A fault: it is held and entered in BLK_ERR, FAULTED is raised, the tenant gets an event, a POISON fault is reported,
and the sequencer enters FAULTED with pc at the faulting bundle. -/
def State.seqFault (s : State) (n slot op : Nat) (f : Flt) : State :=
  let pc := (s.core n).pc
  let s1 := ((s.holdFault n slot op f pc).enterCode (corePage n 0) f.code).raiseIrq (corePage n 0) 2
  let s2 := s1.coreEvent n f.code .seq (pc.setWidth 32)
  let s3 := if f.cause = 7 then s2.selfReport n 0 f.code else s2
  s3.modCore n (fun c => c.rest .faulted)

/-! Loops and branches (04 R139 to R143) -/

/-- Whether an address lies in a loop's body. -/
def LoopEntry.holds (l : LoopEntry) (a : Int) : Bool :=
  decide ((l.first.toNat : Int) ≤ a) && decide (a ≤ (l.last.toNat : Int))

/-- The trips of a loop: N + S - 1. -/
def LoopEntry.trips (l : LoopEntry) : Nat := l.n + l.stages - 1

/-- The stage predicates at trip index t of a rotating loop (R141). -/
def stagePreds (l : LoopEntry) (t : Nat) (c : Core) : Core :=
  (List.range l.stages).foldl (fun c st => c.setP (BitVec.ofNat 3 (4 + st)) (decide (st ≤ t) && decide (t - st < l.n))) c

/-- Pops the loops from the top whose body does not hold the target of a taken branch (R142). The top is the last entry
of the list. -/
def popLoops (target : Int) (ls : List LoopEntry) : List LoopEntry :=
  (ls.reverse.dropWhile (fun l => !l.holds target)).reverse

/-- The ends of trips at a bundle that issued without a taken branch: innermost first; a loop with trips left goes back
to its first bundle, a finished loop is popped and the loop that shares its last bundle is handled next. `fuel` is the
depth of the stack. Only the innermost loop on the stack is looked at: an enclosing loop whose last bundle issues below an inner
one ends no trip (DESIGN CHOICE, assumption 89). -/
def tripEnds : Nat → BitVec 20 → Core → Core × Option (BitVec 20)
  | 0, _, c => (c, none)
  | fuel + 1, b, c =>
    match c.loops.reverse with
    | [] => (c, none)
    | l :: below =>
      if l.last = b then
        let d := l.done + 1
        let c1 : Core := if l.rot then { c with rotG := c.rotG + 1, rotV := c.rotV + 1 } else c
        let c2 := if l.rot then stagePreds l d c1 else c1
        if d < l.trips then
          ({ c2 with loops := (({ l with done := d } : LoopEntry) :: below).reverse }, some l.first)
        else tripEnds fuel b { c2 with loops := below.reverse }
      else (c, none)

/-- Sets pc to an address; one outside the scratchpad is kept for the fetch to fault on. -/
def Core.goto (c : Core) (a : Int) : Core :=
  if 0 ≤ a ∧ a < 2 ^ 20 then { c with pc := BitVec.ofInt 20 a, pcOut := none }
  else { c with pc := BitVec.ofInt 20 a, pcOut := some (BitVec.ofInt 64 a) }

/-- The core after the effects of its bundle: pc, loops, rotation and stage predicates. -/
def Core.advance (c : Core) (j : Jump) : Core :=
  let b := c.pc
  let seqNext : Int := (b.toNat : Int) + 16
  match j with
  | .branch t pops => (if pops then { c with loops := popLoops t c.loops } else c).goto t
  | .skip t => c.goto t
  | .push l =>
    let c1 := { c with loops := c.loops ++ [l] }
    (if l.rot then stagePreds l 0 c1 else c1).goto seqNext
  | .none =>
    match tripEnds 4 b c with
    | (c1, some a) => c1.goto (a.toNat : Int)
    | (c1, none) => c1.goto seqNext

/-! Issue -/

/-- Whether a sequencer has a bundle in issue: a store of the bundle to its own pages may reset it. -/
def SeqState.issuing (st : SeqState) : Bool := decide (st = .running) || decide (st = .stopping)

/-- The first slot with a fault, lowest slot first: an illegal operation whatever its predicate, a destination that two
slots name, or a fault of an operation that executes (R127, R128, R149). -/
def bundleFault (l : List SlotIn) : Option (Nat × Nat × Flt) :=
  l.foldr (fun x rest =>
    let dup := l.any (fun y => decide (y.slot ≠ x.slot) && x.what.dests.any (fun d => y.what.dests.contains d))
    if x.what.illegal || dup then some (x.slot, x.what.op, .illegal)
    else match if x.on then x.what.fault else none with
      | some f => some (x.slot, x.what.op, f)
      | none => rest) none

/-- Why the bundle stalls, if it does. -/
def bundleStall (l : List SlotIn) : Stall :=
  l.foldr (fun x rest => if x.on ∧ x.what.stall ≠ .none then x.what.stall else rest) .none

/-- The jump of the slots that execute. -/
def bundleJump (l : List SlotIn) : Jump :=
  l.foldr (fun x rest => if x.on ∧ x.what.jump ≠ .none then x.what.jump else rest) .none

/-- The effects of the slots that execute, slot by slot; each read its sources before any of them writes (R127). -/
def bundleActs (l : List SlotIn) (s : State) : State :=
  l.foldl (fun s x => if x.on then x.what.act s else s) (l.foldl (fun s x => if x.on then x.what.pre s else s) s)

/-- The loop buffer holds the innermost body: it is emptied when a loop is pushed or popped (R143; assumption 72). -/
def Core.bufferKept (c d : Core) : Core := if d.loops.length = c.loops.length then d else { d with loopBuf := [] }

/-- The core after the effects of its bundle, unless they have reset it. -/
def Core.afterBundle (j : Jump) (c : Core) : Core := if c.st.issuing then c.bufferKept (c.advance j) else c

/-- The answers to the bundle's memory-plane reads have been used. -/
def Core.readsUsed (c : Core) : Core := { c with seqReads := c.dropReads }

/-- While the bundle waits for one slot alone, that slot goes on: it wakes the scratchpad, asks for lines or sends reads. A
slot of a bundle that other slots hold up does nothing (R148, R152). -/
def bundleWait (l : List SlotIn) (s : State) : State :=
  match l.filter (fun x => x.on && decide (x.what.stall ≠ .none)) with
  | [x] => x.what.wait s
  | _ => s

/-- The sequencer stops after a STEP or a STOP, or goes on to the next bundle (R151, R152). -/
def Core.goesOn (c : Core) : Core :=
  if c.stepping || decide (c.st = .stopping) then c.rest .stopped else { c with stall := .none }

/-- After a bundle has issued: the sequencer halts (R129), or stops after a STEP (R151), or goes on. -/
def State.settle (s : State) (n : Nat) (halts : Bool) : State :=
  if halts then (s.modCore n (fun c => c.rest .halted)).raiseIrq (corePage n 0) 1
  else s.modCore n Core.goesOn

/-- A bundle in issue on core n: a fault, a stall of the whole bundle, or its effects (R149, R148). A slot that faults is not held
back by another that stalls (DESIGN CHOICE, assumption 90). -/
def State.runBundle (s : State) (n : Nat) (l : List SlotIn) : State :=
  match bundleFault l with
  | some (slot, op, f) =>
    (l.foldl (fun s x => if x.on && decide (x.slot = slot) && decide (x.what.fault = some f) then x.what.onFault s else s) s).seqFault n slot op f
  | none =>
    if bundleStall l ≠ .none then
      (bundleWait l s).modCore n (fun c => { c with stall := bundleStall l })
    else
      let s1 := (bundleActs l s).modCore n (Core.afterBundle (bundleJump l))
      ((s1.modCore n Core.readsUsed).inc64 (corePage n 0 + 0x68)).settle n (l.any (fun x => x.on && x.what.halt))

/-- Whether core n's sequencer can issue: it is RUNNING, or STOPPING with a bundle in issue that it must complete
(R152); its island runs; no CLR waits for its reply (R147, R148). -/
def State.canIssue (s : State) (n : Nat) : Bool :=
  let c := s.core n
  !s.inReset && !s.tripped && (decide (c.st = .running) || (decide (c.st = .stopping) && decide (c.stall = .other)))
    && !c.reads

/-- The predicate of a slot. -/
def Core.pred (c : Core) (o : Slot) : Bool := c.pr o.pred ^^ o.neg

/-- A Slovo operation as a command: the core issues a bundle that holds this operation alone, at its pc. A core that
cannot issue leaves the state as it is. A pc beyond the scratchpad is an ACCESS fault of the fetch (R150). -/
def State.issueOp (s : State) (o : Slot) (slot : Nat) (f : State → Nat → SlotOp) : State :=
  let n := coreNo o.core
  if !s.canIssue n then s
  else match (s.core n).pcOut with
    | some a => s.seqFault n 0 0 (.access a)
    | none => s.runBundle n [⟨slot, (s.core n).pred o, f s n⟩]

end Sys2Proof.Machine
end

