-- ==== Sys2Proof/Machine/Scalar.lean ====
section
/-! DEFINITION. The scalar operations of slots 0 and 1 and the address-generator operations of slot 1 (04 R130, R131). -/
namespace Sys2Proof.Machine

/-- An operation that writes one g register with a value computed from the core before the bundle. -/
def gOp (op : Nat) (gd : BitVec 5) (illegal : Bool) (f : Core → Dword) : State → Nat → SlotOp := fun s n =>
  let c := s.core n
  { op := op, illegal := illegal, dests := [.g (physG c.rotG gd)],
    act := fun t => t.modCore n (fun d => d.setG (physG c.rotG gd) (f c)) }

/-- An operation that writes one predicate with a value computed from the core before the bundle. -/
def pOp (op : Nat) (pd : BitVec 3) (f : Core → Bool) : State → Nat → SlotOp := fun s n =>
  let c := s.core n
  { op := op, dests := [.p pd.toNat], act := fun t => t.modCore n (fun d => d.setP pd (f c)) }

/-- An operation that does nothing. -/
def nopOp : State → Nat → SlotOp := fun _ _ => { op := 0 }

/-- The signed order of 64-bit values. -/
def sLt (a b : Dword) : Bool := decide (a.toInt < b.toInt)

/-- The twelve-bit immediate, sign-extended. -/
def imm64 (i : BitVec 12) : Dword := i.signExtend 64

/-- NOP in any slot (R126). -/
def execNop (o : Slot) (k : Fin 4) (s : State) : Host.Outcome State Fault Refusal :=
  done (s.issueOp o k.val nopOp)

/-- The operation of ADD: gd := ga + gb (R130). -/
def opAdd (gd ga gb : BitVec 5) : State → Nat → SlotOp := gOp 0x10 gd false (fun c => c.gr ga + c.gr gb)

/-- ADD. -/
def execAdd (o : Slot) (k : Fin 2) (gd ga gb : BitVec 5) (s : State) : Host.Outcome State Fault Refusal :=
  done (s.issueOp o k.val (opAdd gd ga gb))

/-- The operation of SUB: gd := ga - gb (R130). -/
def opSub (gd ga gb : BitVec 5) : State → Nat → SlotOp := gOp 0x11 gd false (fun c => c.gr ga - c.gr gb)

/-- SUB. -/
def execSub (o : Slot) (k : Fin 2) (gd ga gb : BitVec 5) (s : State) : Host.Outcome State Fault Refusal :=
  done (s.issueOp o k.val (opSub gd ga gb))

/-- The operation of AND: bitwise and (R130). -/
def opAnd (gd ga gb : BitVec 5) : State → Nat → SlotOp := gOp 0x12 gd false (fun c => c.gr ga &&& c.gr gb)

/-- AND. -/
def execAnd (o : Slot) (k : Fin 2) (gd ga gb : BitVec 5) (s : State) : Host.Outcome State Fault Refusal :=
  done (s.issueOp o k.val (opAnd gd ga gb))

/-- The operation of OR: bitwise or (R130). -/
def opOr (gd ga gb : BitVec 5) : State → Nat → SlotOp := gOp 0x13 gd false (fun c => c.gr ga ||| c.gr gb)

/-- OR. -/
def execOr (o : Slot) (k : Fin 2) (gd ga gb : BitVec 5) (s : State) : Host.Outcome State Fault Refusal :=
  done (s.issueOp o k.val (opOr gd ga gb))

/-- The operation of XOR: bitwise exclusive or (R130). -/
def opXor (gd ga gb : BitVec 5) : State → Nat → SlotOp := gOp 0x14 gd false (fun c => c.gr ga ^^^ c.gr gb)

/-- XOR. -/
def execXor (o : Slot) (k : Fin 2) (gd ga gb : BitVec 5) (s : State) : Host.Outcome State Fault Refusal :=
  done (s.issueOp o k.val (opXor gd ga gb))

/-- The operation of SHL: gd := ga << gb[5:0] (R130). -/
def opShl (gd ga gb : BitVec 5) : State → Nat → SlotOp := gOp 0x15 gd false (fun c => c.gr ga <<< ((c.gr gb).toNat % 64))

/-- SHL. -/
def execShl (o : Slot) (k : Fin 2) (gd ga gb : BitVec 5) (s : State) : Host.Outcome State Fault Refusal :=
  done (s.issueOp o k.val (opShl gd ga gb))

/-- The operation of SHR: logical shift right by gb[5:0] (R130). -/
def opShr (gd ga gb : BitVec 5) : State → Nat → SlotOp := gOp 0x16 gd false (fun c => c.gr ga >>> ((c.gr gb).toNat % 64))

/-- SHR. -/
def execShr (o : Slot) (k : Fin 2) (gd ga gb : BitVec 5) (s : State) : Host.Outcome State Fault Refusal :=
  done (s.issueOp o k.val (opShr gd ga gb))

/-- The operation of SHA: arithmetic shift right by gb[5:0] (R130). -/
def opSha (gd ga gb : BitVec 5) : State → Nat → SlotOp := gOp 0x17 gd false (fun c => (c.gr ga).sshiftRight ((c.gr gb).toNat % 64))

/-- SHA. -/
def execSha (o : Slot) (k : Fin 2) (gd ga gb : BitVec 5) (s : State) : Host.Outcome State Fault Refusal :=
  done (s.issueOp o k.val (opSha gd ga gb))

/-- The operation of MUL: the low 64 bits of ga * gb (R130). -/
def opMul (gd ga gb : BitVec 5) : State → Nat → SlotOp := gOp 0x18 gd false (fun c => c.gr ga * c.gr gb)

/-- MUL. -/
def execMul (o : Slot) (k : Fin 2) (gd ga gb : BitVec 5) (s : State) : Host.Outcome State Fault Refusal :=
  done (s.issueOp o k.val (opMul gd ga gb))

/-- The operation of MIN: signed minimum (R130). -/
def opSmin (gd ga gb : BitVec 5) : State → Nat → SlotOp := gOp 0x19 gd false (fun c => if sLt (c.gr gb) (c.gr ga) then c.gr gb else c.gr ga)

/-- MIN. -/
def execSmin (o : Slot) (k : Fin 2) (gd ga gb : BitVec 5) (s : State) : Host.Outcome State Fault Refusal :=
  done (s.issueOp o k.val (opSmin gd ga gb))

/-- The operation of MAX: signed maximum (R130). -/
def opSmax (gd ga gb : BitVec 5) : State → Nat → SlotOp := gOp 0x1A gd false (fun c => if sLt (c.gr ga) (c.gr gb) then c.gr gb else c.gr ga)

/-- MAX. -/
def execSmax (o : Slot) (k : Fin 2) (gd ga gb : BitVec 5) (s : State) : Host.Outcome State Fault Refusal :=
  done (s.issueOp o k.val (opSmax gd ga gb))

/-- The operation of CMPLT: pd := ga < gb, signed (R130). -/
def opCmplt (pd : BitVec 3) (ga gb : BitVec 5) : State → Nat → SlotOp := pOp 0x1B pd (fun c => sLt (c.gr ga) (c.gr gb))

/-- CMPLT. -/
def execCmplt (o : Slot) (k : Fin 2) (pd : BitVec 3) (ga gb : BitVec 5) (s : State) : Host.Outcome State Fault Refusal :=
  done (s.issueOp o k.val (opCmplt pd ga gb))

/-- The operation of CMPLTU: pd := ga < gb, unsigned (R130). -/
def opCmpltu (pd : BitVec 3) (ga gb : BitVec 5) : State → Nat → SlotOp := pOp 0x1C pd (fun c => decide ((c.gr ga).toNat < (c.gr gb).toNat))

/-- CMPLTU. -/
def execCmpltu (o : Slot) (k : Fin 2) (pd : BitVec 3) (ga gb : BitVec 5) (s : State) : Host.Outcome State Fault Refusal :=
  done (s.issueOp o k.val (opCmpltu pd ga gb))

/-- The operation of CMPEQ: pd := ga = gb (R130). -/
def opCmpeq (pd : BitVec 3) (ga gb : BitVec 5) : State → Nat → SlotOp := pOp 0x1D pd (fun c => decide (c.gr ga = c.gr gb))

/-- CMPEQ. -/
def execCmpeq (o : Slot) (k : Fin 2) (pd : BitVec 3) (ga gb : BitVec 5) (s : State) : Host.Outcome State Fault Refusal :=
  done (s.issueOp o k.val (opCmpeq pd ga gb))

/-- The operation of PLOG: pd := TT[2 * p[pa] + p[pb]] (R130). -/
def opPlog (pd pa pb : BitVec 3) (tt : BitVec 4) : State → Nat → SlotOp :=
  pOp 0x1E pd (fun c => tt.getLsbD (2 * b2n (c.pr pa) + b2n (c.pr pb)))

/-- PLOG. -/
def execPlog (o : Slot) (k : Fin 2) (pd pa pb : BitVec 3) (tt : BitVec 4) (s : State) : Host.Outcome State Fault Refusal :=
  done (s.issueOp o k.val (opPlog pd pa pb tt))

/-- Bits [11:6] of a shift immediate must be 0 (R130, R128). -/
def shiftImm (i : BitVec 12) : Bool := decide (64 ≤ i.toNat)

/-- The operation of ADDI: gd := ga + imm12 (R130). -/
def opAddi (gd ga : BitVec 5) (imm : BitVec 12) : State → Nat → SlotOp := gOp 0x20 gd false (fun c => c.gr ga + imm64 imm)

/-- ADDI. -/
def execAddi (o : Slot) (k : Fin 2) (gd ga : BitVec 5) (imm : BitVec 12) (s : State) : Host.Outcome State Fault Refusal :=
  done (s.issueOp o k.val (opAddi gd ga imm))

/-- The operation of ANDI: gd := ga and imm12 (R130). -/
def opAndi (gd ga : BitVec 5) (imm : BitVec 12) : State → Nat → SlotOp := gOp 0x21 gd false (fun c => c.gr ga &&& imm64 imm)

/-- ANDI. -/
def execAndi (o : Slot) (k : Fin 2) (gd ga : BitVec 5) (imm : BitVec 12) (s : State) : Host.Outcome State Fault Refusal :=
  done (s.issueOp o k.val (opAndi gd ga imm))

/-- The operation of ORI: gd := ga or imm12 (R130). -/
def opOri (gd ga : BitVec 5) (imm : BitVec 12) : State → Nat → SlotOp := gOp 0x22 gd false (fun c => c.gr ga ||| imm64 imm)

/-- ORI. -/
def execOri (o : Slot) (k : Fin 2) (gd ga : BitVec 5) (imm : BitVec 12) (s : State) : Host.Outcome State Fault Refusal :=
  done (s.issueOp o k.val (opOri gd ga imm))

/-- The operation of XORI: gd := ga xor imm12 (R130). -/
def opXori (gd ga : BitVec 5) (imm : BitVec 12) : State → Nat → SlotOp := gOp 0x23 gd false (fun c => c.gr ga ^^^ imm64 imm)

/-- XORI. -/
def execXori (o : Slot) (k : Fin 2) (gd ga : BitVec 5) (imm : BitVec 12) (s : State) : Host.Outcome State Fault Refusal :=
  done (s.issueOp o k.val (opXori gd ga imm))

/-- The operation of SHLI: gd := ga << imm12[5:0] (R130). -/
def opShli (gd ga : BitVec 5) (imm : BitVec 12) : State → Nat → SlotOp := gOp 0x24 gd (shiftImm imm) (fun c => c.gr ga <<< (imm.toNat % 64))

/-- SHLI. -/
def execShli (o : Slot) (k : Fin 2) (gd ga : BitVec 5) (imm : BitVec 12) (s : State) : Host.Outcome State Fault Refusal :=
  done (s.issueOp o k.val (opShli gd ga imm))

/-- The operation of SHRI: logical shift right by imm12[5:0] (R130). -/
def opShri (gd ga : BitVec 5) (imm : BitVec 12) : State → Nat → SlotOp := gOp 0x25 gd (shiftImm imm) (fun c => c.gr ga >>> (imm.toNat % 64))

/-- SHRI. -/
def execShri (o : Slot) (k : Fin 2) (gd ga : BitVec 5) (imm : BitVec 12) (s : State) : Host.Outcome State Fault Refusal :=
  done (s.issueOp o k.val (opShri gd ga imm))

/-- The operation of SHAI: arithmetic shift right by imm12[5:0] (R130). -/
def opShai (gd ga : BitVec 5) (imm : BitVec 12) : State → Nat → SlotOp := gOp 0x26 gd (shiftImm imm) (fun c => (c.gr ga).sshiftRight (imm.toNat % 64))

/-- SHAI. -/
def execShai (o : Slot) (k : Fin 2) (gd ga : BitVec 5) (imm : BitVec 12) (s : State) : Host.Outcome State Fault Refusal :=
  done (s.issueOp o k.val (opShai gd ga imm))

/-- The operation of CMPLTI: pd := ga < imm12, signed (R130). -/
def opCmplti (pd : BitVec 3) (ga : BitVec 5) (imm : BitVec 12) : State → Nat → SlotOp := pOp 0x27 pd (fun c => sLt (c.gr ga) (imm64 imm))

/-- CMPLTI. -/
def execCmplti (o : Slot) (k : Fin 2) (pd : BitVec 3) (ga : BitVec 5) (imm : BitVec 12) (s : State) : Host.Outcome State Fault Refusal :=
  done (s.issueOp o k.val (opCmplti pd ga imm))

/-- The operation of CMPEQI: pd := ga = imm12 (R130). -/
def opCmpeqi (pd : BitVec 3) (ga : BitVec 5) (imm : BitVec 12) : State → Nat → SlotOp := pOp 0x28 pd (fun c => decide (c.gr ga = imm64 imm))

/-- CMPEQI. -/
def execCmpeqi (o : Slot) (k : Fin 2) (pd : BitVec 3) (ga : BitVec 5) (imm : BitVec 12) (s : State) : Host.Outcome State Fault Refusal :=
  done (s.issueOp o k.val (opCmpeqi pd ga imm))

/-- The operation of MOVI: gd := sext(imm17) (R130). -/
def opMovi (gd : BitVec 5) (imm : BitVec 17) : State → Nat → SlotOp := gOp 0x29 gd false (fun _ => imm.signExtend 64)

/-- MOVI. -/
def execMovi (o : Slot) (k : Fin 2) (gd : BitVec 5) (imm : BitVec 17) (s : State) : Host.Outcome State Fault Refusal :=
  done (s.issueOp o k.val (opMovi gd imm))

/-- The operation of SHLOR: gd := (gd << 16) or imm17[15:0], with imm17[16] = 0 (R130). -/
def opShlor (gd : BitVec 5) (imm : BitVec 17) : State → Nat → SlotOp :=
  gOp 0x2A gd (imm.getLsbD 16) (fun c => (c.gr gd <<< 16) ||| (imm.setWidth 16).setWidth 64)

/-- SHLOR. -/
def execShlor (o : Slot) (k : Fin 2) (gd : BitVec 5) (imm : BitVec 17) (s : State) : Host.Outcome State Fault Refusal :=
  done (s.issueOp o k.val (opShlor gd imm))

/-! Generator operations (R131) -/

/-- g[ga] + sext(imm12), the value that the generator operations set. -/
def genVal (c : Core) (ga : BitVec 5) (imm : BitVec 12) : Dword := c.gr ga + imm64 imm

/-- The operation of SETA: a_n := g[ga] + sext(imm12). -/
def opSeta (n : BitVec 3) (ga : BitVec 5) (imm : BitVec 12) : State → Nat → SlotOp := fun s k =>
  let c := s.core k
  { op := 0x30, dests := [.a n.toNat], act := fun t => t.modCore k (fun d => d.setA n (genVal c ga imm)) }

/-- SETA. -/
def execSeta (o : Slot) (n : BitVec 3) (ga : BitVec 5) (imm : BitVec 12) (s : State) : Host.Outcome State Fault Refusal :=
  done (s.issueOp o 1 (opSeta n ga imm))

/-- The operation of SETM: m_n := (g[ga] + sext(imm12))[31:0]. -/
def opSetm (n : BitVec 3) (ga : BitVec 5) (imm : BitVec 12) : State → Nat → SlotOp := fun s k =>
  let c := s.core k
  { op := 0x31, dests := [.m n.toNat], act := fun t => t.modCore k (fun d => d.setM n ((genVal c ga imm).setWidth 32)) }

/-- SETM. -/
def execSetm (o : Slot) (n : BitVec 3) (ga : BitVec 5) (imm : BitVec 12) (s : State) : Host.Outcome State Fault Refusal :=
  done (s.issueOp o 1 (opSetm n ga imm))

/-- The operation of SETB: base_n := (g[ga] + sext(imm12))[55:0]. -/
def opSetb (n : BitVec 3) (ga : BitVec 5) (imm : BitVec 12) : State → Nat → SlotOp := fun s k =>
  let c := s.core k
  { op := 0x32, dests := [.base n.toNat], act := fun t => t.modCore k (fun d => d.setBase n ((genVal c ga imm).setWidth 56)) }

/-- SETB. -/
def execSetb (o : Slot) (n : BitVec 3) (ga : BitVec 5) (imm : BitVec 12) (s : State) : Host.Outcome State Fault Refusal :=
  done (s.issueOp o 1 (opSetb n ga imm))

/-- The operation of SETL: len_n := g[ga] + sext(imm12); 0 or above 2^20 is an AGU fault. -/
def opSetl (n : BitVec 3) (ga : BitVec 5) (imm : BitVec 12) : State → Nat → SlotOp := fun s k =>
  let c := s.core k
  let v := genVal c ga imm
  { op := 0x33, dests := [.len n.toNat], fault := if v = 0 ∨ 2 ^ 20 < v.toNat then some .agu else none,
    act := fun t => t.modCore k (fun d => d.setLen n (v.setWidth 21)) }

/-- SETL. -/
def execSetl (o : Slot) (n : BitVec 3) (ga : BitVec 5) (imm : BitVec 12) (s : State) : Host.Outcome State Fault Refusal :=
  done (s.issueOp o 1 (opSetl n ga imm))

/-- The operation of SETMD: mode_n := imm12[0]; the register field and imm12[11:1] are 0. -/
def opSetmd (n : BitVec 3) (ga : BitVec 5) (imm : BitVec 12) : State → Nat → SlotOp := fun _ k =>
  { op := 0x34, illegal := decide (ga ≠ 0) || decide (1 < imm.toNat), dests := [.mode n.toNat],
    act := fun t => t.modCore k (fun d => { d with mode := BitVec.ofNat 8 (setBits d.mode.toNat n.toNat 1 (imm.toNat % 2)) }) }

/-- SETMD. -/
def execSetmd (o : Slot) (n : BitVec 3) (ga : BitVec 5) (imm : BitVec 12) (s : State) : Host.Outcome State Fault Refusal :=
  done (s.issueOp o 1 (opSetmd n ga imm))

/-- The operation of GETA: g[register field] := a_n. GETA does not use imm12, so a nonzero one is illegal (R128). -/
def opGeta (n : BitVec 3) (gd : BitVec 5) (imm : BitVec 12) : State → Nat → SlotOp :=
  gOp 0x35 gd (decide (imm ≠ 0)) (fun c => c.ar n)

/-- GETA. -/
def execGeta (o : Slot) (n : BitVec 3) (gd : BitVec 5) (imm : BitVec 12) (s : State) : Host.Outcome State Fault Refusal :=
  done (s.issueOp o 1 (opGeta n gd imm))

end Sys2Proof.Machine
end

