-- ==== Sys2Proof/Machine/SeqCtl.lean ====
section
/-! DEFINITION. The control operations of slot 0 but ISSUE (04 R129, R139, R146, R147), and starting and stopping a
sequencer (R151, R152). -/
namespace Sys2Proof.Machine

/-! Branches -/

/-- The target of a relative branch. -/
def brTarget (c : Core) (imm : BitVec 22) : Int := (c.pc.toNat : Int) + imm.toInt * 16

/-- The operation of BR: pc := address of this bundle + sext(imm22) * 16. -/
def opBr (imm : BitVec 22) : State → Nat → SlotOp := fun s n =>
  { op := 0x01, jump := .branch (brTarget (s.core n) imm) true }

/-- BR. -/
def execBr (o : Slot) (imm : BitVec 22) (s : State) : Host.Outcome State Fault Refusal :=
  done (s.issueOp o 0 (opBr imm))

/-- The operation of BRR: pc := g[ga]; bits [3:0] nonzero is MISALIGNED, bits [63:20] nonzero is ACCESS. -/
def opBrr (ga : BitVec 5) : State → Nat → SlotOp := fun s n =>
  let v := (s.core n).gr ga
  { op := 0x02,
    fault := if v.toNat % 16 ≠ 0 then some (.misaligned v) else if 2 ^ 20 ≤ v.toNat then some (.access v) else none,
    jump := .branch (v.toNat : Int) true }

/-- BRR. -/
def execBrr (o : Slot) (ga : BitVec 5) (s : State) : Host.Outcome State Fault Refusal :=
  done (s.issueOp o 0 (opBrr ga))

/-- The operation of CALL: g15 := address of this bundle + 16, then as BR; it pops no loop (R142). -/
def opCall (imm : BitVec 22) : State → Nat → SlotOp := fun s n =>
  let c := s.core n
  { op := 0x03, dests := [.g 15], jump := .branch (brTarget c imm) false,
    act := fun t => t.modCore n (fun d => d.setG 15 (c.pc.setWidth 64 + 16)) }

/-- CALL. -/
def execCall (o : Slot) (imm : BitVec 22) (s : State) : Host.Outcome State Fault Refusal :=
  done (s.issueOp o 0 (opCall imm))

/-! Loops -/

/-- LOOP and LOOPI: N trips, a body of bl bundles, st stages (R139, R143). -/
def loopOp (op n bl st : Nat) (rot : Bool) : State → Nat → SlotOp := fun s k =>
  let c := s.core k
  let b := c.pc.toNat
  let inside := match c.loops.reverse with
    | [] => true
    | l :: _ => decide (l.first.toNat ≤ b + 16) && decide (b + 16 * bl ≤ l.last.toNat)
  let bad := decide (4 ≤ c.loops.length) || (rot && c.loops.any (fun l => l.rot)) || !inside
  { op := op, illegal := decide (1 < st) && !rot, fault := if bad then some .loop else none,
    jump := if n = 0 then .skip ((b + 16 * (bl + 1) : Nat) : Int)
      else .push { first := BitVec.ofNat 20 (b + 16), last := BitVec.ofNat 20 (b + 16 * bl), stages := st, rot := rot, n := n, done := 0 } }

/-- The operation of LOOP: N is g[ga][31:0]. -/
def opLoop (ga : BitVec 5) (blm1 : BitVec 6) (sm1 : BitVec 2) (rot : Bool) : State → Nat → SlotOp := fun s k =>
  loopOp 0x04 (((s.core k).gr ga).toNat % 2 ^ 32) (blm1.toNat + 1) (sm1.toNat + 1) rot s k

/-- LOOP. -/
def execLoop (o : Slot) (ga : BitVec 5) (blm1 : BitVec 6) (sm1 : BitVec 2) (rot : Bool) (s : State) : Host.Outcome State Fault Refusal :=
  done (s.issueOp o 0 (opLoop ga blm1 sm1 rot))

/-- The operation of LOOPI. -/
def opLoopi (n : BitVec 13) (blm1 : BitVec 6) (sm1 : BitVec 2) (rot : Bool) : State → Nat → SlotOp :=
  loopOp 0x05 n.toNat (blm1.toNat + 1) (sm1.toNat + 1) rot

/-- LOOPI. -/
def execLoopi (o : Slot) (n : BitVec 13) (blm1 : BitVec 6) (sm1 : BitVec 2) (rot : Bool) (s : State) : Host.Outcome State Fault Refusal :=
  done (s.issueOp o 0 (opLoopi n blm1 sm1 rot))

/-! WAIT and FENCE -/

/-- Whether every counter of the mask holds n or less (R146). -/
def Core.countersOk (c : Core) (mask n : BitVec 4) : Bool :=
  (List.range 4).all (fun i => !mask.getLsbD i || decide (c.ctr i ≤ n.toNat))

/-- The operation of WAIT: it stalls until the counters of MASK hold N or less and, with TIME, until dt >= g[ga]. -/
def opWait (mask n : BitVec 4) (time : Bool) (ga : BitVec 5) : State → Nat → SlotOp := fun s k =>
  let c := s.core k
  { op := 0x07,
    stall := if c.countersOk mask n && (!time || decide ((c.gr ga).toNat ≤ s.time.toNat)) then .none else .wait }

/-- WAIT. -/
def execWait (o : Slot) (mask n : BitVec 4) (time : Bool) (ga : BitVec 5) (s : State) : Host.Outcome State Fault Refusal :=
  done (s.issueOp o 0 (opWait mask n time ga))

/-- The operation of FENCE: it stalls until the earlier stores to spaces 0x02 and 0x03 are acknowledged. A store to space
0x01 is in the line buffer, and a CLW accepted, when its bundle has issued (R129, R135). -/
def opFence : State → Nat → SlotOp := fun s n =>
  { op := 0x08, stall := if (s.core n).posted = 0 then .none else .other }

/-- FENCE. -/
def execFence (o : Slot) (s : State) : Host.Outcome State Fault Refusal :=
  done (s.issueOp o 0 opFence)

/-! Special registers (R123) -/

/-- The rotating loop's level, if a rotating loop is on the stack. -/
def Core.rotLevel (c : Core) : Option Nat := c.loops.findIdx? (fun l => l.rot)

/-- The ls special register: depth, level of the rotating loop, whether one is active. -/
def Core.lsReg (c : Core) : Nat :=
  c.loops.length + (match c.rotLevel with | some i => i * 8 + 64 | none => 0)

/-- Trips remaining in a loop level: T less the trips completed, 0 where the level holds no loop (R123; assumption 11). -/
def Core.lcReg (c : Core) (i : Nat) : Nat :=
  match c.loops[i]? with
  | some l => l.trips - l.done
  | none => 0

/-- The rot special register. -/
def Core.rotReg (c : Core) : Nat := c.rotG.toNat + c.rotV.toNat * 256

/-- The cnt special register. -/
def Core.cntReg (c : Core) : Nat := c.ctr 0 + c.ctr 1 * 16 + c.ctr 2 * 256 + c.ctr 3 * 4096

/-- The special register of an index, where the spec gives its value: all but cc, and xy of a core that serves no
position. -/
def State.special (s : State) (n i : Nat) : Option Nat :=
  let c := s.core n
  match i with
  | 0x00 => some c.vl
  | 0x01 => some c.rotReg
  | 0x02 => some c.lsReg
  | 0x03 => some (c.lcReg 0)
  | 0x04 => some (c.lcReg 1)
  | 0x05 => some (c.lcReg 2)
  | 0x06 => some (c.lcReg 3)
  | 0x07 => some c.cntReg
  | 0x09 => some s.time.toNat
  | 0x0A => (s.logOf n).map (fun p => p.1 + p.2 * 65536)
  | 0x0B => some 32
  | 0x0C => some c.vf.toNat
  | _ => none

/-- The operation of MFS: g[gd] := special register. cc reads the count of cc at the cycle of issue, xy of a core that
serves no position a free value (assumption 1). -/
def opMfs (gd : BitVec 5) (sidx : BitVec 6) : State → Nat → SlotOp := fun s n =>
  let i := physG (s.core n).rotG gd
  let v := s.special n sidx.toNat
  { op := 0x09, illegal := decide (0x0D ≤ sidx.toNat), dests := [.g i],
    act := fun t =>
      if sidx = 0x08 then (t.ticked n).modCore n (fun d => d.setG i ((s.ticked n).core n).cc)
      else match v with
        | some x => t.modCore n (fun d => d.setG i (BitVec.ofNat 64 x))
        | none => t.draw.2.modCore n (fun d => d.setG i (BitVec.ofNat 64 t.draw.1)) }

/-- MFS. -/
def execMfs (o : Slot) (gd : BitVec 5) (sidx : BitVec 6) (s : State) : Host.Outcome State Fault Refusal :=
  done (s.issueOp o 0 (opMfs gd sidx))

/-- Sets the vector flag register; a flag among the first three that goes from 0 to 1 raises its bit (05 R182). -/
def State.setVf (s : State) (n : Nat) (f : BitVec 5) : State :=
  let old := (s.core n).vf
  let up := (f &&& ~~~old).toNat % 8
  let s1 := s.modCore n (fun c => { c with vf := f })
  if up = 0 then s1 else s1.raiseIrq (corePage n 4) (BitVec.ofNat 32 up)

/-- Raises vector flags (03 R118). -/
def State.orVf (s : State) (n : Nat) (f : BitVec 5) : State := s.setVf n ((s.core n).vf ||| f)

/-- MTS of a value to a special register. -/
def State.setSpecial (s : State) (n i : Nat) (v : Dword) : State :=
  match i with
  | 0x00 => s.modCore n (fun c => { c with vl := min 32 v.toNat })
  | 0x01 => s.modCore n (fun c => { c with rotG := v.setWidth 4, rotV := (v >>> 8).setWidth 5 })
  | 0x0C => s.setVf n (v.setWidth 5)
  | _ => s

/-- The operation of MTS: special register := g[ga]; a register marked RO or an unlisted index is illegal. -/
def opMts (ga : BitVec 5) (sidx : BitVec 6) : State → Nat → SlotOp := fun s n =>
  let v := (s.core n).gr ga
  { op := 0x0A, illegal := !(decide (sidx = 0) || decide (sidx = 1) || decide (sidx = 0x0C)),
    act := fun t => t.setSpecial n sidx.toNat v }

/-- MTS. -/
def execMts (o : Slot) (ga : BitVec 5) (sidx : BitVec 6) (s : State) : Host.Outcome State Fault Refusal :=
  done (s.issueOp o 0 (opMts ga sidx))

/-! Collar registers (R147, 10 R338, R339) -/

/-- Whether a collar is shrouded: EMPTY, LOADING or FAILED (11 R375). -/
def State.shrouded (s : State) (n : Nat) : Bool :=
  let st := (s.region (collarRegion n)).st
  decide (st = .empty) || decide (st = .loading) || decide (st = .failed)

/-- The park value of n crossings: per bit 0, 1, or the value last driven, by codes of 2 bits (11 R348). -/
def parkValue (codes n held : Nat) : Nat :=
  (List.range n).foldl (fun x i =>
    let code := bits codes (2 * i) 2
    x + (if code = 1 then 2 ^ i else if code = 2 then bits held i 1 * 2 ^ i else 0)) 0

/-- The park codes of core n's collar: IB0_DATA, IB1_DATA, REG_RDATA (11 R348). -/
def State.parkCodes (s : State) (n : Nat) : Nat := frameNat (s.frame (n / 2112 * 2 ^ 19 + 2 * 2 ^ 17) (n % 2112))

/-- The park value of REG_RDATA. -/
def State.parkRdata (s : State) (n : Nat) : Word :=
  BitVec.ofNat 32 (parkValue (s.parkCodes n / 2 ^ 1024) 32 (s.core n).colAnswer.toNat)

/-- The operation of CLR: g[gd] := collar register. While the collar is shrouded it returns the park value at once;
else the read is presented and its answer comes with REG_RVALID or a timeout. -/
def opClr (gd : BitVec 5) (idx : BitVec 10) : State → Nat → SlotOp := fun s n =>
  let i := physG (s.core n).rotG gd
  { op := 0x0B, dests := [.g i],
    act := fun t =>
      if s.shrouded n then t.modCore n (fun d => d.setG i ((s.parkRdata n).setWidth 64))
      else (t.modCore n (fun d => { d with colReads := d.colReads ++ [.seq (BitVec.ofNat 5 i)] })).send (.collar n 4 idx.toNat 0) }

/-- CLR. -/
def execClr (o : Slot) (gd : BitVec 5) (idx : BitVec 10) (s : State) : Host.Outcome State Fault Refusal :=
  done (s.issueOp o 0 (opClr gd idx))

/-- The first read of the sequencer in the list becomes a dropped one; the register it names. -/
def dropSeqRead : List ColRead → Option (BitVec 5 × List ColRead)
  | [] => none
  | .seq g :: r => some (g, .dropped :: r)
  | x :: r => (dropSeqRead r).map (fun p => (p.1, x :: p.2))

/-- A collar has not answered a CLR within 4,096 cc: g[gd] := 0, COLLAR_TO, SEQ_COLLAR_TO (R147). The late answer will
be discarded (10 R338). -/
def execClrTimeout (c : CoreId) (s : State) : Host.Outcome State Fault Refusal :=
  done (s.onIsland fun s =>
    let n := coreNo c
    match dropSeqRead (s.core n).colReads with
    | none => s
    | some (g, l) =>
      ((s.modCore n (fun d => { d with colReads := l }.setG g.toNat 0)).raiseIrq (corePage n 0) 0x10).incSat (corePage n 0 + 0x78))

/-- The operation of CLW: collar register idx := g[ga][31:0]; no effect while the collar is shrouded. -/
def opClw (ga : BitVec 5) (idx : BitVec 10) : State → Nat → SlotOp := fun s n =>
  let v := (s.core n).gr ga
  { op := 0x0C,
    act := fun t => if s.shrouded n then t else t.send (.collar n 5 idx.toNat ((v.setWidth 32).setWidth 512)) }

/-- CLW. -/
def execClw (o : Slot) (ga : BitVec 5) (idx : BitVec 10) (s : State) : Host.Outcome State Fault Refusal :=
  done (s.issueOp o 0 (opClw ga idx))

/-! EVENT and HALT -/

/-- The operation of EVENT: the code enters the buffer of 8; a full buffer stalls (R129). -/
def opEvent (code : BitVec 16) : State → Nat → SlotOp := fun s n =>
  { op := 0x0D, stall := if 8 ≤ (s.core n).events.length then .event else .none,
    act := fun t => t.modCore n (fun d => { d with events := d.events ++ [code] }) }

/-- EVENT. -/
def execEvent (o : Slot) (code : BitVec 16) (s : State) : Host.Outcome State Fault Refusal :=
  done (s.issueOp o 0 (opEvent code))

/-- The operation of HALT. -/
def opHalt : State → Nat → SlotOp := fun _ _ => { op := 0x0E, halt := true }

/-- HALT: the sequencer enters HALTED after this bundle. -/
def execHalt (o : Slot) (s : State) : Host.Outcome State Fault Refusal :=
  done (s.issueOp o 0 opHalt)

/-! Starting and stopping (R151, R152) -/

/-- The states from which a command runs at once. -/
def SeqState.held (st : SeqState) : Bool := decide (st = .idle) || decide (st = .stopped) || decide (st = .halted) || decide (st = .faulted)

/-- START. -/
def Core.start (c : Core) : Core :=
  if c.st.held then { c with st := .running, stall := .none, stepping := false }
  else if c.st = .running then c
  else { c with pendStart := true }

/-- STOP: the bundle in issue completes; one stalled in WAIT, EVENT, VPUSH or VPULL is abandoned. -/
def Core.stop (c : Core) : Core :=
  if c.st = .running then
    if c.stall = .other then { c with st := .stopping, after := .stopped, stepping := false }
    else { c with st := .stopping, after := .stopped, stepping := false, stall := .none, seqReads := c.dropReads }
  else c

/-- SEQ_CTRL of a core. -/
def seqCtrlKey (n : Nat) : Nat := corePage n 0 + 0x40

/-- A write of SEQ_CTRL.START. -/
def execSeqStart (who : Party) (c : CoreId) (s : State) : Host.Outcome State Fault Refusal :=
  done (s.whenUp fun s => s.ctl who (seqCtrlKey (coreNo c)) fun s => s.modCore (coreNo c) Core.start)

/-- A write of SEQ_CTRL.STOP. -/
def execSeqStop (who : Party) (c : CoreId) (s : State) : Host.Outcome State Fault Refusal :=
  done (s.whenUp fun s => s.ctl who (seqCtrlKey (coreNo c)) fun s => s.modCore (coreNo c) Core.stop)

/-- STOPPING ends once the bundle in issue and every register write in flight have completed. A queued SAVE then runs
from the state reached; a queued START runs from STOPPED or HALTED and is dropped from FAULTED. -/
def Core.stoppingEnds (c : Core) : Core :=
  if c.st ≠ .stopping ∨ c.stall = .other ∨ c.reads = true then c
  else
    let c1 := { c with st := c.after, pendStart := c.pendStart && decide (c.after ≠ SeqState.faulted) }
    if c1.pendSave then { c1 with st := .saving, back := c.after, pendSave := false, ctx := none }
    else if c1.pendStart then { c1 with st := .running, pendStart := false, stall := .none, stepping := false }
    else c1

/-- The end of STOPPING. -/
def execStoppingEnd (c : CoreId) (s : State) : Host.Outcome State Fault Refusal :=
  done (s.onIsland fun s => s.modCore (coreNo c) Core.stoppingEnds)

end Sys2Proof.Machine
end

