-- ==== Sys2Proof/Machine/Vector.lean ====
section
/-! DEFINITION. The vector operations of slot 3 (04 R124, R136 to R138; 05 R159 to R170, R174, R177 to R179; 03 R105 to
R109). -/
namespace Sys2Proof.Machine

/-- Element j of w bits of a vector register (R124). -/
def elemOf (w : Nat) (v : BitVec 1024) (j : Nat) : Nat := bits v.toNat (j * w) w

/-- A vector register with element j of w bits replaced. -/
def setElem (w : Nat) (v : BitVec 1024) (j x : Nat) : BitVec 1024 := BitVec.ofNat 1024 (setBits v.toNat (j * w) w x)

/-- The active elements of w bits at a vector length (R124). -/
def activeElems (vl w : Nat) : Nat := 32 * vl / w

/-- What a vector operation finds: the registers vd, va and vb, the vb field, the vector length, RNG_KEEP, the rounding
mode of element j and the random bits of element j. -/
structure VecIn where
  vd : BitVec 1024
  va : BitVec 1024
  vb : BitVec 1024
  sub : Nat
  vl : Nat
  keep : Nat
  rm : Nat → Rm
  rnd : Nat → BitVec 128

/-- A vector operation: its opcode, whether it is illegal, its destination elements at a vector length, whether it takes
random bits, and its result with the flags it raises and whether a quantisation vanished a value (R109). -/
structure VecOp where
  op : Nat
  illegal : Bool
  count : Nat → Nat
  draws : Bool
  run : VecIn → BitVec 1024 × Flags × Bool

/-- Whether MOD is illegal: RM = 0b11, or a field that the operation does not name is not 0 (R136). -/
def modBad (mod : BitVec 4) (rm sat gen : Bool) : Bool :=
  decide (mod.toNat % 4 = 3) || (!rm && decide (mod.toNat % 4 ≠ 0)) || (!sat && mod.getLsbD 2) || (!gen && mod.getLsbD 3)

/-- Whether MOD asks for stochastic rounding. -/
def modSr (mod : BitVec 4) : Bool := decide (mod.toNat % 4 = 2)

/-- The rounding mode of element j (R136, R179). -/
def modRm (mod : BitVec 4) (b : Nat) (rnd : Nat → BitVec 128) (j : Nat) : Rm :=
  match mod.toNat % 4 with
  | 0 => .rne
  | 1 => .rto
  | _ => .sr b (srBits (rnd j) b)

/-- What a vector operation finds at an issue on core n, with the given random bits. -/
def State.vecIn (s : State) (n : Nat) (va vb vd : BitVec 6) (mod : BitVec 4) (rnd : Nat → BitVec 128) : VecIn :=
  let c := s.core n
  { vd := c.vr vd, va := c.vr va, vb := c.vr vb, sub := vb.toNat, vl := c.vl, keep := s.fld (rngPage n + 0x5C) 0 25,
    rm := modRm mod (if s.bit (rngPage n + 0x58) 1 then 3 else 4) rnd, rnd := rnd }

/-- The effects of a vector operation: vd, the flags, the vanish counter and VEC_INSTR (R182). -/
def State.vecDone (t : State) (n vd : Nat) (r : BitVec 1024 × Flags × Bool) : State :=
  let t1 := (t.modCore n (fun d => d.setV vd r.1)).orVf n r.2.1
  let t2 := if r.2.2 then t1.incSat (corePage n 4 + 0x44) else t1
  t2.inc64 (corePage n 4 + 0x48)

/-- A vector operation in slot 3. It reads its registers and the generator as they stand before the bundle; keyed bits
wait for earlier stores to the own generator page and advance the generator before any store of the bundle (R173);
free-running bits are the lanes' states under the key of before the bundle (R176, R183). -/
def vecOp (q : VecOp) (vd va vb : BitVec 6) (mod : BitVec 4) : State → Nat → SlotOp := fun s n =>
  let gen := mod.getLsbD 3
  let e := q.count (s.core n).vl
  let dst := physV (s.core n).rotV vd
  { op := q.op, illegal := q.illegal, dests := [.v dst],
    stall := if q.draws && !gen && decide ((s.core n).rngPosted ≠ 0) then .other else .none,
    pre := fun t => if q.draws then (if gen then t.ticked n else t.drewKeyed n e) else t,
    act := fun t => t.vecDone n dst (q.run (s.vecIn n va vb vd mod
      (if q.draws && gen then s.freeDraw n (s.core n).vl e else s.keyedDraw n))) }

/-! Element-wise operations -/

/-- Runs f on the first e elements of w bits; the other bytes of the destination stay. -/
def mapElems (w e : Nat) (old : BitVec 1024) (f : Nat → Nat × Flags) : BitVec 1024 × Flags × Bool :=
  let r := (List.range e).foldl (fun (r : BitVec 1024 × Flags) j =>
    let x := f j
    (setElem w r.1 j x.1, r.2 ||| x.2)) (old, 0)
  (r.1, r.2, false)

/-- Element j of each register as a value of a format. -/
def VecIn.a (i : VecIn) (f : Fmt) (j : Nat) : FVal := f.unpack (elemOf f.width i.va j)
def VecIn.b (i : VecIn) (f : Fmt) (j : Nat) : FVal := f.unpack (elemOf f.width i.vb j)
def VecIn.d (i : VecIn) (f : Fmt) (j : Nat) : FVal := f.unpack (elemOf f.width i.vd j)

/-- A floating operation rounded once per element (R159, R116). -/
def fpOp (op : Nat) (f : Fmt) (mod : BitVec 4) (g : VecIn → Nat → Nat × Flags) (bad : Bool := false) : VecOp :=
  { op := op, illegal := bad || modBad mod true false true, count := fun vl => activeElems vl f.width, draws := modSr mod,
    run := fun i => mapElems f.width (activeElems i.vl f.width) i.vd (g i) }

/-- An operation on 32-bit lanes that takes no field of MOD. -/
def laneOp (op : Nat) (mod : BitVec 4) (g : VecIn → Nat → Nat × Flags) (bad : Bool := false) : VecOp :=
  { op := op, illegal := bad || modBad mod false false false, count := fun vl => vl, draws := false,
    run := fun i => mapElems 32 i.vl i.vd (g i) }

/-- The lanes of va and vb as integers. -/
def VecIn.la (i : VecIn) (j : Nat) : Nat := elemOf 32 i.va j
def VecIn.lb (i : VecIn) (j : Nat) : Nat := elemOf 32 i.vb j
def VecIn.ld (i : VecIn) (j : Nat) : Nat := elemOf 32 i.vd j

/-- A compare: all ones if true; INVALID for any NaN, or for an sNaN alone (R160). -/
def cmpLane (anyNan : Bool) (p : FVal → FVal → Bool) (a b : FVal) : Nat × Flags :=
  (if p a b then 0xFFFFFFFF else 0,
    if (if anyNan then a.isNan || b.isNan else a.isSig || b.isSig) then fInvalid else 0)

/-- Numbers in order: -0 equals +0. -/
def numLess (a b : FVal) : Bool := fLess a b && !(a.isZero && b.isZero)

/-! Conversions (03 R105, 04 R138) -/

/-- The CVT format codes 0 to 5 (floating) and the width of every code. -/
def cvtFmt (k : Nat) : Fmt :=
  match k with
  | 0 => Fmt.fp64
  | 1 => Fmt.fp32
  | 2 => Fmt.bf16
  | 3 => Fmt.fp16
  | 4 => Fmt.e4m3
  | _ => Fmt.e5m2
def cvtWidth (k : Nat) : Nat := if k ≤ 5 then (cvtFmt k).width else if k = 6 then 8 else 32

/-- The pairs that R105 does not list. -/
def cvtIllegal (a b : Nat) : Bool := (decide (a = 6) && decide (4 ≤ b)) || (decide (a = 7) && (decide (b = 4) || decide (b = 5) || decide (b = 7)))

/-- Whether a floating format holds every value of another. -/
def Fmt.holds (f g : Fmt) : Bool :=
  decide (g.mb ≤ f.mb) && decide (f.emin - f.mb ≤ g.emin - g.mb) && decide (g.eb ≤ f.eb)

/-- The pairs that neither round nor draw: exact ones, and INT32 to INT8. -/
def cvtExact (a b : Nat) : Bool :=
  if a = 7 then decide (b = 0) || decide (b = 6)
  else if a = 6 then true
  else if 6 ≤ b then false
  else (cvtFmt b).holds (cvtFmt a)

/-- CVT of one element. -/
def cvtElem (a b : Nat) (rm : Rm) (sat : Bool) (x : Nat) : Nat × Flags :=
  if b ≤ 5 then
    let v := if a ≤ 5 then (cvtFmt a).unpack x else intVal (sIntOf (cvtWidth a) x)
    (cvtFmt b).ofVal rm (sat && decide (a ≠ b)) v
  else if a = 7 then
    let v := sIntOf 32 x
    if 127 < v then (0x7F, fOverflow) else if v < -128 then (0x80, fOverflow) else ((v % 256).toNat, 0)
  else toIntFmt (cvtWidth b) rm ((cvtFmt a).unpack x)

/-- CVT: FROM is vb[5:3], TO is vb[2:0]. -/
def cvtOp (vb : BitVec 6) (mod : BitVec 4) : VecOp :=
  let a := vb.toNat / 8
  let b := vb.toNat % 8
  let w := max (cvtWidth a) (cvtWidth b)
  { op := 0x20, illegal := cvtIllegal a b || modBad mod true true true, count := fun vl => activeElems vl w,
    draws := modSr mod && !cvtExact a b,
    run := fun i => mapElems (cvtWidth b) (activeElems i.vl w) i.vd (fun j =>
      cvtElem a b (i.rm j) (mod.getLsbD 2) (elemOf (cvtWidth a) i.va j)) }

/-! MX blocks (03 R106 to R109, 05 R168) -/

/-- The element formats of MX by their code of R49; code 5 is INT8. -/
def mxFmt (k : Nat) : Fmt :=
  match k with
  | 0 => Fmt.fp4
  | 1 => Fmt.e2m3
  | 2 => Fmt.e3m2
  | 3 => Fmt.e4m3
  | _ => Fmt.e5m2
def mxWidth (k : Nat) : Nat := if k ≤ 4 then (mxFmt k).width else 8

/-- emax of R107. -/
def mxEmax (k : Nat) : Int :=
  match k with
  | 0 => 2
  | 1 => 2
  | 2 => 4
  | 3 => 8
  | 4 => 15
  | _ => 6

/-- An INT8 element m * 2^e rounded to nearest even, clamped to -127 to 127 (R107). -/
def mxInt (neg : Bool) (m : Nat) (e : Int) : Nat × Flags :=
  let r := roundAt .rne m e 0
  let tiny := decide (m ≠ 0) && decide (topBit m e < 0)
  let mag := min 127 r.1
  (if neg then (256 - mag) % 256 else mag,
    if r.2 || decide (127 < r.1) then (if tiny then fUnderflow else 0) ||| fInexact else 0)

/-- An element v / 2^x of a block: its bits, its flags (saturation sets INEXACT alone), whether a nonzero value became
zero. -/
def mxElem (k : Nat) (x : Int) (v : FVal) : Nat × Flags × Bool :=
  match v with
  | .fin neg m e =>
    let r := if k = 5 then mxInt neg m (e - x) else (mxFmt k).round .rne true false neg m (e - x)
    (r.1, r.2 &&& ~~~fOverflow, decide (m ≠ 0) && decide (r.1 % 2 ^ (mxWidth k - 1) = 0) && decide (k ≠ 5 ∨ r.1 = 0))
  | _ => (0, 0, false)

/-- The scale byte of a block of finite values. -/
def mxScale (k : Nat) (vs : List FVal) : Nat :=
  let tops := vs.filterMap (fun v => match v with | .fin _ m e => if m = 0 then none else some (topBit m e) | _ => none)
  match tops with
  | [] => 0
  | t :: r => (max (r.foldl max t - mxEmax k) (-127) + 127).toNat

/-- MXQ of 32 values: the element bits, the scale byte, the flags, whether values vanished. -/
def mxQuant (k : Nat) (vs : List FVal) : List Nat × Nat × Flags × Bool :=
  if vs.any (fun v => v.isNan || v.isInf) then
    (List.replicate 32 0, 0xFF, if vs.any (fun v => v.isInf || v.isSig) then fInvalid else 0, false)
  else
    let sc := mxScale k vs
    let es := vs.map (mxElem k ((sc : Int) - 127))
    (es.map (fun e => e.1), sc, es.foldl (fun f e => f ||| e.2.1) 0, es.any (fun e => e.2.2))

/-- Packs elements of w bits, the first lowest. -/
def packElems (w : Nat) : List Nat → Nat
  | [] => 0
  | x :: r => x % 2 ^ w + 2 ^ w * packElems w r

/-- MXQ: packed elements from byte 0, zeros to byte 31, the scale at byte 32. -/
def mxqOp (vb : BitVec 6) (mod : BitVec 4) : VecOp :=
  let k := vb.toNat / 4
  { op := 0x21, illegal := decide (vb.toNat % 4 ≠ 0) || decide (5 < k) || modBad mod false false false, count := fun _ => 32,
    draws := false,
    run := fun i =>
      let q := mxQuant k ((List.range 32).map (i.a Fmt.fp32))
      (BitVec.ofNat 1024 (setBits i.vd.toNat 0 264 (packElems (mxWidth k) q.1 + 2 ^ 256 * q.2.1)), q.2.2.1, q.2.2.2) }

/-- An element of a block as binary32. -/
def mxdElem (k sc x : Nat) : Nat × Flags :=
  if sc = 0xFF then (Fmt.fp32.canon, 0)
  else
    let v := if k = 5 then intVal (sIntOf 8 x) else (mxFmt k).unpack x
    match v with
    | .fin n m e => Fmt.fp32.round .rne false false n m (e + sc - 127)
    | v => Fmt.fp32.ofVal .rne false v

/-- MXD. -/
def mxdOp (vb : BitVec 6) (mod : BitVec 4) : VecOp :=
  let k := vb.toNat / 4
  { op := 0x22, illegal := decide (vb.toNat % 4 ≠ 0) || decide (5 < k) || modBad mod false false false, count := fun _ => 32,
    draws := false,
    run := fun i => mapElems 32 32 i.vd (fun j => mxdElem k (elemOf 8 i.va 32) (elemOf (mxWidth k) i.va j)) }

/-! Exponents and normalisation (05 R163, R164) -/

/-- GETEXP of one lane. -/
def getexpLane (v : FVal) : Nat × Flags :=
  match v with
  | .nan sg _ _ => (0x7FFFFFFF, if sg then fInvalid else 0)
  | .inf _ => (0x7FFFFFFF, 0)
  | .fin _ m e => if m = 0 then (0x80000000, 0) else ((topBit m e % 2 ^ 32).toNat, 0)

/-- SCALEB of one lane: va * 2^n. An n beyond 400 gives what 400 gives: an overflow, or a value below every subnormal. -/
def scalebLane (rm : Rm) (v : FVal) (n : Int) : Nat × Flags :=
  match v with
  | .fin s m e => Fmt.fp32.round rm false false s m (e + max (-400) (min 400 n))
  | v => Fmt.fp32.ofVal rm false v

/-- MANT of one lane. -/
def mantLane (v : FVal) : Nat × Flags :=
  match v with
  | .fin s m e => if m = 0 then (Fmt.fp32.signed s 0, 0) else Fmt.fp32.round .rne false false s m (e - topBit m e)
  | v => Fmt.fp32.ofVal .rne false v

/-- NORM: sub-function 0 SCALEB, 1 MANT. -/
def normOp (vb : BitVec 6) (mod : BitVec 4) : VecOp :=
  { op := 0x23, illegal := decide (1 < vb.toNat) || modSr mod || modBad mod true false false, count := fun vl => vl, draws := false,
    run := fun i => mapElems 32 i.vl i.vd (fun j =>
      if i.sub = 0 then scalebLane (i.rm j) (i.a Fmt.fp32 j) (sIntOf 32 (i.ld j)) else mantLane (i.a Fmt.fp32 j)) }

/-! Reductions (05 R165 to R167) -/

/-- One level of the tree: pairs combined, an odd last element moved up. -/
def treeLevel {α : Type} (f : α → α → α) : List α → List α
  | a :: b :: r => f a b :: treeLevel f r
  | l => l

/-- The tree of R166: six levels serve up to 64 elements. -/
def treeRed {α : Type} (f : α → α → α) : Nat → List α → Option α
  | 0, l => l.head?
  | n + 1, l => treeRed f n (treeLevel f l)

/-- A sum in the tree: partial results as bits with the flags so far. -/
def redSum (f : Fmt) (rm : Rm) (l : List (Nat × Flags)) : Nat × Flags :=
  (treeRed (fun (a b : Nat × Flags) =>
    let r := f.add rm (f.unpack a.1) (f.unpack b.1)
    (r.1, a.2 ||| b.2 ||| r.2)) 6 l).getD (0, 0)

/-- A leaf of a sum: the element in the destination format; an sNaN is made quiet with INVALID. -/
def redLeaf (g : Fmt) (v : FVal) : Nat × Flags := g.ofVal .rne false v

/-- MAX.S and MIN.S, as FMAX and FMIN; a NaN result is quiet. -/
def redMinmax (isMax : Bool) (l : List Nat) : Nat × Flags :=
  let f := Fmt.fp32
  let r := treeRed (fun (a b : Nat × Flags) => let r := f.minmax isMax a.1 b.1; (r.1, a.2 ||| b.2 ||| r.2)) 6
    (l.map (fun x => (x, sigFlag [f.unpack x])))
  match r with
  | none => (f.infBits isMax, 0)
  | some (x, fl) => (if (f.unpack x).isNan then f.nanBits (f.unpack x) else x, fl)

/-- ARGMAX.S: the maximum and its lowest lane. -/
def redArgmax (l : List Nat) : Nat × Nat :=
  let f := Fmt.fp32
  let best := treeRed (fun (a b : Nat × Nat) =>
    if (f.unpack b.1).isNan then a else if (f.unpack a.1).isNan then b
    else if fLess (f.unpack a.1) (f.unpack b.1) then b else a) 6 (l.zip (List.range l.length))
  match best with
  | none => (f.infBits true, 0xFFFFFFFF)
  | some (x, j) => if (f.unpack x).isNan then (f.canon, 0) else (x, j)

/-- RED: its sub-functions. -/
def redRun (i : VecIn) : BitVec 1024 × Flags × Bool :=
  let f := Fmt.fp32
  let rm := i.rm 0
  let src (g : Fmt) : List FVal := (List.range (activeElems i.vl g.width)).map (i.a g)
  let put (w : Nat) (r : Nat × Flags) : BitVec 1024 × Flags × Bool := (setElem w i.vd 0 r.1, r.2, false)
  match i.sub with
  | 0 => put 32 (redSum f rm ((src f).map (redLeaf f)))
  | 1 => put 32 (redMinmax true ((List.range i.vl).map i.la))
  | 2 => put 32 (redMinmax false ((List.range i.vl).map i.la))
  | 3 =>
    let r := redArgmax ((List.range i.vl).map i.la)
    (setElem 32 (setElem 32 i.vd 0 r.1) 1 r.2, 0, false)
  | 4 => put 32 (redSum f rm ((src f).map (fun v => f.mul rm v v)))
  | 5 => put 64 (redSum Fmt.fp64 rm ((src Fmt.fp64).map (redLeaf Fmt.fp64)))
  | 6 => put 32 (redSum f rm ((src Fmt.bf16).map (redLeaf f)))
  | _ => put 32 (redSum f rm ((src Fmt.fp16).map (redLeaf f)))

/-- RED. -/
def redOp (vb : BitVec 6) (mod : BitVec 4) : VecOp :=
  { op := 0x25, illegal := decide (7 < vb.toNat) || modSr mod || modBad mod true false false, count := fun _ => 1, draws := false,
    run := redRun }

/-! Approximations and random bits (05 R169, R174, R177, R178) -/

/-- APX. -/
def apxOp (vb : BitVec 6) (mod : BitVec 4) : VecOp := laneOp 0x26 mod (fun i j => apxLane i.sub (i.la j)) (decide (0x0C < vb.toNat))

/-- An operation that draws for each lane. -/
def drawOp (op : Nat) (mod : BitVec 4) (bad : Bool) (g : VecIn → Nat → Nat × Flags) : VecOp :=
  { op := op, illegal := bad || modBad mod false false true, count := fun vl => vl, draws := true,
    run := fun i => mapElems 32 i.vl i.vd (g i) }

/-- RAND: the selected word. -/
def randOp (va vb : BitVec 6) (mod : BitVec 4) : VecOp :=
  drawOp 0x27 mod (decide (va ≠ 0) || decide (3 < vb.toNat)) (fun i j => (rngWord (i.rnd j) (i.sub % 4), 0))

/-- SAMPLE: va + G, with the flags of FADD.S. -/
def sampleOp (vb : BitVec 6) (mod : BitVec 4) : VecOp :=
  drawOp 0x28 mod (decide (vb ≠ 0)) (fun i j =>
    Fmt.fp32.add .rne (i.a Fmt.fp32 j) (Fmt.fp32.unpack (gumbel (rngWord (i.rnd j) 0 / 256))))

/-- DROP: all ones where w1[31:8] < KEEP. -/
def dropOp (va vb : BitVec 6) (mod : BitVec 4) : VecOp :=
  drawOp 0x29 mod (decide (va ≠ 0) || decide (vb ≠ 0)) (fun i j =>
    (if rngWord (i.rnd j) 1 / 256 < i.keep then 0xFFFFFFFF else 0, 0))

/-! The operations -/

/-- The operation of FADD_S: binary32 addition, rounded once (R116). -/
def opFaddS (_va _vb : BitVec 6) (mod : BitVec 4) : VecOp :=
  fpOp 0x01 Fmt.fp32 mod (fun i j => Fmt.fp32.add (i.rm j) (i.a Fmt.fp32 j) (i.b Fmt.fp32 j))

/-- FADD_S. -/
def execFaddS (o : Slot) (vd va vb : BitVec 6) (mod : BitVec 4) (s : State) : Host.Outcome State Fault Refusal :=
  done (s.issueOp o 3 (vecOp (opFaddS va vb mod) vd va vb mod))

/-- The operation of FSUB_S: binary32 subtraction (R116). -/
def opFsubS (_va _vb : BitVec 6) (mod : BitVec 4) : VecOp :=
  fpOp 0x02 Fmt.fp32 mod (fun i j => Fmt.fp32.sub (i.rm j) (i.a Fmt.fp32 j) (i.b Fmt.fp32 j))

/-- FSUB_S. -/
def execFsubS (o : Slot) (vd va vb : BitVec 6) (mod : BitVec 4) (s : State) : Host.Outcome State Fault Refusal :=
  done (s.issueOp o 3 (vecOp (opFsubS va vb mod) vd va vb mod))

/-- The operation of FMUL_S: binary32 multiplication (R116). -/
def opFmulS (_va _vb : BitVec 6) (mod : BitVec 4) : VecOp :=
  fpOp 0x03 Fmt.fp32 mod (fun i j => Fmt.fp32.mul (i.rm j) (i.a Fmt.fp32 j) (i.b Fmt.fp32 j))

/-- FMUL_S. -/
def execFmulS (o : Slot) (vd va vb : BitVec 6) (mod : BitVec 4) (s : State) : Host.Outcome State Fault Refusal :=
  done (s.issueOp o 3 (vecOp (opFmulS va vb mod) vd va vb mod))

/-- The operation of FMA_S: binary32 fused multiply-add (R116). -/
def opFmaS (_va _vb : BitVec 6) (mod : BitVec 4) : VecOp :=
  fpOp 0x04 Fmt.fp32 mod (fun i j => Fmt.fp32.fma (i.rm j) (i.a Fmt.fp32 j) (i.b Fmt.fp32 j) (i.d Fmt.fp32 j))

/-- FMA_S. -/
def execFmaS (o : Slot) (vd va vb : BitVec 6) (mod : BitVec 4) (s : State) : Host.Outcome State Fault Refusal :=
  done (s.issueOp o 3 (vecOp (opFmaS va vb mod) vd va vb mod))

/-- The operation of FMIN_S: binary32 minimumNumber (R160). -/
def opFminS (_va _vb : BitVec 6) (mod : BitVec 4) : VecOp :=
  laneOp 0x05 mod (fun i j => Fmt.fp32.minmax false (i.la j) (i.lb j))

/-- FMIN_S. -/
def execFminS (o : Slot) (vd va vb : BitVec 6) (mod : BitVec 4) (s : State) : Host.Outcome State Fault Refusal :=
  done (s.issueOp o 3 (vecOp (opFminS va vb mod) vd va vb mod))

/-- The operation of FMAX_S: binary32 maximumNumber (R160). -/
def opFmaxS (_va _vb : BitVec 6) (mod : BitVec 4) : VecOp :=
  laneOp 0x06 mod (fun i j => Fmt.fp32.minmax true (i.la j) (i.lb j))

/-- FMAX_S. -/
def execFmaxS (o : Slot) (vd va vb : BitVec 6) (mod : BitVec 4) (s : State) : Host.Outcome State Fault Refusal :=
  done (s.issueOp o 3 (vecOp (opFmaxS va vb mod) vd va vb mod))

/-- The operation of FDIV_S: binary32 division (R116). -/
def opFdivS (_va _vb : BitVec 6) (mod : BitVec 4) : VecOp :=
  fpOp 0x07 Fmt.fp32 mod (fun i j => Fmt.fp32.div (i.rm j) (i.a Fmt.fp32 j) (i.b Fmt.fp32 j))

/-- FDIV_S. -/
def execFdivS (o : Slot) (vd va vb : BitVec 6) (mod : BitVec 4) (s : State) : Host.Outcome State Fault Refusal :=
  done (s.issueOp o 3 (vecOp (opFdivS va vb mod) vd va vb mod))

/-- The operation of FSQRT_S: binary32 square root (R116). -/
def opFsqrtS (_va vb : BitVec 6) (mod : BitVec 4) : VecOp :=
  fpOp 0x08 Fmt.fp32 mod (fun i j => Fmt.fp32.sqrt (i.rm j) (i.a Fmt.fp32 j)) (decide (vb ≠ 0))

/-- FSQRT_S. -/
def execFsqrtS (o : Slot) (vd va vb : BitVec 6) (mod : BitVec 4) (s : State) : Host.Outcome State Fault Refusal :=
  done (s.issueOp o 3 (vecOp (opFsqrtS va vb mod) vd va vb mod))

/-- The operation of FADD_D: binary64 addition (R116). -/
def opFaddD (_va _vb : BitVec 6) (mod : BitVec 4) : VecOp :=
  fpOp 0x09 Fmt.fp64 mod (fun i j => Fmt.fp64.add (i.rm j) (i.a Fmt.fp64 j) (i.b Fmt.fp64 j))

/-- FADD_D. -/
def execFaddD (o : Slot) (vd va vb : BitVec 6) (mod : BitVec 4) (s : State) : Host.Outcome State Fault Refusal :=
  done (s.issueOp o 3 (vecOp (opFaddD va vb mod) vd va vb mod))

/-- The operation of FSUB_D: binary64 subtraction (R116). -/
def opFsubD (_va _vb : BitVec 6) (mod : BitVec 4) : VecOp :=
  fpOp 0x0A Fmt.fp64 mod (fun i j => Fmt.fp64.sub (i.rm j) (i.a Fmt.fp64 j) (i.b Fmt.fp64 j))

/-- FSUB_D. -/
def execFsubD (o : Slot) (vd va vb : BitVec 6) (mod : BitVec 4) (s : State) : Host.Outcome State Fault Refusal :=
  done (s.issueOp o 3 (vecOp (opFsubD va vb mod) vd va vb mod))

/-- The operation of FMUL_D: binary64 multiplication (R116). -/
def opFmulD (_va _vb : BitVec 6) (mod : BitVec 4) : VecOp :=
  fpOp 0x0B Fmt.fp64 mod (fun i j => Fmt.fp64.mul (i.rm j) (i.a Fmt.fp64 j) (i.b Fmt.fp64 j))

/-- FMUL_D. -/
def execFmulD (o : Slot) (vd va vb : BitVec 6) (mod : BitVec 4) (s : State) : Host.Outcome State Fault Refusal :=
  done (s.issueOp o 3 (vecOp (opFmulD va vb mod) vd va vb mod))

/-- The operation of FMA_D: binary64 fused multiply-add (R116). -/
def opFmaD (_va _vb : BitVec 6) (mod : BitVec 4) : VecOp :=
  fpOp 0x0C Fmt.fp64 mod (fun i j => Fmt.fp64.fma (i.rm j) (i.a Fmt.fp64 j) (i.b Fmt.fp64 j) (i.d Fmt.fp64 j))

/-- FMA_D. -/
def execFmaD (o : Slot) (vd va vb : BitVec 6) (mod : BitVec 4) (s : State) : Host.Outcome State Fault Refusal :=
  done (s.issueOp o 3 (vecOp (opFmaD va vb mod) vd va vb mod))

/-- The operation of FDIV_D: binary64 division (R116). -/
def opFdivD (_va _vb : BitVec 6) (mod : BitVec 4) : VecOp :=
  fpOp 0x0D Fmt.fp64 mod (fun i j => Fmt.fp64.div (i.rm j) (i.a Fmt.fp64 j) (i.b Fmt.fp64 j))

/-- FDIV_D. -/
def execFdivD (o : Slot) (vd va vb : BitVec 6) (mod : BitVec 4) (s : State) : Host.Outcome State Fault Refusal :=
  done (s.issueOp o 3 (vecOp (opFdivD va vb mod) vd va vb mod))

/-- The operation of FSQRT_D: binary64 square root (R116). -/
def opFsqrtD (_va vb : BitVec 6) (mod : BitVec 4) : VecOp :=
  fpOp 0x0E Fmt.fp64 mod (fun i j => Fmt.fp64.sqrt (i.rm j) (i.a Fmt.fp64 j)) (decide (vb ≠ 0))

/-- FSQRT_D. -/
def execFsqrtD (o : Slot) (vd va vb : BitVec 6) (mod : BitVec 4) (s : State) : Host.Outcome State Fault Refusal :=
  done (s.issueOp o 3 (vecOp (opFsqrtD va vb mod) vd va vb mod))

/-- The operation of HADD_B: BF16 addition (R116). -/
def opHaddB (_va _vb : BitVec 6) (mod : BitVec 4) : VecOp :=
  fpOp 0x10 Fmt.bf16 mod (fun i j => Fmt.bf16.add (i.rm j) (i.a Fmt.bf16 j) (i.b Fmt.bf16 j))

/-- HADD_B. -/
def execHaddB (o : Slot) (vd va vb : BitVec 6) (mod : BitVec 4) (s : State) : Host.Outcome State Fault Refusal :=
  done (s.issueOp o 3 (vecOp (opHaddB va vb mod) vd va vb mod))

/-- The operation of HMUL_B: BF16 multiplication (R116). -/
def opHmulB (_va _vb : BitVec 6) (mod : BitVec 4) : VecOp :=
  fpOp 0x11 Fmt.bf16 mod (fun i j => Fmt.bf16.mul (i.rm j) (i.a Fmt.bf16 j) (i.b Fmt.bf16 j))

/-- HMUL_B. -/
def execHmulB (o : Slot) (vd va vb : BitVec 6) (mod : BitVec 4) (s : State) : Host.Outcome State Fault Refusal :=
  done (s.issueOp o 3 (vecOp (opHmulB va vb mod) vd va vb mod))

/-- The operation of HFMA_B: BF16 fused multiply-add (R116). -/
def opHfmaB (_va _vb : BitVec 6) (mod : BitVec 4) : VecOp :=
  fpOp 0x12 Fmt.bf16 mod (fun i j => Fmt.bf16.fma (i.rm j) (i.a Fmt.bf16 j) (i.b Fmt.bf16 j) (i.d Fmt.bf16 j))

/-- HFMA_B. -/
def execHfmaB (o : Slot) (vd va vb : BitVec 6) (mod : BitVec 4) (s : State) : Host.Outcome State Fault Refusal :=
  done (s.issueOp o 3 (vecOp (opHfmaB va vb mod) vd va vb mod))

/-- The operation of HADD_H: FP16 addition (R116). -/
def opHaddH (_va _vb : BitVec 6) (mod : BitVec 4) : VecOp :=
  fpOp 0x13 Fmt.fp16 mod (fun i j => Fmt.fp16.add (i.rm j) (i.a Fmt.fp16 j) (i.b Fmt.fp16 j))

/-- HADD_H. -/
def execHaddH (o : Slot) (vd va vb : BitVec 6) (mod : BitVec 4) (s : State) : Host.Outcome State Fault Refusal :=
  done (s.issueOp o 3 (vecOp (opHaddH va vb mod) vd va vb mod))

/-- The operation of HMUL_H: FP16 multiplication (R116). -/
def opHmulH (_va _vb : BitVec 6) (mod : BitVec 4) : VecOp :=
  fpOp 0x14 Fmt.fp16 mod (fun i j => Fmt.fp16.mul (i.rm j) (i.a Fmt.fp16 j) (i.b Fmt.fp16 j))

/-- HMUL_H. -/
def execHmulH (o : Slot) (vd va vb : BitVec 6) (mod : BitVec 4) (s : State) : Host.Outcome State Fault Refusal :=
  done (s.issueOp o 3 (vecOp (opHmulH va vb mod) vd va vb mod))

/-- The operation of HFMA_H: FP16 fused multiply-add (R116). -/
def opHfmaH (_va _vb : BitVec 6) (mod : BitVec 4) : VecOp :=
  fpOp 0x15 Fmt.fp16 mod (fun i j => Fmt.fp16.fma (i.rm j) (i.a Fmt.fp16 j) (i.b Fmt.fp16 j) (i.d Fmt.fp16 j))

/-- HFMA_H. -/
def execHfmaH (o : Slot) (vd va vb : BitVec 6) (mod : BitVec 4) (s : State) : Host.Outcome State Fault Refusal :=
  done (s.issueOp o 3 (vecOp (opHfmaH va vb mod) vd va vb mod))

/-- The operation of FCMPLT_S: binary32 less-than compare into a lane mask (R160). -/
def opFcmpltS (_va _vb : BitVec 6) (mod : BitVec 4) : VecOp :=
  laneOp 0x16 mod (fun i j => cmpLane true numLess (i.a Fmt.fp32 j) (i.b Fmt.fp32 j))

/-- FCMPLT_S. -/
def execFcmpltS (o : Slot) (vd va vb : BitVec 6) (mod : BitVec 4) (s : State) : Host.Outcome State Fault Refusal :=
  done (s.issueOp o 3 (vecOp (opFcmpltS va vb mod) vd va vb mod))

/-- The operation of FCMPEQ_S: binary32 equality compare into a lane mask (R160). -/
def opFcmpeqS (_va _vb : BitVec 6) (mod : BitVec 4) : VecOp :=
  laneOp 0x17 mod (fun i j => cmpLane false fEq (i.a Fmt.fp32 j) (i.b Fmt.fp32 j))

/-- FCMPEQ_S. -/
def execFcmpeqS (o : Slot) (vd va vb : BitVec 6) (mod : BitVec 4) (s : State) : Host.Outcome State Fault Refusal :=
  done (s.issueOp o 3 (vecOp (opFcmpeqS va vb mod) vd va vb mod))

/-- The operation of FCMPLE_S: binary32 less-or-equal compare into a lane mask (R160). -/
def opFcmpleS (_va _vb : BitVec 6) (mod : BitVec 4) : VecOp :=
  laneOp 0x18 mod (fun i j => cmpLane true (fun a b => numLess a b || fEq a b) (i.a Fmt.fp32 j) (i.b Fmt.fp32 j))

/-- FCMPLE_S. -/
def execFcmpleS (o : Slot) (vd va vb : BitVec 6) (mod : BitVec 4) (s : State) : Host.Outcome State Fault Refusal :=
  done (s.issueOp o 3 (vecOp (opFcmpleS va vb mod) vd va vb mod))

/-- The operation of SEL: per-lane select between va and vb by the lanes of vd (R137). -/
def opSel (_va _vb : BitVec 6) (mod : BitVec 4) : VecOp :=
  laneOp 0x19 mod (fun i j => (if i.ld j ≠ 0 then i.la j else i.lb j, 0))

/-- SEL. -/
def execSel (o : Slot) (vd va vb : BitVec 6) (mod : BitVec 4) (s : State) : Host.Outcome State Fault Refusal :=
  done (s.issueOp o 3 (vecOp (opSel va vb mod) vd va vb mod))

/-- The operation of IADD: 32-bit wrapping integer addition (R162). -/
def opIadd (_va _vb : BitVec 6) (mod : BitVec 4) : VecOp :=
  laneOp 0x1A mod (fun i j => ((i.la j + i.lb j) % 2 ^ 32, 0))

/-- IADD. -/
def execIadd (o : Slot) (vd va vb : BitVec 6) (mod : BitVec 4) (s : State) : Host.Outcome State Fault Refusal :=
  done (s.issueOp o 3 (vecOp (opIadd va vb mod) vd va vb mod))

/-- The operation of ISUB: 32-bit wrapping integer subtraction (R162). -/
def opIsub (_va _vb : BitVec 6) (mod : BitVec 4) : VecOp :=
  laneOp 0x1B mod (fun i j => ((2 ^ 32 + i.la j - i.lb j) % 2 ^ 32, 0))

/-- ISUB. -/
def execIsub (o : Slot) (vd va vb : BitVec 6) (mod : BitVec 4) (s : State) : Host.Outcome State Fault Refusal :=
  done (s.issueOp o 3 (vecOp (opIsub va vb mod) vd va vb mod))

/-- The operation of VAND: bitwise and of lanes (R162). -/
def opVand (_va _vb : BitVec 6) (mod : BitVec 4) : VecOp :=
  laneOp 0x1C mod (fun i j => (i.la j &&& i.lb j, 0))

/-- VAND. -/
def execVand (o : Slot) (vd va vb : BitVec 6) (mod : BitVec 4) (s : State) : Host.Outcome State Fault Refusal :=
  done (s.issueOp o 3 (vecOp (opVand va vb mod) vd va vb mod))

/-- The operation of VOR: bitwise or of lanes (R162). -/
def opVor (_va _vb : BitVec 6) (mod : BitVec 4) : VecOp :=
  laneOp 0x1D mod (fun i j => (i.la j ||| i.lb j, 0))

/-- VOR. -/
def execVor (o : Slot) (vd va vb : BitVec 6) (mod : BitVec 4) (s : State) : Host.Outcome State Fault Refusal :=
  done (s.issueOp o 3 (vecOp (opVor va vb mod) vd va vb mod))

/-- The operation of VXOR: bitwise exclusive or of lanes (R162). -/
def opVxor (_va _vb : BitVec 6) (mod : BitVec 4) : VecOp :=
  laneOp 0x1E mod (fun i j => (i.la j ^^^ i.lb j, 0))

/-- VXOR. -/
def execVxor (o : Slot) (vd va vb : BitVec 6) (mod : BitVec 4) (s : State) : Host.Outcome State Fault Refusal :=
  done (s.issueOp o 3 (vecOp (opVxor va vb mod) vd va vb mod))

/-- The operation of CVT: converts elements between the formats that R105 lists (R138). -/
def opCvt (_va vb : BitVec 6) (mod : BitVec 4) : VecOp :=
  cvtOp vb mod

/-- CVT. -/
def execCvt (o : Slot) (vd va vb : BitVec 6) (mod : BitVec 4) (s : State) : Host.Outcome State Fault Refusal :=
  done (s.issueOp o 3 (vecOp (opCvt va vb mod) vd va vb mod))

/-- The operation of MXQ: quantises 32 binary32 values into one MX block (R168). -/
def opMxq (_va vb : BitVec 6) (mod : BitVec 4) : VecOp :=
  mxqOp vb mod

/-- MXQ. -/
def execMxq (o : Slot) (vd va vb : BitVec 6) (mod : BitVec 4) (s : State) : Host.Outcome State Fault Refusal :=
  done (s.issueOp o 3 (vecOp (opMxq va vb mod) vd va vb mod))

/-- The operation of MXD: dequantises one MX block into 32 binary32 values (R168). -/
def opMxd (_va vb : BitVec 6) (mod : BitVec 4) : VecOp :=
  mxdOp vb mod

/-- MXD. -/
def execMxd (o : Slot) (vd va vb : BitVec 6) (mod : BitVec 4) (s : State) : Host.Outcome State Fault Refusal :=
  done (s.issueOp o 3 (vecOp (opMxd va vb mod) vd va vb mod))

/-- The operation of NORM: normalisation step, SCALEB or MANT (R164). -/
def opNorm (_va vb : BitVec 6) (mod : BitVec 4) : VecOp :=
  normOp vb mod

/-- NORM. -/
def execNorm (o : Slot) (vd va vb : BitVec 6) (mod : BitVec 4) (s : State) : Host.Outcome State Fault Refusal :=
  done (s.issueOp o 3 (vecOp (opNorm va vb mod) vd va vb mod))

/-- The operation of GETEXP: extracts the unbiased exponent as an INT32 (R163). -/
def opGetexp (_va vb : BitVec 6) (mod : BitVec 4) : VecOp :=
  laneOp 0x24 mod (fun i j => getexpLane (i.a Fmt.fp32 j)) (decide (vb ≠ 0))

/-- GETEXP. -/
def execGetexp (o : Slot) (vd va vb : BitVec 6) (mod : BitVec 4) (s : State) : Host.Outcome State Fault Refusal :=
  done (s.issueOp o 3 (vecOp (opGetexp va vb mod) vd va vb mod))

/-- The operation of RED: reduction in fixed tree order (R166). -/
def opRed (_va vb : BitVec 6) (mod : BitVec 4) : VecOp :=
  redOp vb mod

/-- RED. -/
def execRed (o : Slot) (vd va vb : BitVec 6) (mod : BitVec 4) (s : State) : Host.Outcome State Fault Refusal :=
  done (s.issueOp o 3 (vecOp (opRed va vb mod) vd va vb mod))

/-- The operation of APX: approximates a transcendental function (R169). -/
def opApx (_va vb : BitVec 6) (mod : BitVec 4) : VecOp :=
  apxOp vb mod

/-- APX. -/
def execApx (o : Slot) (vd va vb : BitVec 6) (mod : BitVec 4) (s : State) : Host.Outcome State Fault Refusal :=
  done (s.issueOp o 3 (vecOp (opApx va vb mod) vd va vb mod))

/-- The operation of RAND: writes one word of each element's draw to the lanes (R174). -/
def opRand (va vb : BitVec 6) (mod : BitVec 4) : VecOp :=
  randOp va vb mod

/-- RAND. -/
def execRand (o : Slot) (vd va vb : BitVec 6) (mod : BitVec 4) (s : State) : Host.Outcome State Fault Refusal :=
  done (s.issueOp o 3 (vecOp (opRand va vb mod) vd va vb mod))

/-- The operation of SAMPLE: adds Gumbel noise from the draw to each logit (R177). -/
def opSample (_va vb : BitVec 6) (mod : BitVec 4) : VecOp :=
  sampleOp vb mod

/-- SAMPLE. -/
def execSample (o : Slot) (vd va vb : BitVec 6) (mod : BitVec 4) (s : State) : Host.Outcome State Fault Refusal :=
  done (s.issueOp o 3 (vecOp (opSample va vb mod) vd va vb mod))

/-- The operation of DROP: builds a drop-out mask against RNG_KEEP (R178). -/
def opDrop (va vb : BitVec 6) (mod : BitVec 4) : VecOp :=
  dropOp va vb mod

/-- DROP. -/
def execDrop (o : Slot) (vd va vb : BitVec 6) (mod : BitVec 4) (s : State) : Host.Outcome State Fault Refusal :=
  done (s.issueOp o 3 (vecOp (opDrop va vb mod) vd va vb mod))

/-- The operation of BCAST: broadcasts one lane of va to every active lane (R162). -/
def opBcast (_va vb : BitVec 6) (mod : BitVec 4) : VecOp :=
  laneOp 0x2A mod (fun i _ => (elemOf 32 i.va i.sub, 0)) (decide (31 < vb.toNat))

/-- BCAST. -/
def execBcast (o : Slot) (vd va vb : BitVec 6) (mod : BitVec 4) (s : State) : Host.Outcome State Fault Refusal :=
  done (s.issueOp o 3 (vecOp (opBcast va vb mod) vd va vb mod))

/-- The operation of PERM: permutes lanes by indices taken modulo L (R162). -/
def opPerm (_va _vb : BitVec 6) (mod : BitVec 4) : VecOp :=
  laneOp 0x2B mod (fun i j => (elemOf 32 i.va (i.lb j % 32), 0))

/-- PERM. -/
def execPerm (o : Slot) (vd va vb : BitVec 6) (mod : BitVec 4) (s : State) : Host.Outcome State Fault Refusal :=
  done (s.issueOp o 3 (vecOp (opPerm va vb mod) vd va vb mod))

end Sys2Proof.Machine
end

