-- ==== Sys2Proof/Machine/Scratch.lean ====
section
/-! DEFINITION. The scratchpad: its words, ECC and poison, zeroing, retention and scrubbing (06 R190 to R195), and the
remote-line buffer (R196 to R199) with its snoops (07 R258). Banks and arbitration (R186 to R189) decide only how long an
access waits and are left out. -/
namespace Sys2Proof.Machine

/-- The scratchpad page of a core. -/
def spadPage (n : Nat) : Nat := corePage n 5

/-! Words and poison -/

/-- The numbers of the 8-byte words that an access touches. -/
def wordsOf (off len : Nat) : List Nat :=
  if len = 0 then [] else (List.range ((off + len - 1) / 8 - off / 8 + 1)).map (fun i => off / 8 + i)

/-- Whether a word is marked poisoned. -/
def Core.wordPoisoned (c : Core) (w : Nat) : Bool := Sparse.get (fun _ => false) c.poison w

/-- Whether an access meets a poisoned word (R191). -/
def Core.poisonedAt (c : Core) (off len : Nat) : Bool := (wordsOf off len).any c.wordPoisoned

/-- Bytes of the scratchpad. -/
def Core.spadBytes (c : Core) (off len : Nat) : List Byte := Memory.readN c.spad off len

/-- Writes bytes with enables. A word that is written whole loses its poison mark; a partial write leaves it (R190). -/
def Core.spadWriteBE (c : Core) (off : Nat) (l : List (Bool × Byte)) : Core :=
  let full (w : Nat) : Bool := decide (off ≤ 8 * w) && decide (8 * w + 8 ≤ off + l.length)
    && ((l.drop (8 * w - off)).take 8).all (fun p => p.1)
  { c with
    spad := Memory.writeBE c.spad off l,
    poison := (wordsOf off l.length).foldl (fun m w => if full w then Sparse.put (fun _ => false) m w false else m) c.poison }

/-- Writes bytes. -/
def Core.spadWrite (c : Core) (off : Nat) (l : List Byte) : Core := c.spadWriteBE off (l.map (fun b => (true, b)))

/-- Writes bytes into the scratchpad of core n. -/
def State.spadWrite (s : State) (n off : Nat) (l : List Byte) : State := s.modCore n (fun c => c.spadWrite off l)

/-- A double-bit error is found in a word: it is counted, captured, reported, and the word stays marked (R190). -/
def State.spadUnc (s : State) (n w : Nat) : State :=
  let pg := spadPage n
  let s1 := (s.modCore n (fun c => { c with poison := Sparse.put (fun _ => false) c.poison w true })).incSat (pg + 0x58)
  let s2 := if s1.bit (pg + 0x5C) 0 then s1 else s1.setReg (pg + 0x5C) (BitVec.ofNat 32 (1 + w * 8))
  ((s2.raiseIrq pg 1).enterCode pg Code.memUncorrectable).selfReport n 5 Code.memUncorrectable

/-- The bit errors that a read of some words finds: single-bit ones are corrected and counted, double-bit ones poison
their words (R190). -/
def State.eccFound (s : State) (n : Nat) (words : List Nat) (e : Ecc) : State :=
  let unc := words.filter (fun w => e.unc.contains w && !(s.core n).wordPoisoned w)
  let corr := words.filter (fun w => e.corr.contains w && !e.unc.contains w && !(s.core n).wordPoisoned w)
  unc.foldl (fun s w => s.spadUnc n w) (if corr.isEmpty then s else s.incSat (spadPage n + 0x54) corr.length)

/-- Whether a read that finds errors e meets poison. -/
def Core.readPoisoned (c : Core) (off len : Nat) (e : Ecc) : Bool :=
  (wordsOf off len).any (fun w => c.wordPoisoned w || e.unc.contains w)

/-! Retention (R194, R195) -/

/-- Whether accesses wait: zeroing, in retention or waking (R193, R195). -/
def Core.spadWaits (c : Core) : Bool := c.zeroing || decide (c.retention = .retained) || decide (c.retention = .waking)

/-- An access while RETAINED clears RETAIN, starts the wake, raises WOKE and is counted. -/
def State.spadTouch (s : State) (n : Nat) : State :=
  if (s.core n).retention = .retained then
    (((s.modCore n (fun c => { c with retention := .waking })).setReg (spadPage n + 0x44) 0).raiseIrq (spadPage n) 8).incSat
      (spadPage n + 0x64)
  else s

/-- SPAD_PWR.RETAIN. -/
def State.setRetain (s : State) (n : Nat) (on : Bool) : State :=
  let s1 := s.setReg (spadPage n + 0x44) (BitVec.ofNat 32 (b2n on))
  s1.modCore n (fun c =>
    match c.retention, on with
    | .on, true => { c with retention := .entering, wake := false }
    | .entering, _ => { c with wake := !on }
    | .retained, false => { c with retention := .waking }
    | .waking, _ => { c with wake := c.wake || (!on && s.bit (spadPage n + 0x44) 0) }
    | _, _ => c)

/-- A write of SPAD_PWR.RETAIN. -/
def execRetain (who : Party) (c : CoreId) (on : Bool) (s : State) : Host.Outcome State Fault Refusal :=
  done (s.whenUp fun s => s.ctl who (spadPage (coreNo c) + 0x44) fun s => s.setRetain (coreNo c) on)

/-! The remote-line buffer (R196 to R199) -/

/-- The global LPDDR channel of a window offset or a physical address (12 R377, R378). -/
def chanOf (o : Nat) : Nat := o / 256 % 96

/-- A request of core n about a line of its window. Misses use the tags 0x800 to 0xFEF, write-backs 0xFFC. -/
def State.lineReq (s : State) (n line : Nat) : PReq :=
  { op := 1, srcDie := BitVec.ofNat 5 (n / 2112), srcUnit := BitVec.ofNat 16 (n % 2112), tenant := s.niTenant n,
    tag := BitVec.ofNat 12 (0x800 + line % 0x7F0), dstDie := BitVec.ofNat 5 (24 + chanOf (line * 64) / 24), size := 2,
    addr := BitVec.ofNat 64 (2 ^ 56 + line * 64), be := 0xFF }

/-- Where the requests of an address in space 0x01 to 0x03 go: the edge die of its directory or fabric RAM, or a unit. -/
def addrEnd (a : Nat) : PlaneEnd :=
  match a / 2 ^ 56 with
  | 1 => .edge (chanOf (a % 2 ^ 41) / 24)
  | 2 => .edge (bits a 24 2)
  | _ => planeEnd (keyDie (a % 2 ^ 40)) (keyUnit (a % 2 ^ 40))

/-- The stop of a core. -/
def coreEnd (n : Nat) : PlaneEnd := planeEnd (n / 2112) (n % 2112)

/-- The directory of a window line. -/
def lineEnd (line : Nat) : PlaneEnd := .edge (chanOf (line * 64) / 24)

/-- Runs the arrival of a message, unless a link of its way on the plane is down (07 R226, R253). -/
def State.overPlane (s : State) (plane : Nat) (src dst : PlaneEnd) (f : State → State) : State :=
  if s.planeCarries plane src dst then f s else s

/-- The held line of a number. -/
def Core.rlbFind (c : Core) (line : Nat) : Option RlbLine := c.rlb.find? (fun l => decide (l.line = line))

/-- Replaces a line and makes it the most recently used: the list runs from the least recently used. -/
def Core.rlbSet (c : Core) (l : RlbLine) : Core :=
  { c with rlb := c.rlb.filter (fun x => decide (x.line ≠ l.line)) ++ [l] }

/-- Drops a line. -/
def Core.rlbDrop (c : Core) (line : Nat) : Core := { c with rlb := c.rlb.filter (fun x => decide (x.line ≠ line)) }

/-- The write-back of a line (WB), sent marked poisoned if the line is (R198); BE 0 says that the line is kept, so that the
directory goes on naming its holder (R197; assumption 13). An interface with TENANT 0 sends nothing (07 R260). -/
def State.writeBack (s : State) (n : Nat) (keep : Bool) (l : RlbLine) : State :=
  if l.dirty && decide (s.niTenant n ≠ 0) then
    s.send (.plane 4 { (s.lineReq n l.line) with op := 4, tag := 0xFFC, be := if keep then 0 else 0xFF } l.data l.poisoned)
  else s

/-- Writes back every dirty line of core n, least recently used first. -/
def State.flushLines (s : State) (n : Nat) (keep : Bool) : State := (s.core n).rlb.foldl (fun s l => s.writeBack n keep l) s

/-- Makes room in the set of a line: the least recently used of 8 ways is written back and dropped (R196). -/
def State.rlbRoom (s : State) (n line : Nat) : State :=
  match (s.core n).rlb.filter (fun l => decide (l.line % 64 = line % 64)) with
  | [] => s
  | l :: r => if 8 ≤ r.length + 1 then (s.writeBack n false l).modCore n (fun c => c.rlbDrop l.line) else s

/-- Whether the buffer serves an access to a line now: it holds the line, with ownership for a store. -/
def Core.rlbServes (c : Core) (write : Bool) (line : Nat) : Bool :=
  match c.rlbFind line with
  | some l => l.own || !write
  | none => false

/-- The lines of an access at a window offset. -/
def linesOf (o len : Nat) : List Nat :=
  if len = 0 then [] else (List.range ((o + len - 1) / 64 - o / 64 + 1)).map (fun i => o / 64 + i)

/-- Starts a miss unless the line is served, its miss is outstanding, or 8 misses are (R196). A store to a held line asks
for an upgrade. -/
def State.rlbMiss (s : State) (n : Nat) (write : Bool) (line : Nat) : State :=
  let c := s.core n
  if c.rlbServes write line || c.misses.any (fun m => decide (m.line = line)) || decide (8 ≤ c.misses.length) then s
  else
    let upg := write && (c.rlbFind line).isSome
    let s1 := s.modCore n (fun c => { c with misses := c.misses ++ [{ line := line, own := write, upg := upg, status := 0 }] })
    let op := if upg then 3 else if write then 2 else 1
    (s1.send (.plane op { (s.lineReq n line) with op := BitVec.ofNat 5 op } [] false)).incWrap (spadPage n + 0x6C)

/-- An access uses a line: a hit is counted unless the line has just come for it; the line becomes most recently used. -/
def State.rlbUse (s : State) (n line : Nat) : State :=
  match (s.core n).rlbFind line with
  | none => s
  | some l =>
    let s1 := s.modCore n (fun c => c.rlbSet { l with fresh := false })
    if l.fresh then s1 else s1.incWrap (spadPage n + 0x68)

/-- Bytes at a window offset as the buffer holds them; bytes of a line it does not hold read 0. -/
def Core.rlbBytes (c : Core) (o : Nat) : Nat → List Byte
  | 0 => []
  | k + 1 => (match c.rlbFind (o / 64) with | some l => l.data.getD (o % 64) 0 | none => 0) :: c.rlbBytes (o + 1) k

/-- Replaces bytes of a line from position p on. -/
def patchBytes (d : List Byte) (p : Nat) : List (Bool × Byte) → List Byte
  | [] => d
  | (e, b) :: r => patchBytes (if e then d.set p b else d) (p + 1) r

/-- Stores bytes into held lines: each line becomes dirty and keeps its poison mark (R198). -/
def Core.rlbStore (c : Core) (o : Nat) (l : List (Bool × Byte)) : Core :=
  (linesOf o l.length).foldl (fun c line =>
    match c.rlbFind line with
    | none => c
    | some x =>
      let skip := line * 64 - o
      let part := (l.drop skip).take (64 - (o + skip - line * 64))
      c.rlbSet { x with dirty := true, data := patchBytes x.data (o + skip - line * 64) part }) c

/-- The line of the oldest miss arrives: it takes a way of its set, and the directory is released with UNBLOCK
(07 R257). -/
def State.rlbFill (s : State) (n : Nat) (data : List Byte) (poisoned : Bool) : State :=
  match (s.core n).misses.filter (fun m => decide (m.status = 0)) with
  | [] => s
  | m :: _ =>
    let s1 := (s.modCore n (fun c => { (c.rlbDrop m.line) with misses := c.misses.erase m })).rlbRoom n m.line
    let l : RlbLine := { line := m.line, own := m.own, dirty := false, poisoned := poisoned, fresh := true, data := bytesAt data 0 64 }
    (s1.modCore n (fun c => c.rlbSet l)).send (.plane 0x1B (s.lineReq n m.line) [] false)

/-- A miss completes (06 R196). -/
def execRlbMissFill (c : CoreId) (data : List Byte) (poisoned : Bool) (s : State) : Host.Outcome State Fault Refusal :=
  done (s.onIsland fun s => s.rlbFill (coreNo c) data poisoned)

/-- A write of SPAD_CTRL.RLB_FLUSH. -/
def execRlbFlush (who : Party) (c : CoreId) (s : State) : Host.Outcome State Fault Refusal :=
  done (s.whenUp fun s => s.ctl who (spadPage (coreNo c) + 0x40) fun s =>
    s.modCore (coreNo c) (fun d => { d with rlbOp := max 1 d.rlbOp }))

/-- A write of SPAD_CTRL.RLB_INVAL. -/
def execRlbInval (who : Party) (c : CoreId) (s : State) : Host.Outcome State Fault Refusal :=
  done (s.whenUp fun s => s.ctl who (spadPage (coreNo c) + 0x40) fun s =>
    s.modCore (coreNo c) (fun d => { d with rlbOp := max 2 d.rlbOp }))

/-- The end of a flush (1), an invalidation (2) or the invalidation of SOFT_RESET (3, which raises no RLB_DONE and follows
a zeroing in progress). A flushed line stays valid, without ownership (R199; assumption 13). -/
def State.rlbEnds (s : State) (n : Nat) : State :=
  let c := s.core n
  if c.rlbOp = 0 ∨ (c.rlbOp = 3 ∧ c.zeroing = true) then s
  else
    let s1 := (s.flushLines n (decide (c.rlbOp = 1))).modCore n (fun d =>
      { d with
        rlbOp := 0,
        rlb := if c.rlbOp = 1 then d.rlb.map (fun l => if l.dirty then { l with dirty := false, own := false } else l) else [] })
    if c.rlbOp = 3 then s1 else s1.raiseIrq (spadPage n) 4

/-- A flush or invalidation completes. -/
def execRlbDone (c : CoreId) (s : State) : Host.Outcome State Fault Refusal :=
  done (s.onIsland fun s => s.rlbEnds (coreNo c))

/-- A snoop response of core n: 0x1A with data for HIT; op SIZE of the flit says HIT (1), HIT_CLEAN (2) or NONE (0). -/
def State.snpAnswer (s : State) (n line code : Nat) (data : List Byte) (poisoned : Bool) : State :=
  s.send (.plane 0x1A { (s.lineReq n line) with size := BitVec.ofNat 4 code } data poisoned)

/-- A snoop of a held line: a dirty line is written back with the answer (07 R258). -/
def State.snooped (s : State) (n line : Nat) (keep : Bool) : State :=
  match (s.core n).rlbFind line with
  | none => s.snpAnswer n line 0 [] false
  | some l =>
    let s1 := s.modCore n (fun c =>
      if keep then { c with rlb := c.rlb.map (fun x => if x.line = line then { x with own := false, dirty := false } else x) }
      else c.rlbDrop line)
    (if l.dirty then s1.snpAnswer n line 1 l.data l.poisoned else s1.snpAnswer n line 2 [] false).incWrap (spadPage n + 0x70)

/-- SNP_INV at a line buffer. -/
def execSnpInv (c : CoreId) (line : Nat) (s : State) : Host.Outcome State Fault Refusal :=
  done (s.onIsland fun s => s.overPlane 2 (lineEnd line) (coreEnd (coreNo c)) fun s => s.snooped (coreNo c) line false)

/-- SNP_DOWN at a line buffer. -/
def execSnpDown (c : CoreId) (line : Nat) (s : State) : Host.Outcome State Fault Refusal :=
  done (s.onIsland fun s => s.overPlane 2 (lineEnd line) (coreEnd (coreNo c)) fun s => s.snooped (coreNo c) line true)

/-! Zeroing, retention entry and scrubbing -/

/-- SPAD_CTRL.ZERO: the contents are zero and unpoisoned from here on, and accesses wait until ZEROING_END; a second
ZERO is ignored and recorded (R193). A scratchpad that is RETAINED or waking takes it at once (DESIGN CHOICE, assumption 92). -/
def State.spadZero (s : State) (n : Nat) : State :=
  if (s.core n).zeroing then s.clampAt (spadPage n) 0x40
  else s.modCore n (fun c => { c with zeroing := true, spad := [], poison := [] })

/-- A write of SPAD_CTRL.ZERO. -/
def execZero (who : Party) (c : CoreId) (s : State) : Host.Outcome State Fault Refusal :=
  done (s.whenUp fun s => s.ctl who (spadPage (coreNo c) + 0x40) fun s => s.spadZero (coreNo c))

/-- Zeroing completes. -/
def execZeroingEnd (c : CoreId) (s : State) : Host.Outcome State Fault Refusal :=
  done (s.onIsland fun s =>
    let n := coreNo c
    if (s.core n).zeroing then (s.modCore n (fun d => { d with zeroing := false })).raiseIrq (spadPage n) 2 else s)

/-- SOFT_RESET of the page (R199): the registers take their reset values, so a scratchpad in retention wakes, and the
invalidation follows. -/
def State.spadReset (s : State) (n : Nat) : State :=
  ((s.setBlk (spadPage n) { (s.blk (spadPage n)) with resetDue := false }).pageReset (spadPage n)).modCore n (fun c =>
    { c with rlbOp := 3, retention := if c.retention = .on then .on else .waking, wake := false })

/-- A SOFT_RESET that was written during a transition takes effect at its end (16 R498). -/
def State.spadResetDue (s : State) (n : Nat) : State := if (s.blk (spadPage n)).resetDue then s.spadReset n else s

/-- After 64 idle cc the scratchpad enters retention: dirty lines written back, the buffer invalidated; a RETAIN = 0
written meanwhile wakes it at once (R194, R195). -/
def execRetentionEntry (c : CoreId) (s : State) : Host.Outcome State Fault Refusal :=
  done (s.onIsland fun s =>
    let n := coreNo c
    if (s.core n).retention = .entering ∧ (s.core n).zeroing = false then
      ((s.flushLines n false).modCore n (fun d => { d with rlb := [], retention := if d.wake then .waking else .retained })).spadResetDue n
    else s)

/-- The wake completes; a RETAIN = 1 written during it starts a new entry. -/
def execSpadWakeDone (c : CoreId) (s : State) : Host.Outcome State Fault Refusal :=
  done (s.onIsland fun s =>
    let n := coreNo c
    if (s.core n).retention = .waking then
      let due := (s.blk (spadPage n)).resetDue
      (s.modCore n (fun d =>
        { d with wake := false, retention := if s.bit (spadPage n + 0x44) 0 && !due then .entering else .on })).spadResetDue n
    else s)

/-- The scrubber reads a line: it runs while enabled and while the scratchpad is neither zeroing nor in retention (R192,
R194). -/
def execScrubRead (c : CoreId) (line : Fin 16384) (e : Ecc) (s : State) : Host.Outcome State Fault Refusal :=
  done (s.onIsland fun s =>
    let n := coreNo c
    if s.bit (spadPage n + 0x60) 0 && !(s.core n).spadWaits then s.eccFound n (wordsOf (line.val * 64) 64) e else s)

end Sys2Proof.Machine
end

