-- ==== Sys2Proof/Machine/Matrix.lean ====
section
/-! DEFINITION. The matrix arrays and the jib: descriptors and their checks (02 R44 to R62), route choice (R75, R76),
passes, groups, drains and retries (R64 to R74, R87 to R90; 03 R110 to R115), completion (R81 to R88) and the epilogue tap
(10 R337). -/
namespace Sys2Proof.Machine

/-! Descriptors (R54 to R56) -/

/-- The fields of one descriptor. -/
structure Desc where
  route : Nat
  acc : Bool
  split : Bool
  aFmt : Nat
  wFmt : Nat
  outFmt : Nat
  scale : Bool
  rnd : Nat
  sr3 : Bool
  epi : Nat
  passId : Nat
  m : Nat
  n : Nat
  k : Nat
  aAddr : Nat
  aLd : Nat
  asAddr : Nat
  wAddr : Nat
  wsAddr : Nat
  ciAddr : Nat
  coAddr : Nat
  cLd : Nat
  stat : Nat
  tensor : Word
  draw : Word
deriving DecidableEq, Repr

/-- Word i of a descriptor. -/
def wordAt (l : List Dword) (i : Nat) : Nat := (l.getD i 0).toNat

/-- The descriptor of eight words. -/
def Desc.of (l : List Dword) : Desc :=
  { route := bits (wordAt l 0) 0 2, acc := decide (bits (wordAt l 0) 2 1 = 1), split := decide (bits (wordAt l 0) 3 1 = 1),
    aFmt := bits (wordAt l 0) 4 4, wFmt := bits (wordAt l 0) 8 4, outFmt := bits (wordAt l 0) 12 3,
    scale := decide (bits (wordAt l 0) 15 1 = 1), rnd := bits (wordAt l 0) 16 2, sr3 := decide (bits (wordAt l 0) 18 1 = 1),
    epi := bits (wordAt l 0) 19 2, passId := bits (wordAt l 0) 32 16, m := bits (wordAt l 1) 0 16,
    n := bits (wordAt l 1) 16 16, k := bits (wordAt l 1) 32 16, aAddr := bits (wordAt l 2) 0 20, aLd := bits (wordAt l 2) 20 20,
    asAddr := bits (wordAt l 2) 40 20, wAddr := bits (wordAt l 3) 0 20, wsAddr := bits (wordAt l 3) 20 20,
    ciAddr := bits (wordAt l 4) 0 20, coAddr := bits (wordAt l 4) 20 20, cLd := bits (wordAt l 4) 40 20,
    stat := bits (wordAt l 5) 0 20, tensor := BitVec.ofNat 32 (bits (wordAt l 5) 32 32),
    draw := BitVec.ofNat 32 (bits (wordAt l 6) 0 32) }

/-- Words from bytes, little-endian. -/
def dwordsOf (n : Nat) (l : List Byte) : List Dword :=
  (List.range n).map (fun i => BitVec.ofNat 64 (leNat (bytesAt l (8 * i) 8)))

/-- The words of half h: the second eight are half 1's. -/
def MatJob.half (j : MatJob) (h : Nat) : List Dword := (j.words.drop (8 * h)).take 8

/-- The descriptor of half h. -/
def MatJob.desc (j : MatJob) (h : Nat) : Desc := Desc.of (j.half h)

/-- Whether the job is a split pair whose half 1 has been read (R59). -/
def MatJob.pair (j : MatJob) : Bool := decide (8 < j.words.length)

/-- Bits per element of a format code (R49). -/
def fmtBits (k : Nat) : Nat := if k = 0 then 4 else if k ≤ 2 then 6 else if k ≤ 5 then 8 else 16

/-- The width class of R50: 4, 8 or 16, or 0 for a pair that is not allowed. -/
def Desc.cls (d : Desc) : Nat :=
  if d.aFmt = 0 ∧ d.wFmt = 0 then 4
  else if (d.aFmt ≤ 4 ∧ d.wFmt ≤ 4) ∨ (d.aFmt = 5 ∧ d.wFmt = 5) then 8
  else if (d.aFmt = 6 ∧ d.wFmt = 6) ∨ (d.aFmt = 7 ∧ d.wFmt = 7) then 16
  else 0

/-- Logical columns per tile (R50, R72). -/
def Desc.nt (d : Desc) (pair : Bool) : Nat :=
  (if d.cls = 4 then 16 else if d.cls = 16 then 4 else 8) / (if pair then 2 else 1)

def Desc.kt (d : Desc) : Nat := ceilDiv d.k 32
def Desc.tiles (d : Desc) (pair : Bool) : Nat := ceilDiv d.n (d.nt pair)
def Desc.chunks (d : Desc) : Nat := ceilDiv d.m 256
def Desc.tb (d : Desc) (pair : Bool) : Nat := 32 * d.nt pair * fmtBits d.wFmt / 8
def Desc.rowBytes (d : Desc) : Nat := ceilDiv (d.k * fmtBits d.aFmt) 8
def Desc.outBytes (d : Desc) : Nat := if d.outFmt = 0 ∨ d.outFmt = 3 then 4 else 2

/-! Checks (R60 to R62) -/

/-- A check that fails: its reason, and the word and lowest bit of the failing field. -/
structure DescBad where
  reason : Nat
  word : Nat
  lsb : Nat
deriving DecidableEq, Repr

/-- A region: start, bytes, and the word and bit of its address field. -/
structure DRegion where
  lo : Nat
  size : Nat
  word : Nat
  lsb : Nat
deriving DecidableEq, Repr

/-- Whether two regions share a byte. -/
def DRegion.meets (a b : DRegion) : Bool := decide (a.lo < b.lo + b.size) && decide (b.lo < a.lo + a.size)

def Desc.hasA (d : Desc) : Bool := decide (d.m ≠ 0) && decide (d.n ≠ 0) && decide (d.k ≠ 0)
def Desc.hasC (d : Desc) : Bool := decide (d.m ≠ 0) && decide (d.n ≠ 0)
def Desc.hasCI (d : Desc) : Bool := d.hasC && d.acc
def Desc.hasCO (d : Desc) : Bool := d.hasC && decide (d.epi ≠ 2)

/-- The bytes of a C region. -/
def Desc.cSize (d : Desc) : Nat := (d.m - 1) * d.cLd + d.n * d.outBytes

/-- The operand regions that are read before any C region, in field order (R61). -/
def Desc.inputs (d : Desc) (pair : Bool) : List DRegion :=
  (if d.hasA then [⟨d.aAddr, (d.m - 1) * d.aLd + d.rowBytes, 2, 0⟩] else [])
  ++ (if d.hasA && d.scale then [⟨d.asAddr, d.m * d.kt, 2, 40⟩] else [])
  ++ (if d.hasA then [⟨d.wAddr, d.tiles pair * d.kt * d.tb pair, 3, 0⟩] else [])
  ++ (if d.hasA && d.scale then [⟨d.wsAddr, d.kt * d.n, 3, 20⟩] else [])

def Desc.ciRegion (d : Desc) : List DRegion := if d.hasCI then [⟨d.ciAddr, d.cSize, 4, 0⟩] else []
def Desc.coRegion (d : Desc) : List DRegion := if d.hasCO then [⟨d.coAddr, d.cSize, 4, 20⟩] else []

/-- The status record's region; half 1 of a pair has none. -/
def Desc.statRegion (d : Desc) (half : Nat) : List DRegion := if half = 0 then [⟨d.stat, 8, 5, 0⟩] else []

/-- Every region of a half, in field order. -/
def Desc.regions (d : Desc) (pair : Bool) (half : Nat) : List DRegion :=
  d.inputs pair ++ d.ciRegion ++ d.coRegion ++ d.statRegion half

/-- The reserved fields: word, lowest bit, width. In half 1, ROUTE, SPLIT and STAT_ADDR too (R59). -/
def reservedFields (half : Nat) : List (Nat × Nat × Nat) :=
  (if half = 1 then [(0, 0, 2), (0, 3, 1)] else []) ++ [(0, 21, 11), (0, 48, 16), (1, 48, 16), (2, 60, 4), (3, 40, 24), (4, 60, 4)]
    ++ (if half = 1 then [(5, 0, 20)] else []) ++ [(5, 20, 12), (6, 32, 32), (7, 0, 64)]

/-- The first check of a list that fails. -/
def firstBad : List (Bool × DescBad) → Option DescBad
  | [] => none
  | (b, x) :: r => if b then some x else firstBad r

/-- An overlap that R62 forbids within one descriptor; the later field of the two is named. -/
def Desc.overlap (d : Desc) (pair : Bool) (half : Nat) : Option DescBad :=
  let co := d.coRegion
  let ci := d.ciRegion
  let st := d.statRegion half
  let clash (xs ys : List DRegion) : Bool := xs.any (fun x => ys.any (fun y => x.meets y))
  if clash co (d.inputs pair) || (clash co ci && decide (d.ciAddr ≠ d.coAddr)) then some ⟨6, 4, 20⟩
  else if clash st co || clash st ci then some ⟨6, 5, 0⟩
  else none

/-- The checks of one half, in the order of the REASON codes; `jib` says that the route names the jib (R60).
Which field REASON 8 and 9 name, where a combination of fields is at fault, is the model's choice (assumption 25). -/
def Desc.check (d : Desc) (l : List Dword) (pair : Bool) (half : Nat) : Option DescBad :=
  let jib := decide (half = 0) && decide (d.route = 3)
  let r1 := (reservedFields half).map (fun f => (decide (bits (wordAt l f.1) f.2.1 f.2.2 ≠ 0), (⟨1, f.1, f.2.1⟩ : DescBad)))
  let r2 : List (Bool × DescBad) :=
    [(decide (8 ≤ d.aFmt), ⟨2, 0, 4⟩), (decide (8 ≤ d.wFmt), ⟨2, 0, 8⟩), (decide (4 ≤ d.outFmt), ⟨2, 0, 12⟩),
     (decide (d.rnd = 3), ⟨2, 0, 16⟩), (decide (d.epi = 3), ⟨2, 0, 19⟩)]
  let int8 := decide (d.aFmt = 5) && decide (d.wFmt = 5)
  let r3 : List (Bool × DescBad) :=
    [(decide (d.cls = 0), ⟨3, 0, 4⟩), (d.scale && decide (d.cls = 16), ⟨3, 0, 15⟩),
     ((decide (d.outFmt = 3) && !(int8 && !d.scale)) || (int8 && !d.scale && decide (d.outFmt ≠ 3)), ⟨3, 0, 12⟩)]
  let r4 := (decide (half = 0) && d.split && !pair, (⟨4, 0, 3⟩ : DescBad))
    :: (d.regions pair half).map (fun r => (decide (2 ^ 20 < r.lo + r.size), (⟨4, r.word, r.lsb⟩ : DescBad)))
  let r5 : List (Bool × DescBad) :=
    [(d.hasA && decide (d.aAddr % 8 ≠ 0), ⟨5, 2, 0⟩), (d.hasA && decide (d.aLd % 8 ≠ 0), ⟨5, 2, 20⟩),
     (d.hasA && decide (d.wAddr % 64 ≠ 0), ⟨5, 3, 0⟩), (d.hasCI && decide (d.ciAddr % 8 ≠ 0), ⟨5, 4, 0⟩),
     (d.hasCO && decide (d.coAddr % 8 ≠ 0), ⟨5, 4, 20⟩), ((d.hasCI || d.hasCO) && decide (d.cLd % 8 ≠ 0), ⟨5, 4, 40⟩),
     (decide (half = 0) && decide (d.stat % 8 ≠ 0), ⟨5, 5, 0⟩)]
  let r7 : List (Bool × DescBad) :=
    [(d.hasA && decide (d.aLd < d.rowBytes), ⟨7, 2, 20⟩),
     ((d.hasCI || d.hasCO) && decide (d.cLd < d.n * d.outBytes), ⟨7, 4, 40⟩)]
  let r8 : List (Bool × DescBad) :=
    [((jib && d.split) || (d.split && decide (d.cls = 16)), ⟨8, 0, 3⟩), (jib && decide (d.epi ≠ 0), ⟨8, 0, 19⟩),
     (jib && decide (4 < d.m), ⟨8, 1, 0⟩)]
  let r9 : List (Bool × DescBad) := [(jib && decide (32768 < d.m * d.rowBytes), ⟨9, 1, 0⟩)]
  match firstBad (r1 ++ r2 ++ r3) with
  | some x => some x
  | none => match firstBad (r4 ++ r5) with
    | some x => some x
    | none => match d.overlap pair half with
      | some x => some x
      | none => firstBad (r7 ++ r8 ++ r9)

/-- Overlaps across the halves of a pair (R62), named by half 1's field. -/
def crossOverlap (d0 d1 : Desc) : Option DescBad :=
  let clash (xs ys : List DRegion) : Bool := xs.any (fun x => ys.any (fun y => x.meets y))
  let all (d : Desc) : List DRegion := d.inputs true ++ d.ciRegion ++ d.coRegion
  if clash d1.ciRegion (d0.statRegion 0) then some ⟨6, 4, 0⟩
  else if clash d1.coRegion (all d0 ++ d0.statRegion 0) then some ⟨6, 4, 20⟩
  else match ((all d1).filter (fun r => d0.coRegion.any (fun c => c.meets r))).head? with
    | some r => some ⟨6, r.word, r.lsb⟩
    | none => none

/-- All checks of a job: half 0, half 1, the overlaps across them, and last their width classes (R60, R72). -/
def MatJob.check (j : MatJob) : Option (DescBad × Nat) :=
  let d0 := j.desc 0
  match d0.check (j.half 0) j.pair 0 with
  | some x => some (x, 0)
  | none =>
    if !j.pair then none
    else
      let d1 := j.desc 1
      match d1.check (j.half 1) true 1 with
      | some x => some (x, 1)
      | none => match crossOverlap d0 d1 with
        | some x => some (x, 1)
        | none => if d0.cls = d1.cls then none else some (⟨3, 0, 4⟩, 1)

/-! Units -/

/-- The page of unit u of a core: arrays 0 and 1, the jib. -/
def matPage (n u : Nat) : Nat := corePage n (1 + u)

def Core.unit (c : Core) (u : Nat) : MatUnit := match u with | 0 => c.u0 | 1 => c.u1 | _ => c.u2
def Core.setUnit (c : Core) (u : Nat) (x : MatUnit) : Core :=
  match u with
  | 0 => { c with u0 := x }
  | 1 => { c with u1 := x }
  | _ => { c with u2 := x }

/-- The block of a unit's page. -/
def unitBlk (u : Nat) : Blk := if u = 2 then .jib else .arr

/-- Whether a unit is enabled: BLK_CTRL.ENABLE (R75, R76). -/
def State.unitOn (s : State) (n u : Nat) : Bool := s.bit (matPage n u + 8) 0

/-- The unit that a descriptor goes to; none for an auto descriptor that no enabled unit takes (R75, R76). -/
def State.routeOf (s : State) (n : Nat) (d : Desc) : Option Nat :=
  match d.route with
  | 1 => some 0
  | 2 => some 1
  | 3 => some 2
  | _ =>
    let c := s.core n
    if s.unitOn n 2 && decide (d.m ≤ 4) && !d.split && decide (d.epi = 0) && decide (d.m * d.rowBytes ≤ 32768) then some 2
    else match s.unitOn n 0, s.unitOn n 1 with
      | true, true => if c.u1.jobs.length < c.u0.jobs.length then some 1 else some 0
      | true, false => some 0
      | false, true => some 1
      | false, false => none

/-! Status records (R81 to R84) -/

/-- A status record. -/
def statusRecord (r0 r1 : Nat) (h0 h1 : BitVec 5 × Bool) (unit : Nat) (retried fo : Bool) (passId : Nat) (err : BitVec 16) : Dword :=
  BitVec.ofNat 64 (r0 + r1 * 2 ^ 4 + h0.1.toNat * 2 ^ 8 + b2n h0.2 * 2 ^ 13 + unit * 2 ^ 14 + h1.1.toNat * 2 ^ 16
    + b2n h1.2 * 2 ^ 21 + b2n retried * 2 ^ 22 + b2n fo * 2 ^ 23 + passId * 2 ^ 32 + err.toNat * 2 ^ 48)

/-- Writes a status record at an aligned STAT_ADDR and copies it into the LAST registers of a unit, if one is named; a record
that has no aligned place is copied too (assumption 25). -/
def State.putRecord (s : State) (n : Nat) (last : Option Nat) (stat : Nat) (r : Dword) : State :=
  let s1 := if stat % 8 = 0 then s.spadWrite n stat (leBytes 8 r.toNat) else s
  match last with
  | some u => (s1.setReg (matPage n u + 0x48) (r.setWidth 32)).setReg (matPage n u + 0x4C) ((r >>> 32).setWidth 32)
  | none => s1

/-- A descriptor is refused (R76): its record is written at once, and copied as putRecord says (assumption 25). -/
def State.refuseJob (s : State) (n : Nat) (u : Option Nat) (d : Desc) : State :=
  s.putRecord n u d.stat (statusRecord 3 (if d.split then 3 else 0) (0, false) (0, false) (u.getD 3) false false d.passId 0)

/-- The cc that a descriptor has kept its unit busy are counted: their number is free (assumption 67). -/
def State.busyGone (s : State) (n u : Nat) : State := s.draw.2.inc64 (matPage n u + 0x74) s.draw.1

/-- The head of a unit's queue leaves it, and its completion counter loses 1 (04 R145). -/
def State.dequeue (s : State) (n u : Nat) (j : MatJob) : State :=
  (s.modCore n (fun c => (c.setUnit u { c.unit u with jobs := (c.unit u).jobs.drop 1, run := none }).countDown j.ctr.val j.counted)).busyGone n u

/-- A descriptor fails its checks (R60): the record, ARR_FAULT, BLK_ERR, DESC_FAULT. -/
def State.descFault (s : State) (n u : Nat) (j : MatJob) (x : DescBad) (half : Nat) : State :=
  let pg := matPage n u
  let d := j.desc 0
  let s1 := if s.bit (pg + 0x50) 0 then s
    else s.setReg (pg + 0x50) (BitVec.ofNat 32 (1 + x.word * 2 + x.lsb * 2 ^ 4 + half * 2 ^ 10 + x.reason * 2 ^ 12
      + (j.desc half).passId * 2 ^ 16))
  let s2 := (s1.enterCode pg Code.numDescriptor).raiseIrq pg 1
  let r := statusRecord 2 (if d.split then 2 else 0) (0, false) (0, false) u false false d.passId Code.numDescriptor
  let s3 := if half = 0 ∧ x.word = 5 ∧ x.lsb = 0 then s2 else s2.putRecord n (some u) d.stat r
  s3.dequeue n u j

/-- Whether a job uses the epilogue tap (R56). -/
def MatJob.tap (j : MatJob) : Bool := decide ((j.desc 0).epi ≠ 0) || (j.pair && decide ((j.desc 1).epi ≠ 0))

/-- Whether the other array runs a tap descriptor (R78). -/
def Core.tapTaken (c : Core) (u : Nat) : Bool :=
  match (c.unit (1 - u)).run, (c.unit (1 - u)).jobs with
  | some _, j :: _ => decide (u < 2) && j.tap
  | _, _ => false

/-- Whether a half has no group left: every one has been written or discarded. -/
def HalfRun.ended (h : HalfRun) : Bool := h.groups.isEmpty && h.next.isNone

/-- Whether every k tile of a group has been added (02 R69: with K = 0, at once). -/
def Group.full (g : Group) (d : Desc) : Bool := decide (d.kt ≤ g.kt)

/-- The group after (chunk, tile) in the order of R66. -/
def Desc.groupAfter (d : Desc) (pair : Bool) (ct : Nat × Nat) : Option (Nat × Nat) :=
  if ct.2 + 1 < d.tiles pair then some (ct.1, ct.2 + 1) else if ct.1 + 1 < d.chunks then some (ct.1 + 1, 0) else none

/-- The next group takes a bank as soon as one is free and the groups before it are full. -/
def HalfRun.fill (h : HalfRun) (d : Desc) (pair : Bool) : HalfRun :=
  match h.next with
  | some ct =>
    if h.groups.length < 2 ∧ h.groups.all (fun g => g.full d) then
      { h with groups := h.groups ++ [Group.start ct.1 ct.2], next := d.groupAfter pair ct }
    else h
  | none => h

/-- A half before its first pass; one whose descriptor has no rows or no columns has ended (R69). -/
def HalfRun.init (d : Desc) (pair : Bool) : HalfRun :=
  if d.hasC then ({ HalfRun.idle with next := some (0, 0) } : HalfRun).fill d pair else HalfRun.idle

/-- The start of a descriptor that has passed its checks. -/
def MatRun.init (j : MatJob) (buf : Option Snap) : MatRun :=
  { h0 := HalfRun.init (j.desc 0) j.pair, h1 := if j.pair then HalfRun.init (j.desc 1) true else HalfRun.idle,
    retried := false, foTaken := false, start := 0, rows := 0, fo := none, bufA := buf, held := [], end0 := false, end1 := false }

/-- A unit takes up the head of its queue (R60, R76, R78), with the A that the jib has loaded for it. -/
def State.takeUp (s : State) (n u : Nat) : State :=
  let c := s.core n
  match (c.unit u).jobs, (c.unit u).run with
  | j :: _, none =>
    if j.tap && c.tapTaken u then s
    else if c.spadWaits then s.spadTouch n
    else
      let s1 := s.modCore n (fun c => c.setUnit u { c.unit u with nextA := none })
      if !s.unitOn n u then (s1.refuseJob n (some u) (j.desc 0)).dequeue n u j
      else match j.check with
        | some (x, half) => s1.descFault n u j x half
        | none => s1.modCore n (fun d => d.setUnit u { d.unit u with run := some (MatRun.init j (c.unit u).nextA) })
  | _, _ => s

/-- DESCRIPTOR_TAKE_UP. -/
def execDescriptorTakeUp (c : CoreId) (u : Fin 3) (s : State) : Host.Outcome State Fault Refusal :=
  done (s.onIsland fun s => s.takeUp (coreNo c) u.val)

/-! Arithmetic (03 R110 to R113) -/

/-- The format of an operand code other than INT8. -/
def opFmt (k : Nat) : Fmt :=
  match k with
  | 0 => Fmt.fp4
  | 1 => Fmt.e2m3
  | 2 => Fmt.e3m2
  | 3 => Fmt.e4m3
  | 4 => Fmt.e5m2
  | 6 => Fmt.bf16
  | _ => Fmt.fp16

/-- An operand element as a value. -/
def opVal (k x : Nat) : FVal := if k = 5 then intVal (sIntOf 8 x) else (opFmt k).unpack x

/-- A product of two elements: zero times infinity, or a value. -/
inductive Prod where
  | bad
  | val (v : FVal)
deriving DecidableEq, Repr

/-- The exact product. -/
def prodOf (a b : FVal) : Prod :=
  match a, b with
  | .nan sg n p, _ => .val (.nan sg n p)
  | _, .nan sg n p => .val (.nan sg n p)
  | .inf x, y => if y.isZero then .bad else .val (.inf (x ^^ y.neg?))
  | x, .inf y => if x.isZero then .bad else .val (.inf (y ^^ x.neg?))
  | .fin n1 m1 e1, .fin n2 m2 e2 => .val (.fin (n1 ^^ n2) (m1 * m2) (e1 + e2))

/-- An offence against validity: its cause (R86), its k within the block, and whether it is met at the column's foot. -/
structure Offence where
  cause : Nat
  k : Nat
  foot : Bool
deriving DecidableEq, Repr

/-- The index of the first element that a test accepts. -/
def firstIdx {α : Type} (p : α → Bool) (l : List α) : Option Nat := l.findIdx? p

/-- The sign of an infinite product. -/
def Prod.infSign : Prod → Option Bool
  | .val (.inf n) => some n
  | _ => none

/-- The exact sum of finite values; zero is -0 only if every addend is -0 (R103). -/
def exactSum (l : List FVal) : FVal :=
  let t : Int := l.foldl (fun t v => match v with | .fin n m e => t + (if n then -1 else 1) * (m * 2 ^ (e + 320).toNat : Nat) | _ => t) 0
  if t = 0 then .fin (l.all (fun v => v.isZero && v.neg?) && !l.isEmpty) 0 0 else .fin (decide (t < 0)) t.natAbs (-320)

/-- blocksum of R111: the products, the two scale bytes; the value and the offences of the block. For integer operands a
sum of 0 is +0. -/
def blockSum (ps : List Prod) (sa sw : Nat) (int : Bool) : FVal × List Offence :=
  let nan := ps.any (fun p => match p with | .val v => v.isNan | .bad => false)
  let zi := firstIdx (fun p => decide (p = Prod.bad)) ps
  let sgn := (ps.filterMap Prod.infSign).head?
  let opp := sgn.bind (fun g => firstIdx (fun p => decide (p.infSign = some (!g))) ps)
  let offs : List Offence := (match zi with | some k => [⟨0, k, false⟩] | none => []) ++ (match opp with | some k => [⟨1, k, false⟩] | none => [])
  let v :=
    if sa = 0xFF ∨ sw = 0xFF ∨ nan = true ∨ offs ≠ [] then FVal.nan false false 0
    else match sgn with
      | some g => .inf g
      | none =>
        match exactSum (ps.filterMap (fun p => match p with | .val v => some v | .bad => none)) with
        | .fin n m e => if m = 0 then .fin (n && !int) 0 0 else .fin n m (e + sa + sw - 254)
        | v => v
  (v, offs)

/-- Rounds an exact sum into the accumulator: to nearest, tiny values flushed (R110, R112). -/
def accRound (n : Bool) (m : Nat) (e : Int) : Nat × Flags := Fmt.fp32.round .rne false true n m e

/-- acc + b, rounded once; whether it meets infinities of opposite sign (R112). -/
def accAdd (acc : Nat) (b : FVal) : Nat × Flags × Bool :=
  let f := Fmt.fp32
  match f.unpack acc, b with
  | .nan _ _ _, _ => (f.canon, 0, false)
  | _, .nan _ _ _ => (f.canon, 0, false)
  | .inf x, .inf y => if x = y then (f.infBits x, 0, false) else (f.canon, fInvalid, true)
  | .inf x, _ => (f.infBits x, 0, false)
  | _, .inf y => (f.infBits y, 0, false)
  | .fin n1 m1 e1, .fin n2 m2 e2 =>
    let x := exactAdd n1 m1 e1 n2 m2 e2
    let r := accRound x.1 x.2.1 x.2.2
    (r.1, r.2, false)

/-- widen of R110: C_IN as FP32 bits. -/
def widenIn (outFmt x : Nat) : Nat × Flags :=
  let f := if outFmt = 0 then Fmt.fp32 else if outFmt = 1 then Fmt.bf16 else Fmt.fp16
  match f.unpack x with
  | .nan sg _ _ => (Fmt.fp32.canon, if sg then fInvalid else 0)
  | .inf n => (Fmt.fp32.infBits n, 0)
  | .fin n m e => if topBit m e < -126 ∧ m ≠ 0 ∧ outFmt ≠ 2 then (Fmt.fp32.signed n 0, 0) else Fmt.fp32.round .rne false false n m e

/-- One class-16 step: acc + a * w, rounded once (R67, R112); its offence. -/
def fusedStep (acc : Nat) (a w : FVal) : Nat × Flags × Option Nat :=
  let f := Fmt.fp32
  let sig := a.isSig || w.isSig
  match prodOf a w with
  | .bad => (f.canon, fInvalid, some (if sig then 2 else 0))
  | .val p =>
    if p.isNan then (f.canon, if sig then fInvalid else 0, if sig then some 2 else none)
    else
      let r := accAdd acc p
      (r.1, r.2.1, if r.2.2 then some 1 else none)

/-! Passes (R64 to R73) -/

/-- The bits of an element of w bits in packed bytes (03 R98). -/
def packedAt (l : List Byte) (w i : Nat) : Nat := bits (leNat l) (w * i) w

/-- The bytes that hold elements i to i + n - 1 of w bits in a packed run at an address. -/
def packedSpan (a w i n : Nat) : Nat × Nat :=
  let lo := a + w * i / 8
  (lo, if n = 0 then 0 else (a + (w * (i + n) + 7) / 8) - lo)

/-- Everything a core's scratchpad holds. -/
def Core.snapAll (c : Core) : Snap := { mem := c.spad, poison := c.poison }

/-- What a unit takes in when it reads len bytes at an address. -/
def Core.snap (c : Core) (lo len : Nat) : Snap :=
  { mem := c.spad.filter (fun p => decide (lo ≤ p.1) && decide (p.1 < lo + len)),
    poison := c.poison.filter (fun p => decide (lo < 8 * p.1 + 8) && decide (8 * p.1 < lo + len)) }

/-- Whether bytes that a unit has taken in lie in a poisoned word. -/
def Snap.poisonedAt (x : Snap) (off len : Nat) : Bool := (wordsOf off len).any (Sparse.get (fun _ => false) x.poison)

/-- The passes of a half, and the number of a group's next pass among them (R66). -/
def Desc.passes (d : Desc) (pair : Bool) : Nat := d.chunks * d.tiles pair * d.kt
def Group.passNo (g : Group) (d : Desc) (pair : Bool) : Nat := (g.chunk * d.tiles pair + g.tile) * d.kt + g.kt

/-- The address of the weight tile of pass i. -/
def Desc.tileAt (d : Desc) (pair : Bool) (i : Nat) : Nat := d.wAddr + (i / d.kt % d.tiles pair * d.kt + i % d.kt) * d.tb pair

/-- The rows of a group's chunk, its columns, and the k of its next tile. -/
def Group.rows (g : Group) (d : Desc) : Nat := min 256 (d.m - 256 * g.chunk)
def Group.cols (g : Group) (d : Desc) (pair : Bool) : Nat := min (d.nt pair) (d.n - d.nt pair * g.tile)
def Group.ks (g : Group) (d : Desc) : Nat := min 32 (d.k - 32 * g.kt)
def Group.ms (g : Group) (d : Desc) : List Nat := (List.range (g.rows d)).map (fun i => 256 * g.chunk + i)

/-- The spans of a pass's operands at positions that are not masked (R70): of A; of the weight tile; of the scales, and of
C_IN in the first k tile. -/
def Group.spansA (g : Group) (d : Desc) : List (Nat × Nat) :=
  (g.ms d).map (fun m => packedSpan (d.aAddr + m * d.aLd) (fmtBits d.aFmt) (32 * g.kt) (g.ks d))
def Group.spansW (g : Group) (d : Desc) (pair : Bool) : List (Nat × Nat) :=
  (List.range (g.ks d)).map (fun k => packedSpan (d.tileAt pair (g.passNo d pair)) (fmtBits d.wFmt) (k * d.nt pair) (g.cols d pair))
def Group.spansC (g : Group) (d : Desc) (pair : Bool) : List (Nat × Nat) :=
  (if d.scale then (g.ms d).map (fun m => (d.asAddr + m * d.kt + g.kt, 1)) ++ [(d.wsAddr + g.kt * d.n + d.nt pair * g.tile, g.cols d pair)] else [])
    ++ (if d.acc && decide (g.kt = 0) then (g.ms d).map (fun m => (d.ciAddr + m * d.cLd + d.nt pair * g.tile * d.outBytes, g.cols d pair * d.outBytes)) else [])

/-- The words of spans. -/
def spanWords (l : List (Nat × Nat)) : List Nat := l.foldl (fun r x => r ++ wordsOf x.1 x.2) []

/-- What one output element gets from a pass: its accumulator, flags, saturation and offences. -/
structure CellOut where
  acc : Nat
  flags : Flags
  sat : Bool
  offs : List Offence

/-- The accumulator of an element: a key per row and column of the tile. -/
def accKey (m c : Nat) : Nat := m * 16 + c

/-- Element (m, c) of a pass of group g, with A and the weight tile as the unit holds them: m counts rows of the descriptor,
c columns of the tile (R67, R68). -/
def cellPass (c : Core) (av wv : List Host.Cell) (d : Desc) (pair : Bool) (g : Group) (m col : Nat) : CellOut :=
  let nt := d.nt pair
  let ks := g.ks d
  let ob := d.outBytes
  let tile := Memory.readN wv (d.tileAt pair (g.passNo d pair)) (d.tb pair)
  let ab := fmtBits d.aFmt
  let row := Memory.readN av (d.aAddr + m * d.aLd + 4 * ab * g.kt) (ceilDiv (ks * ab) 8)
  let first := decide (g.kt = 0)
  let cin := leNat (c.spadBytes (d.ciAddr + m * d.cLd + (nt * g.tile + col) * ob) ob)
  let start : Nat × Flags :=
    if !first then (Sparse.get (fun _ => (0 : Word)) g.acc (accKey (m - 256 * g.chunk) col) |>.toNat, 0)
    else if !d.acc then (0, 0)
    else if d.outFmt = 3 then (cin, 0)
    else widenIn d.outFmt cin
  let el (k : Nat) : FVal × FVal := (opVal d.aFmt (packedAt row ab k), opVal d.wFmt (packedAt tile (fmtBits d.wFmt) (k * nt + col)))
  if d.cls = 16 then
    (List.range ks).foldl (fun (o : CellOut) k =>
      let x := el k
      let r := fusedStep o.acc x.1 x.2
      { acc := r.1, flags := o.flags ||| r.2.1, sat := false,
        offs := match r.2.2 with | some cause => o.offs ++ [⟨cause, k, false⟩] | none => o.offs })
      { acc := start.1, flags := start.2, sat := false, offs := [] }
  else
    let ps := (List.range ks).map (fun k => let x := el k; prodOf x.1 x.2)
    let sa := if d.scale then (Memory.read c.spad (d.asAddr + m * d.kt + g.kt)).toNat else 0x7F
    let sw := if d.scale then (Memory.read c.spad (d.wsAddr + g.kt * d.n + nt * g.tile + col)).toNat else 0x7F
    let b := blockSum ps sa sw (decide (d.aFmt = 5))
    if d.outFmt = 3 then
      let t : Int := sIntOf 32 start.1 + (match b.1 with | .fin n m e => (if n then -1 else 1) * (m * 2 ^ (e + 320).toNat / 2 ^ 320 : Nat) | _ => 0)
      let hi : Int := 2 ^ 31 - 1
      let lo : Int := -(2 ^ 31)
      { acc := ((max lo (min hi t)) % 2 ^ 32).toNat, flags := 0, sat := decide (hi < t) || decide (t < lo), offs := [] }
    else
      let r := accAdd start.1 b.1
      let ki := (firstIdx (fun p => decide (p.infSign ≠ none)) ps).getD 0
      { acc := r.1, flags := start.2 ||| r.2.1 ||| (if b.2.isEmpty then 0 else fInvalid), sat := false,
        offs := b.2 ++ (if r.2.2 then [⟨1, ki, true⟩] else []) }

/-- The cycle within its pass of an offence at row m of the pass, k and column of the tile: for the arrays by R64, the
physical column as its table gives it; the jib, for which the spec gives no cycles, takes a tile in one cc and adds it in the next (DESIGN CHOICE, assumption 73). -/
def offCycle (u : Nat) (d : Desc) (half m col : Nat) (o : Offence) : Nat :=
  if u = 2 then b2n o.foot
  else m + (if d.cls = 4 then col / 2 else if d.cls = 16 then 2 * col else col) + 4 * half + (if o.foot then 32 else o.k)

/-- The order of R85: cycle, then m, k, n, then half. -/
def FoPlace.before (a b : FoPlace) : Bool :=
  decide (a.cycle < b.cycle) || (decide (a.cycle = b.cycle) && (decide (a.m < b.m) || (decide (a.m = b.m) &&
    (decide (a.k < b.k) || (decide (a.k = b.k) && (decide (a.n < b.n) || (decide (a.n = b.n) && decide (a.half < b.half))))))))

/-- The earliest of a list. -/
def FoPlace.first : List FoPlace → Option FoPlace
  | [] => none
  | a :: r => match FoPlace.first r with
    | some b => if b.before a then some b else some a
    | none => some a

/-- The sums of one pass of a group that starts at a cycle: its accumulators, flags and offences. -/
def groupPass (c : Core) (u : Nat) (av wv : List Host.Cell) (d : Desc) (pair : Bool) (half start : Nat) (g : Group) : Group × List FoPlace :=
  let cols := g.cols d pair
  let go (x : Group × List FoPlace) (i : Nat) : Group × List FoPlace :=
    let m := 256 * g.chunk + i / cols
    let col := i % cols
    let o := cellPass c av wv d pair g m col
    ({ x.1 with
        acc := Sparse.put (fun _ => (0 : Word)) x.1.acc (accKey (m - 256 * g.chunk) col) (BitVec.ofNat 32 o.acc),
        flags := x.1.flags ||| o.flags, sat := x.1.sat || o.sat },
      x.2 ++ o.offs.map (fun f => ⟨start + offCycle u d half (i / cols) col f, m, 32 * g.kt + f.k, d.nt pair * g.tile + col, half, f.cause⟩))
  (List.range (g.rows d * cols)).foldl go (g, [])

/-- The group that takes the half's next pass. -/
def HalfRun.current (h : HalfRun) (d : Desc) : Option Group := h.groups.find? (fun g => !g.full d)

/-- The number of the half's next pass; none once all have run. -/
def HalfRun.nextPass (h : HalfRun) (d : Desc) (pair : Bool) : Option Nat :=
  match h.current d with
  | some g => some (g.passNo d pair)
  | none => match h.next with
    | some ct => if d.kt = 0 then none else some ((Group.start ct.1 ct.2).passNo d pair)
    | none => none

/-- Whether a group of the half waits for GROUP_RETRY. -/
def HalfRun.stuck (h : HalfRun) (d : Desc) : Bool := h.groups.any (fun g => g.full d && g.poisoned)

/-- The number of the lockstep pass that comes next (R72): the lower of the halves' next passes, so that a half waits while
the other runs a group again. -/
def MatRun.lockPass (r : MatRun) (j : MatJob) : Option Nat :=
  match r.h0.nextPass (j.desc 0) j.pair, r.h1.nextPass (j.desc 1) j.pair with
  | some a, some b => some (min a b)
  | some a, none => some a
  | none, b => b

/-- Half h of a run takes part in lockstep pass i: the group that it adds to. -/
def MatRun.part (r : MatRun) (j : MatJob) (half i : Nat) : Option Group :=
  let h := if half = 0 then r.h0 else r.h1
  if h.nextPass (j.desc half) j.pair = some i then h.current (j.desc half) else none

/-- Whether lockstep pass i can start: no group waits for its retry, and a half whose pass it is has a bank for it. -/
def MatRun.ready (r : MatRun) (j : MatJob) (i : Nat) : Bool :=
  !r.h0.stuck (j.desc 0) && !r.h1.stuck (j.desc 1)
    && (r.h0.nextPass (j.desc 0) j.pair != some i || (r.part j 0 i).isSome)
    && (r.h1.nextPass (j.desc 1) j.pair != some i || (r.part j 1 i).isSome)

/-- The passes whose tiles the weight registers hold after pass i starts: its own, active, and the next, shadow (R65). The
jib takes each tile as it needs it (R74). -/
def tilesWanted (u : Nat) (d : Desc) (pair : Bool) (i : Nat) : List Nat :=
  (if u = 2 then [i] else [i, i + 1]).filter (fun x => decide (x < d.passes pair))

/-- The tiles that a half loads for pass i. -/
def HalfRun.loads (h : HalfRun) (u : Nat) (d : Desc) (pair : Bool) (i : Nat) : List Nat :=
  (tilesWanted u d pair i).filter (fun x => !h.tiles.any (fun t => decide (t.1 = x)))

/-- The half with the weight registers of pass i, loaded from a core. -/
def HalfRun.loaded (h : HalfRun) (c : Core) (u : Nat) (d : Desc) (pair : Bool) (i : Nat) : HalfRun :=
  { h with tiles := (tilesWanted u d pair i).map (fun x =>
      (h.tiles.find? (fun t => decide (t.1 = x))).getD (x, c.snap (d.tileAt pair x) (d.tb pair))) }

/-- The tile of pass i in the weight registers. -/
def HalfRun.tileOf (h : HalfRun) (i : Nat) : Snap :=
  match h.tiles.find? (fun t => decide (t.1 = i)) with
  | some t => t.2
  | none => { mem := [], poison := [] }

/-- Whether a pass of a group meets poison (R70, R191), in A, in the weights, or in the scratchpad. -/
def Group.meetsPoison (g : Group) (c : Core) (av wv : Snap) (d : Desc) (pair : Bool) : Bool :=
  (g.spansA d).any (fun x => av.poisonedAt x.1 x.2) || (g.spansW d pair).any (fun x => wv.poisonedAt x.1 x.2)
    || (g.spansC d pair).any (fun x => c.poisonedAt x.1 x.2)

/-- A half's part of a pass, once its tile is loaded; a poisoned group computes nothing more. -/
def halfStep (c : Core) (u : Nat) (av : Snap) (d : Desc) (pair : Bool) (half start : Nat) (h : HalfRun) (g : Group) (poison : Bool) :
    HalfRun × List FoPlace :=
  let wv := h.tileOf (g.passNo d pair)
  let x : Group × List FoPlace :=
    if g.poisoned || poison || g.meetsPoison c av wv d pair then ({ g with poisoned := true }, [])
    else groupPass c u av.mem wv.mem d pair half start g
  (({ h with groups := h.groups.map (fun y => if y = g then { x.1 with kt := g.kt + 1 } else y) } : HalfRun).fill d pair, x.2)

/-- Captures the first offence (R85, R86): where none is held, or where the run itself has captured a later one of a pass
that overlaps. The offence that the run holds captured then, and whether this one was captured. -/
def State.capture (s : State) (n u : Nat) (j : MatJob) (fo : Option FoPlace) (l : List FoPlace) : State × Option FoPlace × Bool :=
  let pg := matPage n u
  match FoPlace.first l with
  | none => (s, fo, false)
  | some o =>
    if s.bit (pg + 0x54) 0 && !(match fo with | some x => o.before x | none => false) then (s, fo, false)
    else
      (((s.setReg (pg + 0x54) (BitVec.ofNat 32 (1 + o.half * 2 + o.cause * 4 + (j.desc o.half).passId * 65536))).setReg
        (pg + 0x58) (BitVec.ofNat 32 (o.k + o.n * 65536))).setReg (pg + 0x5C) (BitVec.ofNat 32 o.m), some o, true)

/-- A's region. -/
def Desc.aSpan (d : Desc) : Nat × Nat := (d.aAddr, (d.m - 1) * d.aLd + d.rowBytes)

/-- The A that the jib loads ahead, of the next queued descriptor: none if it holds one, or if that descriptor fails a check
or reads what the running one writes (R60, R63, R74). -/
def MatUnit.ahead (x : MatUnit) (u : Nat) : Option (Nat × Nat) :=
  match x.jobs, x.nextA with
  | j :: j2 :: _, none =>
    let d2 := j2.desc 0
    if u = 2 ∧ j2.check = none ∧ d2.hasA = true ∧ !(d2.inputs false).any (fun r => (j.desc 0).coRegion.any (fun w => r.meets w)) then some d2.aSpan
    else none
  | _, _ => none

/-- What the unit reads A from: the scratchpad, or the jib's activation buffer, which it fills before the first pass. -/
def MatRun.viewA (r : MatRun) (c : Core) (u : Nat) (d : Desc) : Snap :=
  if u = 2 then r.bufA.getD (c.snap d.aSpan.1 d.aSpan.2) else c.snapAll

/-- The words that lockstep pass i reads from the scratchpad: for each half that takes part A, scales, C_IN and the tiles it
loads; for the jib its activation buffers. -/
def MatRun.passReads (r : MatRun) (x : MatUnit) (u : Nat) (j : MatJob) (i : Nat) : List Nat :=
  let ofHalf (half : Nat) : List Nat :=
    let d := j.desc half
    match r.part j half i with
    | some g =>
      (if u = 2 then (if r.bufA.isNone then wordsOf d.aSpan.1 d.aSpan.2 else []) else spanWords (g.spansA d)) ++ spanWords (g.spansC d j.pair)
        ++ ((if half = 0 then r.h0 else r.h1).loads u d j.pair i).foldl (fun l t => l ++ wordsOf (d.tileAt j.pair t) (d.tb j.pair)) []
    | none => []
  (ofHalf 0 ++ ofHalf 1 ++ (match x.ahead u with | some a => wordsOf a.1 a.2 | none => [])).dedup

/-- One half's part of lockstep pass i. -/
def MatRun.halfPass (r : MatRun) (c : Core) (u : Nat) (j : MatJob) (half i start : Nat) (p : PathErr) : HalfRun × List FoPlace :=
  let h := if half = 0 then r.h0 else r.h1
  let d := j.desc half
  match r.part j half i with
  | some g => halfStep c u (r.viewA c u d) d j.pair half start (h.loaded c u d j.pair i) g (p.rowBus || p.weight.getLsbD half || p.accum.getLsbD half)
  | none => (h, [])

/-- The rows that lockstep pass i streams: the more of its halves' (R72). -/
def MatRun.passRows (r : MatRun) (j : MatJob) (i : Nat) : Nat :=
  let rows (half : Nat) : Nat := match r.part j half i with | some g => g.rows (j.desc half) | none => 0
  max (rows 0) (rows 1)

/-- A pass, in a pair of both halves in lockstep: bit errors found by its reads, datapath errors, sums, the capture. It starts
at least max(M_p, 8) cycles after the one before it; how many more is free (R65; assumption 67). -/
def State.pass (s : State) (n u : Nat) (p : PathErr) (e : Ecc) : State :=
  let c := s.core n
  match (c.unit u).jobs, (c.unit u).run with
  | j :: _, some r =>
    match r.lockPass j with
    | none => s
    | some i =>
      if !r.ready j i then s
      else if c.spadWaits then s.spadTouch n
      else
        let s1 := s.draw.2.eccFound n (r.passReads (c.unit u) u j i) e
        let c1 := s1.core n
        let start := if r.rows = 0 then 0 else r.start + max r.rows 8 + s.draw.1
        let x0 := r.halfPass c1 u j 0 i start p
        let x1 := r.halfPass c1 u j 1 i start p
        let s2 := if p.corrected = 0 then s1 else s1.incSat (matPage n u + 0x70) p.corrected
        let s3 := s2.capture n u j r.fo (x0.2 ++ x1.2)
        let r' : MatRun := { r with
          h0 := x0.1, h1 := x1.1, foTaken := r.foTaken || s3.2.2, start := start, rows := r.passRows j i, fo := s3.2.1,
          bufA := if u = 2 then some (r.viewA c1 u (j.desc 0)) else none }
        let buf := match (c.unit u).ahead u with | some a => some (c1.snap a.1 a.2) | none => (c.unit u).nextA
        (s3.1.modCore n (fun c => c.setUnit u { c.unit u with run := some r', nextA := buf })).incWrap (matPage n u + 0x68)
  | _, _ => s

/-- PASS_START. -/
def execPassStart (c : CoreId) (u : Fin 3) (p : PathErr) (e : Ecc) (s : State) : Host.Outcome State Fault Refusal :=
  done (s.onIsland fun s => s.pass (coreNo c) u.val p e)

/-! Drains (R66, R69, R113) -/

/-- narrow of R113: the bits of one output with its flags. -/
def narrowOut (d : Desc) (seed : Dword) (m n acc : Nat) : Nat × Flags :=
  if d.outFmt = 0 ∨ d.outFmt = 3 then (acc, 0)
  else
    let f := if d.outFmt = 1 then Fmt.bf16 else Fmt.fp16
    let b := if d.sr3 then 3 else 4
    let rm : Rm := if d.rnd = 0 then .rne else if d.rnd = 1 then .rto
      else .sr b (srBits (keyed seed (BitVec.ofNat 64 (m * d.n + n)) d.tensor d.draw) b)
    match Fmt.fp32.unpack acc with
    | .nan _ _ _ => (f.canon, 0)
    | v => f.ofVal rm false v

/-- The outputs of row m of a finished group, in column order, with their flags; with K = 0, C_IN or +0 (R69). -/
def rowOut (c : Core) (d : Desc) (pair : Bool) (seed : Dword) (g : Group) (m : Nat) : List (Nat × Flags) :=
  let nt := d.nt pair
  (List.range (g.cols d pair)).map (fun col =>
    if d.k = 0 then
      (if d.acc then leNat (c.spadBytes (d.ciAddr + m * d.cLd + (nt * g.tile + col) * d.outBytes) d.outBytes) else 0, 0)
    else narrowOut d seed m (nt * g.tile + col) (Sparse.get (fun _ => (0 : Word)) g.acc (accKey (m - 256 * g.chunk) col)).toNat)

/-- The spans of C_IN that the drain of a K = 0 group reads. -/
def Group.spansDrain (g : Group) (d : Desc) (pair : Bool) : List (Nat × Nat) :=
  if d.k = 0 ∧ d.acc = true then (g.ms d).map (fun m => (d.ciAddr + m * d.cLd + d.nt pair * g.tile * d.outBytes, g.cols d pair * d.outBytes)) else []

/-- The oldest group of a half, if it can drain: all its k tiles are added and it is not poisoned. -/
def HalfRun.drains (h : HalfRun) (d : Desc) : Option Group :=
  match h.groups with
  | g :: _ => if g.full d && !g.poisoned then some g else none
  | [] => none

/-- The half after its oldest group has drained: the group's flags are the half's (a clean retry discards those of the first
attempt, R115), and its bank is free. -/
def HalfRun.drained (h : HalfRun) (d : Desc) (pair : Bool) (g : Group) (fl : Flags) : HalfRun :=
  ({ h with groups := h.groups.drop 1, flags := h.flags ||| g.flags ||| fl, sat := h.sat || g.sat } : HalfRun).fill d pair

/-- The oldest group of a half is found poisoned. -/
def HalfRun.spoiled (h : HalfRun) : HalfRun :=
  match h.groups with
  | g :: r => { h with groups := { g with poisoned := true } :: r }
  | [] => h

/-- The tap beat of one row of a group (10 R337). -/
def Desc.beat (d : Desc) (pair : Bool) (tile u row : Nat) (l : List (Nat × Flags)) : TapBeat :=
  { fmt := BitVec.ofNat 2 d.outFmt, row := BitVec.ofNat 16 row, col := BitVec.ofNat 16 (d.nt pair * tile), cnt := l.length,
    pid := BitVec.ofNat 16 d.passId, unit := decide (u = 1),
    data := BitVec.ofNat 512 (packElems (8 * d.outBytes) (l.map (fun x => x.1))) }

/-- The rows of a finished group with their outputs. -/
def groupOut (c : Core) (d : Desc) (pair : Bool) (seed : Dword) (g : Group) : List (Nat × List (Nat × Flags)) :=
  (g.ms d).map (fun m => (m, rowOut c d pair seed g m))

/-- Writes a finished group's rows to C_OUT and counts the draws of its rounding (R66, R113). -/
def State.writeGroup (s : State) (n : Nat) (j : MatJob) (half : Nat) (g : Group) : State :=
  let d := j.desc half
  let rows := groupOut (s.core n) d j.pair j.seed g
  let at_ (m : Nat) : Nat := d.coAddr + m * d.cLd + d.nt j.pair * g.tile * d.outBytes
  let s1 := if d.epi = 2 then s
    else s.modCore n (fun c => rows.foldl (fun c r => c.spadWrite (at_ r.1) (r.2.foldl (fun l x => l ++ leBytes d.outBytes x.1) [])) c)
  let drawn := if d.k ≠ 0 ∧ d.rnd = 2 ∧ (d.outFmt = 1 ∨ d.outFmt = 2) then (rows.map (fun r => r.2.length)).sum else 0
  if drawn = 0 then s1 else s1.inc64 (rngPage n + 0x64) drawn

/-- Whether half 1's tap beats wait: half 0 uses the tap too and has not sent its end beat (R337: beats of two descriptors
never interleave; assumption 74). -/
def MatRun.holds (r : MatRun) (j : MatJob) (half : Nat) : Bool := decide (half = 1) && decide ((j.desc 0).epi ≠ 0) && !r.end0

/-- One half of a drain: a group that the drain finds poisoned writes nothing and waits for GROUP_RETRY; while the tap applies
back-pressure the drain waits (R78); else the group's rows are written and put on the tap. -/
def State.drainStep (s : State) (n u half : Nat) (j : MatJob) (r : MatRun) (poison : Bool) : State × MatRun :=
  let d := j.desc half
  let c := s.core n
  let h := if half = 0 then r.h0 else r.h1
  let put (h : HalfRun) : MatRun := if half = 0 then { r with h0 := h } else { r with h1 := h }
  match h.drains d with
  | none => (s, r)
  | some g =>
    if poison || (g.spansDrain d j.pair).any (fun x => c.poisonedAt x.1 x.2) then (s, put h.spoiled)
    else if d.epi ≠ 0 ∧ r.holds j half = false ∧ c.tapQ ≠ [] then (s, r)
    else
      let rows := groupOut c d j.pair j.seed g
      let beats := if d.epi = 0 then [] else rows.map (fun x => d.beat j.pair g.tile u x.1 x.2)
      let r1 := put (h.drained d j.pair g (rows.foldl (fun f x => x.2.foldl (fun f y => f ||| y.2) f) 0))
      let s1 := s.writeGroup n j half g
      if r.holds j half then (s1, { r1 with held := r1.held ++ beats })
      else (s1.modCore n (fun c => { c with tapQ := c.tapQ ++ beats }), r1)

/-- The words of C_IN that a drain reads. -/
def MatRun.drainReads (r : MatRun) (j : MatJob) : List Nat :=
  let ofHalf (half : Nat) (h : HalfRun) : List Nat :=
    match h.drains (j.desc half) with | some g => spanWords (g.spansDrain (j.desc half) j.pair) | none => []
  (ofHalf 0 r.h0 ++ ofHalf 1 r.h1).dedup

/-- A drain: bit errors found in C_IN, bus errors, corrected words, both halves. -/
def State.drain_ (s : State) (n u : Nat) (p : PathErr) (e : Ecc) : State :=
  let c := s.core n
  match (c.unit u).jobs, (c.unit u).run with
  | j :: _, some r =>
    if (r.h0.drains (j.desc 0)).isNone && (r.h1.drains (j.desc 1)).isNone then s
    else if c.spadWaits then s.spadTouch n
    else
      let s1 := s.eccFound n (r.drainReads j) e
      let x0 := s1.drainStep n u 0 j r (p.accum.getLsbD 0)
      let x1 := x0.1.drainStep n u 1 j x0.2 (p.accum.getLsbD 1)
      let s2 := if p.corrected = 0 then x1.1 else x1.1.incSat (matPage n u + 0x70) p.corrected
      s2.modCore n (fun c => c.setUnit u { c.unit u with run := some x1.2 })
  | _, _ => s

/-- GROUP_DRAIN. -/
def execGroupDrain (c : CoreId) (u : Fin 3) (p : PathErr) (e : Ecc) (s : State) : Host.Outcome State Fault Refusal :=
  done (s.onIsland fun s => s.drain_ (coreNo c) u.val p e)

/-! Retries (R89, R90) -/

/-- A poisoned group starts again from C_IN or +0; what its first attempt raised is kept apart until the retry has ended
(R115). -/
def Group.again (g : Group) : Group :=
  { g with kt := 0, acc := [], flags := 0, sat := false, lostFlags := g.flags, lostSat := g.sat, poisoned := false, retried := true }

/-- A half that ends POISONED: later groups do not run, and the flags of every step that was not discarded are the half's
(R89, R90, R115). -/
def HalfRun.poisonEnd (h : HalfRun) : HalfRun :=
  { h with
    groups := [], next := none, tiles := [], dead := true,
    flags := h.groups.foldl (fun f g => f ||| g.flags ||| g.lostFlags) h.flags,
    sat := h.sat || h.groups.any (fun g => g.sat || g.lostSat) }

/-- The first group with a final POISONED result is recorded (R89, R94). -/
def State.poisonGrp (s : State) (n u half : Nat) (g : Group) : State :=
  let k := matPage n u + 0x64
  if s.bit k 31 then s
  else s.setReg k (BitVec.ofNat 32 (g.chunk % 256 + g.tile % 16384 * 65536 + (if u = 2 then 0 else half) * 2 ^ 30 + 2 ^ 31))

/-- One half of GROUP_RETRY: the oldest poisoned group runs again once, which is counted, or ends its half. -/
def State.retryStep (s : State) (n u half : Nat) (j : MatJob) (h : HalfRun) : State × HalfRun × Bool :=
  match h.groups.find? (fun g => g.full (j.desc half) && g.poisoned) with
  | none => (s, h, false)
  | some g =>
    if s.bit (matPage n u + 0x40) 0 && !g.retried then
      ((s.raiseIrq (matPage n u) 0x10).incSat (matPage n u + 0x6C),
        { h with groups := h.groups.map (fun y => if y = g then g.again else y), tiles := [] }, true)
    else (s.poisonGrp n u half g, h.poisonEnd, false)

/-- A poisoned group is run again once, or ends its half. -/
def State.retry (s : State) (n u : Nat) : State :=
  let c := s.core n
  match (c.unit u).jobs, (c.unit u).run with
  | j :: _, some r =>
    let x0 := s.retryStep n u 0 j r.h0
    let x1 := x0.1.retryStep n u 1 j r.h1
    let r1 : MatRun := { r with h0 := x0.2.1, h1 := x1.2.1, retried := r.retried || x0.2.2 || x1.2.2 }
    x1.1.modCore n (fun c => c.setUnit u { c.unit u with run := some r1 })
  | _, _ => s

/-- GROUP_RETRY. -/
def execGroupRetry (c : CoreId) (u : Fin 3) (s : State) : Host.Outcome State Fault Refusal :=
  done (s.onIsland fun s => s.retry (coreNo c) u.val)

/-! The epilogue tap (R337) and completion (R81 to R88) -/

/-- The collar takes one tap beat. -/
def State.tapBeat (s : State) (n : Nat) : State :=
  match (s.core n).tapQ with
  | [] => s
  | b :: r =>
    if s.shrouded n then s
    else
      (((s.modCore n (fun c => { c with tapQ := r })).send (.collar n 2
        (b.fmt.toNat + b.row.toNat * 4 + b.col.toNat * 2 ^ 18 + b.cnt * 2 ^ 34 + b.pid.toNat * 2 ^ 39 + b2n b.unit * 2 ^ 55) b.data)).incWrap
        (corePage n 8 + 0x98))

/-- EPILOGUE_TAP_BEAT. -/
def execEpilogueTapBeat (c : CoreId) (s : State) : Host.Outcome State Fault Refusal :=
  done (s.onIsland fun s => s.tapBeat (coreNo c))

/-- Whether every group of a run has been written or discarded. -/
def MatRun.over_ (r : MatRun) : Bool := r.h0.ended && r.h1.ended

/-- Whether a half sends an end beat, and whether it has (R337: each half of a pair is a descriptor of its own). -/
def MatJob.taps (j : MatJob) (half : Nat) : Bool := (decide (half = 0) || j.pair) && decide ((j.desc half).epi ≠ 0)

/-- Whether every end beat has been sent. -/
def MatRun.endBeats (r : MatRun) (j : MatJob) : Bool := (!j.taps 0 || r.end0) && (!j.taps 1 || r.end1)

/-- The half whose end beat is due: it has ended and the collar has taken its beats; half 1 follows half 0. -/
def Core.endDue (c : Core) (u : Nat) : Option Nat :=
  match (c.unit u).jobs, (c.unit u).run with
  | j :: _, some r =>
    if !c.tapQ.isEmpty then none
    else if j.taps 0 && !r.end0 then (if r.h0.ended then some 0 else none)
    else if j.taps 1 && !r.end1 && r.h1.ended then some 1
    else none
  | _, _ => none

/-- An end beat has been taken: half 1's beats follow half 0's. -/
def Core.endTaken (c : Core) (u half : Nat) : Core :=
  match (c.unit u).run with
  | some r =>
    if half = 0 then { c.setUnit u { c.unit u with run := some { r with end0 := true, held := [] } } with tapQ := c.tapQ ++ r.held }
    else c.setUnit u { c.unit u with run := some { r with end1 := true } }
  | none => c

/-- The collar takes the end beat of a half, with its PASS_ID and its RESULT. -/
def State.endBeatOf (s : State) (n : Nat) : State :=
  let c := s.core n
  let u := if (c.endDue 0).isSome then 0 else 1
  match c.endDue u, (c.unit u).jobs, (c.unit u).run with
  | some half, j :: _, some r =>
    if s.shrouded n then s
    else
      ((s.modCore n (fun c => c.endTaken u half)).send (.collar n 3 ((j.desc half).passId + u * 2 ^ 16)
        (BitVec.ofNat 512 (b2n (if half = 0 then r.h0.dead else r.h1.dead))))).incWrap (corePage n 8 + 0x98)
  | _, _, _ => s

/-- EPILOGUE_END_BEAT. -/
def execEpilogueEndBeat (c : CoreId) (s : State) : Host.Outcome State Fault Refusal :=
  done (s.onIsland fun s => s.endBeatOf (coreNo c))

/-- The conditions of a finished run, highest-ranked first (R84). -/
def MatRun.codes (r : MatRun) : List (BitVec 16) :=
  let inv := (r.h0.flags ||| r.h1.flags).getLsbD 0
  let ovf := (r.h0.flags ||| r.h1.flags).getLsbD 2 || r.h0.sat || r.h1.sat
  (if r.h0.dead || r.h1.dead then [Code.numPoisoned] else []) ++ (if inv then [Code.numInvalid] else [])
    ++ (if ovf then [Code.numOverflow] else [])

/-- The interrupt bits of a completion (R92). -/
def codeIrq (c : BitVec 16) : Word := if c = Code.numInvalid then 2 else if c = Code.numOverflow then 4 else 8

/-- A finished descriptor completes: the record, the LAST registers, BLK_ERR, the interrupt bits, the tenant's events (of a
pair with half 0's PASS_ID, assumption 75), a SELF report of each final POISONED result (R88), the completion counter. -/
def State.complete (s : State) (n u : Nat) : State :=
  let c := s.core n
  match (c.unit u).jobs, (c.unit u).run with
  | j :: _, some r =>
    if !r.over_ || !r.endBeats j then s
    else if c.spadWaits then s.spadTouch n
    else
      let pg := matPage n u
      let d := j.desc 0
      let codes := r.codes
      let rec_ := statusRecord (b2n r.h0.dead) (if j.pair then b2n r.h1.dead else 0) (r.h0.flags, r.h0.sat) (r.h1.flags, r.h1.sat) u
        r.retried r.foTaken d.passId (codes.headD 0)
      let s1 := s.putRecord n (some u) d.stat rec_
      let s2 := if codes.isEmpty then s1 else (s1.enterCodes pg codes).raiseIrq pg (codes.foldl (fun m c => m ||| codeIrq c) 0)
      let s3 := codes.foldl (fun s c => s.coreEvent n c (unitBlk u) (BitVec.ofNat 32 d.passId)) s2
      let s4 := if r.h0.dead then s3.selfReport n (1 + u) Code.numPoisoned else s3
      let s5 := if r.h1.dead then s4.selfReport n (1 + u) Code.numPoisoned else s4
      s5.dequeue n u j
  | _, _ => s

/-- DESCRIPTOR_COMPLETE. -/
def execDescriptorComplete (c : CoreId) (u : Fin 3) (s : State) : Host.Outcome State Fault Refusal :=
  done (s.onIsland fun s => s.complete (coreNo c) u.val)

end Sys2Proof.Machine
end

