-- ==== Sys2Proof/Machine/Transfer.lean ====
section
/-! DEFINITION. ISSUE (04 R144, R145), transfers (06 R200 to R213) and the requesting side of a network interface: the
partition check (07 R261), source routes (R237, R238), packets (R228, R229), answers and timeouts (R259). -/
namespace Sys2Proof.Machine

/-! Data-space addresses (06 R184) -/

def spaceOf (a : Nat) : Nat := bits a 56 8
def selfOf (a : Nat) : Bool := decide (bits a 55 1 = 1)
def colOf (a : Nat) : Nat := bits a 32 9
def rowOf (a : Nat) : Nat := bits a 48 7
def edgeOf (a : Nat) : Nat := bits a 24 2

/-- The OFFSET field. -/
def offOf (a : Nat) : Nat :=
  match spaceOf a with
  | 0 => bits a 0 20
  | 1 => bits a 0 41
  | _ => bits a 0 24

/-- The end of a space. -/
def spaceEnd (sp : Nat) : Nat := match sp with | 0 => 2 ^ 20 | 1 => 2 ^ 41 | _ => 0xC00000

/-- Whether an address of a transfer lies in no space of transfers, breaks a zero field, or has SELF with X or Y. -/
def addrBad (a : Nat) : Bool :=
  match spaceOf a with
  | 0 => decide (bits a 20 12 ≠ 0) || decide (bits a 41 7 ≠ 0) || (selfOf a && (decide (colOf a ≠ 0) || decide (rowOf a ≠ 0)))
  | 1 => decide (bits a 41 15 ≠ 0)
  | 2 => decide (bits a 26 30 ≠ 0)
  | _ => true

/-- One end of a part: its space; in space 0x00 the logical columns x to x + w and row y, in space 0x02 the edge die as
y; its offset. -/
structure XEnd where
  sp : Nat
  x : Nat
  w : Nat
  y : Nat
  off : Nat
deriving DecidableEq, Repr

/-- The end that an address names, off bytes on. SELF is resolved to the position `me`. -/
def XEnd.of (me : Nat × Nat) (a off w : Nat) : XEnd :=
  match spaceOf a with
  | 0 => if selfOf a then ⟨0, me.1, w, me.2, offOf a + off⟩ else ⟨0, colOf a, w, rowOf a, offOf a + off⟩
  | 1 => ⟨1, 0, 0, 0, offOf a + off⟩
  | sp => ⟨sp, 0, 0, edgeOf a, offOf a + off⟩

/-- The address of a column of an end, `d` bytes on. -/
def XEnd.addr (e : XEnd) (i d : Nat) : Nat :=
  match e.sp with
  | 0 => (e.x + i) * 2 ^ 32 + e.y * 2 ^ 48 + (e.off + d)
  | 1 => 2 ^ 56 + (e.off + d)
  | _ => 2 * 2 ^ 56 + e.y * 2 ^ 24 + (e.off + d)

/-- Whether n bytes of one end and m bytes of another share a byte (R205). -/
def XEnd.meets (a : XEnd) (n : Nat) (b : XEnd) (m : Nat) : Bool :=
  decide (0 < n) && decide (0 < m) && decide (a.sp = b.sp) && decide (a.y = b.y) && decide (a.x ≤ b.x + b.w) && decide (b.x ≤ a.x + a.w)
    && decide (a.off < b.off + m) && decide (b.off < a.off + n)

/-- The position that a core's own addresses resolve to; a core that serves none resolves to no position of the grid. -/
def State.meAt (s : State) (n : Nat) : Nat × Nat := (s.logOf n).getD (511, 127)

/-! Descriptors (R201, R202) -/

def XferJob.typ (j : XferJob) : Nat := bits (wordAt j.words 0) 0 4
def XferJob.nparts (j : XferJob) : Nat := bits (wordAt j.words 0) 4 6 + 1
def XferJob.order (j : XferJob) : Bool := decide (bits (wordAt j.words 0) 10 1 = 1)
def XferJob.stream (j : XferJob) : Nat := bits (wordAt j.words 0) 24 8
def XferJob.xid (j : XferJob) : Nat := bits (wordAt j.words 0) 32 16
def XferJob.src (j : XferJob) : Nat := wordAt j.words 1
def XferJob.dst (j : XferJob) : Nat := wordAt j.words 2
def XferJob.bytes (j : XferJob) : Nat := bits (wordAt j.words 3) 0 21
def XferJob.xw (j : XferJob) : Nat := bits (wordAt j.words 5) 0 9
def XferJob.list (j : XferJob) : Nat := bits (wordAt j.words 5) 0 20
def XferJob.stat (j : XferJob) : Nat := bits (wordAt j.words 6) 0 20
def XferJob.mask (j : XferJob) : Nat := wordAt j.words 7

/-- Whether the transfer has a list. -/
def XferJob.listed (j : XferJob) : Bool := decide (j.typ = 2) || decide (j.typ = 3)

/-- The parts that PART_MASK selects. -/
def XferJob.selected (j : XferJob) : List Nat :=
  (List.range j.nparts).filter (fun i => decide (j.mask = 0) || decide (bits j.mask i 1 = 1))

/-- The entries of the list, read from the issuing core's scratchpad. -/
def XferJob.entries (j : XferJob) (c : Core) : List Nat :=
  if j.listed && decide (j.list + 8 * j.nparts ≤ 2 ^ 20) then
    (dwordsOf j.nparts (c.spadBytes j.list (8 * j.nparts))).map (fun w => w.toNat)
  else []

/-- Source and destination of part i (R202). -/
def XferJob.ends (j : XferJob) (me : Nat × Nat) (es : List Nat) (i : Nat) : XEnd × XEnd :=
  let b := j.bytes
  match j.typ with
  | 0 => (XEnd.of me j.src (i * bits (wordAt j.words 4) 0 32) 0, XEnd.of me j.dst (i * bits (wordAt j.words 4) 32 32) 0)
  | 1 => (XEnd.of me j.src 0 0, { (XEnd.of me j.dst 0 j.xw) with y := rowOf j.dst + i })
  | 2 => (XEnd.of me j.src (i * b) 0, XEnd.of me (es.getD i 0) 0 0)
  | _ => (XEnd.of me (es.getD i 0) 0 0, XEnd.of me j.dst (i * b) 0)

/-- The addresses that a transfer uses: SRC, DST and the selected list entries. -/
def XferJob.addrs (j : XferJob) (es : List Nat) : List Nat :=
  (if j.typ = 3 then [] else [j.src]) ++ (if j.typ = 2 then [] else [j.dst])
    ++ (if es.isEmpty then [] else j.selected.map (fun i => es.getD i 0))

/-! Checks (R204, R205) -/

/-- Reserved fields and PART_MASK bits beyond the parts. -/
def XferJob.reservedBad (j : XferJob) : Bool :=
  let w (i : Nat) := wordAt j.words i
  decide (bits (w 0) 11 13 ≠ 0) || decide (bits (w 0) 48 16 ≠ 0) || decide (bits (w 3) 21 43 ≠ 0)
    || (decide (j.typ ≠ 0) && decide (w 4 ≠ 0))
    || decide ((if j.typ = 1 then bits (w 5) 9 55 else if j.listed then bits (w 5) 20 44 else w 5) ≠ 0)
    || decide (bits (w 6) 20 44 ≠ 0) || decide (2 ^ j.nparts ≤ j.mask)

/-- Whether n bytes at an end pass the end of their space, or its columns and row leave the grid. -/
def XEnd.beyond (e : XEnd) (n : Nat) : Bool :=
  decide (spaceEnd e.sp < e.off + n) || (decide (e.sp = 0) && (decide (383 < e.x + e.w) || decide (127 < e.y)))

/-- A forbidden overlap among the selected parts: a destination with a source, another destination, the list or the status
record. -/
def XferJob.overlaps (j : XferJob) (me : Nat × Nat) (es : List Nat) : Bool :=
  let ps := j.selected.map (fun i => (i, j.ends me es i))
  let b := j.bytes
  let own (off : Nat) : XEnd := ⟨0, me.1, 0, me.2, off⟩
  ps.any (fun p =>
    ps.any (fun q => p.2.2.meets b q.2.1 b || (decide (p.1 < q.1) && p.2.2.meets b q.2.2 b))
      || (j.listed && p.2.2.meets b (own j.list) (8 * j.nparts)) || p.2.2.meets b (own j.stat) 16)

/-- The first check that fails: its REASON, and whether STAT_ADDR is the faulty field. -/
def XferJob.check (j : XferJob) (me : Nat × Nat) (es : List Nat) : Option (Nat × Bool) :=
  let b := j.bytes
  let grid := decide (j.typ = 1) && (decide (383 < colOf j.dst + j.xw) || decide (127 < rowOf j.dst + (j.nparts - 1)))
  let own (a : Nat) : Bool := decide (spaceOf a = 0) && selfOf a
  -- a SELF address names the issuing core wherever that is; only its offset is checked
  let out (a : Nat) (e : XEnd) : Bool := if own a then decide (2 ^ 20 < e.off + b) else e.beyond b
  let sides (i : Nat) : Nat × Nat := ((if j.typ = 3 then es.getD i 0 else j.src), if j.typ = 2 then es.getD i 0 else j.dst)
  if j.reservedBad then some (1, false)
  else if 4 ≤ j.typ then some (2, false)
  else if (j.addrs es).any addrBad || (decide (j.typ = 1) && (decide (spaceOf j.dst ≠ 0) || selfOf j.dst)) then some (3, false)
  else if grid || (j.listed && decide (2 ^ 20 < j.list + 8 * j.nparts))
      || j.selected.any (fun i => out (sides i).1 (j.ends me es i).1 || out (sides i).2 (j.ends me es i).2) then some (4, false)
  else if 2 ^ 20 < j.stat + 16 then some (4, true)
  else if (j.addrs es).any (fun a => decide (offOf a % 8 ≠ 0)) || decide (b % 8 ≠ 0)
      || (decide (j.typ = 0) && (decide (bits (wordAt j.words 4) 0 32 % 8 ≠ 0) || decide (bits (wordAt j.words 4) 32 32 % 8 ≠ 0)))
      || (j.listed && decide (j.list % 8 ≠ 0)) then some (5, false)
  else if j.stat % 16 ≠ 0 then some (5, true)
  else if j.overlaps me es then some (6, false)
  else none

/-! The partition check at the sender (07 R261) -/

/-- Whether a logical position lies in one of the VALID NI_PART rectangles. -/
def State.inPart (s : State) (n x y : Nat) : Bool :=
  (List.range 8).any (fun i =>
    let kx := niPage n + 0x80 + 8 * i
    let ky := niPage n + 0x84 + 8 * i
    s.bit kx 31 && decide (s.fld kx 0 9 ≤ x) && decide (x ≤ s.fld kx 16 9) && decide (s.fld ky 0 7 ≤ y) && decide (y ≤ s.fld ky 8 7))

/-- Whether n bytes at a fabric-RAM offset lie in one of the VALID NI_FRAM ranges. -/
def State.inFram (s : State) (n edge off len : Nat) : Bool :=
  (List.range 4).any (fun i =>
    let kl := niPage n + 0xD0 + 8 * i
    s.bit kl 31 && decide (s.fld kl 24 2 = edge) && decide (s.fld kl 0 24 ≤ off)
      && decide (off + len ≤ s.fld (niPage n + 0xD4 + 8 * i) 0 24 + 1))

/-- NI_LPDDR_SIZE. -/
def State.niSize (s : State) (n : Nat) : Nat := s.fld (niPage n + 0xC0) 0 32 + s.fld (niPage n + 0xC4) 0 9 * 2 ^ 32

/-- Whether the interface of core n sends an access of len bytes: TENANT 0xFF is not checked, TENANT 0 sends nothing
(R260). -/
def State.admits (s : State) (n : Nat) (e : XEnd) (len : Nat) : Bool :=
  let t := s.niTenant n
  if t = 0 then false
  else if t = 0xFF then true
  else match e.sp with
    | 0 => (List.range (e.w + 1)).all (fun i => s.inPart n (e.x + i) e.y)
    | 1 => decide (e.off + len ≤ s.niSize n)
    | _ => s.inFram n e.y e.off len

/-! Route lookup (07 R237, R238) -/

/-- Word w of source-route entry e of bank b. -/
def State.srt (s : State) (n b e w : Nat) : Nat := (s.reg (niPage n + 0x800 + 0x400 * b + 16 * e + 4 * w)).toNat

/-- The ROUTE of the lowest VALID entry of bank b that matches a destination; none where no entry matches. -/
def State.routeIn (s : State) (n b : Nat) (toEdge : Bool) (x y : Nat) : Option Nat :=
  ((List.range 64).find? (fun e =>
    let w0 := s.srt n b e 0
    let w1 := s.srt n b e 1
    decide (bits w1 16 1 = 1) && decide (bits w1 17 1 = b2n toEdge)
      && decide (bits w0 0 9 ≤ bits w0 16 9)
      && (if toEdge then decide (bits w0 0 2 = x % 4) else decide (bits w0 0 9 ≤ x) && decide (x ≤ bits w0 16 9))
      && decide (bits w1 0 7 ≤ y) && decide (y ≤ bits w1 8 7))).map
    (fun e => s.srt n b e 2 + bits (s.srt n b e 3) 0 16 * 2 ^ 32)

/-- The ROUTE that an interface looks up before it injects, in the bank of the epoch it is stamping. -/
def State.routeFor (s : State) (n : Nat) (toEdge : Bool) (x y : Nat) : Option Nat :=
  s.routeIn n (b2n (s.stampBit n)) toEdge x y

/-- Whether a ROUTE reaches nothing: every MODE is 0. -/
def routeDead (r : Nat) : Bool := (List.range 4).all (fun i => decide (bits r (12 * i) 2 = 0))

/-! Packets (07 R228, R229) -/

/-- The fields of a header that its sender chooses. -/
structure Pkt where
  kind : Nat
  gs : Bool
  dx : Nat
  dy : Nat
  len : Nat
  stream : Nat
  tag : Nat
  line : Nat
  firstWe : Nat
  lastWe : Nat
  status : Nat
deriving DecidableEq, Repr

/-- A header: the sender adds its epoch bit, its position, its TENANT and its route. -/
def State.header (s : State) (n : Nat) (p : Pkt) (route : Option Nat) : BitVec 168 :=
  let me := s.meAt n
  BitVec.ofNat 168 (p.kind + b2n (s.stampBit n) * 2 ^ 2 + b2n p.gs * 2 ^ 3 + b2n route.isSome * 2 ^ 4 + p.dx % 512 * 2 ^ 6
    + p.dy % 128 * 2 ^ 15 + me.1 * 2 ^ 22 + me.2 * 2 ^ 31 + (s.niTenant n).toNat * 2 ^ 38 + p.len * 2 ^ 46
    + p.stream * 2 ^ 49 + p.tag * 2 ^ 57 + p.line * 2 ^ 69 + p.firstWe * 2 ^ 83 + p.lastWe * 2 ^ 91 + p.status * 2 ^ 99
    + route.getD 0 * 2 ^ 119)

/-- Injects a packet: its flits are counted under the bit stamped (R247) and wait at the interface for the core's router. -/
def State.inject (s : State) (n : Nat) (p : Pkt) (data : List Byte) (route : Option Nat) : State :=
  let h := s.header n p route
  let s1 := (s.send (.packet n h data)).incWrap (niPage n + 0x5C + 4 * b2n (s.stampBit n)) (flitsOf h)
  (s1.setHeld (.core n 4) (s1.heldAt (.core n 4) ++ packetFlits h data)).moveAll n

/-- The words of a 64 B line that bytes [lo, hi) of it cover, as a mask. -/
def weMask (lo hi : Nat) : Nat := (List.range 8).foldl (fun m i => if lo ≤ 8 * i ∧ 8 * i + 8 ≤ hi then m + 2 ^ i else m) 0

/-- The WRITE or READ packet of a waiting request to a scratchpad. -/
def Outst.pkt (o : Outst) : Pkt :=
  let a := o.addr.toNat
  let off := offOf a
  let lines := (off % 64 + o.len + 63) / 64
  { kind := if o.isRead then 1 else 0, gs := decide (o.stream ≠ 0) && !o.isRead, dx := colOf a, dy := rowOf a, len := lines,
    stream := if o.isRead then 0 else o.stream.toNat, tag := o.tag.toNat, line := off / 64,
    firstWe := if o.isRead then 0 else weMask (off % 64) (off % 64 + o.len),
    lastWe := if o.isRead then 0 else weMask (if lines = 1 then off % 64 else 0) (off % 64 + o.len - (lines - 1) * 64), status := 0 }

/-- The payload of a WRITE: whole 64 B flits, bytes outside the write as 0. -/
def Outst.payload (o : Outst) : List Byte :=
  let off := offOf o.addr.toNat
  let lines := (off % 64 + o.len + 63) / 64
  bytesAt (List.replicate (off % 64) (0 : Byte) ++ o.data) 0 (64 * lines)

/-- The memory-plane request of a waiting request to LPDDR or fabric RAM: ADDR is that of its first byte, and the data are
its bytes (07 R254, R255). -/
def State.planeReq (s : State) (n : Nat) (op : BitVec 5) (tag : BitVec 12) (a : Dword) (size : Nat) : PReq :=
  { op := op, srcDie := BitVec.ofNat 5 (n / 2112), srcUnit := BitVec.ofNat 16 (n % 2112), tenant := s.niTenant n, tag := tag,
    dstDie := BitVec.ofNat 5 (if spaceOf a.toNat = 1 then 24 + chanOf (offOf a.toNat) / 24
      else if spaceOf a.toNat = 2 then 24 + edgeOf a.toNat else bits a.toNat 32 8),
    size := BitVec.ofNat 4 size, addr := a, be := 0xFF }

/-! Parts (R207, R208) -/

/-- The rank of a failure code: R208 gives the first that applies. -/
def codeRank (c : BitVec 16) : Nat :=
  if c = Code.netPartition then 0 else if c = Code.netRouteNone then 1 else if c = Code.netLinkTimeout then 2
  else if c = Code.memUncorrectable then 3 else if c = Code.reefExhausted then 4 else 5

/-- The code of a part that meets two. -/
def codeWorst (a b : BitVec 16) : BitVec 16 :=
  if a = 0 then b else if b = 0 then a else if codeRank b < codeRank a then b else a

/-- A packet or request of a part has ended. -/
def Part.ends (p : Part) (code : BitVec 16) : Part := { p with left := p.left - 1, code := codeWorst p.code code }

/-- A packet or request of part `part` of job `id` has ended with a code, 0 for success. -/
def Core.partEnds (c : Core) (id part : Nat) (code : BitVec 16) : Core :=
  { c with jobs := c.jobs.map (fun j =>
      if j.id = id then { j with parts := j.parts.map (fun p => if p.idx = part then p.ends code else p) } else j) }

/-- The transaction tag that comes next: the first from nextTag on that no packet waits under. Transfers use the tags
below 0x800. -/
def Core.freeTag (c : Core) : Nat :=
  (((List.range 2048).map (fun i => (c.nextTag + i) % 2048)).find?
    (fun t => c.outst.all (fun o => decide (o.tag ≠ BitVec.ofNat 12 t)))).getD 0

/-- Whether a packet of core n has no route or would be malformed (R230, R237): it is not injected. -/
def State.unroutable (s : State) (n : Nat) (p : Pkt) (r : Option Nat) : Bool :=
  (match r with | some x => routeDead x | none => false) || malformed (s.header n p r)

/-- Sends one waiting request, under a tag; one whose destination no route reaches fails its part and is not sent
(R237). -/
def State.sendOut (s : State) (n : Nat) (o : Outst) : State :=
  let c := s.core n
  let o1 : Outst := { o with tag := BitVec.ofNat 12 c.freeTag, stamp := s.stampBit n }
  let kept (s : State) : State :=
    s.modCore n (fun c => { c with nextTag := (o1.tag.toNat + 1) % 2048, outst := c.outst ++ [o1] })
  if spaceOf o.addr.toNat = 0 then
    let r := s.routeFor n false (colOf o.addr.toNat) (rowOf o.addr.toNat)
    if s.unroutable n o1.pkt r then s.modCore n (fun c => c.partEnds o.job o.part Code.netRouteNone)
    else (kept s).inject n o1.pkt (if o.isRead then [] else o1.payload) r
  else (kept s).send (.plane (if o.isRead then 5 else 6) (s.planeReq n (if o.isRead then 5 else 6) o1.tag o1.addr 2) o1.data false)

/-- Sends waiting requests while tags are free; an interface with TENANT 0 sends nothing (R260). -/
def State.pump : Nat → State → Nat → State
  | 0, s, _ => s
  | f + 1, s, n =>
    match (s.core n).unsent with
    | [] => s
    | o :: r =>
      if (s.core n).outst.length < 2048 ∧ s.niTenant n ≠ 0 then
        State.pump f ((s.modCore n (fun c => { c with unsent := r })).sendOut n o) n
      else s

/-- Cuts len bytes at both ends into pieces that cross no boundary of sq at the source and of dq at the destination:
(source offset, destination offset, bytes). -/
def cuts : Nat → Nat → Nat → Nat → Nat → Nat → List (Nat × Nat × Nat)
  | 0, _, _, _, _, _ => []
  | f + 1, so, d, len, sq, dq =>
    if len = 0 then []
    else
      let k := min len (min (sq - so % sq) (dq - d % dq))
      (so, d, k) :: cuts f (so + k) (d + k) (len - k) sq dq

/-- The requests of a part: for every destination core the pieces of R229; a source in the own scratchpad is read now, any
other is requested. -/
def partReqs (j : XferJob) (c : Core) (own : Bool) (i : Nat) (src dst : XEnd) (gs : Nat) : List Outst :=
  let ps := cuts (j.bytes / 8 + 1) src.off dst.off j.bytes (if src.sp = 0 then 256 else 64) (if dst.sp = 0 then 256 else 64)
  ((List.range (dst.w + 1)).map (fun k => ps.map (fun p =>
    let da := BitVec.ofNat 64 (dst.addr k (p.2.1 - dst.off))
    ({ tag := 0, job := j.id, part := i, isRead := !own,
       addr := if own then da else BitVec.ofNat 64 (src.addr 0 (p.1 - src.off)), len := p.2.2, dst := da,
       stream := BitVec.ofNat 8 gs, stamp := false,
       data := if own then c.spadBytes p.1 p.2.2 else [] } : Outst)))).flatten

/-- Starts part i: refused by the partition check it sends nothing; with poison among its own source bytes it fails, and
which of its clean pieces are still sent is free (R207, R208). The check covers the cores that packets name: the own core is
named where it is written from its own scratchpad alone (R261). Of a poisoned list entry no address is known. -/
def State.startPart (s : State) (n : Nat) (j : XferJob) (es : List Nat) (gs i : Nat) : State :=
  let me := s.meAt n
  let c := s.core n
  let (src, dst) := j.ends me es i
  let own := decide (src.sp = 0) && decide ((src.x, src.y) = me)
  let home := decide (dst.sp = 0) && decide ((dst.x, dst.y) = me) && decide (dst.w = 0)
  let badEntry := j.listed && c.poisonedAt (j.list + 8 * i) 8
  let okSrc := own || (badEntry && decide (j.typ = 3)) || s.admits n src j.bytes
  let okDst := (home && !own) || (badEntry && decide (j.typ = 2)) || s.admits n dst j.bytes
  let code : BitVec 16 :=
    if j.bytes = 0 then 0
    else if !(okSrc && okDst) then Code.netPartition
    else if badEntry || (own && c.poisonedAt src.off j.bytes) then Code.memUncorrectable
    else 0
  let reqs := if j.bytes = 0 ∨ badEntry = true ∨ code = Code.netPartition then [] else partReqs j c own i src dst gs
  let clean := if code = 0 then reqs
    else reqs.filter (fun o => !c.poisonedAt (src.off + (offOf o.dst.toNat - dst.off)) o.len)
  let kept := if code = 0 then clean else (clean.zipIdx).filterMap (fun p => if Config.free (s.freeCtr + p.2) % 2 = 1 then some p.1 else none)
  let drawn := if code = 0 then 0 else clean.length
  { s.modCore n (fun c => { c with
      jobs := c.jobs.map (fun x => if x.id = j.id then { x with parts := x.parts ++ [{ idx := i, left := kept.length, code := code }] } else x),
      unsent := c.unsent ++ kept }) with freeCtr := s.freeCtr + drawn }

/-! Completion (R210, R211) -/

/-- The 16 bytes of a status record. -/
def xferRecord (j : XferJob) (result first : Nat) (err : BitVec 16) (reason failMask : Nat) : List Byte :=
  leBytes 8 (result + first * 2 ^ 2 + j.nparts * 2 ^ 8 + err.toNat * 2 ^ 16 + j.xid * 2 ^ 32 + reason * 2 ^ 48) ++ leBytes 8 failMask

/-- A transfer leaves its queue and its counter loses 1. -/
def State.xferLeaves (s : State) (n : Nat) (j : XferJob) : State :=
  s.modCore n (fun c => { (c.countDown j.ctr.val j.counted) with jobs := c.jobs.filter (fun x => decide (x.id ≠ j.id)) })

/-- A transfer ends DESC_FAULT. -/
def State.xferFault (s : State) (n : Nat) (j : XferJob) (reason : Nat) (statBad : Bool) : State :=
  let rec_ := xferRecord j 3 0 Code.xferDescriptor reason 0
  let s1 := if statBad || decide (j.stat % 16 ≠ 0) || decide (2 ^ 20 < j.stat + 16) then s else s.spadWrite n j.stat rec_
  (s1.enterCode (niPage n) Code.xferDescriptor).xferLeaves n j

/-- A transfer whose every part has ended. -/
def State.xferDone (s : State) (n : Nat) (j : XferJob) : State :=
  let bad := j.parts.filter (fun p => decide (p.code ≠ 0))
  let first := bad.head?
  let code := (first.map (·.code)).getD 0
  let failMask := bad.foldl (fun m p => m + 2 ^ p.idx) 0
  let result := if bad.isEmpty then 0 else if bad.length = j.parts.length then 2 else 1
  let s1 := s.spadWrite n j.stat (xferRecord j result ((first.map (·.idx)).getD 0) code 0 failMask)
  let s2 := if result = 0 then s1
    else
      let err := if result = 1 then Code.xferPartial else code
      ((s1.enterCode (niPage n) err).raiseIrq (niPage n) (if result = 1 then 1 else 2)).coreEvent n err .ni (BitVec.ofNat 32 j.xid)
  s2.xferLeaves n j

/-! TRANSFER_START -/

/-- The next transfer that may start: in queue order, four at most, ORDER after every earlier one (R200). -/
def Core.nextXfer (c : Core) : Option XferJob :=
  if 4 ≤ (c.jobs.filter (fun j => j.started)).length then none
  else match c.jobs.find? (fun j => !j.started) with
    | none => none
    | some j => if j.order && !((c.jobs.takeWhile (fun x => decide (x.id ≠ j.id))).isEmpty) then none else some j

/-- The words of the own scratchpad that a transfer reads at its start: its list and its own sources. -/
def State.xferWords (s : State) (n : Nat) (j : XferJob) (w : Nat) : Bool :=
  let c := s.core n
  let me := s.meAt n
  let es := j.entries c
  (!es.isEmpty && decide (j.list / 8 ≤ w) && decide (w < j.list / 8 + j.nparts))
    || ((j.check me es).isNone && j.selected.any (fun i =>
      let e := (j.ends me es i).1
      decide (e.sp = 0) && decide ((e.x, e.y) = me) && decide (j.bytes ≠ 0) && decide (e.off / 8 ≤ w) && decide (w < (e.off + j.bytes) / 8)))

/-- Starts a transfer: its checks, then every selected part. -/
def State.xferStart (s : State) (n : Nat) (j : XferJob) (e : Ecc) : State :=
  let s0 := s.eccFound n (((e.corr ++ e.unc).eraseDups).filter (fun w => s.xferWords n j w)) e
  let me := s0.meAt n
  let es := j.entries (s0.core n)
  match j.check me es with
  | some (reason, statBad) => s0.xferFault n j reason statBad
  | none =>
    let live := decide (j.stream ≠ 0) && s0.hasSlot n j.stream
    let s1 := if j.stream = 0 ∨ live = true then s0 else (s0.incSat (niPage n + 0x78)).raiseIrq (niPage n) 8
    let s2 := s1.modCore n (fun c => { c with jobs := c.jobs.map (fun x => if x.id = j.id then { x with started := true } else x) })
    let s3 := j.selected.foldl (fun s i => s.startPart n j es (if live then j.stream else 0) i) s2
    s3.pump ((s3.core n).unsent.length + 1) n

/-- TRANSFER_START: while the scratchpad is zeroing or in retention the start waits. -/
def execTransferStart (c : CoreId) (e : Ecc) (s : State) : Host.Outcome State Fault Refusal :=
  done (s.onIsland fun s =>
    let n := coreNo c
    if (s.core n).spadWaits then s.spadTouch n
    else match (s.core n).nextXfer with
      | some j => s.xferStart n j e
      | none => s)

/-- TRANSFER_COMPLETE of a started transfer none of whose parts waits for an answer. -/
def execTransferComplete (c : CoreId) (id : Nat) (s : State) : Host.Outcome State Fault Refusal :=
  done (s.onIsland fun s =>
    let n := coreNo c
    match (s.core n).jobs.find? (fun j => decide (j.id = id)) with
    | some j =>
      if j.started && j.parts.all (fun p => decide (p.left = 0)) then
        if (s.core n).spadWaits then s.spadTouch n else s.xferDone n j
      else s
    | none => s)

/-! Answers (07 R229, R255, R259) -/

/-- A waiting request has been answered or has expired: it leaves the list, its part counts it, and the next waiting
request is sent. -/
def State.answered (s : State) (n : Nat) (o : Outst) (code : BitVec 16) : State :=
  let s1 := s.modCore n (fun c => { (c.partEnds o.job o.part code) with outst := c.outst.erase o })
  s1.pump ((s1.core n).unsent.length) n

/-- Read data of a request: its bytes are written to the destination, in the own scratchpad at once, elsewhere by a write
of its own, which comes first among those that wait. -/
def State.readData (s : State) (n : Nat) (o : Outst) (lines : List Byte) : State :=
  let bytes := bytesAt lines (offOf o.addr.toNat % 64) o.len
  let d := o.dst.toNat
  if spaceOf d = 0 ∧ (colOf d, rowOf d) = s.meAt n then
    ((s.spadTouch n).spadWrite n (offOf d) bytes).answered n o 0
  else
    let s1 := s.modCore n (fun c => { c with
      outst := c.outst.erase o,
      unsent := { o with isRead := false, addr := o.dst, data := bytes } :: c.unsent })
    s1.pump ((s1.core n).unsent.length) n

/-- The waiting request of a tag. -/
def Core.waiting (c : Core) (tag : BitVec 12) (plane isRead : Bool) : Option Outst :=
  c.outst.find? (fun o => decide (o.tag = tag) && decide ((spaceOf o.addr.toNat ≠ 0) = (plane = true)) && decide (o.isRead = isRead))

/-- The flits of a packet are ejected at core n (R247). -/
def State.ejected (s : State) (n : Nat) (h : BitVec 168) : State :=
  s.incWrap (niPage n + 0x64 + 4 * hdrFld h 2 1) (flitsOf h)

/-- Whether a target owned by `owner` serves a sender's TENANT: an unassigned one serves nobody; where either is TENANT 0xFF
nothing is checked (R260, R262). -/
def tenantOk (owner t : BitVec 8) : Bool := decide (owner ≠ 0) && (decide (t = owner) || decide (t = 0xFF) || decide (owner = 0xFF))

/-- A refusal at the interface of core n: counted, captured, raised (R262, R269). -/
def State.refused (s : State) (n : Nat) (t : BitVec 8) (sx sy : Nat) : State :=
  let pg := niPage n
  let s1 := s.incSat (pg + 0x70)
  let s2 := if s1.bit (pg + 0x74) 0 then s1
    else s1.setReg (pg + 0x74) (BitVec.ofNat 32 (1 + t.toNat * 2 + sx % 512 * 65536 + sy % 128 * 2 ^ 25))
  s2.raiseIrq pg 4

/-- An arriving answer: its flits are ejected and its TENANT checked; one that is refused changes nothing else, and is not
answered itself (R260, R262). -/
def State.answerIn (s : State) (n : Nat) (h : BitVec 168) (act : State → State) : State :=
  let s1 := s.ejected n h
  let t := BitVec.ofNat 8 (hdrFld h 38 8)
  if tenantOk (s1.niTenant n) t then act s1 else s1.refused n t (hdrFld h 22 9) (hdrFld h 31 7)

/-- ACK_PACKET: STATUS 0 completes a WRITE; another STATUS fails a WRITE or a READ. -/
def execAckPacket (c : CoreId) (hdr : BitVec 168) (s : State) : Host.Outcome State Fault Refusal :=
  done (s.onIsland fun s =>
    let n := coreNo c
    if hdrFld hdr 0 2 ≠ 2 then s
    else s.answerIn n hdr fun s1 =>
      let tag := BitVec.ofNat 12 (hdrFld hdr 57 12)
      let st := BitVec.ofNat 16 (hdrFld hdr 99 16)
      match (s1.core n).waiting tag false false, (s1.core n).waiting tag false true with
      | some o, _ => s1.answered n o st
      | none, some o => if st = 0 then s1 else s1.answered n o st
      | none, none => s1)

/-- RDATA: the data of a READ, or its error. -/
def execRdata (c : CoreId) (hdr : BitVec 168) (data : List Byte) (s : State) : Host.Outcome State Fault Refusal :=
  done (s.onIsland fun s =>
    let n := coreNo c
    if hdrFld hdr 0 2 ≠ 3 then s
    else s.answerIn n hdr fun s1 =>
      let st := BitVec.ofNat 16 (hdrFld hdr 99 16)
      match (s1.core n).waiting (BitVec.ofNat 12 (hdrFld hdr 57 12)) false true with
      | some o => if st = 0 then s1.readData n o data else s1.answered n o st
      | none => s1)

/-- The miss of a line-buffer tag. -/
def Core.missOf (c : Core) (tag : BitVec 12) : Option Miss :=
  c.misses.find? (fun m => decide (BitVec.ofNat 12 (0x800 + m.line % 0x7F0) = tag))

/-- The answer to a line-buffer request that carries no data: an upgrade is granted, or a request has failed (R196, R257;
the store or load that waits then takes the refusal). -/
def State.missAck (s : State) (n : Nat) (m : Miss) (status : BitVec 16) : State :=
  if status ≠ 0 then s.modCore n (fun c => { c with misses := c.misses.map (fun x => if x = m then { x with status := status } else x) })
  else if m.upg then
    let s1 := s.modCore n (fun c => { c with
      misses := c.misses.erase m,
      rlb := c.rlb.map (fun l => if l.line = m.line then { l with own := true, fresh := true } else l) })
    s1.send (.plane 0x1B (s.lineReq n m.line) [] false)
  else s

/-- Answers the sequencer's own memory-plane read of a tag; the answer to a read that was given up is discarded. -/
def Core.seqAnswer (c : Core) (tag : BitVec 12) (status : BitVec 16) (data : List Byte) : Core :=
  { c with seqReads := (c.seqReads.filter (fun r => !(decide (r.tag = tag) && r.dropped))).map (fun r =>
      if r.tag = tag ∧ r.ans = none then { r with ans := some (status, data) } else r) }

/-- A posted store of the sequencer is acknowledged: tag 0xFFD, or 0xFFE for one to the own generator page. -/
def Core.storeAcked (c : Core) (tag : BitVec 12) : Core :=
  { c with posted := c.posted - 1, rngPosted := if tag = 0xFFE then c.rngPosted - 1 else c.rngPosted }

/-- Who answers the request of a tag of core n; none where the model keeps no address under the tag (posted stores). -/
def Core.tagEnd (c : Core) (tag : BitVec 12) : Option PlaneEnd :=
  if tag.toNat < 0x800 then (c.outst.find? (fun o => decide (o.tag = tag))).map (fun o => addrEnd o.addr.toNat)
  else if 0xFF0 ≤ tag.toNat then (c.seqReads.find? (fun r => decide (r.tag = tag))).map (fun r => addrEnd r.addr.toNat)
  else (c.missOf tag).map (fun m => lineEnd m.line)

/-- Runs the arrival of an answer at core n, on the response plane and, with a line, the data plane. -/
def State.replyTo (s : State) (n : Nat) (tag : BitVec 12) (line : Bool) (f : State → State) : State :=
  match (s.core n).tagEnd tag with
  | some e => s.overPlane 1 e (coreEnd n) fun s => if line then s.overPlane 3 e (coreEnd n) f else f s
  | none => f s

/-- An answer reaches the plane port of an edge region; while the region is shrouded it is discarded and counted (11 R365). -/
def State.toRegion (s : State) (e r : Nat) (tag : BitVec 12) (status : BitVec 16) (data : List Byte) : State :=
  let id := (24 + e) * 2 ^ 19 + 2 ^ 17 + r
  if (s.region id).st = .releasing ∨ (s.region id).st = .running then s.send (.regionPlane id tag.toNat status data)
  else s.incSat (edgePage e 0xF021 + 0x100 + 0x20 * r + 0x10)

/-- PLANE_ACK: it completes a write, fails a request, answers a line-buffer request, or acknowledges a posted store (tags
0xFFD, 0xFFE) or a sequencer's read that is refused (tags 0xFF0 to 0xFFB). -/
def State.ackTo (s : State) (n : Nat) (tag : BitVec 12) (status : BitVec 16) : State :=
  s.replyTo n tag false fun s =>
    if tag.toNat < 0x800 then
      match (s.core n).waiting tag true false, (s.core n).waiting tag true true with
      | some o, _ => s.answered n o status
      | none, some o => if status = 0 then s else s.answered n o status
      | none, none => s
    else if tag = 0xFFD ∨ tag = 0xFFE then s.modCore n (fun c => c.storeAcked tag)
    else if 0xFF0 ≤ tag.toNat then s.modCore n (fun c => c.seqAnswer tag status [])
    else match (s.core n).missOf tag with
      | some m => s.missAck n m status
      | none => s

/-- PLANE_ACK. -/
def execPlaneAck (to_ : Requester) (tag : BitVec 12) (status : BitVec 16) (s : State) : Host.Outcome State Fault Refusal :=
  done (match to_ with
    | .core c => s.onIsland fun s => s.ackTo (coreNo c) tag status
    | .region e r => s.whenUp fun s => s.toRegion e.val r.val tag status [])

/-- CDATA: the data of a control read reach the sequencer that made it. -/
def execCdata (c : CoreId) (tag : BitVec 12) (data : Dword) (s : State) : Host.Outcome State Fault Refusal :=
  done (s.onIsland fun s => s.replyTo (coreNo c) tag false fun s =>
    s.modCore (coreNo c) (fun c => c.seqAnswer tag 0 (leBytes 8 data.toNat)))

/-- DATA_HDR: the line of a read reaches its requester: a transfer part, the sequencer, or the line buffer. A STATUS other
than 0 fails the request. -/
def State.lineTo (s : State) (n : Nat) (tag : BitVec 12) (status : BitVec 16) (data : List Byte) : State :=
  s.replyTo n tag true fun s =>
    if tag.toNat < 0x800 then
      match (s.core n).waiting tag true true with
      | some o => if status = 0 then s.readData n o data else s.answered n o status
      | none => s
    else if 0xFF0 ≤ tag.toNat then s.modCore n (fun c => c.seqAnswer tag status data)
    else match (s.core n).missOf tag with
      | some m =>
        if status = 0 then (s.modCore n (fun c => { c with misses := m :: c.misses.erase m })).rlbFill n data false
        else if status = Code.memUncorrectable then (s.modCore n (fun c => { c with misses := m :: c.misses.erase m })).rlbFill n data true
        else s.missAck n m status
      | none => s

/-- DATA_HDR. -/
def execDataHdr (to_ : Requester) (tag : BitVec 12) (status : BitVec 16) (data : List Byte) (s : State) : Host.Outcome State Fault Refusal :=
  done (match to_ with
    | .core c => s.onIsland fun s => s.lineTo (coreNo c) tag status data
    | .region e r => s.whenUp fun s => s.toRegion e.val r.val tag status data)

/-- NI_TIMEOUT_EXPIRY: a packet or request of a part that waits has not been answered; none expires while HOLD = 1
(R250). -/
def execNiTimeoutExpiry (c : CoreId) (tag : BitVec 12) (s : State) : Host.Outcome State Fault Refusal :=
  done (s.onIsland fun s =>
    let n := coreNo c
    if s.bit (niPage n + 0x44) 2 then s
    else match (s.core n).outst.find? (fun o => decide (o.tag = tag)) with
      | some o => ((s.incSat (niPage n + 0x6C)).raiseIrq (niPage n) 16).answered n o Code.netLinkTimeout
      | none => s)

/-! ISSUE (04 R144) -/

/-- The bytes of the descriptor at an offset: 64, or the 128 of a split pair that fits the scratchpad (02 R59). -/
def Core.descBytes (c : Core) (cls off : Nat) : Nat :=
  if cls = 0 ∧ bits (leNat (c.spadBytes off 8)) 3 1 = 1 ∧ off + 128 ≤ 2 ^ 20 then 128 else 64

/-- Why ISSUE stalls: the scratchpad waits, the counter is at 15, or the queue is full. Transfers in progress count among the 16 of
the queue (DESIGN CHOICE, assumption 93). -/
def State.issueStall (s : State) (n cls ctr off : Nat) : Bool :=
  let c := s.core n
  c.spadWaits || decide (15 ≤ c.ctr ctr)
    || (if cls = 1 then decide (16 ≤ c.jobs.length)
        else match s.routeOf n (Desc.of (dwordsOf 8 (c.spadBytes off 64))) with
          | some u => s.unitOn n u && decide (4 ≤ (c.unit u).jobs.length)
          | none => false)

/-- Sends a descriptor to its queue; one that no enabled unit takes is refused at once (02 R76). -/
def State.issueDesc (s : State) (n cls ctr off : Nat) : State :=
  let c := s.core n
  let k : Fin 4 := ⟨ctr % 4, Nat.mod_lt _ (by decide)⟩
  if cls = 1 then
    s.modCore n (fun c => { (c.setCtr ctr (c.ctr ctr + 1)) with
      nextJob := c.nextJob + 1,
      jobs := c.jobs ++ [{ id := c.nextJob, words := dwordsOf 8 (c.spadBytes off 64), ctr := k, counted := true, started := false, parts := [] }] })
  else
    let w := dwordsOf (c.descBytes cls off / 8) (c.spadBytes off (c.descBytes cls off))
    let d := Desc.of w
    match s.routeOf n d with
    | some u =>
      if s.unitOn n u then
        s.modCore n (fun c => (c.setCtr ctr (c.ctr ctr + 1)).setUnit u
          { jobs := (c.unit u).jobs ++ [{ words := w, ctr := k, counted := true, seed := s.reg64 (rngPage n + 0x40) }], run := (c.unit u).run, nextA := (c.unit u).nextA })
      else s.refuseJob n (some u) d
    | none => s.refuseJob n none d

/-- The operation of ISSUE: it reads the descriptor, whose bit errors it finds (06 R190). -/
def opIssue (cls ctr : BitVec 2) (ga : BitVec 5) (e : Ecc) : State → Nat → SlotOp := fun s n =>
  let c := s.core n
  let v := c.gr ga
  let off := v.toNat % 2 ^ 20
  let len := c.descBytes cls.toNat off
  { op := 0x06, illegal := decide (2 ≤ cls.toNat),
    fault := if v.toNat / 2 ^ 20 ≠ 0 ∨ off % 64 ≠ 0 then some .issue
      else if !c.spadWaits && c.readPoisoned off len e then some (.poison v) else none,
    stall := if s.issueStall n cls.toNat ctr.toNat off then .other else .none,
    wait := fun t => t.spadTouch n,
    onFault := fun t => t.eccFound n (wordsOf off len) e,
    act := fun t => (t.eccFound n (wordsOf off len) e).issueDesc n cls.toNat ctr.toNat off }

/-- ISSUE. -/
def execIssue (o : Slot) (cls : BitVec 2) (ctr : BitVec 2) (ga : BitVec 5) (e : Ecc) (s : State) : Host.Outcome State Fault Refusal :=
  done (s.issueOp o 0 (opIssue cls ctr ga e))

end Sys2Proof.Machine
end

