-- ==== Sys2Proof/Machine/Context.lean ====
section
/-! DEFINITION. Context images (04 R156 to R158): SAVE and RESTORE, the image, its checks. -/
namespace Sys2Proof.Machine

/-! The image (R157) -/

/-- The bytes of an image taken with `lanes` lanes. -/
def imageLen (lanes : Nat) : Nat := 0x2C0 + 256 * lanes

/-- A loop entry of an image. -/
def LoopEntry.bytes (l : LoopEntry) : List Byte :=
  leBytes 4 l.first.toNat ++ leBytes 4 (l.last.toNat + (l.stages - 1) * 2 ^ 24 + b2n l.rot * 2 ^ 28) ++ leBytes 4 l.n ++ leBytes 4 l.done

/-- The loop entries of an image, zero above the depth. -/
def Core.loopBytes (c : Core) : List Byte := bytesAt ((c.loops.map LoopEntry.bytes).flatten) 0 64

/-- A register file of an image. -/
def fileBytes (n size : Nat) (f : Nat → Nat) : List Byte := ((List.range n).map (fun i => leBytes size (f i))).flatten

/-- The image of a core's sequencer with LANES = 32, but for its CRC. -/
def Core.imageHead (c : Core) (vanish : Word) : List Byte :=
  leBytes 4 0x4F564C53 ++ leBytes 2 1 ++ leBytes 1 32 ++ leBytes 1 c.vl ++ leBytes 4 c.pc.toNat ++ leBytes 2 c.rotReg
    ++ leBytes 1 (c.p.toNat / 2 * 2 + 1) ++ leBytes 1 (c.lsReg % 128) ++ leBytes 1 c.mode.toNat ++ leBytes 1 c.vf.toNat ++ leBytes 2 0
    ++ leBytes 4 vanish.toNat ++ List.replicate 40 0 ++ c.loopBytes ++ fileBytes 32 8 (fun i => (c.gPhys i).toNat)
    ++ fileBytes 8 8 (fun i => (c.ar (BitVec.ofNat 3 i)).toNat) ++ fileBytes 8 4 (fun i => (c.mr (BitVec.ofNat 3 i)).toNat)
    ++ fileBytes 8 8 (fun i => (c.baseOf (BitVec.ofNat 3 i)).toNat) ++ fileBytes 8 4 (fun i => (c.lenOf (BitVec.ofNat 3 i)).toNat)
    ++ List.replicate 64 0 ++ fileBytes 64 128 (fun i => (c.vPhys i).toNat) ++ List.replicate 60 0

/-- The image of a core's sequencer. -/
def Core.image (c : Core) (vanish : Word) : List Byte :=
  let h := c.imageHead vanish
  h ++ leBytes 4 (crc32c h).toNat

/-! Its checks (R158) -/

/-- A little-endian field of an image. -/
def imgFld (l : List Byte) (o n : Nat) : Nat := leNat (bytesAt l o n)

/-- Check 1 on the head: MAGIC, VERSION, LANES. -/
def imageHeadOk (l : List Byte) : Bool :=
  decide (imgFld l 0 4 = 0x4F564C53) && decide (imgFld l 4 2 = 1)
    && (decide (imgFld l 6 1 = 8) || decide (imgFld l 6 1 = 16) || decide (imgFld l 6 1 = 32))

/-- Whether bytes of an image are all zero. -/
def zeroAt (l : List Byte) (o n : Nat) : Bool := (bytesAt l o n).all (fun b => decide (b = 0))

/-- Word w of loop entry i. -/
def imgLoop (l : List Byte) (i w : Nat) : Nat := imgFld l (0x40 + 16 * i + 4 * w) 4

/-- Check 3 on one loop entry below the depth. -/
def imageLoopOk (l : List Byte) (i : Nat) : Bool :=
  let first := imgLoop l i 0 % 2 ^ 20
  let last := imgLoop l i 1 % 2 ^ 20
  let s1 := bits (imgLoop l i 1) 24 2
  let rot := bits (imgLoop l i 1) 28 1
  (decide (s1 = 0) || decide (rot = 1)) && decide (first ≤ last) && decide (imgLoop l i 3 < imgLoop l i 2 + s1)
    && (decide (i = 0) || (decide (imgLoop l (i - 1) 0 % 2 ^ 20 ≤ first) && decide (last ≤ imgLoop l (i - 1) 1 % 2 ^ 20)))

/-- Check 3: the image is well formed. -/
def imageFormOk (l : List Byte) : Bool :=
  let lanes := imgFld l 6 1
  let loops := imgFld l 0xF 1
  let depth := loops % 8
  let rots := (List.range (min depth 4)).filter (fun i => decide (bits (imgLoop l i 1) 28 1 = 1))
  decide (imgFld l 7 1 ≤ lanes) && decide (imgFld l 8 4 < 2 ^ 20) && decide (imgFld l 8 4 % 16 = 0)
    && zeroAt l 0x12 2 && zeroAt l 0x18 40 && zeroAt l 0x240 64 && zeroAt l (0x280 + 256 * lanes) 60
    && decide (imgFld l 0xE 1 % 2 = 1) && decide (loops < 128) && decide (depth ≤ 4)
    && zeroAt l (0x40 + 16 * depth) (64 - 16 * depth)
    && decide (rots.length ≤ 1) && decide (bits loops 6 1 = rots.length) && decide (bits loops 3 3 = rots.headD 0)
    && (List.range (min depth 4)).all (imageLoopOk l)

/-- Checks 2 to 4 on a whole image: the code of the first that fails, 0 for none. LANES is at most L = 32 here. -/
def imageCheck (l : List Byte) : BitVec 16 :=
  let n := imageLen (imgFld l 6 1)
  if crc32c (l.take (n - 4)) ≠ BitVec.ofNat 32 (imgFld l (n - 4) 4) then Code.ctxInvalid
  else if !imageFormOk l then Code.ctxInvalid
  else if 32 < imgFld l 6 1 ∧ 32 < imgFld l 7 1 then Code.ctxLanesShort
  else 0

/-! Restoring -/

/-- A register file read from an image. -/
def fileOf (l : List Byte) (o size n w : Nat) : Map (BitVec w) :=
  (List.range n).foldl (fun m i => Sparse.put (fun _ => (0 : BitVec w)) m i (BitVec.ofNat w (imgFld l (o + size * i) size))) []

/-- Loop entry i of an image. -/
def imgEntry (l : List Byte) (i : Nat) : LoopEntry :=
  { first := BitVec.ofNat 20 (imgLoop l i 0), last := BitVec.ofNat 20 (imgLoop l i 1), stages := bits (imgLoop l i 1) 24 2 + 1,
    rot := decide (bits (imgLoop l i 1) 28 1 = 1), n := imgLoop l i 2, done := imgLoop l i 3 }

/-- A core with the registers of an image: lanes that the image lacks are 0. g0 stays 0. -/
def Core.fromImage (c : Core) (l : List Byte) : Core :=
  let lanes := imgFld l 6 1
  { c with
    vl := imgFld l 7 1, pc := BitVec.ofNat 20 (imgFld l 8 4), pcOut := none, rotG := BitVec.ofNat 4 (imgFld l 0xC 2),
    rotV := BitVec.ofNat 5 (imgFld l 0xC 2 / 256), p := BitVec.ofNat 8 (imgFld l 0xE 1), mode := BitVec.ofNat 8 (imgFld l 0x10 1),
    loops := (List.range (imgFld l 0xF 1 % 8)).map (imgEntry l), loopBuf := [], g := Sparse.erase (fileOf l 0x80 8 32 64) 0,
    a := fileOf l 0x180 8 8 64, m := fileOf l 0x1C0 4 8 32, base := fileOf l 0x1E0 8 8 56, len := fileOf l 0x220 4 8 21,
    v := fileOf l 0x280 (4 * lanes) 64 1024 }

/-- Restores an image on core n, with the vector page's two registers (05 R182). -/
def State.applyImage (s : State) (n : Nat) (l : List Byte) : State :=
  ((s.modCore n (fun c => c.fromImage l)).setReg (corePage n 4 + 0x44) (BitVec.ofNat 32 (imgFld l 0x14 4))).setVf n
    (BitVec.ofNat 5 (imgFld l 0x11 1))

/-! Where an image lies (R156) -/

/-- The image address of a core. -/
def State.ctxAddr (s : State) (n : Nat) : Nat := (s.reg64 (corePage n 0 + 0x5C)).toNat

/-- A place of len bytes at an image address: in the own scratchpad (an offset) or in LPDDR (a physical address). -/
inductive Spot where
  | own (off : Nat)
  | mem (pa : Nat)
deriving DecidableEq, Repr

/-- The place that an image address names for len bytes, if it is one that R156 allows. -/
def State.ctxSpot (s : State) (n addr len : Nat) : Option Spot :=
  let own := selfOf addr || decide (s.logOf n = some (colOf addr, rowOf addr))
  if addr % 64 ≠ 0 ∨ addrBad addr = true then none
  else match spaceOf addr with
    | 0 => if own ∧ offOf addr + len ≤ 2 ^ 20 then some (.own (offOf addr)) else none
    | 1 =>
      if s.niTenant n = 0xFF then none
      else match s.translate (chanOf (offOf addr) / 24) (s.niTenant n) (offOf addr) len with
        | .ok pa => some (.mem pa)
        | .error _ => none
    | _ => none

/-- SEQ_CTX_STAT, and for an error its code and CTX_FAIL, else CTX_DONE (R153, R155). -/
def State.ctxStat (s : State) (n result : Nat) (code : BitVec 16) : State :=
  let pg := corePage n 0
  let s1 := s.setReg (pg + 0x64) (BitVec.ofNat 32 (result + code.toNat * 65536))
  if code = 0 then s1.raiseIrq pg 4 else (s1.raiseIrq pg 8).enterCode pg code

/-- The sequencer leaves SAVING or RESTORING for a state; a START queued meanwhile runs (R151). -/
def Core.ctxEnds (c : Core) (st : SeqState) : Core :=
  let c1 := { c with st := st, ctx := none, stall := .none }
  if c1.pendStart then { c1 with st := .running, pendStart := false, stepping := false } else c1

/-! SAVE -/

/-- SEQ_CTRL.SAVE. -/
def State.saveCmd (s : State) (n : Nat) : State :=
  let st := (s.core n).st
  if st = .saving ∨ st = .restoring then s
  else if (s.ctxSpot n (s.ctxAddr n) (imageLen 32)).isNone then s.ctxStat n 4 Code.ctxInvalid
  else s.modCore n (fun c =>
    if c.st.held then { c with st := .saving, back := c.st, ctx := none }
    else { c.stop with pendSave := true })

/-- A write of SEQ_CTRL.SAVE. -/
def execSave (who : Party) (c : CoreId) (s : State) : Host.Outcome State Fault Refusal :=
  done (s.whenUp fun s => s.ctl who (seqCtrlKey (coreNo c)) fun s => s.saveCmd (coreNo c))

/-- Whether every completion counter is 0. -/
def Core.countersZero (c : Core) : Bool := (List.range 4).all (fun i => decide (c.ctr i = 0))

/-- Writes lines of LPDDR from a physical address on, past the directory and the line buffers (assumption 36); the code of the first
that fails. -/
def State.writeLines (s : State) (pa : Nat) (l : List Byte) : State × BitVec 16 :=
  (List.range (l.length / 64)).foldl (fun r i =>
    let w := r.1.writeLine 0 (pa + 64 * i) 0xFFFFFFFFFFFFFFFF (bytesAt l (64 * i) 64) .clean
    (w.1, if r.2 = 0 then w.2 else r.2)) (s, 0)

/-- Reads bytes of LPDDR from a line's physical address on, past the directory and the line buffers (assumption 36); whether a line of them is poisoned. -/
def State.readLines (s : State) (pa len : Nat) : State × List Byte × Bool :=
  let r := (List.range (ceilDiv len 64)).foldl (fun (r : State × List Byte × Bool) i =>
    let x := r.1.readLine 0 (pa + 64 * i) .clean
    (x.1, r.2.1 ++ x.2.1, r.2.2 || x.2.2)) (s, [], false)
  (r.1, r.2.1.take len, r.2.2)

/-- The channels of a range of LPDDR: whether one is OFFLINE, and whether all serve. -/
def State.rangeOffline (s : State) (pa len : Nat) : Bool :=
  (List.range (ceilDiv len 64)).any (fun i => s.chanOffline (chanCo (pa + 64 * i)).1)
def State.rangeServes (s : State) (pa len : Nat) : Bool :=
  (List.range (ceilDiv len 64)).all (fun i => s.chanServes (chanCo (pa + 64 * i)).1)

/-- The image is written; its completion follows with CONTEXT_SAVE_DONE. -/
def State.saveImage (s : State) (n : Nat) : State :=
  let c := s.core n
  let img := c.image (s.reg (corePage n 4 + 0x44))
  match s.ctxSpot n (s.ctxAddr n) (imageLen 32) with
  | none => (s.modCore n (fun c => c.ctxEnds c.back)).ctxStat n 4 Code.ctxInvalid
  | some (.own off) =>
    if c.spadWaits then s.spadTouch n else (s.spadWrite n off img).modCore n (fun c => { c with ctx := some 0 })
  | some (.mem pa) =>
    if s.rangeOffline pa (imageLen 32) then s.modCore n (fun c => { c with ctx := some Code.memUncorrectable })
    else if !s.rangeServes pa (imageLen 32) then s
    else
      let r := s.writeLines pa img
      r.1.modCore n (fun c => { c with ctx := some r.2 })

/-- CONTEXT_SAVE: it waits until every completion counter is 0. -/
def execContextSave (c : CoreId) (s : State) : Host.Outcome State Fault Refusal :=
  done (s.onIsland fun s =>
    let d := s.core (coreNo c)
    if d.st = .saving ∧ d.ctx = none ∧ d.countersZero = true then s.saveImage (coreNo c) else s)

/-- CONTEXT_SAVE_DONE: the sequencer returns to the state it had. -/
def execContextSaveDone (c : CoreId) (s : State) : Host.Outcome State Fault Refusal :=
  done (s.onIsland fun s =>
    let n := coreNo c
    match (s.core n).st, (s.core n).ctx with
    | .saving, some code => (s.modCore n (fun d => d.ctxEnds d.back)).ctxStat n (if code = 0 then 1 else 3) code
    | _, _ => s)

/-! RESTORE -/

/-- SEQ_CTRL.RESTORE: refused in RUNNING and STOPPING, or for an address that R156 does not allow. -/
def State.restoreCmd (s : State) (n : Nat) : State :=
  let st := (s.core n).st
  if st = .saving ∨ st = .restoring then s
  else if !st.held || (s.ctxSpot n (s.ctxAddr n) 64).isNone then s.ctxStat n 4 Code.ctxInvalid
  else s.modCore n (fun c => { c with st := .restoring, back := c.st, ctx := none })

/-- A write of SEQ_CTRL.RESTORE. -/
def execRestore (who : Party) (c : CoreId) (s : State) : Host.Outcome State Fault Refusal :=
  done (s.whenUp fun s => s.ctl who (seqCtrlKey (coreNo c)) fun s => s.restoreCmd (coreNo c))

/-- A restore that fails changes no state but SEQ_CTX_STAT and the state it returns to. -/
def State.restoreFails (s : State) (n : Nat) (code : BitVec 16) : State := (s.modCore n (fun c => c.ctxEnds c.back)).ctxStat n 3 code

/-- Reads len bytes of a place, where a scratchpad read finds bit errors: what the read leaves, the bytes, whether poison was
met. -/
def State.readSpot (s : State) (n len : Nat) (e : Ecc) : Spot → State × List Byte × Bool
  | .own off =>
    let s1 := s.eccFound n (wordsOf off len) e
    (s1, (s1.core n).spadBytes off len, (s1.core n).poisonedAt off len)
  | .mem pa => s.readLines pa len

/-- Whether the bytes of a place can be read now: its scratchpad does not wait, its channels serve or are OFFLINE. -/
def State.spotReady (s : State) (n len : Nat) : Spot → Bool
  | .own _ => !(s.core n).spadWaits
  | .mem pa => s.rangeServes pa len || s.rangeOffline pa len

/-- Reads and checks the image in the order of R158 and restores it. -/
def State.restoreImage (s : State) (n : Nat) (e : Ecc) : State :=
  let addr := s.ctxAddr n
  match s.ctxSpot n addr 64 with
  | none => (s.modCore n (fun c => c.ctxEnds c.back)).ctxStat n 4 Code.ctxInvalid
  | some p =>
    if !s.spotReady n 64 p then s.spadTouch n
    else if (match p with | .mem pa => s.rangeOffline pa 64 | .own _ => false) then s.restoreFails n Code.memUncorrectable
    else
      let h := s.readSpot n 8 e p
      if h.2.2 then h.1.restoreFails n Code.memUncorrectable
      else if !imageHeadOk h.2.1 then h.1.restoreFails n Code.ctxInvalid
      else
        let len := imageLen (imgFld h.2.1 6 1)
        match s.ctxSpot n addr len with
        | none => h.1.restoreFails n Code.ctxInvalid
        | some q =>
          if !s.spotReady n len q then s
          else if (match q with | .mem pa => s.rangeOffline pa len | .own _ => false) then h.1.restoreFails n Code.memUncorrectable
          else
            let r := s.readSpot n len e q
            let code := if r.2.2 then Code.memUncorrectable else imageCheck r.2.1
            if code ≠ 0 then r.1.restoreFails n code
            else ((r.1.applyImage n r.2.1).modCore n (fun c => c.ctxEnds .stopped)).ctxStat n 2 0

/-- CONTEXT_RESTORE: it waits until every completion counter is 0. -/
def execContextRestore (c : CoreId) (e : Ecc) (s : State) : Host.Outcome State Fault Refusal :=
  done (s.onIsland fun s =>
    let d := s.core (coreNo c)
    if d.st = .restoring ∧ d.countersZero = true then s.restoreImage (coreNo c) e else s)

end Sys2Proof.Machine
end

