-- ==== Sys2Proof/Machine/Collar.lean ====
section
/-! DEFINITION. The collar port (10 R335 to R339, R342; 04 R147): streams, register reads and writes. What a collar's
logic answers comes with the commands: the spec names no wire that a port signal drives. -/
namespace Sys2Proof.Machine

/-- The collar page of a core. -/
def colPage (n : Nat) : Nat := corePage n 8

/-- The outbound and inbound FIFO of a stream. -/
def Core.ob (c : Core) (st : Bool) : List (BitVec 2 × BitVec 256) := if st then c.ob1 else c.ob0
def Core.setOb (c : Core) (st : Bool) (l : List (BitVec 2 × BitVec 256)) : Core := if st then { c with ob1 := l } else { c with ob0 := l }
def Core.ib (c : Core) (st : Bool) : List (BitVec 256) := if st then c.ib1 else c.ib0
def Core.setIb (c : Core) (st : Bool) (l : List (BitVec 256)) : Core := if st then { c with ib1 := l } else { c with ib0 := l }

/-! VPUSH and VPULL -/

/-- The operation of VPUSH: four beats, lanes 8b to 8b + 7 on beat b; it stalls until four places are free, and while the
collar is shrouded. -/
def opVpush (r : BitVec 6) (st : Bool) : State → Nat → SlotOp := fun s n =>
  let c := s.core n
  let v := c.vr r
  { op := 0x0C, stall := if s.shrouded n || decide (4 < (c.ob st).length) then .vpush else .none,
    act := fun t =>
      let beats := (List.range 4).map (fun b => (BitVec.ofNat 2 b, (v >>> (256 * b)).setWidth 256))
      t.modCore n (fun d => d.setOb st (d.ob st ++ beats)) }

/-- VPUSH. -/
def execVpush (o : Slot) (r : BitVec 6) (stream : Bool) (s : State) : Host.Outcome State Fault Refusal :=
  done (s.issueOp o 2 (opVpush r stream))

/-- The operation of VPULL: four beats become a vector, in arrival order; it stalls until four are present, and while the
collar is shrouded. -/
def opVpull (r : BitVec 6) (st : Bool) : State → Nat → SlotOp := fun s n =>
  let c := s.core n
  let i := physV c.rotV r
  { op := 0x0D, dests := [.v i], stall := if s.shrouded n || decide ((c.ib st).length < 4) then .vpull else .none,
    act := fun t =>
      let l := (s.core n).ib st
      let v := BitVec.ofNat 1024 ((List.range 4).foldl (fun x b => x + (l.getD b 0).toNat * 2 ^ (256 * b)) 0)
      t.modCore n (fun d => (d.setIb st (l.drop 4)).setV i v) }

/-- VPULL. -/
def execVpull (o : Slot) (r : BitVec 6) (stream : Bool) (s : State) : Host.Outcome State Fault Refusal :=
  done (s.issueOp o 2 (opVpull r stream))

/-! Beats (R336) -/

/-- COLLAR_OUTBOUND_BEAT: the first beat of the FIFO passes to the collar. -/
def State.outBeat (s : State) (n : Nat) (st : Bool) : State :=
  match (s.core n).ob st with
  | [] => s
  | (b, d) :: r =>
    if s.shrouded n then s
    else ((s.modCore n (fun c => c.setOb st r)).send (.collar n (b2n st) b.toNat (d.setWidth 512))).incWrap (colPage n + 0x90)

/-- COLLAR_OUTBOUND_BEAT. -/
def execCollarOutboundBeat (c : CoreId) (stream : Bool) (s : State) : Host.Outcome State Fault Refusal :=
  done (s.whenUp fun s => if s.tripped then s else s.outBeat (coreNo c) stream)

/-- The last value that the collar has driven on IBn_DATA. -/
def Core.ibLast (c : Core) (st : Bool) : BitVec 256 := if st then c.ibLast1 else c.ibLast0

/-- What IBn_DATA presents to core n: the beat that the collar drives, or while it is shrouded the park value (11 R348, R365). -/
def State.ibData (s : State) (n : Nat) (st : Bool) : BitVec 256 :=
  if s.shrouded n then BitVec.ofNat 256 (parkValue (s.parkCodes n / 2 ^ (512 * b2n st)) 256 ((s.core n).ibLast st).toNat)
  else (s.core n).ibLast st

/-- COLLAR_INBOUND_BEAT: a beat is presented on IBn_DATA, and taken while the FIFO has a free place. -/
def execCollarInboundBeat (c : CoreId) (stream : Bool) (beat : BitVec 256) (s : State) : Host.Outcome State Fault Refusal :=
  done (s.whenUp fun s =>
    let n := coreNo c
    if s.tripped || s.shrouded n then s
    else
      let s1 := s.modCore n (fun d => if stream then { d with ibLast1 := beat } else { d with ibLast0 := beat })
      if 8 ≤ ((s.core n).ib stream).length then s1
      else (s1.modCore n (fun d => d.setIb stream (d.ib stream ++ [beat]))).incWrap (colPage n + 0x94))

/-! Register reads (R338, R342) -/

/-- A CTRL_READ of tenant t that waits for core n's collar is finished (14 R448). -/
def State.ctrlReadEnds (s : State) (t n : Nat) (v : Word) : State :=
  match (s.tenant t).cmds.find? (fun c => c.started && decide (c.op = 0x14)
    && decide (s.physOf (beNat (bytesAt c.args 0 2)) (beNat (bytesAt c.args 2 2)) = n)) with
  | some c => s.finish t c 0 (beBytes 4 v.toNat)
  | none => s

/-- What a register read returns, to whoever made it. -/
def State.readReturns (s : State) (n : Nat) (q : ColRead) (v : Word) : State :=
  match q with
  | .seq g => s.modCore n (fun c => c.setG g.toNat (v.setWidth 64))
  | .host => s.answerCtl 0 (v.setWidth 64)
  | .pair => s.answerCtl 0 (v ++ s.reg (colPage n + 0x88))
  | .cmd t => s.ctrlReadEnds t.toNat n v
  | .dropped => s

/-- REG_RVALID: the oldest outstanding read has its answer; one that timed out is discarded. -/
def State.regAnswer (s : State) (n : Nat) (v : Word) : State :=
  match (s.core n).colReads with
  | [] => s
  | q :: r => (s.modCore n (fun c => { c with colReads := r, colAnswer := v })).readReturns n q v

/-- REG_RVALID; while the collar is shrouded it reads 0 (R339). -/
def execRegRvalid (c : CoreId) (v : Word) (s : State) : Host.Outcome State Fault Refusal :=
  done (s.whenUp fun s => if s.tripped || s.shrouded (coreNo c) then s else s.regAnswer (coreNo c) v)

/-- A read of COL_RDATA by q: the park value at once while the collar is shrouded, else a register-port read at COL_RIDX
whose answer comes later. -/
def State.colRead (s : State) (n : Nat) (q : ColRead) : State :=
  if s.shrouded n then s.readReturns n q (s.parkRdata n)
  else (s.modCore n (fun c => { c with colReads := c.colReads ++ [q] })).send (.collar n 4 (s.fld (colPage n + 0x88) 0 10) 0)

/-- A write of COL_RDATA: a register-port write at COL_RIDX; no effect while the collar is shrouded. -/
def State.colWrite (s : State) (n : Nat) (v : Word) : State :=
  if s.shrouded n then s else s.send (.collar n 5 (s.fld (colPage n + 0x88) 0 10) (v.setWidth 512))

/-- COL_RDATA_READ; only the runtime of the owning tenant uses the register. -/
def execColRdataRead (who : Party) (c : CoreId) (s : State) : Host.Outcome State Fault Refusal :=
  done (s.whenUp fun s =>
    let k := colPage (coreNo c) + 0x8C
    if s.mayWrite who k then s.colRead (coreNo c) .host else s.answerCtl (State.refusal who k))

/-- COL_RDATA_WRITE. -/
def execColRdataWrite (who : Party) (c : CoreId) (v : Word) (s : State) : Host.Outcome State Fault Refusal :=
  done (s.whenUp fun s => s.ctl who (colPage (coreNo c) + 0x8C) fun s => s.colWrite (coreNo c) v)

/-- The first read through COL_RDATA in the list becomes a dropped one. -/
def dropHostRead : List ColRead → Option (ColRead × List ColRead)
  | [] => none
  | .host :: r => some (.host, .dropped :: r)
  | .pair :: r => some (.pair, .dropped :: r)
  | .cmd t :: r => some (.cmd t, .dropped :: r)
  | x :: r => (dropHostRead r).map (fun p => (p.1, x :: p.2))

/-- COL_RDATA_TIMEOUT: a read unanswered after 4,096 fc returns 0. -/
def execColRdataTimeout (c : CoreId) (s : State) : Host.Outcome State Fault Refusal :=
  done (s.onIsland fun s =>
    let n := coreNo c
    match dropHostRead (s.core n).colReads with
    | some (q, l) => (s.modCore n (fun d => { d with colReads := l })).readReturns n q 0
    | none => s)

end Sys2Proof.Machine
end

