-- ==== Sys2Proof/Machine/Net.lean ====
section
/-! DEFINITION. The network interface as a receiver (07 R229, R262), and the epoch swap at interfaces and taps (R247,
R248, R250, R266, R270). -/
namespace Sys2Proof.Machine

/-! Arriving packets (R229, R262) -/

/-- The header fields of an answer: an ACK (2) or RDATA (3) of `len` flits to the source of h. -/
def answerPkt (h : BitVec 168) (kind : Nat) (status : BitVec 16) (len : Nat) : Pkt :=
  { kind := kind, gs := false, dx := hdrFld h 22 9, dy := hdrFld h 31 7, len := if kind = 3 then len else 0, stream := 0,
    tag := hdrFld h 57 12, line := 0, firstWe := 0, lastWe := 0, status := status.toNat }

/-- Answers a packet: an ACK (2) or RDATA (3) to its source, looked up in the responder's own table; one that no route
reaches, or that would be malformed, is not sent (R230, R237). -/
def State.respond (s : State) (n : Nat) (h : BitVec 168) (kind : Nat) (status : BitVec 16) (data : List Byte) : State :=
  let x := hdrFld h 22 9
  let y := hdrFld h 31 7
  let r := s.routeFor n false x y
  let p := answerPkt h kind status (data.length / 64)
  if s.unroutable n p r then s else s.inject n p data r

/-- The bytes of a WRITE with their enables: FIRST_WE in the first flit, LAST_WE in the last, both in an only one. -/
def writeBytes (h : BitVec 168) (data : List Byte) : List (Bool × Byte) :=
  let len := hdrFld h 46 3
  (List.range (64 * len)).map (fun i =>
    let w := i % 64 / 8
    ((decide (i / 64 ≠ 0) || decide (hdrFld h (83 + w) 1 = 1)) && (decide (i / 64 + 1 ≠ len) || decide (hdrFld h (91 + w) 1 = 1)),
      data.getD i 0))

/-- An arriving packet: its flits are ejected and its TENANT checked; a refusal is answered NET_PARTITION. -/
def State.arrives (s : State) (n : Nat) (h : BitVec 168) (act : State → State) : State :=
  let s1 := s.ejected n h
  let t := BitVec.ofNat 8 (hdrFld h 38 8)
  if !tenantOk (s1.niTenant n) t then
    (s1.refused n t (hdrFld h 22 9) (hdrFld h 31 7)).respond n h 2 Code.netPartition []
  else if 16384 < hdrFld h 69 14 + hdrFld h 46 3 then s1.respond n h 2 Code.netRouteNone []
  else act s1

/-- WRITE_PACKET. An access while RETAINED starts the wake; the write is seen after it (06 R195). -/
def execWritePacket (c : CoreId) (hdr : BitVec 168) (data : List Byte) (s : State) : Host.Outcome State Fault Refusal :=
  done (s.onIsland fun s =>
    let n := coreNo c
    if hdrFld hdr 0 2 ≠ 0 ∨ malformed hdr = true then s
    else s.arrives n hdr fun s =>
      ((s.spadTouch n).modCore n (fun c => c.spadWriteBE (64 * hdrFld hdr 69 14) (writeBytes hdr data))).respond n hdr 2 0 [])

/-- READ_PACKET: poison in the lines is answered with an error, never with data (06 R191). -/
def execReadPacket (c : CoreId) (hdr : BitVec 168) (e : Ecc) (s : State) : Host.Outcome State Fault Refusal :=
  done (s.onIsland fun s =>
    let n := coreNo c
    if hdrFld hdr 0 2 ≠ 1 ∨ malformed hdr = true then s
    else s.arrives n hdr fun s =>
      let off := 64 * hdrFld hdr 69 14
      let len := 64 * hdrFld hdr 46 3
      let s1 := (s.spadTouch n).eccFound n (wordsOf off len) e
      if (s1.core n).poisonedAt off len then s1.respond n hdr 2 Code.memUncorrectable []
      else s1.respond n hdr 3 0 ((s1.core n).spadBytes off len))

/-! Flips (R247, R266) -/

/-- NI_EPOCH.FLIP: ignored while one is pending; the first after reset sets bank 0 ARMED at once. -/
def State.niFlip (s : State) (n : Nat) : State :=
  let pg := niPage n
  let c := s.core n
  let m := 1 - b2n (s.stampBit n)
  if s.bit (pg + 0x44) 4 then s
  else if c.ni0 = .spare ∧ c.ni1 = .spare then s.modCore n (fun c => { c with ni0 := .armed })
  else ((s.setReg (pg + 0x5C + 4 * m) 0).setReg (pg + 0x64 + 4 * m) 0).setFld (pg + 0x44) 4 1 1

/-- The bit that the taps' ARMED bank has. -/
def Taps.next (t : Taps) : Bool := decide (t.b1 = .armed)

/-- FLIP at the taps of an edge die; the first after reset finds bank 0 ARMED and has nothing to change. -/
def State.tapFlip (s : State) (e : Nat) : State :=
  let t := s.tap e
  if t.flipPending || decide (t.next = t.stamp) then s
  else
    let own (m : Map Nat) : Map Nat := Sparse.erase m (b2n t.next)
    s.setTap e { t with flipPending := true, inj := own t.inj, rem := own t.rem }

/-- A write of NI_EPOCH.FLIP. -/
def execFlip (who : Party) (n : Station) (s : State) : Host.Outcome State Fault Refusal :=
  done (s.whenUp fun s => s.ctl who (stationKey true n) fun s =>
    match n with
    | .core c => s.niFlip (coreNo c)
    | .taps e => s.tapFlip e.val)

/-- EPOCH_FLIP: at a frame boundary (R239) not before NI_FLIP_TIME a pending flip takes effect: the new bit is stamped, its
bank is ARMED, the other DRAINING. -/
def execEpochFlip (n : Station) (s : State) : Host.Outcome State Fault Refusal :=
  done (s.whenUp fun s =>
    if s.time.toNat % 1024 ≠ 0 then s
    else match n with
    | .core c =>
      let k := coreNo c
      let pg := niPage k
      if s.bit (pg + 0x44) 4 ∧ (s.reg64 (pg + 0x48)).toNat ≤ s.time.toNat then
        let m := !s.stampBit k
        ((s.setFld (pg + 0x44) 4 1 0).setFld (pg + 0x44) 3 1 (b2n m)).modCore k (fun c =>
          { c with ni0 := if m then .draining else .armed, ni1 := if m then .armed else .draining })
      else s
    | .taps e =>
      let t := s.tap e.val
      if t.flipPending then s.setTap e.val { t with flipPending := false, stamp := t.next } else s)

/-! RETIRE (R250; 08 R285) -/

/-- Whether an end names a core that was taken out of service with no spare left (R208; 08 R285). -/
def State.exhausted (s : State) (e : XEnd) : Bool :=
  decide (e.sp = 0) && (List.range (e.w + 1)).any (fun i =>
    decide (Sparse.get (fun _ => CoreMark.serving) s.marks (s.physOf (e.x + i) e.y) = .removed))

/-- A packet held from before the swap is sent again under the bit now stamped; one to a position left without a core
fails with REEF_EXHAUSTED instead. -/
def State.resend (s : State) (n : Nat) (o : Outst) : State :=
  let a := o.addr.toNat
  if s.exhausted ⟨0, colOf a, 0, rowOf a, 0⟩ then s.answered n o Code.reefExhausted
  else
    let r := s.routeFor n false (colOf a) (rowOf a)
    if s.unroutable n o.pkt r then s.answered n o Code.netRouteNone
    else
      let s1 := s.modCore n (fun c => { c with outst := c.outst.map (fun x => if x = o then { x with stamp := s.stampBit n } else x) })
      s1.inject n o.pkt (if o.isRead then [] else o.payload) r

/-- NI_EPOCH.RETIRE: the old bank is SPARE; an interface with HOLD first resends what it holds, then clears HOLD. -/
def State.niRetire (s : State) (n : Nat) : State :=
  let s1 := s.modCore n (fun c => { c with ni0 := c.ni0.retired, ni1 := c.ni1.retired })
  if !s1.bit (niPage n + 0x44) 2 then s1
  else
    let old := (s1.core n).outst.filter (fun o => decide (spaceOf o.addr.toNat = 0) && decide (o.stamp ≠ s1.stampBit n))
    (old.foldl (fun s o => s.resend n o) s1).setFld (niPage n + 0x44) 2 1 0

/-- A write of NI_EPOCH.RETIRE. -/
def execNiRetire (who : Party) (n : Station) (s : State) : Host.Outcome State Fault Refusal :=
  done (s.whenUp fun s => s.ctl who (stationKey true n) fun s =>
    match n with
    | .core c => s.niRetire (coreNo c)
    | .taps e => s.setTap e.val { (s.tap e.val) with b0 := (s.tap e.val).b0.retired, b1 := (s.tap e.val).b1.retired })

/-! The drain check (R248, R270) -/

/-- AGT_DRAIN_CTRL: BIT is written, and a SAMPLE starts unless one runs. -/
def State.drainStart (s : State) (die : Nat) (bit : Bool) : State :=
  s.setReg (agtPage die + 0x44) (BitVec.ofNat 32 (b2n bit * 2 + 4))

/-- A write of AGT_DRAIN_CTRL with SAMPLE. -/
def execDrainSample (who : Party) (die : Fin 28) (bit : Bool) (s : State) : Host.Outcome State Fault Refusal :=
  done (s.whenUp fun s => s.ctl who (agtPage die.val + 0x44) fun s => s.drainStart die.val bit)

/-- Whether a router's port is down, in its link or in the route state of a bank. -/
def State.portDown (s : State) (n p : Nat) : Bool :=
  !s.bit (rtrPage n + 0x50) p || s.bit (rtrPage n + 0x40) (28 + p) || s.bit (rtrPage n + 0x44) (28 + p)

/-- What a register of a live core adds to inj and to rem of bit b: NI_INJ and RTR_PIN of down ports; NI_EJ, RTR_DISC_E
and RTR_POUT of down ports. -/
def State.drainPart (s : State) (die b k : Nat) (v : Word) : Nat × Nat :=
  let n := keyCore k
  let off := keyOff k
  if keyDie k ≠ die ∨ 2112 ≤ keyUnit k ∨ Sparse.get (fun _ => CoreMark.serving) s.marks n = .removed then (0, 0)
  else if keyPage k = 9 then
    if off = 0x5C + 4 * b then (v.toNat, 0) else if off = 0x64 + 4 * b then (0, v.toNat) else (0, 0)
  else if keyPage k = 7 then
    if off = 0x64 + 4 * b then (0, v.toNat)
    else if 0x80 ≤ off ∧ off < 0xC0 ∧ off / 8 % 2 = b ∧ s.portDown n (off / 16 - 8) = true then
      if off % 8 = 0 then (v.toNat, 0) else (0, v.toNat)
    else (0, 0)
  else (0, 0)

/-- The counts of a die's taps: those of the bit, and those of down links. -/
def Taps.drain (t : Taps) (b : Nat) (m : Map Nat) : Nat :=
  m.foldl (fun x p =>
    if p.1 = b then x + p.2
    else if 2 ≤ p.1 ∧ p.1 % 2 = b ∧ Sparse.get (fun _ => false) t.down ((p.1 - 2) / 2) = true then x + p.2 else x) 0

/-- inj and rem of a die. -/
def State.drainSums (s : State) (die b : Nat) : Nat × Nat :=
  let r := s.regs.foldl (fun x p => let d := s.drainPart die b p.1 p.2; (x.1 + d.1, x.2 + d.2)) (0, 0)
  if die < 24 then r
  else (r.1 + (s.tap (die - 24)).drain b (s.tap (die - 24)).inj, r.2 + (s.tap (die - 24)).drain b (s.tap (die - 24)).rem)

/-- DRAIN_SAMPLE_DONE. -/
def execDrainSampleDone (die : Fin 28) (s : State) : Host.Outcome State Fault Refusal :=
  done (s.whenUp fun s =>
    let pg := agtPage die.val
    if s.bit (pg + 0x44) 2 then
      let r := s.drainSums die.val (s.fld (pg + 0x44) 1 1)
      ((s.setReg (pg + 0x48) (BitVec.ofNat 32 r.1)).setReg (pg + 0x4C) (BitVec.ofNat 32 r.2)).setFld (pg + 0x44) 2 1 0
    else s)

end Sys2Proof.Machine
end

