-- ==== Sys2Proof/Machine/Plane.lean ====
section
/-! DEFINITION. The memory planes: fabric RAM behind its plane port (10 R329 to R331), the directory and its transactions
(07 R255 to R258, R262), command delivery and configuration frames (R255; 11 R344, R358). -/
namespace Sys2Proof.Machine

/-! Fabric RAM (10 R326 to R331; 11 R343, R347) -/

/-- A region id (11 R343). -/
def regionId (die kind unit : Nat) : Nat := die * 2 ^ 19 + kind * 2 ^ 17 + unit

/-- KIND, DIE and UNIT of a region id. -/
def regionKind (r : Nat) : Nat := r / 2 ^ 17 % 4
def regionDie (r : Nat) : Nat := r / 2 ^ 19
def regionUnit (r : Nat) : Nat := r % 2 ^ 12

/-- The edge region r of edge die 24 + e. -/
def edgeRegion (e r : Nat) : Nat := regionId (24 + e) 1 r

/-- The shroud page of an edge die, and the key of register `off` of region r on it: the five registers of a collar page
from 0x040 on, at 0x100 + 0x20 r (11 R375). -/
def shrPage (e : Nat) : Nat := edgePage e 0xF021
def shrKey (e r off : Nat) : Nat := shrPage e + 0x100 + 0x20 * r + (off - 0x40)

/-- Whether a region is shrouded. -/
def State.shroudedRegion (s : State) (r : Nat) : Bool :=
  let st := (s.region r).st
  decide (st = .empty) || decide (st = .loading) || decide (st = .failed)

/-- The settings of a fabric-RAM block as its fields are used: out-of-range codes clamped (11 R347, R362). -/
structure RamCfg where
  aw : Nat
  bw : Nat
  am : Nat
  bm : Nat
  ecc : Bool
  plane : Bool
deriving DecidableEq, Repr

/-- Settings from their 16 bits. -/
def RamCfg.of (x : Nat) : RamCfg :=
  let w (lo : Nat) : Nat := if bits x lo 3 = 7 then 6 else bits x lo 3
  let m (lo : Nat) : Nat := if bits x lo 2 = 3 then 0 else bits x lo 2
  let plane := decide (bits x 11 1 = 1)
  let wide := decide (w 0 = 6) && decide (w 3 = 6)
  { aw := w 0, bw := if plane then 6 else w 3, am := m 6, bm := m 8, ecc := decide (bits x 10 1 = 1) && wide, plane := plane }

/-- The settings of block b of edge die 24 + e. -/
def State.ramCfg (s : State) (e b : Nat) : RamCfg :=
  RamCfg.of (bits (frameNat (s.frame (edgeRegion e (b / 192)) (52224 + b % 192 / 128))) (16 * (b % 192 % 128)) 16)

/-- The key of a fabric-RAM byte. -/
def framKey (e off : Nat) : Nat := e * 2 ^ 24 + off

/-- Why a plane access of a TENANT to a fabric-RAM offset is refused: beyond the RAM, or R331; 0 where it is served. -/
def State.framRefuses (s : State) (e : Nat) (t : BitVec 8) (off : Nat) : BitVec 16 :=
  if 0xC00000 ≤ off then Code.netRouteNone
  else
    let r := off / 4096 / 192
    if !(s.ramCfg e (off / 4096)).plane || s.shroudedRegion (edgeRegion e r) || !tenantOk ((s.reg (shrKey e r 0x48)).setWidth 8) t then
      Code.netPartition
    else 0

/-- Why a plane write is refused: as a read, or while the region's set-reset holds the write enables, before stage 2 of its
release (10 R324, R331; assumption 86). -/
def State.framHolds (s : State) (e : Nat) (t : BitVec 8) (off : Nat) : BitVec 16 :=
  let c := s.framRefuses e t off
  let g := s.region (edgeRegion e (off / 4096 / 192))
  if c = 0 ∧ g.st = .releasing ∧ g.stage < 2 then Code.netPartition else c

/-- A plane read of a 64 B line of fabric RAM: with ECC, errors are counted, and an uncorrectable word is answered
MEM_UNCORRECTABLE; without, nothing is detected. -/
def State.framRead (s : State) (e off : Nat) (err : LineEcc) : State × BitVec 16 × List Byte :=
  let d := Memory.readN s.fram (framKey e (off / 64 * 64)) 64
  if !(s.ramCfg e (off / 4096)).ecc then (s, 0, d)
  else match err with
    | .clean => (s, 0, d)
    | .corrected => (s.incSat (edgePage e 0xF020 + 0x80), 0, d)
    | .uncorrectable => (s.incSat (edgePage e 0xF020 + 0x84), Code.memUncorrectable, [])

/-- A plane write of a line under byte enables. -/
def State.framWrite (s : State) (e off : Nat) (be : Dword) (data : List Byte) : State :=
  let l := (List.range 64).map (fun i => (be.getLsbD i, data.getD i 0))
  { s with fram := Memory.writeBE s.fram (framKey e (off / 64 * 64)) l }

/-! Requests and answers (07 R254, R255) -/

/-- The core of a requester, if it is one. -/
def reqCore (q : PReq) : Nat := q.srcDie.toNat * 2112 + q.srcUnit.toNat

/-- The edge die of a request's destination, as 0 to 3. -/
def reqEdge (q : PReq) : Nat := q.dstDie.toNat - 24

/-- Answers a request on the response plane, or with a data header. -/
def State.answer (s : State) (op : Nat) (q : PReq) (status : BitVec 16) (data : List Byte) (poisoned : Bool) : State :=
  s.send (.answer op q.srcDie.toNat q.srcUnit.toNat q.tag.toNat status data poisoned)

/-- Acknowledges a request. -/
def State.ack (s : State) (q : PReq) (status : BitVec 16) : State := s.answer 0x18 q status [] false

/-- Sends a line: its STATUS is MEM_UNCORRECTABLE where the line is marked poisoned (12 R383). -/
def State.sendLine (s : State) (q : PReq) (data : List Byte) (poisoned : Bool) : State :=
  s.answer 0x1C q (if poisoned then Code.memUncorrectable else 0) data poisoned

/-! The directory (07 R256, R257) -/

/-- What a directory sends the snoops of a line to: the cores, or for SC the dies' agents, numbered from 50,688 on. -/
def DirState.holders : DirState → List Nat
  | .u => []
  | .s l => l
  | .sc l => l.map (fun d => 50688 + d)
  | .m o => [o]

/-- A sharer is added; a fifth turns the entry to SC. -/
def DirState.share (st : DirState) (c : Nat) : DirState :=
  match st with
  | .u => .s [c]
  | .s l => if l.contains c then .s l else if l.length < 4 then .s (l ++ [c]) else .sc (((l ++ [c]).map (fun x => x / 2112)).eraseDups)
  | .sc l => if l.contains (c / 2112) then .sc l else .sc (l ++ [c / 2112])
  | .m o => if o = c then .s [c] else .s [o, c]

/-- The window line of core n that a physical line is, for the snoop it gets; an agent is told the physical line. -/
def State.lineFor (s : State) (n pl : Nat) : Nat :=
  if 50688 ≤ n then pl
  else
    let t := s.niTenant n
    if t = 0xFF then pl
    else match s.window (chanOf (pl * 64) / 24) t.toNat with
      | some (b, _) => pl - b / 64
      | none => pl

/-- Sends a snoop, SNP_INV (0x10) or SNP_DOWN (0x11), to each holder. -/
def State.snoopAll (s : State) (op pl : Nat) (l : List Nat) : State :=
  l.foldl (fun s n => s.send (.snoop op n (s.lineFor n pl))) s

/-- The port of a request at an LPDDR channel (12 R386): a compute die's, an edge-fabric plane port's, a recorder's or Ublexia
engine's, another's. -/
def reqPort (q : PReq) : Nat :=
  if q.srcDie.toNat < 24 then 0
  else if q.srcUnit = 0xF021 then 1
  else if q.srcUnit = 0xF010 ∨ (0xF030 ≤ q.srcUnit.toNat ∧ q.srcUnit.toNat < 0xF080) then 2
  else 3

/-- A written-back line is stored, with its poison mark, and counted. -/
def State.putLine (s : State) (pl : Nat) (data : List Byte) (poisoned : Bool) : State :=
  ((s.served (pl * 64) 0).storeLine (pl * 64) data poisoned).incWrap (lpdPage (chanCo (pl * 64)).1 + 0xA8)

/-- The end of a transaction whose snoops have been answered: the line is read or written, the requester answered, the
entry's state set. RDS, RDO and UPG then wait for the requester's UNBLOCK. -/
def State.dirServe (s : State) (pl : Nat) (d : DirEntry) (x : DirTxn) : State :=
  let pa := pl * 64
  let c := reqCore x.req
  let wait (s : State) (st : DirState) : State :=
    s.setDir pl { d with st := st, txn := some { x with owed := [], unblock := true } }
  let free (s : State) (st : DirState) : State := s.setDir pl { d with st := st, txn := none }
  match x.op with
  | 1 =>
    let r := s.readLine (reqPort x.req) pa x.err
    (wait r.1 (d.st.share c)).sendLine x.req r.2.1 r.2.2
  | 2 =>
    let r := s.readLine (reqPort x.req) pa x.err
    (wait r.1 (.m c)).sendLine x.req r.2.1 r.2.2
  | 3 => (wait s (.m c)).ack x.req 0
  | 5 =>
    let r := s.readLine (reqPort x.req) pa x.err
    let st := match d.st with | .m o => .s [o] | st => st
    if r.2.2 then (free r.1 st).ack x.req Code.memUncorrectable else (free r.1 st).sendLine x.req r.2.1 false
  | 6 =>
    let r := s.writeLine (reqPort x.req) pa x.be x.data x.err
    (free r.1 .u).ack x.req r.2
  | 4 => if d.st = .m c then (free (s.putLine pl x.data x.poisoned) (if x.req.be = 0 then .s [c] else .u)).ack x.req 0 else (free s d.st).ack x.req 0
  | _ => free s .u

/-- Whether core n is one of the cores to which an agent sends the snoops of a line: its tenant's window holds it. -/
def State.holdsLine (s : State) (n pl : Nat) : Bool :=
  let t := s.niTenant n
  decide (t = 0xFF) || (match s.window (chanOf (pl * 64) / 24) t.toNat with
    | some (b, z) => decide (t ≠ 0) && decide (b ≤ pl * 64) && decide (pl * 64 < b + z)
    | none => false)

/-- The cores that an SC line's snoop reaches: the agent of each marked die sends it to the tenant's cores there, and answers
once they all have (R256). -/
def State.agentCores (s : State) (pl : Nat) (dies : List Nat) : List Nat :=
  dies.flatMap (fun d => ((List.range 2112).map (fun i => d * 2112 + i)).filter (fun n => s.holdsLine n pl))

/-- A request that finds its line free starts its transaction (R257): the holders it must snoop, or its service at once.
An UPG whose requester shares the line needs no data; by an SC entry, which names dies alone, it is taken as RDO. -/
def State.dirStart (s : State) (pl : Nat) (x : DirTxn) : State :=
  let d := s.dirAt pl
  let c := reqCore x.req
  let op := if x.op = 3 then (match d.st with | .s l => if l.contains c then 3 else 2 | _ => 2) else x.op
  let x1 : DirTxn := { x with op := op }
  let others (l : List Nat) : List Nat := if op = 2 ∨ op = 3 then l.filter (fun y => decide (y ≠ c)) else l
  let owed : List Nat :=
    match op, d.st with
    | 4, _ => []
    | _, .m o => [o]
    | 1, _ => []
    | 5, _ => []
    | _, .s l => others l
    | _, .sc l => others (s.agentCores pl l)
    | _, .u => []
  let agents : List Nat := match d.st with | .sc _ => d.st.holders | _ => []
  if owed = [] then s.dirServe pl d x1
  else (s.setDir pl { d with txn := some { x1 with owed := owed } }).snoopAll (if op = 1 ∨ op = 5 then 0x11 else 0x10) pl (agents ++ owed)

/-- Starts the requests that wait for a line, in arrival order, until one stays in progress. -/
def State.dirNext : Nat → State → Nat → State
  | 0, s, _ => s
  | f + 1, s, pl =>
    let d := s.dirAt pl
    match d.txn, d.waiting with
    | none, x :: r => State.dirNext f ((s.setDir pl { d with waiting := r }).dirStart pl x) pl
    | _, _ => s

/-- The lines in use at the directory of edge die 24 + e, free of transactions. -/
def State.dirUsed (s : State) (e : Nat) : List Nat :=
  (s.dir.filter (fun p => decide (chanOf (p.1 * 64) / 24 = e) && decide (p.2.st.holders ≠ []) && decide (p.2.txn = none))).map (·.1)

/-- The transaction of a line that waits for a way (8), or of one that makes room for line pl (0). -/
def roomTxn (op : Nat) (room : Option Nat) : DirTxn :=
  { op := op, req := ⟨0, 0, 0, 0, 0, 0, 0, 0, 0⟩, be := 0, data := [], poisoned := false, owed := [], unblock := false, err := .clean, room := room }

/-- The line that a transaction made room for starts (R257). -/
def State.roomMade (s : State) (x : DirTxn) : State :=
  match x.room with
  | none => s
  | some pl =>
    let s1 := s.setDir pl { (s.dirAt pl) with txn := none }
    State.dirNext ((s1.dirAt pl).waiting.length + 1) s1 pl

/-- A request takes a new line. The directory may first evict another, and the request then waits until that one's snoops have
been answered and its data written back (R257). The spec gives neither the sets nor the choice, so whether an eviction
happens, once 16 lines are in use, and which line goes, are free (assumption 1). -/
def State.dirTake (s : State) (e pl : Nat) (x : DirTxn) : State :=
  let l := (s.dirUsed e).filter (fun y => decide (y ≠ pl))
  if l.length < 16 then s.dirStart pl x
  else
    let d := s.draw.1
    let s1 := s.draw.2
    if d % 2 = 0 then s1.dirStart pl x
    else
      let v := l.getD (d / 2 % l.length) pl
      let s2 := (s1.setDir pl { (s1.dirAt pl) with txn := some (roomTxn 8 none), waiting := (s1.dirAt pl).waiting ++ [x] }).dirStart v (roomTxn 0 (some pl))
      if (s2.dirAt v).txn.isSome then s2 else s2.roomMade (roomTxn 0 (some pl))

/-- A refused request is counted at the requester, if that is a network interface: a directory or fabric-RAM port has no count
of its own (R262; 10 R331). -/
def State.planeRefused (s : State) (q : PReq) (c : BitVec 16) : State :=
  (if c = Code.netPartition ∧ q.srcDie.toNat < 24 ∧ q.srcUnit.toNat < 2112 then s.refused (reqCore q) q.tenant 0 0 else s).ack q c

/-- A request reaches the directory of its line: it is translated and judged, and waits behind a transaction in progress; a
write-back from a core that is being snooped is that snoop's data (R257, R258). While its channel is untrained or in self-refresh it waits, and the state stays as it is. -/
def State.dirRequest (s : State) (x : DirTxn) : State :=
  let q := x.req
  if q.dstDie.toNat < 24 ∨ 27 < q.dstDie.toNat ∨ 3 ≤ q.size.toNat ∨ spaceOf q.addr.toNat ≠ 1 then s.ack q Code.netRouteNone
  else match s.translate (reqEdge q) q.tenant (q.addr.toNat % 2 ^ 41 / 64 * 64) 64 with
    | .error c => s.planeRefused q c
    | .ok pa =>
      let ch := (chanCo pa).1
      if s.chanOffline ch then s.ack q Code.memUncorrectable
      else if !s.chanServes ch then s
      else
        let pl := pa / 64
        let d := s.dirAt pl
        match d.txn with
        | some y =>
          if x.op = 4 ∧ y.owed.contains (reqCore q) = true then (s.putLine pl x.data x.poisoned).ack q 0
          else s.setDir pl { d with waiting := d.waiting ++ [x] }
        | none => if d.st = .u ∧ x.op ≤ 3 then s.dirTake (reqEdge q) pl x else s.dirStart pl x

/-- A request as the directory keeps it. -/
def dirTxn (op : Nat) (q : PReq) (be : Dword) (data : List Byte) (e : LineEcc) : DirTxn :=
  { op := op, req := q, be := be, data := data, poisoned := false, owed := [], unblock := false, err := e, room := none }

/-- Runs the arrival of a request: it has come over the request plane and, with data, the data plane; one with an OP from 0x0B
to 0x0F is malformed (R253, R255). -/
def State.request (s : State) (q : PReq) (dst : PlaneEnd) (data : Bool) (f : State → State) : State :=
  let src := planeEnd q.srcDie.toNat q.srcUnit.toNat
  s.overPlane 0 src dst fun s =>
    if 0x0B ≤ q.op.toNat ∧ q.op.toNat ≤ 0x0F then s.ack q Code.netRouteNone
    else if data then s.overPlane 3 src dst f else f s

/-- RDS. -/
def execRds (q : PReq) (e : LineEcc) (s : State) : Host.Outcome State Fault Refusal :=
  done (s.whenUp fun s => s.request q (.edge (reqEdge q)) false fun s => s.dirRequest (dirTxn 1 q 0 [] e))

/-- RDO. -/
def execRdo (q : PReq) (e : LineEcc) (s : State) : Host.Outcome State Fault Refusal :=
  done (s.whenUp fun s => s.request q (.edge (reqEdge q)) false fun s => s.dirRequest (dirTxn 2 q 0 [] e))

/-- UPG. -/
def execUpg (q : PReq) (e : LineEcc) (s : State) : Host.Outcome State Fault Refusal :=
  done (s.whenUp fun s => s.request q (.edge (reqEdge q)) false fun s => s.dirRequest (dirTxn 3 q 0 [] e))

/-- WB: from the owner it is written and the line is U, or S for an owner that keeps it; from a core that is being snooped it is
the snoop's data; from any other core nothing is written. -/
def execWb (q : PReq) (data : List Byte) (poisoned : Bool) (s : State) : Host.Outcome State Fault Refusal :=
  done (s.whenUp fun s => s.request q (.edge (reqEdge q)) true fun s =>
    s.dirRequest { dirTxn 4 q 0 data .clean with poisoned := poisoned })

/-- RD: an uncached line read at the directory or at a fabric-RAM port. -/
def execRd (q : PReq) (e : LineEcc) (s : State) : Host.Outcome State Fault Refusal :=
  done (s.whenUp fun s => s.request q (.edge (reqEdge q)) false fun s =>
    if spaceOf q.addr.toNat = 2 ∧ 24 ≤ q.dstDie.toNat ∧ q.dstDie.toNat < 28 ∧ q.size.toNat < 3 then
      let off := q.addr.toNat % 2 ^ 24
      let c := s.framRefuses (reqEdge q) q.tenant off
      if c ≠ 0 then s.planeRefused q c
      else
        let r := s.framRead (reqEdge q) off e
        if r.2.1 ≠ 0 then r.1.ack q r.2.1 else r.1.sendLine q r.2.2 false
    else s.dirRequest (dirTxn 5 q 0 [] e))

/-- WR: an uncached write under byte enables at the directory or at a fabric-RAM port. -/
def execWr (q : PReq) (be : Dword) (data : List Byte) (e : LineEcc) (s : State) : Host.Outcome State Fault Refusal :=
  done (s.whenUp fun s => s.request q (.edge (reqEdge q)) true fun s =>
    if spaceOf q.addr.toNat = 2 ∧ 24 ≤ q.dstDie.toNat ∧ q.dstDie.toNat < 28 ∧ q.size.toNat < 3 then
      let off := q.addr.toNat % 2 ^ 24
      let c := s.framHolds (reqEdge q) q.tenant off
      if c ≠ 0 then s.planeRefused q c else (s.framWrite (reqEdge q) off be data).ack q 0
    else s.dirRequest (dirTxn 6 q be data e))

/-- The physical line of a snoop's answer. -/
def State.snoopLine (s : State) (n line : Nat) : Option Nat :=
  let t := s.niTenant n
  if t = 0xFF then some line
  else match s.window (chanOf (line * 64) / 24) t.toNat with
    | some (b, _) => some (b / 64 + line)
    | none => none

/-- The one combined response of a die's agent to the snoop of an SC line (R256): NONE, since a shared line has no data. -/
def agentRsp (die pl : Nat) : PReq :=
  { op := 0x1A, srcDie := BitVec.ofNat 5 die, srcUnit := 0xF003, tenant := 0xFF, tag := 0, dstDie := BitVec.ofNat 5 (24 + chanOf (pl * 64) / 24),
    size := 0, addr := BitVec.ofNat 64 (2 ^ 56 + pl * 64), be := 0 }

/-- A snoop is answered by a core, to the directory or, for an SC line, to its die's agent, which answers once all have; the
last answer lets the request be served (R256 to R258). -/
def State.snoopAnswered (s : State) (n pl : Nat) (data : Option (List Byte)) (poisoned : Bool) : State :=
  let d := s.dirAt pl
  match d.txn with
  | none => s
  | some x =>
    if !x.owed.contains n then s
    else
      let s1 := match data with
        | some l => s.putLine pl l poisoned
        | none => s
      let x1 : DirTxn := { x with owed := x.owed.filter (fun y => decide (y ≠ n)) }
      let agent := (match d.st with | .sc _ => true | _ => false) && x1.owed.all (fun y => decide (y / 2112 ≠ n / 2112))
      let s2 := if agent then s1.send (.plane 0x1A (agentRsp (n / 2112) pl) [] false) else s1
      if x1.owed ≠ [] then s2.setDir pl { d with txn := some x1 }
      else
        let s3 := s2.dirServe pl d x1
        (State.dirNext ((s3.dirAt pl).waiting.length + 1) s3 pl).roomMade x1

/-- SNP_RSP; `line` is the line the snoop named. -/
def execSnpRsp (c : CoreId) (line : Nat) (data : Option (List Byte)) (poisoned : Bool) (s : State) : Host.Outcome State Fault Refusal :=
  done (s.whenUp fun s => s.overPlane 1 (coreEnd (coreNo c)) (lineEnd line) fun s =>
    match s.snoopLine (coreNo c) line with
    | some pl => s.snoopAnswered (coreNo c) pl data poisoned
    | none => s)

/-- UNBLOCK: the requester has its line, and the transaction ends. -/
def execUnblock (c : CoreId) (line : Nat) (s : State) : Host.Outcome State Fault Refusal :=
  done (s.whenUp fun s => s.overPlane 1 (coreEnd (coreNo c)) (lineEnd line) fun s =>
    match s.snoopLine (coreNo c) line with
    | none => s
    | some pl =>
      let d := s.dirAt pl
      match d.txn with
      | some x =>
        if x.unblock && decide (x.owed = []) && decide (reqCore x.req = coreNo c) then
          State.dirNext (d.waiting.length + 1) (s.setDir pl { d with txn := none }) pl
        else s
      | none => s)

/-! Command delivery and configuration frames -/

/-- PLANE_CMD: a Ublexia engine's data for a scratchpad reach its interface: the TENANT is compared with the owner, and the
bytes are written (07 R255, R262; 14 R449). -/
def execPlaneCmd (q : PReq) (data : List Byte) (s : State) : Host.Outcome State Fault Refusal :=
  done (s.onIsland fun s => s.request q (coreEnd (s.physOf (colOf q.addr.toNat) (rowOf q.addr.toNat))) true fun s =>
    if 24 ≤ q.dstDie.toNat ∨ 3 ≤ q.size.toNat ∨ spaceOf q.addr.toNat ≠ 0 ∨ 2 ^ 20 < q.addr.toNat % 2 ^ 20 + data.length then s.ack q Code.netRouteNone
    else
      let n := s.physOf (colOf q.addr.toNat) (rowOf q.addr.toNat)
      if !tenantOk (s.niTenant n) q.tenant then (s.refused n q.tenant 0 0).ack q Code.netPartition
      else ((s.spadTouch n).spadWrite n (q.addr.toNat % 2 ^ 20) data).ack q 0)

/-- The frames of a region (11 R343). -/
def regionFrames (r : Nat) : Nat :=
  match r / 2 ^ 17 % 4 with
  | 0 => 128
  | 1 => 52226
  | 2 => if r / 2 ^ 19 < 24 then 2112 else 64
  | _ => 65536

/-- Whether a region id is valid (11 R343). -/
def regionValid (r : Nat) : Bool :=
  let die := r / 2 ^ 19
  let unit := r % 2 ^ 12
  decide (r < 2 ^ 24) && decide (r / 2 ^ 12 % 32 = 0) && (match r / 2 ^ 17 % 4 with
    | 0 => decide (die < 24) && decide (unit < 2112)
    | 1 => decide (24 ≤ die) && decide (die < 28) && decide (unit < 16)
    | 2 => decide (die < 28) && decide (unit = 0)
    | _ => decide (die = 24) && decide (unit = 0))

/-- Writes a frame of a region: a fabric-RAM data frame goes to its block, any other to configuration memory (11 R344). -/
def State.putFrame (s : State) (r f : Nat) (ws : List Word) : State :=
  let w := (List.range 64).map (fun i => ws.getD i 0)
  if r / 2 ^ 17 % 4 = 1 ∧ 49152 ≤ f ∧ f < 52224 then
    let off := (r % 2 ^ 12 * 192 + (f - 49152) / 16) * 4096 + (f - 49152) % 16 * 256
    { s with fram := Memory.writeN s.fram (framKey (r / 2 ^ 19 - 24) off) ((w.map (fun x => leBytes 4 x.toNat)).flatten) }
  else s.setFrame r f w

/-- CFG: a configuration frame reaches the halyard or agent of its die, which writes it into a region that is loading. -/
def execCfg (e : Fin 4) (die : Fin 28) (region : BitVec 24) (frame : Nat) (words : List Word) (s : State) : Host.Outcome State Fault Refusal :=
  done (s.whenUp fun s => s.overPlane 0 (.edge e.val) (planeEnd die.val 0xF003) fun s => s.overPlane 3 (.edge e.val) (planeEnd die.val 0xF003) fun s =>
    let r := region.toNat
    if regionValid r && decide (r / 2 ^ 19 = die.val) && decide (frame < regionFrames r) && decide ((s.region r).st = .loading)
        && decide (words.length = 64) && (decide (e.val = 0) || decide (die.val = 24 + e.val) || decide (die.val < 24)) then
      s.putFrame r frame words
    else s)

end Sys2Proof.Machine
end

