-- ==== Sys2Proof/Machine/Fabric.lean ====
section
/-! DEFINITION. The logic fabric: cells, combining multiplexers, carry and routing (10 R314 to R321; 11 R345, R346), clock
spines (R321, R323), what an edge loads (R316, R324, R325), the user ports of fabric RAM (R327 to R329), and what leaves a
region: shell crossings and user I/O pins (R340; 11 R348, R365). -/
namespace Sys2Proof.Machine

/-! The frames of a cluster (11 R344 to R346) -/

/-- The clusters of a region: 16 of a collar, 6,144 of an edge region. -/
def regionClusters (r : Nat) : Nat := if regionKind r = 0 then 16 else 6144

/-- Frame f of cluster c of a region, as one number. -/
def State.clusterFrame (s : State) (r c f : Nat) : Nat := frameNat (s.frame r (8 * c + f))

/-- Cell k of a cluster: 512 bits. -/
def State.cell (s : State) (r c k : Nat) : Nat := bits (s.clusterFrame r c (k / 4)) (512 * (k % 4)) 512

/-- The lowest bit set of a one-hot select (R320). -/
def selOf (w x : Nat) : Option Nat := (List.range w).find? (fun i => decide (bits x i 1 = 1))

/-- MODE and DSRC with out-of-range codes clamped (11 R362). -/
def cellArith (x : Nat) : Bool := decide (bits x 16 2 = 1)
def cellDsrc (x : Nat) : Nat := if bits x 18 2 = 3 then 0 else bits x 18 2

/-- The flip-flop's INIT value. -/
def cellInit (x : Nat) : Bool := decide (bits x 21 1 = 1)

/-! Values inside a region -/

/-- The key of a flip-flop. -/
def ffKey (r c k : Nat) : Nat := r * 2 ^ 20 + c * 16 + k

/-- A flip-flop's Q. It is kept as its difference from INIT, so that a region whose flip-flops have not been clocked holds
INIT in every one (R324, R325). -/
def State.ff (s : State) (r c k : Nat) : Bool := Sparse.get (fun _ => false) s.ffs (ffKey r c k) ^^ cellInit (s.cell r c k)

/-- The combinational outputs of one cluster: bit k for cell k, bit 16 for the CO of cell 15. -/
abbrev Comb := List Nat

/-- An output of a cluster. -/
def combBit (l : Comb) (c i : Nat) : Bool := decide (bits (l.getD c 0) i 1 = 1)

/-- The cluster that lies `span` clusters behind cluster c along direction d (0 east, 1 west, 2 north, 3 south), the
driver of an arrival; none outside the region. A collar is a ring. -/
def driverOf (r c d span : Nat) : Option Nat :=
  if regionKind r = 0 then some (if d % 2 = 0 then (c + 16 - span % 16) % 16 else (c + span) % 16)
  else
    let col := c / 256
    let row := c % 256
    match d with
    | 0 => if span ≤ col then some (c - 256 * span) else none
    | 1 => if col + span < 24 then some (c + 256 * span) else none
    | 2 => if span ≤ row then some (c - span) else none
    | _ => if row + span < 256 then some (c + span) else none

/-- The direction and span of outbound wire w, 32 to 255. -/
def wireDir (w : Nat) : Nat × Nat :=
  if w < 160 then ((w - 32) / 32, 1) else if w < 224 then ((w - 160) / 16, 4) else ((w - 224) / 8, 16)

/-- The select of the driver multiplexer of wire w of a cluster (11 R346). -/
def State.wireSel (s : State) (r c w : Nat) : Nat := bits (s.clusterFrame r c (4 + w / 64)) (32 * (w % 64)) 32

/-- An outbound wire of a cluster: an output of one of its cells. -/
def State.outWire (s : State) (r : Nat) (l : Comb) (c w : Nat) : Bool :=
  match selOf 32 (s.wireSel r c w) with
  | none => false
  | some i => if i < 16 then combBit l c i else s.ff r c (i - 16)

/-- The level that a port of the region drives at arrival a of cluster c; 0 without one. -/
def portLevel (ext : List (Nat × Bool)) (c a : Nat) : Bool :=
  match ext.find? (fun p => decide (p.1 = c * 256 + a)) with
  | some p => p.2
  | none => false

/-- Arrival a of a cluster. What the ports of the region drive in is given by `ext`, pairs of cluster * 256 + arrival and
level: the spec names no wire for a port signal. A port drives no wire that a multiplexer drives (R319). -/
def State.arrival (s : State) (r : Nat) (ext : List (Nat × Bool)) (l : Comb) (c a : Nat) : Bool :=
  let d := wireDir (a + 32)
  match driverOf r c d.1 d.2 with
  | none => portLevel ext c a
  | some c' => if s.wireSel r c' (a + 32) = 0 then portLevel ext c a else s.outWire r l c' (a + 32)

/-- Local wire w of a cluster. One local wire carries the CO of cell 15 unless its select has a bit set (R318). -/
def State.localWire (s : State) (r : Nat) (ext : List (Nat × Bool)) (l : Comb) (c w : Nat) : Bool :=
  match selOf 32 (s.wireSel r c w) with
  | none => decide (w = Config.coWire % 32) && combBit l c 16
  | some 0 => combBit l c (w % 16)
  | some 1 => s.ff r c (w % 16)
  | some j => s.arrival r ext l c ((7 * w + (j - 2)) % 224)

/-- The level that a one-hot select over the local wires gives; 0 where no bit is set. -/
def pickWire (wires : Nat) (sel : Nat) : Bool :=
  match selOf 32 sel with
  | none => false
  | some w => decide (bits wires w 1 = 1)

/-- Table input i of a cell. -/
def cellIn (wires x i : Nat) : Nat := b2n (pickWire wires (bits x (32 + 32 * i) 32))

/-- The table output O (R314). -/
def cellO (wires x : Nat) : Bool :=
  decide (bits x (8 * cellIn wires x 3 + 4 * cellIn wires x 2 + 2 * cellIn wires x 1 + cellIn wires x 0) 1 = 1)

/-- The sum and the carry out of a cell in arithmetic mode (R315). -/
def cellSum (wires x : Nat) (ci : Bool) : Bool × Bool :=
  let idx := 4 * cellIn wires x 2 + 2 * cellIn wires x 1 + cellIn wires x 0
  let p := decide (bits x (8 + idx) 1 = 1)
  (p ^^ ci, if p then ci else decide (bits x idx 1 = 1))

/-- The carry into cell 0 (R318). -/
def State.carryIn (s : State) (r : Nat) (l : Comb) (c wires : Nat) : Bool :=
  let x := s.cell r c 15
  match bits x 192 2 with
  | 0 => false
  | 1 => true
  | 2 => pickWire wires (bits x 224 32)
  | _ =>
    let first := if regionKind r = 0 then decide (c = 0) else decide (c % 256 = 0)
    !first && combBit l (c - 1) 16

/-- The sums of the cells of a cluster and the last carry, cell by cell. The carry out of a cell in logic mode is not
stated and is free (assumption 1). -/
def State.sums (s : State) (r c wires : Nat) (ci : Bool) : List Bool × Bool :=
  (List.range 16).foldl (fun (a : List Bool × Bool) k =>
    let x := s.cell r c k
    let q := cellSum wires x a.2
    (a.1 ++ [q.1], if cellArith x then q.2 else decide (Config.free (s.freeCtr + c * 16 + k) % 2 = 1))) ([], ci)

/-- The combining multiplexers above a cell: the number of the F5 (0 to 7), F6 (8 to 11), F7 (12, 13) and F8 (14) whose
select each cell of that number holds (11 R345). -/
def muxesOf (k : Nat) : List (Nat × Nat) := [(k / 2, 1), (8 + k / 4, 2), (12 + k / 8, 4), (14, 8)]

/-- The output of a cell or, while the select of each multiplexer it feeds is configured, of that multiplexer (R316,
R317; assumption 24). `outs` are the cells' own outputs, O or S. -/
def State.combined (s : State) (r c wires : Nat) (outs : List Bool) (k : Nat) : Bool :=
  let sel (j : Nat) : Nat := bits (s.cell r c j) 192 32
  let on (j : Nat) : Bool := decide (sel j ≠ 0)
  let pick (j : Nat) (a b : Bool) : Bool := if pickWire wires (sel j) then b else a
  let f5 (j : Nat) : Bool := pick j (outs.getD (2 * j) false) (outs.getD (2 * j + 1) false)
  let f6 (j : Nat) : Bool := pick (8 + j) (f5 (2 * j)) (f5 (2 * j + 1))
  let f7 (j : Nat) : Bool := pick (12 + j) (f6 (2 * j)) (f6 (2 * j + 1))
  if !on (k / 2) then outs.getD k false
  else if !on (8 + k / 4) then f5 (k / 2)
  else if !on (12 + k / 8) then f6 (k / 4)
  else if !on 14 then f7 (k / 8)
  else pick 14 (f7 0) (f7 1)

/-- What a cluster computes from the outputs of the region: the local wires, each cell's table output combined, its sum,
and the last carry. -/
structure ClusterOut where
  wires : Nat
  comb : List Bool
  sums : List Bool
  co : Bool
deriving DecidableEq, Repr

/-- One cluster. -/
def State.cluster (s : State) (r : Nat) (ext : List (Nat × Bool)) (l : Comb) (c : Nat) : ClusterOut :=
  let wires := (List.range 32).foldl (fun x w => x + b2n (s.localWire r ext l c w) * 2 ^ w) 0
  let q := s.sums r c wires (s.carryIn r l c wires)
  let outs := (List.range 16).map (fun k => if cellArith (s.cell r c k) then q.1.getD k false else cellO wires (s.cell r c k))
  { wires := wires, comb := (List.range 16).map (s.combined r c wires outs), sums := q.1, co := q.2 }

/-- The combinational outputs of a cluster: O or the combined output in logic mode, S in arithmetic mode. -/
def State.clusterBits (s : State) (r c : Nat) (o : ClusterOut) : Nat :=
  (List.range 16).foldl (fun x k =>
    x + b2n (if cellArith (s.cell r c k) then o.sums.getD k false else o.comb.getD k false) * 2 ^ k) (b2n o.co * 2 ^ 16)

/-- One round over every cluster of a region. -/
def State.round (s : State) (r : Nat) (ext : List (Nat × Bool)) (l : Comb) : Comb :=
  (List.range (regionClusters r)).map (fun c => s.clusterBits r c (s.cluster r ext l c))

/-- Rounds until nothing changes. The bound is as long as the longest path of a region without a combinational loop. -/
def State.settleComb (s : State) (r : Nat) (ext : List (Nat × Bool)) : Nat → Comb → Comb
  | 0, l => l
  | n + 1, l =>
    let l1 := s.round r ext l
    if l1 = l then l else s.settleComb r ext n l1

/-- The settled outputs of a region. -/
def State.comb (s : State) (r : Nat) (ext : List (Nat × Bool)) : Comb := s.settleComb r ext (32 * regionClusters r) []

/-- What a flip-flop holds after a rising edge of its clock (R316). -/
def State.ffNext (s : State) (r : Nat) (o : ClusterOut) (c k : Nat) : Bool :=
  let x := s.cell r c k
  let ce := decide (bits x 20 1 = 1) || pickWire o.wires (bits x 160 32)
  if !ce then s.ff r c k
  else match cellDsrc x with
    | 1 => o.sums.getD k false
    | 2 => decide (cellIn o.wires x 3 = 1)
    | _ => o.comb.getD k false

/-! Clock spines (R321, R323; 11 R366) -/

/-- The edge die of a clock source, as 0 to 3; none for a collar's clock. -/
def fabDie : FabClk → Option Nat
  | .collar _ => none
  | .pll e _ => some e.val
  | .pin e _ => some e.val
  | .lane l => some l.e.val
  | .mac p => some p.e.val

/-- The clock and pin settings of edge die 24 + e: its die-static frames 32 to 35 (11 R348). -/
def State.ioSettings (s : State) (e : Nat) : List Nat :=
  (List.range 4).map (fun i => frameNat (s.frame (regionId (24 + e) 2 0) (32 + i)))

/-- The spines of a region on which an edge of a clock source arrives: the one of a collar, and of an edge region those that
select a net that takes the source. -/
def State.spines (s : State) (clk : FabClk) (r : Nat) : List Nat :=
  match clk with
  | .collar _ => if regionKind r = 0 then [0] else []
  | _ =>
    let e := regionDie r - 24
    if regionKind r = 1 ∧ fabDie clk = some e then
      ((List.finRange 8).filter (fun k =>
        match Config.spineNet e (s.ioSettings e) (regionUnit r) k with
        | some n => decide (Config.netSource e (s.ioSettings e) n = some clk)
        | none => false)).map (fun k => k.val)
    else []

/-- The spine that clocks a cluster. -/
def State.spineOf (s : State) (r c : Nat) : Nat :=
  if regionKind r = 0 then 0 else (Config.clusterSpine (regionDie r - 24) (s.ioSettings (regionDie r - 24)) (regionUnit r) c).val

/-- Counts an edge on some spines at or after T + 256 ns, up to three. -/
def Region.edge (g : Region) (now : Dword) (sp : List Nat) : Region :=
  if g.at_.toNat + 256 ≤ now.toNat then
    { g with edges := sp.foldl (fun m k => Sparse.put (fun _ => 0) m k (min 3 (Sparse.get (fun _ => 0) m k + 1))) g.edges }
  else g

/-- The spines whose flip-flops have left reset: the third edge is the first that loads (11 R366; assumption 24). -/
def Region.loads (g : Region) (sp : List Nat) : List Nat :=
  if g.st = .running then sp.filter (fun k => decide (3 ≤ Sparse.get (fun _ => 0) g.edges k)) else []

/-- What the flip-flops hold after an edge that loads some spines, the outputs being `l`. -/
def State.ffsNext (s : State) (r : Nat) (ext : List (Nat × Bool)) (l : Comb) (live : List Nat) : Map Bool :=
  ((List.range (regionClusters r)).filter (fun c => live.contains (s.spineOf r c))).foldl (fun m c =>
    let o := s.cluster r ext l c
    (List.range 16).foldl (fun m k =>
      Sparse.put (fun _ => false) m (ffKey r c k) (s.ffNext r o c k ^^ cellInit (s.cell r c k))) m) s.ffs

/-! User ports of fabric RAM (R327 to R329) -/

/-- The width in bits of a port. -/
def RamCfg.width (c : RamCfg) (b : Bool) : Nat := 2 ^ (if b then c.bw else c.aw)

/-- Bits [lo + w - 1 : lo] of block blk of edge die 24 + e. -/
def State.ramBits (s : State) (e blk lo w : Nat) : Nat :=
  bits (leNat (Memory.readN s.fram (framKey e (blk * 4096 + lo / 8)) 9)) (lo % 8) w

/-- Writes bits of a block. -/
def State.ramPut (s : State) (e blk lo w v : Nat) : State :=
  let a := framKey e (blk * 4096 + lo / 8)
  let n := (lo % 8 + w + 7) / 8
  let old := leNat (Memory.readN s.fram a n)
  { s with fram := Memory.writeN s.fram a (leBytes n (setBits old (lo % 8) w v)) }

/-- The keys of a port's read data and of its RAM_UE. -/
def ramKey (e blk : Nat) (b : Bool) : Nat := (e * 4096 + blk) * 4 + b2n b * 2
def ueKey (e blk : Nat) (b : Bool) : Nat := ramKey e blk b + 1

/-- Whether a port of a block is one that user logic clocks: port B in PLANE mode is not. -/
def ramUser (c : RamCfg) (b : Bool) : Bool := !(b && c.plane)

/-- The read data of an access: the contents before the edge, the data written, or the data held (R327); with ECC what the
word's errors make of them (R329): the raw word of a double-bit error is not stated and is free. -/
def State.ramRead (s : State) (e : Nat) (old : State) (writes : Bool) (x : RamOp) : State :=
  let c := old.ramCfg e x.block
  let w := c.width x.portB
  let lo := x.addr % (32768 / w) * w
  let mode := if x.portB then c.bm else c.am
  let k := ramKey e x.block x.portB
  let put (s : State) (v : Nat) (ue : Bool) : State :=
    { s with
      ramOut := Sparse.put (fun _ => (0 : Dword)) (Sparse.put (fun _ => (0 : Dword)) s.ramOut k (BitVec.ofNat 64 v)) (ueKey e x.block x.portB)
        (BitVec.ofNat 64 (b2n ue)) }
  if x.we && writes && decide (mode = 2) then s
  else if x.we && writes && decide (mode = 1) then put s (x.data.toNat % 2 ^ w) false
  else if !c.ecc then put s (old.ramBits e x.block lo w) false
  else match x.err with
    | .clean => put s (old.ramBits e x.block lo w) false
    | .corrected => (put s (old.ramBits e x.block lo w) false).incSat (edgePage e 0xF020 + 0x80)
    | .uncorrectable => (put s.draw.2 (s.draw.1 % 2 ^ 64) true).incSat (edgePage e 0xF020 + 0x84)

/-- The write of an access. -/
def State.ramWrite (s : State) (e : Nat) (x : RamOp) : State :=
  let c := s.ramCfg e x.block
  let w := c.width x.portB
  s.ramPut e x.block (x.addr % (32768 / w) * w) w (x.data.toNat % 2 ^ w)

/-- The accesses of one clock edge at the ports that some spines clock: reads see the contents before it, and port A's writes
come last, so that its bytes are the ones stored (R328). Write enables act from stage 2 of the region's release (R324; 11
R366). -/
def State.clockRams (s : State) (r : Nat) (sp : List Nat) (writes : Bool) (l : List RamOp) : State :=
  let e := regionDie r - 24
  let ok := l.filter (fun x => decide (x.block / 192 = regionUnit r) && ramUser (s.ramCfg e x.block) x.portB
    && sp.contains (Config.ramSpine e (s.ioSettings e) x.block x.portB).val)
  let s1 := ok.foldl (fun t x => t.ramRead e s writes x) s
  if !writes then s1
  else
    let ws := ok.filter (fun x => x.we)
    (ws.filter (fun x => !x.portB)).foldl (fun t x => t.ramWrite e x) ((ws.filter (fun x => x.portB)).foldl (fun t x => t.ramWrite e x) s1)

/-! What leaves a region: crossings and pins (R340; 11 R348, R365) -/

/-- The level of an outbound wire of a cluster, both given freely. -/
def State.wireAt (s : State) (r : Nat) (l : Comb) (p : Nat × Nat) : Bool := s.outWire r l (p.1 % regionClusters r) (32 + p.2 % 224)

/-- The park code of shell crossing x of an edge region (11 R348). -/
def State.parkCode (s : State) (r x : Nat) : Nat :=
  bits (frameNat (s.frame (regionId (regionDie r) 2 0) (2 * regionUnit r + x / 1024))) (2 * (x % 1024)) 2

/-- The key of a shell crossing. -/
def crossKey (r x : Nat) : Nat := r * 2048 + x

/-- What a shell crossing of an edge region carries: what the region's logic drives, or while the region is shrouded 0, 1 or the
level held (11 R348, R365). -/
def State.crossLevel (s : State) (r x : Nat) : Bool :=
  let v := Sparse.get (fun _ => false) s.cross (crossKey r x)
  if s.shroudedRegion r then (match s.parkCode r x with | 1 => true | 2 => v | _ => false) else v

/-- The settings of user pin i of edge die 24 + e. -/
def State.pinCfg (s : State) (e i : Nat) : PinCfg := Config.pinCfg e (s.ioSettings e) i

/-- The drive of a pin in mA, code 3 clamped to 12 mA (R340; 11 R362). -/
def pinMa (c : PinCfg) : Nat := match c.drive with | 0 => 4 | 1 => 8 | _ => 12

/-- Whether the bank of a pin is declared at 1.8 V; codes 2 and 3 are clamped to it (11 R348). -/
def State.pin18 (s : State) (e i : Nat) : Bool :=
  decide (bits (frameNat (s.frame (regionId (24 + e) 2 0) 36)) (2 * (i / 16)) 2 ≠ 0)

/-- The user pins of an edge region. -/
def pinsOf (r : Nat) : List Nat :=
  (List.range 64).filter (fun i => match Config.pinRegion (regionDie r - 24) i with | some u => decide (u.val = regionUnit r) | none => false)

/-- The key of a user pin. -/
def pinKey (e i : Nat) : Nat := e * 64 + i

/-- What a user pin shows, and its registers. -/
def State.pinNow (s : State) (e i : Nat) : PinOut := Sparse.get (fun _ => PinOut.parked) s.ioPins (pinKey e i)
def State.pinReg (s : State) (e i : Nat) : PinReg := Sparse.get (fun _ => PinReg.reset) s.ioRegs (pinKey e i)

/-- A user pin takes what it shows; a change goes out. -/
def State.showPin (s : State) (e i : Nat) (o : PinOut) : State :=
  if s.pinNow e i = o then s
  else ({ s with ioPins := Sparse.put (fun _ => PinOut.parked) s.ioPins (pinKey e i) o } : State).send (.userPin e i o)

/-- What a pin of region r shows in the first or, of a double-rate output, in the second half of a clock cycle. -/
def State.pinShows (s : State) (r : Nat) (l : Comb) (i : Nat) (second : Bool) : PinOut :=
  let e := regionDie r - 24
  let c := s.pinCfg e i
  let q := s.pinReg e i
  let v := if c.outReg then (if second then q.fall else q.out) else s.wireAt r l (if second then c.fall else c.out)
  let en := match c.dir with
    | .input => false
    | .output => true
    | .bidir => if c.enReg then q.en else s.wireAt r l c.en
  { drive := if en then some v else none, pull := c.pull, schmitt := c.schmitt, mA := pinMa c, fast := c.fast, v18 := s.pin18 e i }

/-- The crossings and pins of an edge region follow its logic (11 R366). -/
def State.driveOut (s : State) (r : Nat) (l : Comb) : State :=
  if regionKind r ≠ 1 then s
  else
    let e := regionDie r - 24
    let s1 : State := { s with cross := (List.range 2048).foldl (fun m x =>
      Sparse.put (fun _ => false) m (crossKey r x) (s.wireAt r l (Config.crossing r x))) s.cross }
    (pinsOf r).foldl (fun (t : State) i =>
      let t1 := t.showPin e i (s.pinShows r l i false)
      if (s.pinCfg e i).ddr then t1.showPin e i (s.pinShows r l i true) else t1) s1

/-- The registers of a region's pins at an edge on some spines: `level` gives the levels at the inputs, of the rising edge and of
the falling edge before it, where they are known. -/
def State.clockPins (s : State) (r : Nat) (sp : List Nat) (l : Comb) (level : Nat → Bool → Option Bool) : State :=
  let e := regionDie r - 24
  { s with ioRegs := ((pinsOf r).filter (fun i => sp.contains (s.pinCfg e i).spine.val)).foldl (fun m i =>
      let c := s.pinCfg e i
      let q := s.pinReg e i
      Sparse.put (fun _ => PinReg.reset) m (pinKey e i)
        { inp := (level i false).getD q.inp, inFall := (level i true).getD q.inFall, out := s.wireAt r l c.out, fall := s.wireAt r l c.fall,
          en := s.wireAt r l c.en }) s.ioRegs }

/-- The set-reset takes hold of a region (R324): its flip-flops are at INIT, its user pins high-impedance with a weak
pull-down. -/
def State.setReset (s : State) (r : Nat) : State :=
  let s1 : State := { s with ffs := s.ffs.filter (fun p => decide (p.1 / 2 ^ 20 ≠ r)) }
  if regionKind r ≠ 1 then s1
  else
    let e := regionDie r - 24
    (pinsOf r).foldl (fun (t : State) i =>
      ({ t with ioRegs := Sparse.put (fun _ => PinReg.reset) t.ioRegs (pinKey e i) .reset } : State).showPin e i .parked) s1

end Sys2Proof.Machine
end

