-- ==== Sys2Proof/Machine/Recorder.lean ====
section
/-! DEFINITION. The recorder (08 R292 to R295, 14 R453): records and a tenant's ring; and the shadow of a replay domain:
base images, journals and checkpoints (08 R287 to R291). -/
namespace Sys2Proof.Machine

/-- The recorder page of edge die 24 + e. -/
def recPage (e : Nat) : Nat := edgePage e 0xF010

/-! Records (R293) -/

/-- The bytes of a record: header, body, CRC-32C of both, zeros to a multiple of 16. -/
def recordBytes (typ : Nat) (seq : BitVec 32) (time : Dword) (body : List Byte) : List Byte :=
  let h := leBytes 2 typ ++ leBytes 2 body.length ++ leBytes 4 seq.toNat ++ leBytes 8 time.toNat ++ body
  let l := h ++ leBytes 4 (crc32c h).toNat
  l ++ List.replicate (ceilDiv l.length 16 * 16 - l.length) 0

/-- The bytes of a kept record. -/
def Rec.bytes (r : Rec) : List Byte := recordBytes r.typ r.seq r.time r.body

/-- Writes bytes into a ring of LPDDR; a record that reaches the end goes on at the ring's base (assumption 21). -/
def ringWrite (m : List Host.Cell) (base size off : Nat) (l : List Byte) : List Host.Cell :=
  let n := size - off
  Memory.writeN (Memory.writeN m (base + off) (l.take n)) base (l.drop n)

/-- Reads `n` bytes of a ring from an offset. -/
def ringRead (m : List Host.Cell) (base size off n : Nat) : List Byte :=
  Memory.readN m (base + off) (min n (size - off)) ++ Memory.readN m base (n - (size - off))

/-- Whether a record can be read: its CRC-32C covers the bytes that LPDDR holds, and none of them is poisoned (R298). -/
def State.readable (s : State) (r : Ring) (x : Rec) : Bool :=
  let b := ringRead s.lpddr r.base r.size x.off x.size
  let n := 16 + x.body.length
  decide (leBytes 4 (crc32c (b.take n)).toNat = bytesAt b n 4)
    && (List.range x.size).all (fun i => !Sparse.get (fun _ => false) s.lpoison ((r.base + (x.off + i) % r.size) / 64))

/-- Writes a record into tenant t's ring, leaving `keep` bytes before the tail; whether it was written. One that finds no room
makes the ring full until a checkpoint moves the tail (R295). -/
def State.putRec (s : State) (t typ : Nat) (time : Dword) (body : List Byte) (keep : Nat) : State × Bool :=
  let tn := s.tenant t
  let r := tn.ring
  let b := recordBytes typ r.seq time body
  if r.size < r.used + b.length + keep then (s.setTenant t { tn with ring := { r with full := true } }, false)
  else
    let x : Rec := { typ := typ, seq := r.seq, time := time, body := body, off := r.head, size := b.length }
    let r1 : Ring :=
      { r with
        head := (r.head + b.length) % r.size, used := r.used + b.length, seq := r.seq + 1, written := r.written + 1,
        recs := r.recs ++ [x], epoch := r.epoch ++ [x] }
    let m := ringWrite s.lpddr r.base r.size r.head b
    ({ s.setTenant t { tn with ring := r1 } with lpddr := m }, true)

/-- The tenant learns that its ring is full (R295, 14 R453). -/
def State.recFull (s : State) (t : Nat) : State := s.event t Code.recorderFull 0 0xFFFF 0xFFFF Blk.recd.type 0

/-- The epoch length of a ring's recorder (R303). -/
def State.epochLen (s : State) (t : Nat) : Nat := max 1 (s.reg (recPage (s.tenant t).res.home.val + 0x44)).toNat

/-- The epoch of tenant t's ring ends: an EPOCH record with its index, the records since the last EPOCH record and the
CRC-32C of those records (R294). -/
def State.closeEpoch (s : State) (t : Nat) : State :=
  let r := (s.tenant t).ring
  let len := s.epochLen t
  let edge := (r.since / len + 1) * len
  let crc := crc32c ((r.epoch.map Rec.bytes).flatten)
  let body := leBytes 8 (r.since / len) ++ leBytes 4 r.epoch.length ++ leBytes 4 crc.toNat
  let w := s.putRec t 5 (BitVec.ofNat 64 edge) body 0
  let s1 := if w.2 then w.1 else w.1.recFull t
  let tn1 := s1.tenant t
  s1.setTenant t { tn1 with ring := { tn1.ring with epoch := [], since := edge } }

/-- The epochs of tenant t's ring that have ended by now, at most n of them, are closed in order (R294). -/
def State.closeEpochs (t : Nat) : Nat → State → State
  | 0, s => s
  | n + 1, s =>
    let r := (s.tenant t).ring
    let len := s.epochLen t
    if s.time.toNat < (r.since / len + 1) * len then s else State.closeEpochs t n (s.closeEpoch t)

/-- Whether an epoch of tenant t's ring has ended and is not closed. -/
def State.epochDue (s : State) (t : Nat) : Bool :=
  (s.tenant t).live && decide (((s.tenant t).ring.since / s.epochLen t + 1) * s.epochLen t ≤ s.time.toNat)

/-- Every epoch that has ended is closed, so that a record belongs to the epoch in which it is written (00 R16, R294). -/
def State.rollEpochs (s : State) (t : Nat) : State :=
  if s.epochDue t then State.closeEpochs t (s.time.toNat / s.epochLen t - (s.tenant t).ring.since / s.epochLen t) s else s

/-- Writes a record into tenant t's ring in the present epoch. -/
def State.record (s : State) (t typ : Nat) (time : Dword) (body : List Byte) (keep : Nat := 0) : State × Bool :=
  (s.rollEpochs t).putRec t typ time body keep

/-- A record that the ring takes, or the loss of its room told to the tenant. -/
def State.recordOrFull (s : State) (t typ : Nat) (time : Dword) (body : List Byte) : State :=
  let r := s.record t typ time body
  if r.2 then r.1 else s.recFull t

/-- The tail moves to the first record after the last CHECKPOINT record, which is that of the slot that becomes the older
one (R295); without one it stays. A tail that moves lets the ring take records again. -/
def Ring.moveTail (r : Ring) : Ring :=
  let l := (r.recs.reverse.takeWhile (fun x => decide (x.typ ≠ 6))).reverse
  if l.length = r.recs.length then r
  else
    let used := l.foldl (fun n x => n + x.size) 0
    { r with recs := l, used := used, tail := (r.head + r.size - used) % r.size, full := false }

/-- RECORDER_EPOCH_END: the EPOCH record of each epoch of tenant t's ring that has ended (R294). -/
def execRecorderEpochEnd (t : BitVec 8) (s : State) : Host.Outcome State Fault Refusal :=
  done (s.whenUp fun s => s.rollEpochs t.toNat)

/-! Replay domains and journals (R287 to R289) -/

/-- The logical cores of some rectangles, each by rising Y and then X. -/
def rectCores (l : List Rect) : List (Nat × Nat) :=
  l.flatMap (fun r => (List.range (r.yhi + 1 - r.ylo)).flatMap (fun j =>
    (List.range (r.xhi + 1 - r.xlo)).map (fun i => (r.xlo + i, r.ylo + j))))

/-- An empty base-image slot. -/
def Slot2.empty : Slot2 := { step := 0, jptr := 0, spad := [], ctx := [] }

/-- A base-image slot of the core at logical (x, y). -/
def Replay.slot (r : Replay) (x y k : Nat) : Slot2 := Sparse.get (fun _ => Slot2.empty) r.slots (homeNo x y * 2 + k)

/-- Sets a base-image slot. -/
def Replay.setSlot (r : Replay) (x y k : Nat) (v : Slot2) : Replay :=
  { r with slots := Sparse.put (fun _ => Slot2.empty) r.slots (homeNo x y * 2 + k) v }

/-- A journal entry: the journal offset of its header, STEP, OFFSET, LEN, and the journal offset of the next header. -/
structure JEntry where
  hdr : Nat
  step : Nat
  off : Nat
  len : Nat
  next : Nat
deriving DecidableEq, Repr

/-- The entries of a journal from a header on, until a slot without the mark (R288). -/
def readJournal (m : List Host.Cell) (base size : Nat) : Nat → Nat → List JEntry
  | 0, _ => []
  | fuel + 1, pos =>
    let h := leNat (Memory.readN m (base + pos) 16)
    let len := bits h 84 21
    if size < pos + 16 ∨ bits h 112 16 ≠ 0x4A31 then []
    else if len = 0x1FFFFF then readJournal m base size fuel 0
    else
      let nx := (pos + 16 + ceilDiv len 16 * 16) % size
      { hdr := pos, step := bits h 0 64, off := bits h 64 20, len := len, next := nx } :: readJournal m base size fuel nx

/-- The physical address of the journal of core i of tenant t's domain: JBASE + i * JSIZE in the window (assumption 22). -/
def State.journalBase (s : State) (t : Nat) (rp : Replay) (i : Nat) : Nat :=
  (match s.window (s.tenant t).res.home.val t with | some (b, _) => b | none => 0) + rp.jbase % 2 ^ 41 + i * rp.jsize

/-- The entries of the journal of core i of the domain from a header on. -/
def State.journal (s : State) (t : Nat) (rp : Replay) (i start : Nat) : List JEntry :=
  if rp.jsize = 0 then [] else readJournal s.lpddr (s.journalBase t rp i) rp.jsize (rp.jsize / 16 + 1) start

/-- The cores of a domain with their numbers in it. -/
def Replay.cores (rp : Replay) : List ((Nat × Nat) × Nat) := (rectCores rp.domain).zipIdx

/-- The last step that core i of the domain has marked complete: an entry of LEN 0, or the newer base image's step. -/
def State.coreStep (s : State) (t : Nat) (rp : Replay) (p : (Nat × Nat) × Nat) : Nat :=
  let b := rp.slot p.1.1 p.1.2 rp.newer
  (s.journal t rp p.2 b.jptr).foldl (fun m e => if e.len = 0 then max m e.step else m) b.step

/-- The lowest step that every core of the domain has marked complete (R290, R291). -/
def State.lowestStep (s : State) (t : Nat) (rp : Replay) : Nat :=
  match rp.cores.map (s.coreStep t rp) with
  | [] => 0
  | a :: l => l.foldl min a

/-- The entries of core i up to a step. -/
def State.committed (s : State) (t : Nat) (rp : Replay) (p : (Nat × Nat) × Nat) (step : Nat) : List JEntry :=
  (s.journal t rp p.2 (rp.slot p.1.1 p.1.2 rp.newer).jptr).filter (fun e => decide (e.step ≤ step))

/-- A base image with the entries of core i up to a step applied in journal order. -/
def State.rolled (s : State) (t : Nat) (rp : Replay) (p : (Nat × Nat) × Nat) (step : Nat) : Slot2 :=
  let b := rp.slot p.1.1 p.1.2 rp.newer
  let l := s.committed t rp p step
  let base := s.journalBase t rp p.2
  { b with
    step := step,
    jptr := match l.reverse with | [] => b.jptr | e :: _ => e.next,
    spad := l.foldl (fun m e =>
      Memory.writeN m e.off ((Memory.readN s.lpddr (base + e.hdr + 16) e.len).take (2 ^ 20 - e.off))) b.spad }

/-- Zeroes the journal bytes of core i from `lo` up to `hi` in ring order. -/
def State.zeroJournal (s : State) (base size lo hi : Nat) : State :=
  let freed (a : Nat) : Bool :=
    decide (base ≤ a) && decide (a < base + size)
      && (if lo ≤ hi then decide (base + lo ≤ a) && decide (a < base + hi) else decide (base + lo ≤ a) || decide (a < base + hi))
  { s with lpddr := s.lpddr.filter (fun p => !freed p.1) }

/-- Writes 8 bytes of a replay block: STEP at 0, JPTR at 8, JLIMIT at 16 (R289). -/
def State.setBlock (s : State) (x y rb o v : Nat) : State :=
  s.modCore (s.physOf x y) (fun c => { c with spad := Memory.writeN c.spad (rb + o) (leBytes 8 v) })

/-- One core's part of a checkpoint: the older slot, the freed journal space, JLIMIT. -/
def State.checkpointCore (t sc : Nat) (rp : Replay) (s : State) (p : (Nat × Nat) × Nat) : State :=
  let v := s.rolled t rp p sc
  let tn := s.tenant t
  let s1 := s.setTenant t { tn with replay := tn.replay.map (fun r => r.setSlot p.1.1 p.1.2 (1 - rp.newer) v) }
  let s2 := s1.zeroJournal (s.journalBase t rp p.2) rp.jsize (rp.slot p.1.1 p.1.2 rp.newer).jptr v.jptr
  s2.setBlock p.1.1 p.1.2 rp.rb 16 v.jptr

/-- S_c (R290): the lowest step that every core has marked complete, and no further than the replay step of a reef that has not
restarted the domain. -/
def State.checkStep (s : State) (t : Nat) (rp : Replay) : Nat :=
  (s.reefs.filter (fun r => decide (r.t = t) && !r.swapped)).foldl (fun m r => min m r.step) (s.lowestStep t rp)

/-- A checkpoint (R290): the older slot of every core is rewritten and becomes the newer, the journals give up their
space, the ring's tail moves, a CHECKPOINT record is written. -/
def State.checkpoint (s : State) (t : Nat) : State :=
  match (s.tenant t).replay with
  | none => s
  | some rp =>
    let sc := s.checkStep t rp
    let s1 := rp.cores.foldl (State.checkpointCore t sc rp) s
    let tn := s1.tenant t
    let s2 := s1.setTenant t { tn with ring := tn.ring.moveTail, replay := tn.replay.map (fun r => { r with newer := 1 - rp.newer }) }
    s2.recordOrFull t 6 s2.time (leBytes 8 sc ++ leBytes 1 (1 - rp.newer))

/-- CHECKPOINT_RUN. -/
def execCheckpointRun (t : BitVec 8) (s : State) : Host.Outcome State Fault Refusal :=
  done (s.whenUp fun s => s.checkpoint t.toNat)

end Sys2Proof.Machine
end

