-- ==== Sys2Proof/Machine/Health.lean ====
section
/-! DEFINITION. The health controllers (08 R271 to R279, R300, R301): reports, the suspect table, STORM; the background
self-test (R286) and an island monitor's trip (R273). -/
namespace Sys2Proof.Machine

/-- The health-controller page of a compute die. -/
def hcPage (d : Nat) : Nat := pageAt d 0xF001 0

/-! Interrupts (R278) -/

/-- The interrupt output of a health controller rises: under STORM it is raised at most once per 10 us, and a rise in
between is held back. -/
def State.hcRise (before after : State) (d : Nat) : State :=
  let h := after.hcAt d
  let up := after.irqOut (hcPage d) && !before.irqOut (hcPage d)
  if !up then after
  else
    let late := match h.lastIrq with | none => true | some t => decide (t.toNat + 10000 ≤ after.time.toNat)
    if h.storm && !late then after.setHc d { h with held := true }
    else (after.setHc d { h with lastIrq := if h.storm then some after.time else none }).send (.irq (hcPage d) (servingEdge d))

/-- Sets bits of a health controller's BLK_IRQ_STAT. -/
def State.hcRaise (s : State) (d : Nat) (m : Word) : State :=
  State.hcRise s (s.setReg (hcPage d + 0x10) (s.reg (hcPage d + 0x10) ||| m)) d

/-! Arrival and STORM (R274, R278) -/

/-- STORM is entered: STORM in BLK_ERR and BLK_IRQ_STAT, a STORM record and an event for each tenant with cores on the
die. -/
def State.stormEnters (s : State) (d : Nat) : State :=
  let s1 := (s.setHc d { (s.hcAt d) with storm := true, quiet := 0, lastIrq := none }).incSat (hcPage d + 0x54)
  let s2 := (s1.enterCode (hcPage d) Code.storm).hcRaise d 4
  let start := s.time.toNat / 1000 * 1000
  (s2.dieTenants d).foldl (fun s t =>
    (s.recordOrFull t 7 s.time (leBytes 1 d ++ leBytes 8 start)).event t Code.storm 0 0xFFFF 0xFFFF Blk.hc.type (BitVec.ofNat 32 d)) s2

/-- The number of the 1 us window of device time that runs (R278). -/
def State.stormWindow (s : State) : Nat := s.time.toNat / 1000

/-- n windows of 1 us have ended, the first of them with the reports counted: HC_RATE shows the last; after 10 quiet windows
STORM ends; a rise that was held back is sent once 10 us have passed. -/
def State.windowEnds (s : State) (d n : Nat) : State :=
  let h := s.hcAt d
  let quiet := if h.window ≤ 64 then h.quiet + n else n - 1
  let ends := h.storm && decide (10 ≤ quiet)
  let s1 := s.setReg (hcPage d + 0x4C) (BitVec.ofNat 32 (if n = 1 then min h.window 65535 else 0))
  let s2 := s1.setHc d { h with win := s.stormWindow, window := 0, quiet := if h.storm && !ends then quiet else 0, storm := h.storm && !ends }
  let s3 := if ends then s2.hcRaise d 8 else s2
  let g := s3.hcAt d
  let late := match g.lastIrq with | none => true | some t => decide (t.toNat + 10000 ≤ s3.time.toNat)
  if g.held && (late || ends) then
    let s4 := s3.setHc d { g with held := false, lastIrq := if g.storm then some s3.time else none }
    if s4.irqOut (hcPage d) then s4.send (.irq (hcPage d) (servingEdge d)) else s4
  else s3

/-- The windows that have ended are counted. A step of device time back ends the one that ran. -/
def State.closeWindows (s : State) (d : Nat) : State :=
  if s.stormWindow = (s.hcAt d).win then s else s.windowEnds d (max 1 (s.stormWindow - (s.hcAt d).win))

/-- A report arrives: a KIND that is never sent, or a full queue, drops it; any other is stamped, queued and counted in the
window of its stamp. -/
def State.reportArrives (s0 : State) (d : Nat) (w : Dword) : State :=
  let s := s0.closeWindows d
  let h := s.hcAt d
  let kind := bits w.toNat 0 4
  if kind = 0 ∨ 4 ≤ kind ∨ 256 ≤ h.queue.length then s.incSat (hcPage d + 0x50)
  else
    let s1 := (s.setHc d { h with queue := h.queue ++ [(s.time, w)], window := h.window + 1 }).incSat (hcPage d + 0x48)
    if !h.storm && decide (64 < h.window + 1) then s1.stormEnters d else s1

/-- FAULT_REPORT_ARRIVAL. -/
def execFaultReportArrival (die : Fin 24) (w : Dword) (s : State) : Host.Outcome State Fault Refusal :=
  done (s.whenUp fun s => s.reportArrives die.val w)

/-- STORM_WINDOW_END: nothing to end while the window that is counted still runs. -/
def execStormWindowEnd (die : Fin 24) (s : State) : Host.Outcome State Fault Refusal :=
  done (s.whenUp fun s => s.closeWindows die.val)

/-! The suspect table (R275 to R277) -/

/-- Entry e of a table. -/
def Hc.entry (h : Hc) (e : Nat) : Suspect := Sparse.get (fun _ => Suspect.empty) h.table e

/-- Sets entry e. -/
def Hc.setEntry (h : Hc) (e : Nat) (v : Suspect) : Hc := { h with table := Sparse.put (fun _ => Suspect.empty) h.table e v }

/-- The lowest entry in a state that names a suspect. -/
def Hc.find (h : Hc) (st : SuspectState) (suspect : Nat) : Option Nat :=
  (List.range 16).find? (fun e => decide ((h.entry e).st = st) && decide ((h.entry e).suspect.toNat = suspect))

/-- The lowest FREE entry. -/
def Hc.free (h : Hc) : Option Nat := (List.range 16).find? (fun e => decide ((h.entry e).st = .free))

/-- The number of ACCUSERS bits. -/
def Suspect.accusations (x : Suspect) : Nat := (List.range 4).foldl (fun n i => n + b2n (x.accusers.getLsbD i)) 0

/-- The OPEN entry with the fewest ACCUSERS bits, the oldest FIRST_TIME on a tie (R277). -/
def Hc.weakest (h : Hc) : Option Nat :=
  (List.range 16).foldl (fun best e =>
    let x := h.entry e
    if x.st ≠ .opened then best
    else match best with
      | none => some e
      | some b =>
        let y := h.entry b
        if x.accusations < y.accusations ∨ (x.accusations = y.accusations ∧ x.firstTime.toNat < y.firstTime.toNat) then some e else best) none

/-- A report folds into an entry (R275 step 4). -/
def Suspect.fold (x : Suspect) (time : Dword) (w : Dword) : Suspect :=
  let self := decide (bits w.toNat 0 4 = 1)
  { x with
    count := min 255 (x.count + 1), codeLast := BitVec.ofNat 16 (bits w.toNat 32 16), lastTime := time, self := x.self || self,
    accusers := if self then x.accusers else x.accusers ||| BitVec.ofNat 4 (2 ^ bits w.toNat 48 2) }

/-- A new entry for a report. -/
def Suspect.new (time : Dword) (w : Dword) : Suspect :=
  { (Suspect.empty.fold time w) with
    st := .opened, suspect := BitVec.ofNat 12 (bits w.toNat 4 12), codeFirst := BitVec.ofNat 16 (bits w.toNat 32 16), firstTime := time }

/-- Whether a core is an idle spare: in a spare column, serving no position, not removed, and not taken by a reef (R279, R280). -/
def State.idleSpare (s : State) (n : Nat) : Bool :=
  let m := Sparse.get (fun _ => CoreMark.serving) s.marks n
  isSpareCol n && decide (s.logOf n = none) && (decide (m = .serving) || decide (m = .idleSpare)) && !s.reefs.any (fun r => decide (r.new = some n))

/-- The mark of a core. -/
def State.markOf (s : State) (n : Nat) : CoreMark := Sparse.get (fun _ => CoreMark.serving) s.marks n

/-- Marks a core. -/
def State.mark (s : State) (n : Nat) (m : CoreMark) : State := { s with marks := Sparse.put (fun _ => CoreMark.serving) s.marks n m }

/-- The body of a REEF record (R293), with the end times of its phases; a phase that has not run has end time 0 (assumption
23). -/
def reefBody (die old new x y : Nat) (code : BitVec 16) (step : Nat) (ends : List Dword) : List Byte :=
  leBytes 1 die ++ leBytes 2 old ++ leBytes 2 new ++ leBytes 2 x ++ leBytes 2 y ++ leBytes 2 code.toNat ++ leBytes 8 step
    ++ ((List.range 7).map (fun i => leBytes 8 (ends.getD i 0).toNat)).flatten

/-- The record of a reef that has ended, with the time of the declaration (R293). -/
def State.reefRecord (s : State) (r : Reefing) (code : BitVec 16) (ends : List Dword) : State :=
  s.recordOrFull r.t 4 r.decl (reefBody (r.old / 2112) (r.old % 2112) (match r.new with | some c => c % 2112 | none => 0xFFFF) r.x r.y code r.step ends)

/-- The physical cores that serve a tenant's positions. -/
def State.tenantCores (s : State) (t : Nat) : List Nat := (rectCores (s.tenant t).res.rects).map (fun p => s.physOf p.1 p.2)

/-- NI_EPOCH.HOLD at every interface of a tenant (R281 phase 2; 07 R250). -/
def State.holdAll (s : State) (t : Nat) : State := (s.tenantCores t).foldl (fun (s : State) n => s.setFld (niPage n + 0x44) 2 1 1) s

/-- STOP to every sequencer of tenant t's replay domain (R281 phase 2). -/
def State.stopDomain (s : State) (t : Nat) : State :=
  match (s.tenant t).replay with
  | none => s
  | some rp => (rectCores rp.domain).foldl (fun s p => s.modCore (s.physOf p.1 p.2) Core.stop) s

/-- The step that a tenant's replay would start after. -/
def State.replayStep (s : State) (t : Nat) : Nat :=
  match (s.tenant t).replay with
  | none => 0
  | some rp => s.lowestStep t rp

/-- A token frame of tenant t that waits and has not begun to leave. -/
def heldBack (t : Nat) (f : TxFrame) : Option TokFrame :=
  if f.tenant.toNat = t ∧ f.gone = 0 then f.tok else none

/-- A reef begins before a step's token frame has left: the frame waits for the replay of its step, and GOs on their way are
given up, which the replay sends again (01 R43). -/
def State.suppress (s : State) (t : Nat) : State :=
  let q := s.ports.flatMap (fun p => (p.2.tx.map (·.2)).flatten)
  let tn := s.tenant t
  let s1 := s.setTenant t { tn with goes := [], suppressed := tn.suppressed ++ q.filterMap (heldBack t) }
  { s1 with ports := s1.ports.map (fun p =>
      (p.1, { p.2 with tx := (p.2.tx.map (fun q => (q.1, q.2.filter (fun f => (heldBack t f).isNone)))).filter (fun q => decide (q.2 ≠ [])) })) }

/-- Phase 2 of a reef (R281): packets held, the domain stopped, token frames that have not left held back. -/
def State.quiesce (s : State) (t : Nat) : State := ((s.holdAll t).stopDomain t).suppress t

/-- The reef stops after phase 2 without a spare (R285): the REEF record is closed with REEF_EXHAUSTED and the tenant is told;
the route swap is still to come. -/
def State.exhaust (s : State) (t old x y : Nat) (works : Bool) (decl : Dword) : State :=
  let r : Reefing :=
    { t := t, x := x, y := y, old := old, new := none, works := works, step := s.replayStep t, decl := decl, ends := [decl, s.time], swapped := false,
      stream := [] }
  ({ s with reefs := s.reefs ++ [r] }.reefRecord r Code.reefExhausted r.ends).event t Code.reefExhausted 0
    (BitVec.ofNat 16 x) (BitVec.ofNat 16 y) Blk.hc.type (BitVec.ofNat 32 r.step)

/-- The logical positions of a tenant that a die's cores serve. -/
def State.diePositions (s : State) (t d : Nat) : List (Nat × Nat) :=
  (rectCores (s.tenant t).res.rects).filter (fun p => decide (s.physOf p.1 p.2 / 2112 = d) && decide (s.markOf (s.physOf p.1 p.2) ≠ .removed))

/-- A die fails (R279): FAULT_N, and every tenant with cores there is handled, for each of those positions, as one without a
spare (R285). -/
def State.dieFails (s : State) (d : Nat) : State :=
  s.liveTenants.foldl (fun s t =>
    let l := s.diePositions t d
    if l = [] then s
    else l.foldl (fun s p => (s.mark (s.physOf p.1 p.2) .removed).exhaust t (s.physOf p.1 p.2) p.1 p.2 true s.time) (s.quiesce t)) (s.dieFault d)

/-- What firmware does at once with a suspect that has FAILED (R279): an idle spare leaves its pool; a die-level unit makes
the die fail. -/
def State.declared (s : State) (d suspect : Nat) : State :=
  if suspect < 2112 then
    if s.idleSpare (d * 2112 + suspect) then s.mark (d * 2112 + suspect) .removed else s
  else s.dieFails d

/-- An OPEN entry after a fold becomes FAILED on SELF or on QUORUM accusations, and DECLARED is raised. -/
def State.judge (s : State) (d e : Nat) : State :=
  let h := s.hcAt d
  let x := h.entry e
  if x.st = .opened ∧ (x.self = true ∨ s.fld (hcPage d + 0x40) 16 3 ≤ x.accusations) then
    ((s.setHc d (h.setEntry e { x with st := .failed, failedAt := s.time })).hcRaise d 1).declared d x.suspect.toNat
  else s

/-- A report taken from the queue is folded into the table. -/
def State.foldReport (s : State) (d : Nat) (time w : Dword) : State :=
  let h := s.hcAt d
  let suspect := bits w.toNat 4 12
  match h.find .failed suspect, h.find .opened suspect, h.free with
  | some e, _, _ => s.setHc d (h.setEntry e ((h.entry e).fold time w))
  | none, some e, _ => (s.setHc d (h.setEntry e ((h.entry e).fold time w))).judge d e
  | none, none, some e => (s.setHc d (h.setEntry e (Suspect.new time w))).judge d e
  | none, none, none =>
    match (if bits w.toNat 0 4 = 1 then h.weakest else none) with
    | some e => ((s.setHc d (h.setEntry e (Suspect.new time w))).hcRaise d 16).judge d e
    | none => (s.incSat (hcPage d + 0x50)).hcRaise d 16

/-- The head of the queue is handled, if it is of the given KIND. -/
def State.takeReport (s : State) (d kind : Nat) : State :=
  let h := s.hcAt d
  match h.queue with
  | [] => s
  | (t, w) :: r => if bits w.toNat 0 4 = kind then (s.setHc d { h with queue := r }).foldReport d t w else s

/-- The head of the queue is handled; with `unc` the queue or the table has an uncorrectable error instead, and the die fails
(R298). -/
def State.handleReport (s : State) (d kind : Nat) (unc : Bool) : State := if unc then s.dieFails d else s.takeReport d kind

/-- SELF. -/
def execReportSelf (die : Fin 24) (unc : Bool) (s : State) : Host.Outcome State Fault Refusal :=
  done (s.whenUp fun s => s.handleReport die.val 1 unc)

/-- ACCUSE. -/
def execReportAccuse (die : Fin 24) (unc : Bool) (s : State) : Host.Outcome State Fault Refusal :=
  done (s.whenUp fun s => s.handleReport die.val 2 unc)

/-- LINK. -/
def execReportLink (die : Fin 24) (unc : Bool) (s : State) : Host.Outcome State Fault Refusal :=
  done (s.whenUp fun s => s.handleReport die.val 3 unc)

/-- SUSPECT_WINDOW_EXPIRY: an OPEN entry without a report for WINDOW cc closes. -/
def execSuspectWindowExpiry (die : Fin 24) (entry : Fin 16) (s : State) : Host.Outcome State Fault Refusal :=
  done (s.whenUp fun s =>
    let h := s.hcAt die.val
    let x := h.entry entry.val
    if x.st = .opened then (s.setHc die.val (h.setEntry entry.val { x with st := .closed })).hcRaise die.val 2 else s)

/-- HC_RELEASE: FAILED and CLOSED entries of the mask become FREE (R301). -/
def State.hcRelease (s : State) (d : Nat) (mask : Word) : State :=
  (List.range 16).foldl (fun s e =>
    let h := s.hcAt d
    let x := h.entry e
    if mask.getLsbD e && (decide (x.st = .failed) || decide (x.st = .closed)) then s.setHc d (h.setEntry e Suspect.empty) else s) s

/-- A write of HC_RELEASE. -/
def execHcRelease (who : Party) (die : Fin 24) (mask : Word) (s : State) : Host.Outcome State Fault Refusal :=
  done (s.whenUp fun s => s.ctl who (hcPage die.val + 0x58) fun s => s.hcRelease die.val mask)

/-! Self-test and monitors -/

/-- BACKGROUND_SELF_TEST: a reefed core that passes is REPATRIABLE (R286). -/
def execBackgroundSelfTest (c : CoreId) (pass : Bool) (s : State) : Host.Outcome State Fault Refusal :=
  done (s.whenUp fun s =>
    if pass && decide (s.markOf (coreNo c) = .reefed) then s.mark (coreNo c) .repatriable else s)

/-- A SELF report for which the spec names neither page nor code: they are free (assumption 1). -/
def State.selfFree (s : State) (n : Nat) : State := s.draw.2.selfReport n (s.draw.1 / 65536 % 16) (BitVec.ofNat 16 s.draw.1)

/-- What a core does with an error found in it (R273, R298): SELF for a monitor and for a register; an error in a v register
also stops the sequencer, as STOP does; a bundle of the loop buffer is fetched again from the scratchpad. -/
def State.islandErr (s : State) (n : Nat) : IslandErr → State
  | .monitor => s.selfFree n
  | .scalarReg => s.selfFree n
  | .vReg => (s.selfFree n).modCore n Core.stop
  | .loopBuf pc => s.modCore n (fun c => { c with loopBuf := Sparse.erase c.loopBuf pc.toNat })

/-- ISLAND_MONITOR_TRIP: the island's clock or supply monitor, or an error in a register or the loop buffer (assumption 82). -/
def execIslandMonitorTrip (c : CoreId) (x : IslandErr) (s : State) : Host.Outcome State Fault Refusal :=
  done (s.whenUp fun s => s.islandErr (coreNo c) x)

end Sys2Proof.Machine
end

