-- ==== Sys2Proof/Machine/Halyard.lean ====
section
/-! DEFINITION. The halyards (chapter 11): pushers and their input buffers (R349, R352), streams and their grammar (R354 to
R359), checks (R360, R361), clamps (R362, R363), full configuration (R364), shroud and release (R365 to R367), failures (R368),
the frame checker (R370), the board's serial port (R350). -/
namespace Sys2Proof.Machine

/-! Regions -/

/-- The halyard page of edge die 24 + e. -/
def halPage (e : Nat) : Nat := edgePage e 0xF020

/-- The page of a region's shroud control (R375). -/
def regionPage (r : Nat) : Nat :=
  if regionKind r = 0 then colPage (regionDie r * 2112 + regionUnit r) else shrPage (regionDie r - 24)

/-- The key of register `off` (0x040 to 0x054) of a region's shroud control. -/
def regionKey (r off : Nat) : Nat :=
  if regionKind r = 0 then regionPage r + off else shrKey (regionDie r - 24) (regionUnit r) off

/-- The owner of a region (R358): NI_TENANT, SHR_OWNER, 0xFF for the privileged kinds. -/
def State.regionOwner (s : State) (r : Nat) : BitVec 8 :=
  match regionKind r with
  | 0 => s.niTenant (regionDie r * 2112 + regionUnit r)
  | 1 => (s.reg (regionKey r 0x48)).setWidth 8
  | _ => 0xFF

/-- Whether a region is a collar or an edge region, with a shroud. -/
def hasShroud (r : Nat) : Bool := decide (regionKind r < 2)

/-- The owner of a region learns of it (14 R455): RUNNING with code 0, FAILED or an upset with its ERR. -/
def State.regionEvent (s : State) (r : Nat) (code : BitVec 16) : State :=
  let xy : BitVec 16 × BitVec 16 := if regionKind r = 0 then s.eventXY (regionDie r * 2112 + regionUnit r) else (0xFFFF, 0xFFFF)
  s.event (s.regionOwner r).toNat code 2 xy.1 xy.2 Blk.col.type (BitVec.ofNat 32 r)

/-- A region waits for release no longer: another stream has declared it, it has failed or been cleared (R361, R367). -/
def State.unready (s : State) (r : Nat) : State :=
  let out := fun (l : List (BitVec 24)) => l.filter (fun q => decide (q.toNat ≠ r))
  (List.range 4).foldl (fun (s : State) e =>
    let h := s.halAt e
    if (h.readyBoard ++ h.readyMc).any (fun q => decide (q.toNat = r)) then
      s.setHal e { h with readyBoard := out h.readyBoard, readyMc := out h.readyMc }
    else s) s

/-- A region ends FAILED: shrouded and in reset, with its frames as written (R367). -/
def State.regionFails (s : State) (code : BitVec 16) (r : Nat) : State :=
  let s1 := ((s.unready r).setRegion r { (s.region r) with st := .failed, err := code, stage := 0, edges := [] }).setReset r
  if hasShroud r then ((s1.raiseIrq (regionPage r) 2).enterCode (regionPage r) code).regionEvent r code else s1

/-- Clears a region's configuration memory and, of an edge region, its fabric RAM (R358). -/
def State.clearMemory (s : State) (r : Nat) : State :=
  let e := regionDie r - 24
  let lo := framKey e (regionUnit r * 192 * 4096)
  { s.setReset r with
    cfgmem := s.cfgmem.filter (fun p => decide (p.1 / 65536 ≠ r)),
    fram := if regionKind r = 1 then s.fram.filter (fun p => decide (p.1 < lo) || decide (lo + 192 * 4096 ≤ p.1)) else s.fram }

/-- A region becomes LOADING: shrouded, held in reset, its configuration memory cleared. `loader` is 1 for the board port,
2 + e for the management port of edge die 24 + e. -/
def State.regionLoads (s : State) (loader r : Nat) : State :=
  let s1 := ((s.clearMemory r).unready r).setRegion r
    { (s.region r) with st := .loading, loader := loader, clearing := true, stage := 0, edges := [] }
  if regionKind r = 3 then { s1 with mcOn := false } else s1

/-! Streams -/

/-- The stream of a port. -/
def Hal.port (h : Hal) (b : Bool) : Stream := if b then h.board else h.mc
def Hal.setPort (h : Hal) (b : Bool) (x : Stream) : Hal := if b then { h with board := x } else { h with mc := x }

/-- The stream of a pusher. -/
def State.stm (s : State) (p : Pusher) : Stream := (s.halAt p.e.val).port p.board
def State.setStm (s : State) (p : Pusher) (x : Stream) : State := s.setHal p.e.val ((s.halAt p.e.val).setPort p.board x)

/-- Whether a pusher exists and its words are taken: the board port is that of die 24, and boundary scan stops it (18
R532). -/
def State.portOk (s : State) (p : Pusher) : Bool := !p.board || (decide (p.e.val = 0) && decide (s.jtag = .idcode))

/-- The input buffer of a pusher (R352). -/
def Hal.buf (h : Hal) (b : Bool) : List Word := if b then h.bufBoard else h.bufMc
def Hal.setBuf (h : Hal) (b : Bool) (l : List Word) : Hal := if b then { h with bufBoard := l } else { h with bufMc := l }
def State.buf (s : State) (p : Pusher) : List Word := (s.halAt p.e.val).buf p.board

/-- The board's port. -/
def boardPort : Pusher := ⟨⟨0, by decide⟩, true⟩

/-- CFG_RDY (R349, R352): 0 while less than 4 KiB, 1,024 words, of the board buffer are free. A change goes out. -/
def State.showRdy (s : State) : State :=
  let rdy := decide ((s.buf boardPort).length ≤ 15360)
  if rdy = s.cfgRdy then s else ({ s with cfgRdy := rdy } : State).send (.pin .cfgRdy (b2n rdy))

/-- Replaces what waits at a pusher's port. The board's buffer holds 64 KiB; of the management controller's words those beyond
64 KiB are still with the controller (R352; assumption 46). -/
def State.setBuf (s : State) (p : Pusher) (l : List Word) : State :=
  (s.setHal p.e.val ((s.halAt p.e.val).setBuf p.board (if p.board then l.take 16384 else l))).showRdy

/-- The loader number of a pusher. -/
def loaderOf (p : Pusher) : Nat := if p.board then 1 else 2 + p.e.val

/-- HAL_BOARD_RES or HAL_MC_RES, and HAL_WORDS of a port. -/
def resKey (p : Pusher) : Nat := halPage p.e.val + (if p.board then 0x48 else 0x4C)
def wordsKey (p : Pusher) : Nat := halPage p.e.val + (if p.board then 0x54 else 0x58)

/-- Shows whether a port's stream is open (R373). -/
def State.showOpen (s : State) (p : Pusher) (v : Bool) : State := s.setFld (halPage p.e.val + 0x44) (if p.board then 0 else 1) 1 (b2n v)

/-- The regions whose declaration has taken effect in a stream. -/
def Stream.effective (x : Stream) : List (BitVec 24) := if x.begun || decide (x.typ ≠ 0) then x.declared else []

/-- A stream is rejected (R368): its regions fail, its code is shown, the board pin falls. -/
def State.reject (s : State) (p : Pusher) (code : BitVec 16) (reason : Nat) : State :=
  let st := s.stm p
  let pg := halPage p.e.val
  let s1 := st.effective.foldl (fun s r => s.regionFails code r.toNat) s
  let s2 := (s1.setStm p { (s1.stm p) with rejected := true }).showOpen p false
  let s3 := (s2.setReg (resKey p) (BitVec.ofNat 32 (2 + reason * 4 + code.toNat * 65536))).setFld (pg + 0x44) 16 16 code.toNat
  let s4 := (s3.enterCode pg code).raiseIrq pg 2
  if p.board then s4.send (.pin .cfgErrN 0) else s4

/-- A port's stream is over. -/
def State.closeStm (s : State) (p : Pusher) : State := (s.setStm p .closed).showOpen p false

/-- The stream takes words: they are counted, enter the running CRC, and of a privileged stream are kept up to the CRC value
(R360). -/
def State.takeWords (s : State) (p : Pusher) (ws : List Word) : State :=
  let st := s.stm p
  (s.setStm p
    { st with
      pos := st.pos + ws.length, crc := ws.foldl crcWord st.crc,
      words := if st.typ ≠ 0 ∧ st.crcOk = false then st.words ++ ws else st.words }).setReg (wordsKey p) (BitVec.ofNat 32 (st.pos + ws.length))

/-! SYNC and the header (R354, R355) -/

/-- The step of full configuration that a board stream must take (R364): the TYPE it must have. -/
def State.boardOrder (s : State) (typ : Nat) : Bool :=
  match s.boot with
  | 0 => decide (typ = 1)
  | 1 => decide (typ = 2)
  | 2 => decide (typ = 3)
  | _ => decide (typ = 0)

/-- Why a header is refused. SVN is 0 in a WEAVE stream; TENANT 0xFF on the management port is firmware's own, not a stream that
it forwards for a tenant. -/
def State.headerBad (s : State) (p : Pusher) (h svn : Nat) : Option Nat :=
  let tenant := bits h 16 8
  let mine := if p.board then decide (tenant = 0xFF) else (decide (tenant = 0xFF) && !(s.halAt p.e.val).forTenant) || decide (tenant = s.fld (halPage p.e.val + 0x50) 0 8)
  if 4 ≤ bits h 0 4 ∨ bits h 5 3 ≠ 0 ∨ bits h 8 8 ≠ 1 ∨ bits h 24 8 ≠ 0 ∨ mine = false ∨ (bits h 0 4 = 0 ∧ svn ≠ 0) then some 1
  else if p.board && !s.boardOrder (bits h 0 4) then some 9
  else none

/-- A SYNC word opens a stream; an open one is truncated (R357). CFG_ERR_N returns to 1. -/
def State.syncWords (s : State) (p : Pusher) (hdr len svn : Word) : State :=
  let old := s.stm p
  let s0 := if old.opened && !old.rejected then s.reject p Code.cfgTruncated 0 else s
  let low := decide (s0.fld (resKey p) 0 2 = 2)
  let h := hdr.toNat
  let st : Stream :=
    { Stream.closed with
      opened := true, typ := bits h 0 4,
      strict := decide (bits h 4 1 = 1) || s0.bit (halPage p.e.val + 0x40) 0 || (decide (1 ≤ bits h 0 4) && decide (bits h 0 4 ≤ 3)),
      tenant := BitVec.ofNat 8 (bits h 16 8), len := len.toNat, svn := svn.toNat, crc := 0xFFFFFFFF }
  let s1 := (((s0.setStm p st).showOpen p true).setReg (resKey p) 3).takeWords p [0x5A3CC3A5, hdr, len, svn]
  let s2 := if p.board && low then s1.send (.pin .cfgErrN 1) else s1
  match s2.headerBad p h svn.toNat with
  | some reason => s2.reject p Code.cfgGrammar reason
  | none => s2

/-! Grammar (R354, R355) -/

/-- The words that follow a command word. -/
def cmdWords (op : Nat) : Nat := if op = 2 ∨ op = 4 ∨ op = 6 ∨ op = 9 then 1 else if op = 7 then 64 else if op = 10 then 25 else 0

/-- Whether a rectangle word is valid. -/
def rectWordOk (w : Nat) : Bool :=
  decide (bits w 0 7 ≤ bits w 8 7) && decide (bits w 8 7 ≤ 65) && decide (bits w 16 5 ≤ bits w 24 5)
    && decide (w = bits w 0 7 + bits w 8 7 * 2 ^ 8 + bits w 16 5 * 2 ^ 16 + bits w 24 5 * 2 ^ 24)

/-- The collars of a rectangle of a die. -/
def rectRegions (die w : Nat) : List (BitVec 24) :=
  (List.range (bits w 24 5 + 1 - bits w 16 5)).flatMap (fun j => (List.range (bits w 8 7 + 1 - bits w 0 7)).map (fun i =>
    BitVec.ofNat 24 (die * 2 ^ 19 + (bits w 16 5 + j) * 66 + (bits w 0 7 + i))))

/-- The region that SET number i of a privileged stream must name, if the stream has so many; any shell will do. -/
def privRegion (typ i r : Nat) : Bool :=
  match typ with
  | 1 => decide (i = 0) && decide (r = regionId 24 3 0)
  | 2 => decide (i < 28) && decide (r = regionId i 2 0)
  | _ => decide (i = 0) && decide (regionKind r = 1) && decide (regionUnit r = 0)

/-- The regions of a privileged stream. -/
def privCount (typ : Nat) : Nat := if typ = 2 then 28 else 1

/-- Whether the region that a privileged stream writes has all its frames. -/
def Stream.regionFull (x : Stream) : Bool :=
  decide (x.regionNo = 0) || (match x.cur with | r :: _ => decide (x.frameNo = regionFrames r.toNat) | [] => true)

/-- The rule that a command breaks, lowest reason first. -/
def State.grammar (s : State) (p : Pusher) (x : Stream) (op arg : Nat) (rest : List Word) : Option Nat :=
  let priv := decide (x.typ ≠ 0)
  let rect := decide (op = 2) || decide (op = 4) || decide (op = 6)
  let argBad := if rect then decide (arg % 2 ^ 19 ≠ 0) || decide (24 ≤ arg / 2 ^ 19) || !rectWordOk ((rest.getD 0 0).toNat)
    else if op = 7 then decide (2 ^ 16 ≤ arg)
    else if op = 8 then decide (2 ^ 16 ≤ arg) || decide (arg = 0)
    else if op = 1 ∨ op = 3 ∨ op = 5 then false
    else decide (arg ≠ 0)
  let weaveId := regionValid arg && (decide (regionKind arg = 0) || (decide (regionKind arg = 1) && decide (regionUnit arg ≠ 0)))
  let order := priv && (!(decide (op = 3) || decide (op = 7) || decide (op = 9) || decide (op = 10) || decide (op = 11))
    || (decide (op = 3) && (!privRegion x.typ x.regionNo arg || !x.regionFull) && regionValid arg)
    || (decide (op = 7) && (decide (arg ≠ x.frameNo) || (match x.cur with | r :: _ => decide (regionFrames r.toNat ≤ arg) | [] => false)))
    || (decide (op = 9) && (decide (x.regionNo ≠ privCount x.typ) || !x.regionFull)))
  let tail := (x.crcOk && (if priv && x.sig.isNone then decide (op ≠ 10) else decide (op ≠ 11)))
    || (!x.crcOk && (decide (op = 10) || decide (op = 11)))
  let place := if op = 11 then decide (x.pos + 1 ≠ x.len) else decide (x.len ≤ x.pos + 1 + cmdWords op)
  if 12 ≤ op || argBad then some 2
  else if (decide (op = 1) || decide (op = 2)) && x.begun then some 3
  else if (decide (op = 7) && decide (x.cur = [])) || (decide (op = 8) && decide (x.last = [])) then some 4
  else if !priv && ((decide (op = 7) && !x.begun && decide (x.declared = [])) || decide (op = 10)) then some 5
  else if order then some 6
  else if tail then some 7
  else if place then some 8
  else if p.board && priv && decide (x.typ = 3) && decide (op = 3) && s.shells.getLsbD (regionDie arg - 24) then some 9
  else if (decide (op = 1) && !weaveId) || (decide (op = 3) && priv && !regionValid arg) then some 10
  else none

/-! Declaration (R358, R359) -/

/-- Whether a region is declared, with effect, by an open stream of another pusher. -/
def State.declaredElsewhere (s : State) (p : Pusher) (r : BitVec 24) : Bool :=
  (List.range 4).any (fun e => [true, false].any (fun b =>
    let x := (s.halAt e).port b
    !(decide (e = p.e.val) && decide (b = p.board)) && x.opened && !x.rejected && x.effective.contains r))

/-- Why a set of regions cannot be declared: not owned, or busy. -/
def State.declareBad (s : State) (p : Pusher) (x : Stream) (l : List (BitVec 24)) : BitVec 16 :=
  if x.tenant ≠ 0xFF ∧ l.any (fun r => decide (s.regionOwner r.toNat ≠ x.tenant)) then Code.cfgNotOwner
  else if l.any (fun r => s.declaredElsewhere p r || decide ((s.region r.toNat).st = .releasing)) then Code.cfgRegionBusy
  else 0

/-- The declared set of a WEAVE stream takes effect at its first WRITE. -/
def State.beginWeave (s : State) (p : Pusher) : State :=
  let x := s.stm p
  if x.begun || decide (x.typ ≠ 0) then s
  else
    let code := s.declareBad p x x.declared
    if code ≠ 0 then s.reject p code 0
    else
      let s1 := x.declared.foldl (fun s r => s.regionLoads (loaderOf p) r.toNat) s
      s1.setStm p { (s1.stm p) with begun := true }

/-- SET in a privileged stream declares its region. -/
def State.privSet (s : State) (p : Pusher) (r : BitVec 24) : State :=
  let x := s.stm p
  let code := s.declareBad p x [r]
  if code ≠ 0 then s.reject p code 0
  else
    let s1 := s.regionLoads (loaderOf p) r.toNat
    s1.setStm p { (s1.stm p) with declared := x.declared ++ [r], cur := [r], regionNo := x.regionNo + 1, frameNo := 0, last := [] }

/-! Clamps (R362, R363) -/

/-- Whether two or more bits of a one-hot select are set. -/
def multiHot (w x : Nat) : Bool := decide (2 ≤ ((List.range w).filter (fun i => decide (bits x i 1 = 1))).length)

/-- A clamp of a code at a bit, if a condition holds. -/
def clampIf (c : Bool) (code bit : Nat) : List (Nat × Nat) := if c then [(code, bit)] else []

/-- The clamps of cell 4f + j of a cluster: its number k in the cluster, whether it is cell 0 of cluster 0 of a collar,
whether its cluster lacks a predecessor. -/
def cellClamps (x k b : Nat) (head edge : Bool) : List (Nat × Nat) :=
  clampIf (decide (2 ≤ bits x 16 2)) 2 (b + 16) ++ clampIf (decide (bits x 18 2 = 3)) 3 (b + 18)
    ++ clampIf (decide (bits x 22 10 ≠ 0)) 14 (b + 22)
    ++ (List.range 4).flatMap (fun i => clampIf (multiHot 32 (bits x (32 + 32 * i) 32)) 1 (b + 32 + 32 * i))
    ++ clampIf (multiHot 32 (bits x 160 32)) 1 (b + 160)
    ++ (if k = 15 then clampIf (decide (bits x 192 2 = 3) && edge) 4 (b + 192) ++ clampIf (decide (bits x 194 30 ≠ 0)) 14 (b + 194)
          ++ clampIf (multiHot 32 (bits x 224 32)) 1 (b + 224)
        else clampIf (multiHot 32 (bits x 192 32)) 1 (b + 192) ++ clampIf (decide (bits x 224 32 ≠ 0)) 14 (b + 224))
    ++ (if head then clampIf (decide (bits x 256 12 < 100) || decide (1000 < bits x 256 12)) 13 (b + 256)
        else clampIf (decide (bits x 256 12 ≠ 0)) 14 (b + 256))
    ++ clampIf (decide (bits x 268 244 ≠ 0)) 14 (b + 268)

/-- The clamps of a cluster frame. -/
def clusterClamps (r idx v : Nat) : List (Nat × Nat) :=
  let c := idx / 8
  let f := idx % 8
  let collar := decide (regionKind r = 0)
  if f < 4 then
    (List.range 4).flatMap (fun j =>
      cellClamps (bits v (512 * j) 512) (4 * f + j) (512 * j) (collar && decide (c = 0) && decide (f = 0) && decide (j = 0))
        (if collar then decide (c = 0) else decide (c % 256 = 0)))
  else (List.range 64).flatMap (fun i => clampIf (multiHot 32 (bits v (32 * i) 32)) 1 (32 * i))

/-- The clamps of a fabric-RAM settings frame of n blocks. -/
def ramClamps (n v : Nat) : List (Nat × Nat) :=
  (List.range n).flatMap (fun k =>
    let x := bits v (16 * k) 16
    clampIf (decide (bits x 0 3 = 7)) 5 (16 * k) ++ clampIf (decide (bits x 3 3 = 7)) 5 (16 * k + 3)
      ++ clampIf (decide (bits x 11 1 = 1) && decide (bits x 3 3 ≠ 6)) 8 (16 * k + 3)
      ++ clampIf (decide (bits x 6 2 = 3)) 7 (16 * k + 6) ++ clampIf (decide (bits x 8 2 = 3)) 7 (16 * k + 8)
      ++ clampIf (decide (bits x 10 1 = 1) && (decide (bits x 0 3 < 6) || decide (bits x 3 3 < 6))) 6 (16 * k + 10)
      ++ clampIf (decide (bits x 12 4 ≠ 0)) 14 (16 * k + 12))

/-- The clamps of n park codes. -/
def parkClamps (v n : Nat) : List (Nat × Nat) :=
  (List.range n).flatMap (fun i => clampIf (decide (bits v (2 * i) 2 = 3)) 12 (2 * i))

/-- The clamps of a die-static frame. The clock and pin settings of frames 32 to 35 have no layout in the spec: which of their
fields are out of range is free (assumption 47). -/
def staticClamps (die idx v : Nat) : List (Nat × Nat) :=
  if die < 24 then parkClamps v 544 ++ clampIf (decide (v / 2 ^ 1088 ≠ 0)) 14 1088
  else if 2 ≤ idx ∧ idx < 32 then parkClamps v 1024
  else if 32 ≤ idx ∧ idx < 36 then if v = 0 then [] else (Config.ioClamps idx v).map (fun c => (9 + c.1.val, c.2.val))
  else if idx = 36 then
    (List.range 4).flatMap (fun i => clampIf (decide (2 ≤ bits v (2 * i) 2)) 9 (2 * i)) ++ clampIf (decide (v / 2 ^ 8 ≠ 0)) 14 8
  else clampIf (decide (v ≠ 0)) 14 0

/-- The clamps of a frame, as code and lowest bit. -/
def frameClamps (r idx v : Nat) : List (Nat × Nat) :=
  match regionKind r with
  | 0 => clusterClamps r idx v
  | 1 => if idx < 49152 then clusterClamps r idx v else if idx = 52224 then ramClamps 128 v else if idx = 52225 then ramClamps 64 v else []
  | 2 => staticClamps (regionDie r) idx v
  | _ => []

/-- A clamp is counted, logged, and of a driver select entered in BLK_ERR. -/
def State.logClamp (s : State) (e : Nat) (r : BitVec 24) (idx : Nat) (c : Nat × Nat) : State :=
  let pg := halPage e
  let h := s.halAt e
  let s1 := s.incSat (pg + 0x5C)
  let s2 := if h.log.length < 32 then
      (s1.setHal e { h with log := h.log ++ [{ code := c.1, region := r, frame := idx, bit := c.2 }] }).raiseIrq pg 4
    else s1.setHal e { h with overflow := true }
  if c.1 = 1 then s2.enterCode pg Code.cfgMultiDrive else s2

/-- The clamps of a frame that is written: all are logged, or in a strict stream the first, which rejects it. -/
def State.clampFrame (s : State) (p : Pusher) (r : BitVec 24) (idx : Nat) (ws : List Word) : State :=
  let l := frameClamps r.toNat idx (frameNat ws)
  match l with
  | [] => s
  | c :: _ =>
    if (s.stm p).strict then (s.logClamp p.e.val r idx c).reject p Code.cfgClampedStrict 0
    else l.foldl (fun s c => s.logClamp p.e.val r idx c) s

/-! WRITE and REPEAT (R354, R356) -/

/-- A foreign frame is discarded, counted and held if it is the first. -/
def State.foreignFrame (s : State) (p : Pusher) (r : BitVec 24) (idx : Nat) : State :=
  let pg := halPage p.e.val
  let s1 := (s.incSat (pg + 0x60)).enterCode pg Code.cfgForeignFrame
  let s2 := if s1.bit (pg + 0x64) 31 then s1
    else (s1.setReg (pg + 0x64) (BitVec.ofNat 32 (r.toNat + 2 ^ 31))).setReg (pg + 0x68) (BitVec.ofNat 32 idx)
  (s2.raiseIrq pg 8).setStm p { (s2.stm p) with foreign := true }

/-- One frame for one region of the current set. -/
def State.frameTo (p : Pusher) (idx : Nat) (ws : List Word) (s : State) (r : BitVec 24) : State :=
  let x := s.stm p
  if x.rejected then s
  else if !x.declared.contains r || decide (regionFrames r.toNat ≤ idx) then s.foreignFrame p r idx
  else (s.clampFrame p r idx ws).putFrame r.toNat idx ws

/-- A frame for every region of the current set. -/
def State.frameAll (s : State) (p : Pusher) (idx : Nat) (ws : List Word) : State :=
  if (s.stm p).rejected then s else (s.stm p).cur.foldl (State.frameTo p idx ws) s

/-- WRITE, once the declared set has taken effect. -/
def State.writeCmd (s : State) (p : Pusher) (idx : Nat) (ws : List Word) : State :=
  let x := s.stm p
  if x.rejected then s else (s.setStm p { x with last := ws, lastIdx := idx, frameNo := idx + 1 }).frameAll p idx ws

/-- REPEAT: the last frame at the indices that follow the last one written. -/
def State.repeatCmd (s : State) (p : Pusher) (n : Nat) : State :=
  let x := s.stm p
  let s1 := (List.range n).foldl (fun s i => s.frameAll p (x.lastIdx + 1 + i) x.last) s
  s1.setStm p { (s1.stm p) with lastIdx := x.lastIdx + n }

/-! The end of a stream (R360, R361, R364) -/

/-- Sets BOOT and SHELLS and shows them on die 24's page. -/
def State.setBoot (s : State) (b : Nat) : State := ({ s with boot := b } : State).setFld (halPage 0 + 0x44) 4 4 b

/-- The digest that a stream's signature is over: SHA-384 of its words from SYNC to the CRC value as little-endian bytes
(R360). -/
def Stream.digest (x : Stream) : BitVec 384 := Config.sha384 ((x.words.map (fun w => leBytes 4 w.toNat)).flatten)

/-- The regions of a stream that has passed wait for release (R366). -/
def State.addReady (s : State) (p : Pusher) (l : List (BitVec 24)) : State :=
  let h := s.halAt p.e.val
  s.setHal p.e.val (if p.board then { h with readyBoard := h.readyBoard ++ l } else { h with readyMc := h.readyMc ++ l })

/-- Every region that waits for release anywhere waits at the board's port: full configuration releases them together
(R364). -/
def State.gather (s : State) : State :=
  let l := (List.range 4).flatMap (fun e => (s.halAt e).readyBoard ++ (s.halAt e).readyMc)
  let s1 := (List.range 4).foldl (fun (s : State) e => s.setHal e { (s.halAt e) with readyBoard := [], readyMc := [] }) s
  s1.addReady boardPort l

/-- A FIRMWARE stream has passed: the security block notes it, and the boot step is done. -/
def State.passFirmware (s : State) (p : Pusher) (x : Stream) : State :=
  let s1 : State := { s with sec := { s.sec with loadedFw := x.svn, mFw := x.digest, fwKey := (match x.sig with | some k => k.1.toNat | none => 0) } }
  let s2 := s1.addReady p x.declared
  if p.board ∧ s2.boot = 0 then s2.setBoot 1 else s2

/-- A STATIC stream has passed. -/
def State.passStatic (s : State) (p : Pusher) (x : Stream) : State :=
  let s1 : State := ({ s with sec := { s.sec with loadedStatic := x.svn, mStatic := x.digest } } : State).setReady 4 true
  let s2 := s1.addReady p x.declared
  if p.board ∧ s2.boot = 1 then s2.setBoot 2 else s2

/-- A SHELL stream has passed; the last one of full configuration lets every loaded region be released together. -/
def State.passShell (s : State) (p : Pusher) (x : Stream) : State :=
  let d := (match x.declared with | r :: _ => regionDie r.toNat | [] => 24) - 24
  let sec1 : Sec :=
    { s.sec with
      loadedShell := Sparse.put (fun _ => 0) s.sec.loadedShell d x.svn,
      mShell := Sparse.put (fun _ => (0 : BitVec 384)) s.sec.mShell d x.digest }
  let s1 : State := (({ s with sec := sec1, shells := BitVec.ofNat 4 (setBits s.shells.toNat d 1 1) } : State).setReady (5 + d) true).setFld
    (halPage 0 + 0x44) (8 + d) 1 1
  let s2 := s1.addReady p x.declared
  if s2.boot = 2 ∧ s2.shells = 15 then s2.gather.setBoot 3 else s2

/-- A WEAVE stream has passed: the regions whose declaration took effect wait for release. -/
def State.passWeave (s : State) (p : Pusher) (x : Stream) : State := s.addReady p x.effective

/-- Every check of a stream has passed. -/
def State.passes (s : State) (p : Pusher) : State :=
  let x := s.stm p
  let s1 := (s.closeStm p).setReg (resKey p) 1
  match x.typ with
  | 0 => s1.passWeave p x
  | 1 => s1.passFirmware p x
  | 2 => s1.passStatic p x
  | _ => s1.passShell p x

/-- START: the foreign rule is applied, and a stream that waits for no signature passes. -/
def State.startCmd (s : State) (p : Pusher) : State :=
  let x := s.stm p
  if x.foreign then (s.reject p Code.cfgForeignFrame 0).closeStm p
  else if x.typ ≠ 0 ∧ x.sigOk = false then s.setStm p { x with ended := true }
  else s.passes p

/-- The value word of a CRC command. -/
def State.crcValue (s : State) (p : Pusher) (value : Word) : State :=
  let x := s.stm p
  let ok := decide (~~~ x.crc = value)
  let s1 := s.takeWords p [value]
  if ok then s1.setStm p { (s1.stm p) with crcOk := true } else s1.reject p Code.cfgCrc 0

/-- Adds a region to a list once. -/
def addRegion (l : List (BitVec 24)) (r : BitVec 24) : List (BitVec 24) := if l.contains r then l else l ++ [r]

/-- The effect of a command that breaks no rule. -/
def State.streamEffect (s : State) (p : Pusher) (op : Nat) (arg : BitVec 24) (rest : List Word) : State :=
  let x := s.stm p
  let rs := rectRegions (arg.toNat / 2 ^ 19) (rest.getD 0 0).toNat
  match op with
  | 1 => s.setStm p { x with declared := addRegion x.declared arg }
  | 2 => s.setStm p { x with declared := rs.foldl addRegion x.declared }
  | 3 => if x.typ = 0 then s.setStm p { x with cur := [arg] } else s.privSet p arg
  | 4 => s.setStm p { x with cur := rs }
  | 5 => s.setStm p { x with cur := addRegion x.cur arg }
  | 6 => s.setStm p { x with cur := rs.foldl addRegion x.cur }
  | 7 => s.writeCmd p arg.toNat rest
  | 8 => s.repeatCmd p arg.toNat
  | 9 => s.crcValue p (rest.getD 0 0)
  | 10 => s.setStm p { x with sig := some (rest.getD 0 0, rest.drop 1) }
  | 11 => s.startCmd p
  | _ => s

/-- Whether a frame for the current set waits: the clear of one of its declared regions is not done (R358). -/
def State.frameWaits (s : State) (p : Pusher) : Bool :=
  (s.stm p).cur.any (fun r => (s.stm p).declared.contains r && (s.region r.toNat).clearing)

/-- A command word of an open stream and the words after it; whether they have been taken. The words of a rejected stream are
discarded up to its START; the declared set takes effect at the first WRITE, whose frame then waits for the clears. -/
def State.streamCmd (s : State) (p : Pusher) (op : Nat) (arg : BitVec 24) (rest : List Word) : State × Bool :=
  let x := s.stm p
  let w : Word := BitVec.ofNat 32 (op * 2 ^ 24 + arg.toNat)
  if x.rejected then
    let s1 := s.takeWords p (w :: rest)
    (if op = 11 ∧ arg = 0 then s1.closeStm p else s1, true)
  else
    match s.grammar p x op arg.toNat rest with
    | some reason => ((s.takeWords p (w :: rest)).reject p Code.cfgGrammar reason, true)
    | none =>
      let s1 := if op = 7 then s.beginWeave p else s
      if (op = 7 ∨ op = 8) ∧ (s1.stm p).rejected = false ∧ s1.frameWaits p = true then (s1, false)
      else ((s1.takeWords p (if op = 9 then [w] else w :: rest)).streamEffect p op arg rest, true)

/-- Feeds words to a port until they are used up, a command lacks words, a frame waits for a clear, or the stream waits for its
signature; the words that are left. A SYNC is one where a command is expected (R357). -/
def State.feed : Nat → State → Pusher → List Word → State × List Word
  | 0, s, _, l => (s, l)
  | fuel + 1, s, p, l =>
    let x := s.stm p
    match l with
    | [] => (s, [])
    | w :: r =>
      if x.ended then (s, l)
      else if w = 0x5A3CC3A5 then
        if r.length < 3 then (s, l)
        else State.feed fuel (s.syncWords p (r.getD 0 0) (r.getD 1 0) (r.getD 2 0)) p (r.drop 3)
      else if !x.opened then State.feed fuel s p r
      else
        let n := cmdWords (w.toNat / 2 ^ 24)
        if r.length < n then (s, l)
        else
          let q := s.streamCmd p (w.toNat / 2 ^ 24) (w.setWidth 24) (r.take n)
          if q.2 then State.feed fuel q.1 p (r.drop n) else (q.1, l)

/-- A pusher delivers words: they enter its buffer, and the halyard takes from it what it can (R352). -/
def State.pushWords (s : State) (p : Pusher) (ws : List Word) : State :=
  if !s.portOk p then s
  else
    let l := s.buf p ++ ws
    let r := State.feed l.length s p l
    r.1.setBuf p r.2

/-- Whether firmware may push a stream of its own choice at a management port: none is open, no word waits, and no tenant's load
runs there (assumption 46). -/
def State.portFree (s : State) (p : Pusher) : Bool :=
  !(s.stm p).opened && (s.buf p).isEmpty && s.tenants.all (fun q =>
    decide (q.2.res.home ≠ p.e) || !q.2.cmds.any (fun c => c.started && decide (c.op = 0x20)))

/-- A command word. -/
def cmdWord (op : Nat) (arg : BitVec 24) : Word := BitVec.ofNat 32 (op * 2 ^ 24 + arg.toNat)

/-- SYNC, HDR, LENGTH and SVN. -/
def execStreamSync (p : Pusher) (hdr len svn : Word) (s : State) : Host.Outcome State Fault Refusal :=
  done (s.whenUp fun s => s.pushWords p [0x5A3CC3A5, hdr, len, svn])

/-- STREAM_NOP. -/
def execStreamNop (p : Pusher) (arg : BitVec 24) (s : State) : Host.Outcome State Fault Refusal :=
  done (s.whenUp fun s => s.pushWords p [cmdWord 0 arg])

/-- DECL. -/
def execDecl (p : Pusher) (arg : BitVec 24) (s : State) : Host.Outcome State Fault Refusal :=
  done (s.whenUp fun s => s.pushWords p [cmdWord 1 arg])

/-- DECLR. -/
def execDeclr (p : Pusher) (arg : BitVec 24) (rect : Word) (s : State) : Host.Outcome State Fault Refusal :=
  done (s.whenUp fun s => s.pushWords p [cmdWord 2 arg, rect])

/-- SET. -/
def execStreamSet (p : Pusher) (arg : BitVec 24) (s : State) : Host.Outcome State Fault Refusal :=
  done (s.whenUp fun s => s.pushWords p [cmdWord 3 arg])

/-- SETR. -/
def execSetr (p : Pusher) (arg : BitVec 24) (rect : Word) (s : State) : Host.Outcome State Fault Refusal :=
  done (s.whenUp fun s => s.pushWords p [cmdWord 4 arg, rect])

/-- ADD of a stream. -/
def execStreamAdd (p : Pusher) (arg : BitVec 24) (s : State) : Host.Outcome State Fault Refusal :=
  done (s.whenUp fun s => s.pushWords p [cmdWord 5 arg])

/-- ADDR. -/
def execAddr (p : Pusher) (arg : BitVec 24) (rect : Word) (s : State) : Host.Outcome State Fault Refusal :=
  done (s.whenUp fun s => s.pushWords p [cmdWord 6 arg, rect])

/-- WRITE. -/
def execStreamWrite (p : Pusher) (arg : BitVec 24) (frame : List Word) (s : State) : Host.Outcome State Fault Refusal :=
  done (s.whenUp fun s => s.pushWords p (cmdWord 7 arg :: (List.range 64).map (fun i => frame.getD i 0)))

/-- REPEAT. -/
def execStreamRepeat (p : Pusher) (arg : BitVec 24) (s : State) : Host.Outcome State Fault Refusal :=
  done (s.whenUp fun s => s.pushWords p [cmdWord 8 arg])

/-- CRC. -/
def execStreamCrc (p : Pusher) (arg : BitVec 24) (value : Word) (s : State) : Host.Outcome State Fault Refusal :=
  done (s.whenUp fun s => s.pushWords p [cmdWord 9 arg, value])

/-- SIG. -/
def execStreamSig (p : Pusher) (arg : BitVec 24) (block : List Word) (s : State) : Host.Outcome State Fault Refusal :=
  done (s.whenUp fun s => s.pushWords p (cmdWord 10 arg :: (List.range 25).map (fun i => block.getD i 0)))

/-- START. -/
def execStreamStart (p : Pusher) (arg : BitVec 24) (s : State) : Host.Outcome State Fault Refusal :=
  done (s.whenUp fun s => s.pushWords p [cmdWord 11 arg])

/-- Whether the key of a SIG block verifies streams of a TYPE (15 R468, R469). -/
def Sec.keyOk (x : Sec) (key typ : Nat) : Bool :=
  if key = 1 then !x.revokedA else if key = 2 then !x.revokedB else if key = 0x10 then decide (typ ≠ 1) && x.owner.isSome else false

/-- The fused count for a TYPE (15 R470). -/
def Sec.fused (x : Sec) (typ : Nat) : Nat := match typ with | 1 => x.svnFw | 2 => x.svnStatic | _ => x.svnShell

/-- A rejection that comes once the stream's words are over closes it. -/
def State.rejectEnd (s : State) (p : Pusher) (code : BitVec 16) : State :=
  let s1 := s.reject p code 0
  if (s.stm p).ended then s1.closeStm p else s1

/-- The security block has verified a stream's signature, r and s over the stream's digest under the key of KEY_ID, or found it
invalid; then SVN is compared (R360, R361). -/
def State.verified (s : State) (p : Pusher) : State :=
  let x := s.stm p
  match x.sig with
  | none => s
  | some (key, rs) =>
    if !x.opened || x.rejected || x.sigOk then s
    else if !(s.sec.keyOk key.toNat x.typ && Config.ecdsaOk key.toNat s.sec.owner x.digest rs) then s.rejectEnd p Code.cfgSignature
    else if x.svn < s.sec.fused x.typ then s.rejectEnd p Code.secRollback
    else
      let s1 := s.setStm p { x with sigOk := true }
      if x.ended then s1.passes p else s1

/-- SIGNATURE_VERIFIED. Words that have waited for it go on. -/
def execSignatureVerified (p : Pusher) (s : State) : Host.Outcome State Fault Refusal :=
  done (s.whenUp fun s => (s.verified p).pushWords p [])

/-- A truncation (R357): an open stream is rejected, the words of a rejected one are no longer awaited, and words that make no
whole command are gone. -/
def State.truncate (s : State) (p : Pusher) : State :=
  let x := s.stm p
  if !x.opened && (s.buf p).isEmpty then s
  else
    let s1 := s.setBuf p []
    if x.rejected then s1.closeStm p else (s1.reject p Code.cfgTruncated 0).closeStm p

/-- STREAM_IDLE_TIMEOUT; a stream whose START has come waits for no word. -/
def execStreamIdleTimeout (p : Pusher) (s : State) : Host.Outcome State Fault Refusal :=
  done (s.whenUp fun s => if (s.stm p).ended then s else s.truncate p)

/-! Clears and release (R358, R366) -/

/-- Every pusher's words that waited go on. -/
def State.drainPorts (s : State) : State :=
  (List.finRange 4).foldl (fun (s : State) e => (s.pushWords ⟨e, true⟩ []).pushWords ⟨e, false⟩ []) s

/-- REGION_CLEAR_DONE: the frames that waited for the clear flow. -/
def execRegionClearDone (region : BitVec 24) (s : State) : Host.Outcome State Fault Refusal :=
  done (s.whenUp fun s => (s.setRegion region.toNat { (s.region region.toNat) with clearing := false }).drainPorts)

/-- Stage 1 of one region that is LOADING: its outputs follow its logic, a collar's FIFOs are emptied (10 R339). Its inputs are
seen from its first clock edge on (assumption 86). -/
def State.stage1 (s : State) (r : Nat) : State :=
  let g := s.region r
  if g.st ≠ .loading then s
  else
    let s1 := s.setRegion r { g with st := .releasing, stage := 1, at_ := s.time, edges := [] }
    if regionKind r = 1 then s1.driveOut r (s1.comb r [])
    else if regionKind r ≠ 0 then s1
    else
      let n := regionDie r * 2112 + regionUnit r
      let c := s1.core n
      (s1.modCore n (fun c => { c with ob0 := [], ob1 := [], ib0 := [], ib1 := [] })).incSat (colPage n + 0xA0)
        (c.ob0.length + c.ob1.length + c.ib0.length + c.ib1.length)

/-- RELEASE_STAGE_1: the regions that a port's streams have passed, once every clear is done. Until full configuration has its
last shell, the set-reset holds the whole fabric, and controller memory alone is released (R364). -/
def State.release1 (s : State) (p : Pusher) : State :=
  let h := s.halAt p.e.val
  let l := if p.board then h.readyBoard else h.readyMc
  let may := fun (r : BitVec 24) => decide (3 ≤ s.boot) || decide (regionKind r.toNat = 3)
  let go := l.filter may
  if go.any (fun r => (s.region r.toNat).clearing) then s
  else
    let stay := l.filter (fun r => !may r)
    let s1 := s.setHal p.e.val (if p.board then { h with readyBoard := stay } else { h with readyMc := stay })
    go.foldl (fun s r => s.stage1 r.toNat) s1

/-- RELEASE_STAGE_1. -/
def execReleaseStage1 (p : Pusher) (s : State) : Host.Outcome State Fault Refusal :=
  done (s.whenUp fun s => s.release1 p)

/-- RELEASE_STAGE_2, from T + 128 ns. -/
def execReleaseStage2 (region : BitVec 24) (s : State) : Host.Outcome State Fault Refusal :=
  done (s.whenUp fun s =>
    let g := s.region region.toNat
    if g.st = .releasing ∧ g.stage = 1 ∧ g.at_.toNat + 128 ≤ s.time.toNat then s.setRegion region.toNat { g with stage := 2 } else s)

/-- Whether a region that a loader loaded is still on the way to RUNNING. -/
def State.stillLoading (s : State) (loader : Nat) : Bool :=
  s.regions.any (fun p => decide (p.2.st = .releasing) && decide (p.2.loader = loader))

/-- Whether all four shells and the die-static regions run. -/
def State.shellsRun (s : State) : Bool :=
  (List.range 4).all (fun e => decide ((s.region (edgeRegion e 0)).st = .running))
    && (List.range 28).all (fun d => decide ((s.region (regionId d 2 0)).st = .running))

/-- The frames that a region of configuration memory holds. -/
def State.imageOf (s : State) (r : Nat) : List (Nat × List Word) :=
  (s.cfgmem.filter (fun p => decide (p.1 / 65536 = r))).map (fun p => (p.1 % 65536, p.2))

/-- A region reaches RUNNING: it is counted, its owner told, a collar's image remembered (R369); the halyard raises LOADED after a
stream's last region and FULL_DONE after the last region of full configuration. -/
def State.regionRuns (s : State) (r : Nat) : State :=
  let g := s.region r
  let s1 := s.setRegion r { g with st := .running, stage := 3, err := 0, image := if regionKind r = 0 then some (s.imageOf r) else none }
  let s2 := if hasShroud r then ((s1.incWrap (regionKey r 0x4C)).raiseIrq (regionPage r) 1).regionEvent r 0 else s1
  let s3 := if s2.stillLoading g.loader then s2 else s2.raiseIrq (halPage (g.loader - 2)) 1
  let s4 := if regionKind r = 1 ∧ regionUnit r = 0 ∧ 25 ≤ regionDie r then s3.setFld (halPage (regionDie r - 24) + 0x44) 4 4 4 else s3
  if s4.boot = 3 ∧ s4.shellsRun = true then (s4.setBoot 4).raiseIrq (halPage 0) 32 else s4

/-- RELEASE_STAGE_3, from T + 256 ns. -/
def execReleaseStage3 (region : BitVec 24) (s : State) : Host.Outcome State Fault Refusal :=
  done (s.whenUp fun s =>
    let g := s.region region.toNat
    if g.st = .releasing ∧ g.stage = 2 ∧ g.at_.toNat + 256 ≤ s.time.toNat then s.regionRuns region.toNat else s)

/-- CFG_DONE_RISE: 64 ns after stage 3 of the full configuration. -/
def execCfgDoneRise (s : State) : Host.Outcome State Fault Refusal :=
  done (s.whenUp fun s =>
    if s.boot = 4 ∧ s.cfgDone = false ∧ (List.range 4).all (fun e => decide ((s.region (edgeRegion e 0)).at_.toNat + 320 ≤ s.time.toNat)) = true then
      ({ s with cfgDone := true }.send (.pin .cfgDone 1)).setReady 9 true
    else s)

/-- MC_START: the management controllers start once a FIRMWARE stream has passed; they are in reset while controller memory is
LOADING (R359). -/
def execMcStart (s : State) : Host.Outcome State Fault Refusal :=
  done (s.whenUp fun s =>
    let g := s.region (regionId 24 3 0)
    if (g.st = .releasing ∨ g.st = .running) ∧ s.sec.fwKey ≠ 0 ∧ s.mcOn = false then ({ s with mcOn := true } : State).setReady 3 true
    else s)

/-! SHR_CTRL.CLEAR and the clamp log -/

/-- CLEAR (R367, R369). -/
def State.shrClear (s : State) (r off : Nat) : State :=
  let g := s.region r
  match g.st with
  | .loading => s.clampAt (regionPage r) off
  | .running => (s.clearMemory r).setRegion r { g with st := .empty, clearing := true, stage := 0, edges := [], image := none }
  | .failed => (s.clearMemory r).setRegion r { g with st := .empty, clearing := true, stage := 0, edges := [], image := none }
  | _ => s

/-- A write of SHR_CTRL with CLEAR. -/
def execShrClear (who : Party) (region : BitVec 24) (s : State) : Host.Outcome State Fault Refusal :=
  done (s.whenUp fun s =>
    let r := region.toNat
    if !regionValid r || !hasShroud r then s
    else s.ctl who (regionKey r 0x40) fun s => s.shrClear r (keyOff (regionKey r 0x40)))

/-- HAL_CLOG_POP: the oldest entry is removed; OVERFLOW clears when the log becomes empty. -/
def State.popClamp (s : State) (e : Nat) : State :=
  let h := s.halAt e
  let l := h.log.drop 1
  s.setHal e { h with log := l, overflow := h.overflow && !l.isEmpty }

/-- A write of HAL_CLOG_POP. -/
def execClogPop (who : Party) (e : Fin 4) (s : State) : Host.Outcome State Fault Refusal :=
  done (s.whenUp fun s => s.ctl who (halPage e.val + 0x74) fun s => s.popClamp e.val)

/-! The frame checker (R370) -/

/-- A frame of a region is read with what its words hold. -/
def State.frameChecked (s : State) (r idx : Nat) (e : LineEcc) : State :=
  let k := regionKind r
  let edge := decide (24 ≤ regionDie r)
  let pg := halPage (regionDie r - 24)
  if !regionValid r || decide (regionFrames r ≤ idx) || (decide (k = 1) && decide (49152 ≤ idx) && decide (idx < 52224)) then s
  else match e with
    | .clean => s
    | .corrected => if k = 0 then s.incSat (regionKey r 0x54) else if edge then s.incSat (pg + 0x78) else s
    | .uncorrectable =>
      let s1 := if edge then ((s.incSat (pg + 0x7C)).raiseIrq pg 16).enterCode pg Code.cfgUpset else s
      if k = 0 ∨ (k = 1 ∧ regionUnit r ≠ 0) then (s1.regionFails Code.cfgUpset r).raiseIrq (regionPage r) 4
      else s1.dieFails (regionDie r)

/-- CONFIG_FRAME_CHECK. -/
def execConfigFrameCheck (region : BitVec 24) (frame : Nat) (e : LineEcc) (s : State) : Host.Outcome State Fault Refusal :=
  done (s.whenUp fun s => s.frameChecked region.toNat frame e)

/-! The serial port (R350) -/

/-- Whole words of bytes, byte 0 first, and the bytes left over. -/
def wordsOfBytes (l : List Byte) : List Word × List Byte :=
  let n := l.length / 4
  ((List.range n).map (fun i => BitVec.ofNat 32 (leNat (bytesAt l (4 * i) 4))), l.drop (4 * n))

/-- SERIAL_WRITE: word assembly carries across transactions. In parallel mode the port takes none. -/
def execSerialWrite (bytes : List Byte) (s : State) : Host.Outcome State Fault Refusal :=
  done (s.whenUp fun s =>
    if s.cfgMode || !s.portOk boardPort then s
    else
      let w := wordsOfBytes ((s.halAt 0).bytes ++ bytes)
      (s.setHal 0 { (s.halAt 0) with bytes := w.2 }).pushWords boardPort w.1)

/-- SERIAL_STATUS: HAL_STATUS, byte 0 first. -/
def execSerialStatus (s : State) : Host.Outcome State Fault Refusal :=
  done (s.whenUp fun s => if s.cfgMode then s else s.send (.bytes false (leBytes 4 (s.reg (halPage 0 + 0x44)).toNat)))

end Sys2Proof.Machine
end

