-- ==== Sys2Proof/Machine/Lanes.lean ====
section
/-! DEFINITION. Serial lanes (chapter 13, R400 to R408, R426): claims, power states, test patterns, eye scan, bit-slip;
and what a sub-port going down does (R401, R409). -/
namespace Sys2Proof.Machine

/-! Places -/

/-- The number of a lane in the module, 0 to 63. -/
def laneNo (l : LaneId) : Nat := l.e.val * 16 + l.n.val

/-- The page of the lane quad of lane k. -/
def quadPage (k : Nat) : Nat := edgePage (k / 16) (0xF200 + k % 16 / 4)

/-- The key of a register of lane k: 0x00 LQ_CFG to 0x2C LQ_SLIP_POS (R426). -/
def laneKey (k off : Nat) : Nat := quadPage k + 0x100 + 0x40 * (k % 4) + off

/-- The number of a port in the module, 0 to 15. -/
def portNo (p : PortId) : Nat := p.e.val * 4 + p.q.val

/-- The port of a number. -/
def portOf (n : Nat) : PortId :=
  ⟨⟨n / 4 % 4, Nat.mod_lt _ (by decide)⟩, ⟨n % 4, Nat.mod_lt _ (by decide)⟩⟩

/-- The MAC page of port n (R427). -/
def macPage (n : Nat) : Nat := edgePage (n / 4) (0xF210 + n % 4)

/-- The page of the management MAC. -/
def mmacPage : Nat := edgePage 0 0xF214

/-- The scheduler page of port n; its offsets go on past 4 KiB (17 R508). -/
def tsnPage (n : Nat) : Nat := edgePage (n / 4) (0xF220 + n % 4)

/-- The key of counter `off` of sub-port u (R427). -/
def ethKey (n u off : Nat) : Nat := macPage n + 0x100 + 0x40 * u + off

/-- ETH_CFG.MODE of a port. -/
def State.mode (s : State) (n : Nat) : Nat := s.fld (macPage n + 0x40) 0 3

/-- How many sub-ports a MODE has (R409). -/
def modeSubs : Nat → Nat
  | 1 => 1 | 2 => 2 | 3 => 4 | 4 => 4 | 5 => 4 | 6 => 4 | _ => 0

/-- The sub-port that uses lane j, 0 to 3, of a port (R409). -/
def modeSub (mode j : Nat) : Option Nat :=
  match mode with
  | 1 => some 0 | 2 => some (j / 2) | 3 => some j | 4 => some j | 5 => some j | 6 => some j | _ => none

/-- The lanes of a sub-port, counted from the port's first (R409). -/
def subLanes (mode u : Nat) : List Nat := (List.range 4).filter (fun j => decide (modeSub mode j = some u))

/-- The rate of a sub-port in Gb/s, that is in bits per ns (R409). -/
def modeRate : Nat → Nat
  | 1 => 800 | 2 => 400 | 3 => 200 | 4 => 100 | 5 => 50 | 6 => 25 | _ => 1

/-- The port of lane k. -/
def lanePort (k : Nat) : Nat := k / 4

/-- Whether a lane is claimed for raw mode. -/
def State.raw (s : State) (k : Nat) : Bool := s.bit (laneKey k 0) 2

/-- Whether a lane carries no enabled sub-port, or is in raw mode: what PWR and TX_PAT ask (R403, R408). -/
def State.laneIdle (s : State) (k : Nat) : Bool :=
  s.raw k || match modeSub (s.mode (lanePort k)) (k % 4) with
    | none => true
    | some u => !s.bit (macPage (lanePort k) + 0x40) (4 + u)

/-- Whether a lane runs at the NRZ rate: RATE 3 in raw mode, MODE 6 in Ethernet mode (R400, R409). -/
def State.nrz (s : State) (k : Nat) : Bool :=
  if s.raw k then decide (s.fld (laneKey k 0) 0 2 = 3) else decide (s.mode (lanePort k) = 6)

/-! Sub-ports going down -/

/-- PG_READY.DATA_LINK: at least one data sub-port link is up (16 R499). -/
def State.dataLink (s : State) : State :=
  s.setReady 16 ((List.range 16).any (fun n => decide (s.fld (macPage n + 0x44) 0 4 ≠ 0)))

/-- What is in transmission on a sub-port. -/
def State.sendingOn (s : State) (n u : Nat) : Option Sending :=
  match Sparse.get (fun _ => none) (s.port n).sending u with
  | some x => if s.time.toNat < x.fin then some x else none
  | none => none

/-- Replaces what is in transmission on a sub-port. -/
def State.setSending (s : State) (n u : Nat) (x : Option Sending) : State :=
  s.setPort n { (s.port n) with sending := Sparse.put (fun _ => none) (s.port n).sending u x }

/-- A frame in transmission is ended with an invalid FCS and counted (R401). -/
def State.abortTx (s : State) (n u : Nat) : State :=
  match s.sendingOn n u with
  | some x => ((s.setSending n u none).send (.abort (portOf n) u x.frame)).incSat (ethKey n u 0x14)
  | none => s.setSending n u none

/-- A sub-port goes down: LINK and FEC_LOCK fall, LINK_DOWN is raised if the link was up, a frame in transmission is
ended. -/
def State.subDown (s : State) (n u : Nat) : State :=
  let up := s.bit (macPage n + 0x44) u
  let s1 := ((s.setFld (macPage n + 0x44) u 1 0).setFld (macPage n + 0x44) (4 + u) 1 0).abortTx n u
  (if up then s1.raiseIrq (macPage n) 2 else s1).dataLink

/-- A lane starts again at its port's rate: it loses lock, and a lane whose requested state is ON runs its start-up. -/
def State.retrain (s : State) (k : Nat) : State :=
  let l := s.lane k
  if l.moving then s.setLane k { l with lock := false, prbs := false }
  else if l.want = 0 then s.setLane k { l with lock := false, prbs := false, st := .starting, goal := 0, moving := true }
  else s.setLane k { l with lock := false, prbs := false }

/-! Configuration of a lane -/

/-- A request of power state p: a transition in progress runs to its end first (R408). LIGHT holds clock recovery, DEEP
turns it off (R407); LQ_STAT shows LOCK in ON alone, so LOCK reasserts when start-up has completed. -/
def State.lanePower (s : State) (k p : Nat) : State :=
  let l := s.lane k
  let l1 := { l with want := p }
  if l.moving ∨ p = l.goal then s.setLane k l1
  else
    let keeps := decide (p ≠ 2)
    s.setLane k { l1 with goal := p, moving := true, st := if p = 0 then .starting else .entering, lock := l.lock && keeps, prbs := l.prbs && keeps }

/-- Setting RAW claims the lane: its sub-port goes down at once. Clearing it retrains the lane at its port's rate
(R401). -/
def State.rawChange (s : State) (k : Nat) (old new : Bool) : State :=
  if new && !old then
    match modeSub (s.mode (lanePort k)) (k % 4) with
    | some u => s.subDown (lanePort k) u
    | none => s
  else if old && !new then s.retrain k
  else s

/-- A write of LQ_CFG (R401, R407, R408, R426): the fields take their legal values, a claim that names region 0 leaves RAW
at 0, and PWR other than 0 is taken on an idle lane alone. Every field that is changed so is recorded in the clamp
record. -/
def State.laneCfg (s : State) (k w : Nat) : State :=
  let page := quadPage k
  let off := 0x100 + 0x40 * (k % 4)
  let rec0 := fun (b : Bool) (s : State) => if b then s.clampAt page off else s
  let badClaim := decide (bits w 2 1 = 1) && decide (bits w 8 4 = 0)
  let raw := decide (bits w 2 1 = 1) && !badClaim
  let pwr0 := min 2 (bits w 4 2)
  let idle := raw || match modeSub (s.mode (lanePort k)) (k % 4) with
    | none => true
    | some u => !s.bit (macPage (lanePort k) + 0x40) (4 + u)
  let pwr := if idle then pwr0 else 0
  let badLoop := decide (bits w 12 2 = 3)
  let v := setBits (setBits (setBits (w % 2 ^ 14) 2 2 (b2n raw)) 4 2 pwr) 12 2 (if badLoop then 0 else bits w 12 2)
  let old := s.raw k
  let s1 := rec0 badLoop (rec0 (decide (pwr ≠ bits w 4 2)) (rec0 badClaim s))
  (((s1.setReg (laneKey k 0) (BitVec.ofNat 32 v)).rawChange k old raw).lanePower k pwr)

/-- LANE_CLAIM (R401): firmware sets RAW and REGION of a lane, or clears RAW. -/
def execLaneClaim (who : Party) (l : LaneId) (raw : Bool) (region : BitVec 4) (s : State) : Host.Outcome State Fault Refusal :=
  done (s.whenUp fun s => s.ctl who (laneKey (laneNo l) 0) fun s =>
    s.laneCfg (laneNo l) (setBits (setBits (s.reg (laneKey (laneNo l) 0)).toNat 2 1 (b2n raw)) 8 4 region.toNat))

/-- LANE_POWER_REQUEST (R408): firmware writes PWR of a lane. -/
def execLanePowerRequest (who : Party) (l : LaneId) (pwr : BitVec 2) (s : State) : Host.Outcome State Fault Refusal :=
  done (s.whenUp fun s => s.ctl who (laneKey (laneNo l) 0) fun s =>
    s.laneCfg (laneNo l) (setBits (s.reg (laneKey (laneNo l) 0)).toNat 4 2 pwr.toNat))

/-- The power state of a PWR value. -/
def pwrState : Nat → LaneState
  | 0 => .on
  | 1 => .light
  | _ => .deep

/-- LANE_POWER_DONE (R408): the lane arrives; PWR_DONE is raised where the state is the one requested, and otherwise the
transition that was requested last starts at once. -/
def execLanePowerDone (l : LaneId) (s : State) : Host.Outcome State Fault Refusal :=
  done (s.whenUp fun s =>
    let k := laneNo l
    let x := s.lane k
    if x.moving then
      let s1 := s.setLane k { x with st := pwrState x.goal, moving := false }
      if x.want = x.goal then s1.raiseIrq (quadPage k) 8 else s1.lanePower k x.want
    else s)

/-! Test patterns (R403) -/

/-- A write of LQ_PRBS: TX_PAT other than 0 is taken on an idle lane alone; a write clears the counts and starts the
checker again (R403, R426). -/
def State.lanePrbs (s : State) (k w : Nat) : State :=
  let page := quadPage k
  let off := 0x100 + 0x40 * (k % 4) + 8
  let tx := if 8 < bits w 0 4 ∨ s.laneIdle k = false then 0 else bits w 0 4
  let rx := if 8 < bits w 4 4 then 0 else bits w 4 4
  let mode := if bits w 8 2 = 2 then 2 else 0
  let rate := min 40 (max 10 (bits w 10 6))
  let v := tx + rx * 16 + mode * 256 + rate * 1024
  let s1 := [decide (tx ≠ bits w 0 4), decide (rx ≠ bits w 4 4), decide (mode ≠ bits w 8 2), decide (rate ≠ bits w 10 6)].foldl
    (fun (s : State) b => if b then s.clampAt page off else s) s
  let s2 := ((s1.setReg (laneKey k 8) (BitVec.ofNat 32 v)).setReg (laneKey k 0x10) 0).setReg64 (laneKey k 0x14) 0
  s2.setLane k { (s2.lane k) with prbs := false }

/-- PRBS_CHECKER_LOCK (R403): the checker of a lane with lock and a pattern locks. `bits` and `errs` are the bits compared
and the mismatches since the counters last moved. -/
def execPrbsCheckerLock (l : LaneId) (bits : Dword) (errs : Word) (s : State) : Host.Outcome State Fault Refusal :=
  done (s.whenUp fun s =>
    let k := laneNo l
    let x := s.lane k
    if x.lock && decide (x.st = .on) && decide (s.fld (laneKey k 8) 4 4 ≠ 0) then
      ((s.setLane k { x with prbs := true }).incSat (laneKey k 0x10) errs.toNat).inc64 (laneKey k 0x14) bits.toNat
    else s)

/-- PRBS_RELOCK (R403): 64 mismatches within 1,024 bits, counted, make the checker relock and raise PRBS_ERR. How many bits
of the 1,024 had been compared at the 64th mismatch is free. -/
def execPrbsRelock (l : LaneId) (s : State) : Host.Outcome State Fault Refusal :=
  done (s.whenUp fun s =>
    let k := laneNo l
    let x := s.lane k
    if x.prbs then
      let (n, s1) := s.draw
      (((s1.setLane k { x with prbs := false }).incSat (laneKey k 0x10) 64).inc64 (laneKey k 0x14) (64 + n % 961)).raiseIrq (quadPage k) 2
    else s)

/-- LQ_INJECT.ONE: one transmitted bit is inverted while the generator runs. -/
def State.injectOne (s : State) (k : Nat) : State := if s.fld (laneKey k 8) 0 4 ≠ 0 then s.send (.inverted k) else s

/-- INJECT_ONE (R403). -/
def execInjectOne (who : Party) (l : LaneId) (s : State) : Host.Outcome State Fault Refusal :=
  done (s.whenUp fun s => s.ctl who (laneKey (laneNo l) 0x0C) fun s => s.injectOne (laneNo l))

/-! Eye scan (R404) -/

/-- LQ_SCAN_CFG takes a value: EYE is clamped to the middle on NRZ, and 3 to the middle (R404, R426). -/
def State.scanCfg (s : State) (k w : Nat) : State :=
  let v := (BitVec.ofNat 32 w &&& 0x00F37F3F).toNat
  let bad := decide (bits v 16 2 = 3) || (s.nrz k && decide (bits v 16 2 ≠ 1))
  let s1 := s.setReg (laneKey k 0x1C) (BitVec.ofNat 32 (if bad then setBits v 16 2 1 else v))
  if bad then s1.clampAt (quadPage k) (0x100 + 0x40 * (k % 4) + 0x1C) else s1

/-- A write of LQ_SCAN_CFG: while a scan runs it has no effect until the scan ends. -/
def State.scanCfgWrite (s : State) (k w : Nat) : State :=
  if (s.lane k).scan then s.setLane k { (s.lane k) with nextScan := some (BitVec.ofNat 32 w) } else s.scanCfg k w

/-- A scan ends with a count of at most 2^(10 + 2 DWELL) disagreements. -/
def State.scanEnds (s : State) (k count : Nat) : State :=
  let most := 2 ^ (10 + 2 * s.fld (laneKey k 0x1C) 20 4)
  let l := s.lane k
  let s1 := (s.setLane k { l with scan := false, nextScan := none }).setReg (laneKey k 0x24) (BitVec.ofNat 32 (min 0xFFFFFFFF (min count most)))
  match l.nextScan with
  | some w => s1.scanCfg k w.toNat
  | none => s1

/-- LQ_SCAN_CTRL.START: an eye scan begins. -/
def State.scanBegin (s : State) (k : Nat) : State := s.setLane k { (s.lane k) with scan := true }

/-- LQ_SCAN_CTRL.STOP: a scan ends with the count it has reached. -/
def State.scanStopped (s : State) (k count : Nat) : State := if (s.lane k).scan then s.scanEnds k count else s

/-- SCAN_START (R404). -/
def execScanStart (who : Party) (l : LaneId) (s : State) : Host.Outcome State Fault Refusal :=
  done (s.whenUp fun s => s.ctl who (laneKey (laneNo l) 0x20) fun s => s.scanBegin (laneNo l))

/-- SCAN_STOP (R404). -/
def execScanStop (who : Party) (l : LaneId) (count : Word) (s : State) : Host.Outcome State Fault Refusal :=
  done (s.whenUp fun s => s.ctl who (laneKey (laneNo l) 0x20) fun s => s.scanStopped (laneNo l) count.toNat)

/-- SCAN_DONE: the scan completes and raises SCAN_DONE. -/
def execScanDone (l : LaneId) (count : Word) (s : State) : Host.Outcome State Fault Refusal :=
  done (s.whenUp fun s =>
    if (s.lane (laneNo l)).scan then (s.scanEnds (laneNo l) count.toNat).raiseIrq (quadPage (laneNo l)) 4 else s)

/-! Bit-slip and lock (R405, R406) -/

/-- A request of a bit-slip; one made while a slip is pending is ignored. -/
def State.requestSlip (s : State) (k : Nat) : State := s.setLane k { (s.lane k) with slip := true }

/-- LQ_SLIP: firmware requests a bit-slip. -/
def execLqSlip (who : Party) (l : LaneId) (s : State) : Host.Outcome State Fault Refusal :=
  done (s.whenUp fun s => s.ctl who (laneKey (laneNo l) 0x28) fun s => s.requestSlip (laneNo l))

/-- RX_SLIP: the region that has claimed the lane requests a bit-slip. -/
def execRxSlip (l : LaneId) (s : State) : Host.Outcome State Fault Refusal :=
  done (s.whenUp fun s => if s.raw (laneNo l) then s.requestSlip (laneNo l) else s)

/-- BIT_SLIP: the pending slip takes effect: the next bit received is discarded, so that the word boundary moves one bit later
(R406); LQ_SLIP_POS counts it and wraps at 256. -/
def execBitSlip (l : LaneId) (s : State) : Host.Outcome State Fault Refusal :=
  done (s.whenUp fun s =>
    let k := laneNo l
    if (s.lane k).slip then
      (s.setLane k { (s.lane k) with slip := false, rxDrop := (s.lane k).rxDrop + 1 }).setReg (laneKey k 0x2C) (BitVec.ofNat 32 ((s.fld (laneKey k 0x2C) 0 8 + 1) % 256))
    else s)

/-- LOCK_LOST: clock recovery loses lock. -/
def execLockLost (l : LaneId) (s : State) : Host.Outcome State Fault Refusal :=
  done (s.whenUp fun s =>
    let k := laneNo l
    if (s.lane k).lock then (s.setLane k { (s.lane k) with lock := false, prbs := false }).raiseIrq (quadPage k) 1 else s)

/-- CLOCK_RECOVERY_LOCK: on a lane that is ON clock recovery locks, and the slip position and the word boundary start again from
0. -/
def execClockRecoveryLock (l : LaneId) (s : State) : Host.Outcome State Fault Refusal :=
  done (s.whenUp fun s =>
    let k := laneNo l
    if (s.lane k).st = .on then (s.setLane k { (s.lane k) with lock := true, rxTail := [], rxDrop := 0 }).setReg (laneKey k 0x2C) 0 else s)

end Sys2Proof.Machine
end

