-- ==== Sys2Proof/Machine/Ethernet.lean ====
section
/-! DEFINITION. Ethernet ports (chapter 13, R409 to R420, R427 to R429): links, reception with MACsec (14 R461), stream
filters, meters and recovery, transmission under gates, preemption and gate-list changes. -/
namespace Sys2Proof.Machine

/-! Links (R409) -/

/-- MODE_CHANGE takes every sub-port down and retrains the port's lanes that are not claimed. -/
def State.modeTo (s : State) (n mode : Nat) : State :=
  let s1 := (List.range 4).foldl (fun (s : State) u => s.subDown n u) s
  let s2 := s1.setFld (macPage n + 0x40) 0 3 mode
  (List.range 4).foldl (fun (s : State) j => if s.raw (n * 4 + j) then s else s.retrain (n * 4 + j)) s2

/-- A write of MODE: 7 is clamped to 0; a MODE that does not change leaves the port alone. -/
def State.modeWrite (s : State) (n mode : Nat) : State :=
  let s1 := if mode = 7 then s.clampAt (macPage n) 0x40 else s
  let m := if mode = 7 then 0 else mode
  if m = s.mode n then s1 else s1.modeTo n m

def execModeChange (who : Party) (p : PortId) (mode : BitVec 3) (s : State) : Host.Outcome State Fault Refusal :=
  done (s.whenUp fun s => s.ctl who (macPage (portNo p) + 0x40) fun s => s.modeWrite (portNo p) mode.toNat)

/-- Whether a sub-port exists, is enabled and has none of its lanes claimed. -/
def State.subServes (s : State) (n u : Nat) : Bool :=
  decide (u < modeSubs (s.mode n)) && s.bit (macPage n + 0x40) (4 + u)
    && (subLanes (s.mode n) u).all (fun j => !s.raw (n * 4 + j))

/-- ETH_LINK_UP: LINK, FEC_LOCK where the mode has FEC, LINK_UP and the readiness map (16 R499). The management MAC's link
is sub-port 0 of its own page. -/
def execEthLinkUp (p : PortId) (sub : Fin 4) (mgmt : Bool) (s : State) : Host.Outcome State Fault Refusal :=
  done (s.whenUp fun s =>
    if mgmt then ((s.setFld (mmacPage + 0x44) 0 1 1).raiseIrq mmacPage 1).setReady 15 true
    else if s.subServes (portNo p) sub.val then
      let n := portNo p
      let fec := !(decide (s.mode n = 6) && s.bit (macPage n + 0x40) 3)
      (((s.setFld (macPage n + 0x44) sub.val 1 1).setFld (macPage n + 0x44) (4 + sub.val) 1 (b2n fec)).raiseIrq (macPage n) 1).dataLink
    else s)

/-- ETH_LINK_DOWN. -/
def execEthLinkDown (p : PortId) (sub : Fin 4) (mgmt : Bool) (s : State) : Host.Outcome State Fault Refusal :=
  done (s.whenUp fun s =>
    if mgmt then
      if s.bit (mmacPage + 0x44) 0 then ((s.setFld (mmacPage + 0x44) 0 1 0).raiseIrq mmacPage 2).setReady 15 false else s
    else
      let n := portNo p
      if s.bit (macPage n + 0x44) sub.val then
        ((((s.setFld (macPage n + 0x44) sub.val 1 0).setFld (macPage n + 0x44) (4 + sub.val) 1 0)).raiseIrq (macPage n) 2).dataLink
      else s)

/-! MACsec on reception (14 R461) -/

/-- A receive channel that has seen no valid frame. -/
def RxChan.empty : RxChan := { cur := none, prev := none }

/-- The receive channel of tenant t on port n. -/
def State.rxChan (s : State) (t n : Nat) : RxChan := Sparse.get (fun _ => RxChan.empty) s.rxChans (t * 16 + n)

/-- A key association of a slot (15 R474). -/
def State.keyAn (s : State) (slot an : Nat) : KeyAn := Sparse.get (fun _ => KeyAn.empty) s.sec.keys (slot * 4 + an)

/-- Whether packet number pn passes the replay check with window w after the highest number h. -/
def pnFresh (w h pn : Nat) : Bool := decide (h + 1 ≤ pn + w)

/-- The channel after a frame under association an with number pn, if that passes the replay check: the association in
use, the one before it for 1 s, or a new one, to which the channel moves. -/
def RxChan.take (c : RxChan) (now w : Nat) (an : BitVec 2) (pn : Nat) : Option RxChan :=
  match c.cur with
  | none => some { c with cur := some (an, pn) }
  | some (a, h) =>
    if a = an then if pnFresh w h pn then some { c with cur := some (a, max h pn) } else none
    else match c.prev with
      | some (b, h', since) =>
        if b = an ∧ now < since.toNat + 1000000000 then
          if pnFresh w h' pn then some { c with prev := some (b, max h' pn, since) } else none
        else some { cur := some (an, pn), prev := some (a, h, BitVec.ofNat 64 now) }
      | none => some { cur := some (an, pn), prev := some (a, h, BitVec.ofNat 64 now) }

/-- MACsec on a received frame: the tenant of its secure channel, 0 without MACsec, or none where the frame is
discarded: as unmatched where no tenant has the SCI on the port, else counted in UBX_MACSEC_BAD. -/
def State.macsecRx (s : State) (n : Nat) (f : RxFrame) : State × Option Nat :=
  match f.sci with
  | none => (s, some 0)
  | some sci =>
    match s.liveTenants.find? (fun t => (s.tenant t).res.scis.any (fun x => decide (x.1 = portOf n) && decide (x.2 = sci))) with
    | none => (s.incSat (tsnPage n + 0x7C), none)
    | some t =>
      let bad := (s.incSat (s.ubx t 0x7C), (none : Option Nat))
      if f.icvOk && (s.keyAn t f.an.toNat).loaded then
        match (s.rxChan t n).take s.time.toNat (s.tenant t).res.replayWindow f.an f.pn with
        | some c => ({ s with rxChans := Sparse.put (fun _ => RxChan.empty) s.rxChans (t * 16 + n) c }, some t)
        | none => bad
      else bad

/-! Stream filters (R417 to R419) -/

/-- A four-word entry of a scheduler page as one number. -/
def State.entry128 (s : State) (k : Nat) : Nat :=
  (s.reg k).toNat + 2 ^ 32 * (s.reg (k + 4)).toNat + 2 ^ 64 * (s.reg (k + 8)).toNat + 2 ^ 96 * (s.reg (k + 12)).toNat

/-- Filter f, meter g and recovery function r of port n. -/
def filterKey (n f : Nat) : Nat := tsnPage n + 0x1000 + 16 * f
def meterKey (n g : Nat) : Nat := tsnPage n + 0x3000 + 16 * g
def recoveryKey (n r : Nat) : Nat := tsnPage n + 0x3800 + 16 * r

/-- Whether filter entry x matches a frame that came under the channel of tenant ch, 0 without MACsec. -/
def filterMatches (x : Nat) (f : RxFrame) (ch : Nat) : Bool :=
  let addr := if bits x 61 2 = 1 then decide (f.dst.toNat = bits x 0 48)
    else if bits x 61 2 = 2 then decide (f.src.toNat = bits x 0 48) else false
  decide (bits x 63 1 = 1) && addr
    && (decide (bits x 60 1 = 1) || match f.vid with | some v => decide (v.toNat = bits x 48 12) | none => false)
    && (decide (bits x 80 1 = 1) || decide (f.etype.toNat = bits x 64 16))
    && decide (bits x 88 8 = ch)

/-- The colour of a frame of n bytes: it passes green on the committed bucket, yellow on the excess bucket; red otherwise
(R418). Returns whether it passes, and the port with its buckets charged. -/
def Port.meter (p : Port) (g n : Nat) (dropYellow : Bool) : Bool × Port :=
  let need := n * 15625
  let c := Sparse.get (fun _ => 0) p.committed g
  let e := Sparse.get (fun _ => 0) p.excess g
  if need ≤ c then (true, { p with committed := Sparse.put (fun _ => 0) p.committed g (c - need) })
  else if need ≤ e then (!dropYellow, { p with excess := Sparse.put (fun _ => 0) p.excess g (e - need) })
  else (false, p)

/-- A history that has passed nothing since its reset. -/
def History.empty : History := { fresh := true, last := 0, seen := [], since := 0 }

/-- A recovery function of history length h judges number q: none for a repeat, else the history after it. The window is
the h numbers up to the highest one passed (R419). -/
def History.judge (x : History) (h : Nat) (q : BitVec 16) (now : Dword) : Option History :=
  let age := fun (top v : BitVec 16) => (top - v).toNat
  if x.fresh then some { fresh := false, last := q, seen := [q], since := now }
  else if x.seen.contains q then none
  else
    let ahead := decide (0 < (q - x.last).toInt)
    let top := if ahead then q else x.last
    some { fresh := false, last := top, seen := (q :: x.seen).filter (fun v => decide (age top v < h)), since := now }

/-- The recovery function of a frame: VALID functions judge frames with a redundancy tag; other frames pass unchanged. -/
def State.recover (s : State) (n r : Nat) (f : RxFrame) : State × Bool :=
  let k := recoveryKey n r
  match f.rtag, s.bit k 6 with
  | some q, true =>
    let p := s.port n
    let x := Sparse.get (fun _ => History.empty) p.seen r
    match x.judge (max 2 (s.fld k 0 6)) q s.time with
    | some y =>
      (((s.setPort n { p with seen := Sparse.put (fun _ => History.empty) p.seen r y }).setReg (k + 4) (q.setWidth 32)).incWrap (k + 8), true)
    | none => (s.incWrap (k + 12), false)
  | _, _ => (s, true)

/-- What filter f, entry x, makes of a frame: MAX_SDU, the meter, the recovery function, each with its counter. -/
def State.filtered (s : State) (n f x : Nat) (fr : RxFrame) : State × Bool :=
  let c := tsnPage n + 0x2000 + 16 * f
  let s1 := s.incWrap c
  if bits x 118 8 ≠ 0 ∧ bits x 118 8 * 64 < fr.len then (s1.incWrap (c + 8), false)
  else
    let m : Bool × Port :=
      if bits x 103 1 = 1 then (s1.port n).meter (bits x 96 7) fr.len (decide (bits (s1.entry128 (meterKey n (bits x 96 7))) 112 1 = 1))
      else (true, s1.port n)
    let s2 := s1.setPort n m.2
    if m.1 = false then (s2.incWrap (c + 12), false)
    else
      let r := if bits x 110 1 = 1 then s2.recover n (bits x 104 6) fr else (s2, true)
      if r.2 then (r.1.incWrap (c + 4), true) else (r.1, false)

/-- The tenant that a frame is judged under: that of its secure channel or, without one, the owner of its destination MAC
address (14 R438 step 2). -/
def State.frameTenant (s : State) (ch : Nat) (dst : BitVec 48) : Nat :=
  if ch ≠ 0 then ch else (s.liveTenants.find? (fun t => decide ((s.tenant t).res.mac = dst))).getD 0

/-- The time of a received frame's last bit at the lane: now, less ETH_RX_LAT (R411; assumption 83). -/
def State.rxStamp (s : State) : Dword := s.time - BitVec.ofNat 64 ((Config.fused 2).toNat % 2 ^ 20 / 16)

/-- A frame that has passed its filter goes to DEST (R417). The Ublexia engines hold it until they judge it. -/
def State.toDest (s : State) (n x : Nat) (f : RxFrame) : State :=
  let p := portOf n
  match bits x 111 3 with
  | 1 =>
    { s with ubxIn := s.ubxIn ++ [
      { port := p, mgmt := false, chan := BitVec.ofNat 8 (s.frameTenant (bits x 88 8) f.dst), src := f.src, stamp := s.rxStamp, len := f.len,
        bytes := f.payload }] }
  | 2 =>
    let r := edgeRegion (n / 4) (bits x 114 4)
    if (s.region r).st = .running ∧ (s.regionOwner r).toNat = bits x 88 8 then s.send (.handed p 2 (bits x 114 4) f)
    else s.incSat (tsnPage n + 0x78)
  | 3 => s.send (.handed p 3 0 f)
  | _ => s

/-- The stream filters: the first VALID filter that matches decides the frame; one that matches nothing is discarded and
counted in TSN_UNMATCHED (R417). -/
def State.streamFilter (s : State) (n ch : Nat) (f : RxFrame) : State :=
  match (List.range 256).find? (fun i => filterMatches (s.entry128 (filterKey n i)) f ch) with
  | none => s.incSat (tsnPage n + 0x7C)
  | some i =>
    let x := s.entry128 (filterKey n i)
    let r := s.filtered n i x f
    if r.2 then r.1.toDest n x f else r.1

/-- The MAC's checks of a frame on an up link (R410): FEC, length, FCS, PAUSE. Returns whether the frame is good. -/
def State.macRx (s : State) (n u : Nat) (f : RxFrame) (fcsOk : Bool) (fec : LineEcc) : State × Bool :=
  let s1 : State := match fec with
    | .clean => s
    | .corrected => s.incSat (ethKey n u 0x18)
    | .uncorrectable => (s.incSat (ethKey n u 0x1C)).raiseIrq (macPage n) 4
  let badLen := decide (f.len < 64) || decide (s.fld (macPage n + 0x40) 8 14 < f.len)
  if fec = .uncorrectable then (s1, false)
  else if badLen then (s1.incSat (ethKey n u 8), false)
  else if fcsOk = false then (s1.incSat (ethKey n u 4), false)
  else if f.pause then (s1.incWrap (ethKey n u 0x0C), false)
  else (s1.incWrap (ethKey n u 0), true)

/-- FRAME_RECEIVE: the MAC, then MACsec, then the stream filters. Under a boundary test Ethernet sees its inputs as 0 (18 R532). PTP messages bypass the filters and go to the management
controller. -/
def execFrameReceive (p : PortId) (sub : Fin 4) (f : RxFrame) (fcsOk : Bool) (fec : LineEcc) (s : State) :
    Host.Outcome State Fault Refusal :=
  done (s.whenUp fun s =>
    let n := portNo p
    if s.bit (macPage n + 0x44) sub.val ∧ s.jtag = .idcode then
      let r := s.macRx n sub.val f fcsOk fec
      if r.2 = false then r.1
      else
        let m := r.1.macsecRx n f
        match m.2 with
        | none => m.1
        | some ch => if f.ptp then m.1.send (.handed p 3 0 f) else m.1.streamFilter n ch f
    else s)

/-- METER_CREDIT: at a multiple of 1,024 ns every bucket takes CIR or EIR times 1,024 ns of bytes, up to its size. A rate
of 1 kb/s is 2 units of 1/15,625 byte in that time. -/
def State.creditMeter (s : State) (n g : Nat) : State :=
  let x := s.entry128 (meterKey n g)
  let p := s.port n
  let c := min (bits x 64 24 * 15625) (Sparse.get (fun _ => 0) p.committed g + 2 * bits x 0 32)
  let e := min (bits x 88 24 * 15625) (Sparse.get (fun _ => 0) p.excess g + 2 * bits x 32 32)
  s.setPort n { p with committed := Sparse.put (fun _ => 0) p.committed g c, excess := Sparse.put (fun _ => 0) p.excess g e }

def execMeterCredit (p : PortId) (s : State) : Host.Outcome State Fault Refusal :=
  done (s.whenUp fun s =>
    if s.time.toNat % 1024 = 0 then (List.range 128).foldl (fun (s : State) g => s.creditMeter (portNo p) g) s else s)

/-- RECOVERY_RESET: after RESET us in which no frame has passed the history is reset and the next frame passes (R419). -/
def execRecoveryReset (p : PortId) (r : Fin 64) (s : State) : Host.Outcome State Fault Refusal :=
  done (s.whenUp fun s =>
    let x := s.port (portNo p)
    let h := Sparse.get (fun _ => History.empty) x.seen r.val
    if h.since.toNat + max 1 (s.fld (recoveryKey (portNo p) r.val) 8 24) * 1000 ≤ s.time.toNat then
      s.setPort (portNo p) { x with seen := Sparse.put (fun _ => History.empty) x.seen r.val History.empty }
    else s)

/-! Gates (R414 to R416) -/

/-- A stretch of a gate list's cycle: begin, end, the open classes. -/
abbrev Gate := Nat × Nat × Nat

/-- The entries of a list from a place in the cycle on: cut at the cycle end, the last one lasting to it (R416). -/
def gatesFrom (cycle : Nat) : Nat → List (Nat × Nat) → List Gate
  | _, [] => []
  | pos, [(g, _)] => if pos < cycle then [(pos, cycle, g)] else []
  | pos, (g, iv) :: r => if pos < cycle then (pos, min (pos + iv) cycle, g) :: gatesFrom cycle (pos + iv) r else []

/-- The bank that operates. -/
def State.operBank (s : State) (n : Nat) : Nat := s.fld (tsnPage n + 0x44) 0 1

/-- The key of a bank's TSN_BASE_LO; TSN_CYCLE and TSN_LEN follow at 8 and 12. -/
def bankKey (n b : Nat) : Nat := tsnPage n + 0x50 + 0x10 * b

/-- TSN_BASE of a bank. -/
def State.gateBase (s : State) (n b : Nat) : Nat := (s.reg64 (bankKey n b)).toNat

/-- TSN_CYCLE of a bank. -/
def State.gateCycle (s : State) (n b : Nat) : Nat := max 1024 (s.reg (bankKey n b + 8)).toNat

/-- The cycle of a bank as stretches. -/
def State.gates (s : State) (n b : Nat) : List Gate :=
  gatesFrom (s.gateCycle n b) 0
    ((List.range (s.fld (bankKey n b + 12) 0 9)).map (fun e =>
      let w := (s.reg (tsnPage n + 0x400 + 0x400 * b + 4 * e)).toNat
      (bits w 0 8, max 1 (bits w 8 24))))

/-- Where the run of stretches open for class c ends: none where they all are. -/
def openRun (c : Nat) : List Gate → Option Nat
  | [] => none
  | (a, _, g) :: r => if bits g c 1 = 1 then openRun c r else some a

/-- Stretches moved on by d. -/
def shiftGates (d : Nat) (l : List Gate) : List Gate := l.map (fun x => (x.1 + d, x.2.1 + d, x.2.2))

/-- From place o of the cycle: the place at which class c's window closes, none where it never does; a place at or before o
says that the gate is closed. -/
def closeAt (l : List Gate) (cycle c o : Nat) : Option Nat :=
  openRun c (l.dropWhile (fun x => decide (x.2.1 ≤ o)) ++ shiftGates cycle l ++ shiftGates (2 * cycle) l)

/-- The longest window of class c in a list, none where it never closes (R415). -/
def longestWindow (l : List Gate) (cycle c : Nat) : Option Nat :=
  l.foldl (fun (best : Option Nat) x =>
    match best, closeAt l cycle c x.1 with
    | some b, some e => some (max b (e - x.1))
    | _, _ => none) (some 0)

/-- The device time by which a transmission of class c must end, none for no limit; `some now` says that its gate is closed
(R414). -/
def State.deadline (s : State) (n c : Nat) : Option Nat :=
  if s.bit (tsnPage n + 0x40) 0 = false then none
  else
    let b := s.operBank n
    let cycle := s.gateCycle n b
    let now := s.time.toNat
    let o := ((now : Int) - (s.gateBase n b : Int)).emod (cycle : Int)
    let close := match closeAt (s.gates n b) cycle c o.toNat with
      | none => none
      | some a => some (now + (a - o.toNat))
    match close, (s.port n).swapAt with
    | some t, some tc => some (min t (max now tc.toNat))
    | none, some tc => some (max now tc.toNat)
    | x, none => x

/-- The duration of L bytes in units of 2^-10 ns, rounded up (R414). -/
def frameTime (rate len : Nat) : Nat := ceilDiv (8 * len * 1024) rate

/-- Whether L bytes that begin now end by the deadline. -/
def fits (now rate len : Nat) (dl : Option Nat) : Bool :=
  match dl with
  | none => true
  | some t => decide (now < t) && decide (now * 1024 + frameTime rate len ≤ t * 1024)

/-- The most bytes that begin now and end by the deadline. -/
def roomFor (now rate : Nat) (dl : Option Nat) (len : Nat) : Nat :=
  match dl with
  | none => len
  | some t => min len ((t - now) * rate / 8)

/-! Transmission (R413 to R415, R420) -/

/-- The least bytes of a fragment, counted from the preamble as L is: 64 B and the preamble. -/
def minFragment : Nat := 72

/-- The bytes L of what is left of a frame: a continued fragment has a preamble of its own. -/
def TxFrame.left (f : TxFrame) : Nat := if f.gone = 0 then f.len else f.len - f.gone + 8

/-- Whether class c is preemptable on port n now: its PREEMPT bit is set and verification is complete (R420). -/
def State.preemptable (s : State) (n c : Nat) : Bool := s.bit (tsnPage n + 0x44) 2 && s.bit (tsnPage n + 0x40) (8 + c)

/-- Drops frames of class c from the head of its queue while they are oversize, and counts them. -/
def dropHeads (c : Fin 8) (bad : TxFrame → Bool) : List TxFrame → List TxFrame × Nat
  | [] => ([], 0)
  | f :: r =>
    if f.cls = c then
      if bad f then ((dropHeads c bad r).1, (dropHeads c bad r).2 + 1) else (f :: r, 0)
    else (f :: (dropHeads c bad r).1, (dropHeads c bad r).2)

/-- The traffic class of a frame with a priority code point (R413): TSN_PCP. -/
def State.pcpClass (s : State) (n : Nat) (pcp : Fin 8) : Fin 8 := Fin.ofNat 8 (s.fld (tsnPage n + 0x48) (3 * pcp.val) 3)

/-- The frames waiting on a sub-port. -/
def State.txq (s : State) (n u : Nat) : List TxFrame := Sparse.get (fun _ => []) (s.port n).tx u

/-- Replaces the frames waiting on a sub-port. -/
def State.setTxq (s : State) (n u : Nat) (l : List TxFrame) : State :=
  s.setPort n { (s.port n) with tx := Sparse.put (fun _ => []) (s.port n).tx u l }

/-- TSN_OVERSIZE (R415): with gates on, an express frame longer than the longest window of its class, or a preemptable one
whose first fragment alone is, is discarded at the head of its queue. -/
def State.dropOversize (s : State) (n u : Nat) : State :=
  if s.bit (tsnPage n + 0x40) 0 = false then s
  else
    let b := s.operBank n
    let bad := fun (f : TxFrame) =>
      match longestWindow (s.gates n b) (s.gateCycle n b) f.cls.val with
      | none => false
      | some w =>
        let len := if s.preemptable n f.cls.val then min minFragment f.left else f.left
        decide (w * 1024 < frameTime (modeRate (s.mode n)) len)
    (List.finRange 8).foldl (fun (s : State) c =>
      let r := dropHeads c bad (s.txq n u)
      if r.2 = 0 then s else ((s.setTxq n u r.1).incSat (tsnPage n + 0x74) r.2).raiseIrq (tsnPage n) 2) s

/-- The key slot of a session: slot 0 is that of the administration session (15 R474). -/
def slotOf (t : Nat) : Nat := if t = 255 then 0 else t

/-- Whether the frames of a session go under MACsec: those of tenants that require it, and of the administration session
(14 R457, R462). -/
def State.macsecTx (s : State) (t : Nat) : Bool :=
  decide (t = 255) || ((s.tenant t).live && (s.tenant t).res.macsecRequired)

/-- The association that the next frame of a session starts under (15 R476): the one loaded last, 0 for none, else
AN + 1. -/
def State.nextTxAn (s : State) (t : Nat) : Nat :=
  let n := Sparse.get (fun _ => 0) s.sec.newAn (slotOf t)
  if n ≠ 0 then n else Sparse.get (fun _ => 0) s.sec.txAn (slotOf t)

/-- Whether MACsec lets the next frame of tenant t start: it has an association whose packet number does not pass
2^64 - 1 (14 R461). -/
def State.macsecReady (s : State) (t : Nat) : Bool :=
  !s.macsecTx t || (decide (s.nextTxAn t ≠ 0) && decide ((s.keyAn (slotOf t) (s.nextTxAn t - 1)).pn + 1 < 2 ^ 64))

/-- A frame of tenant t starts: the association moves, the packet number counts; with the last number the tenant receives
UCP_AUTH. -/
def State.macsecStart (s : State) (t : Nat) : State :=
  if s.macsecTx t = false then s
  else
    let a := s.nextTxAn t
    let x := s.keyAn (slotOf t) (a - 1)
    let sec1 : Sec :=
      { s.sec with
        txAn := Sparse.put (fun _ => 0) s.sec.txAn (slotOf t) a,
        newAn := Sparse.put (fun _ => 0) s.sec.newAn (slotOf t) 0,
        keys := Sparse.put (fun _ => KeyAn.empty) s.sec.keys (slotOf t * 4 + (a - 1)) { x with pn := x.pn + 1 } }
    let s1 : State := { s with sec := sec1 }
    if x.pn + 2 < 2 ^ 64 then s1 else s1.event t Code.ucpAuth 0 0xFFFF 0xFFFF Blk.sec.type 0

/-- Whether a frame may start now on port n: its gate and R414 for all of it or, of a preemptable class, for a first
fragment; no second preemptable frame between the fragments of one; MACsec. -/
def State.mayStart (s : State) (n : Nat) (q : List TxFrame) (f : TxFrame) : Bool :=
  let rate := modeRate (s.mode n)
  let now := s.time.toNat
  let dl := s.deadline n f.cls.val
  let pre := s.preemptable n f.cls.val
  let need := if pre then min minFragment f.left else f.left
  fits now rate need dl && (!pre || decide (f.gone ≠ 0) || !q.any (fun g => decide (g.gone ≠ 0)))
    && (decide (f.gone ≠ 0) || s.macsecReady f.tenant.toNat)

/-- The head frame of the highest class that may start; with `express` only of a class that is not preemptable (R413). -/
def State.nextFrame (s : State) (n u : Nat) (express : Bool) : Option TxFrame :=
  let q := s.txq n u
  (List.finRange 8).reverse.findSome? (fun c =>
    match q.find? (fun f => decide (f.cls = c)) with
    | some f => if s.mayStart n q f && !(express && s.preemptable n c.val) then some f else none
    | none => none)

/-- The frame f starts. A preemptable frame that cannot end by the close sends a fragment, of a length that is free between
the least fragment and the room, that leaves at least 64 B (R420). -/
def State.startFrame (s : State) (n u : Nat) (f : TxFrame) : State :=
  let now := s.time.toNat
  let rate := modeRate (s.mode n)
  let s1 := if f.gone = 0 then s.macsecStart f.tenant.toNat else s
  let q := (s1.txq n u).erase f
  let go := fun (s : State) (len : Nat) =>
    (s.setSending n u (some { frame := f, start := now, fin := now + ceilDiv (frameTime rate len) 1024, len := len, pre := s.preemptable n f.cls.val })).send
      (.wire (portOf n) u f len)
  if fits now rate f.left (s.deadline n f.cls.val) then ((go (s1.setTxq n u q) f.left)).incWrap (ethKey n u 0x10)
  else
    let most := min (roomFor now rate (s.deadline n f.cls.val) f.left) (f.left - 64)
    let (x, s2) := s1.draw
    let len := minFragment + x % (most - minFragment + 1)
    let carried := len - 4 - (if f.gone = 0 then 0 else 8)
    go (s2.setTxq n u ({ f with gone := f.gone + carried } :: q)) len

/-- An express frame preempts the preemptable frame x in transmission, once a fragment of it has left and at least 64 B
remain: the rest waits at the head of its queue (R420). -/
def State.preempt (s : State) (n u : Nat) (x : Sending) : Option State :=
  let out := (s.time.toNat - x.start) * modeRate (s.mode n) / 8
  if x.pre ∧ minFragment ≤ out ∧ out + 64 ≤ x.len then
    let carried := out - 4 - (if x.frame.gone = 0 then 0 else 8)
    let rest := { x.frame with gone := x.frame.gone + carried }
    let q := (s.txq n u).filter (fun f => decide (f.gone = 0))
    some ((s.setSending n u none).setTxq n u (rest :: q))
  else none

/-- FRAME_TRANSMIT: oversize heads are discarded; then, on an up link with nothing in transmission, or with a preemptable
frame that an express one preempts, the frame that R413 picks starts. A frame counts in ETH_TX_FRAMES when its last part
starts. -/
def execFrameTransmit (p : PortId) (sub : Fin 4) (s : State) : Host.Outcome State Fault Refusal :=
  done (s.whenUp fun s =>
    let n := portNo p
    let u := sub.val
    if s.bit (macPage n + 0x44) u then
      let s1 := s.dropOversize n u
      match s1.sendingOn n u with
      | none => match s1.nextFrame n u false with
        | some f => s1.startFrame n u f
        | none => s1
      | some x => match s1.nextFrame n u true, s1.preempt n u x with
        | some f, some s2 => s2.startFrame n u f
        | _, _ => s1
    else s)

/-- The change time (R416): the smallest TSN_BASE + n TSN_CYCLE, n ≥ 0, at or after the time of the write plus 1 us. -/
def changeTime (base cycle now : Nat) : Nat :=
  let t := now + 1000
  if t ≤ base then base else base + ceilDiv (t - base) cycle * cycle

/-- TSN_SWAP: a change of the gate list at the next change time; a second SWAP while one is pending is ignored and
recorded in the clamp record. -/
def State.tsnSwap (s : State) (n : Nat) : State :=
  if (s.port n).swapAt.isSome then s.clampAt (tsnPage n) 0x70
  else
    let b := 1 - s.operBank n
    let tc := changeTime (s.gateBase n b) (s.gateCycle n b) s.time.toNat
    (s.setPort n { (s.port n) with swapAt := some (BitVec.ofNat 64 tc) }).setFld (tsnPage n + 0x44) 1 1 1

def execTsnSwap (who : Party) (p : PortId) (s : State) : Host.Outcome State Fault Refusal :=
  done (s.whenUp fun s => s.ctl who (tsnPage (portNo p) + 0x70) fun s => s.tsnSwap (portNo p))

/-- GATE_LIST_CHANGE: at the change time the other list operates and SWAPPED is raised. -/
def execGateListChange (p : PortId) (s : State) : Host.Outcome State Fault Refusal :=
  done (s.whenUp fun s =>
    let n := portNo p
    match (s.port n).swapAt with
    | some tc =>
      if tc.toNat ≤ s.time.toNat then
        ((s.setPort n { (s.port n) with swapAt := none }).setFld (tsnPage n + 0x44) 0 2 (1 - s.operBank n)).raiseIrq (tsnPage n) 1
      else s
    | none => s)

/-- VERIFICATION_END (R420): the verify procedure of a port whose TSN_CFG.VERIFY is set completes and preemption becomes
active, or it fails and PREEMPT_FAIL is raised. -/
def execVerificationEnd (p : PortId) (ok : Bool) (s : State) : Host.Outcome State Fault Refusal :=
  done (s.whenUp fun s =>
    let n := portNo p
    if s.bit (tsnPage n + 0x40) 1 then
      let s1 := s.setFld (tsnPage n + 0x44) 2 1 (b2n ok)
      if ok then s1 else s1.raiseIrq (tsnPage n) 4
    else s)

end Sys2Proof.Machine
end

