-- ==== Sys2Proof/Machine/Ublexia.lean ====
section
/-! DEFINITION. The Ublexia engine (chapter 14): frames (R431 to R434), sessions (R435 to R437), acceptance of command
frames (R438 to R442), device frames (R443, R444, R447), tokens (R451 to R453) and events (R454 to R456). The administration
session is kept under the number 255. -/
namespace Sys2Proof.Machine

/-! Places -/

/-- The engine page of tenant t's home die. -/
def State.homePage (s : State) (t : Nat) : Nat := edgePage (s.tenant t).res.home.val 0xF030

/-- A field of UBX_CFG of the home engine: ACK_DELAY at 0, RTO at 8, RETRIES at 24. -/
def State.ubxCfg (s : State) (t lo w : Nat) : Nat := s.fld (s.homePage t + 0x44) lo w

/-- Replaces a session. -/
def State.setSess (s : State) (t : Nat) (x : Session) : State := s.setTenant t { (s.tenant t) with sess := x }

/-- Whether a session can send (R443): it is open, or ends once all is acknowledged. -/
def Session.sends (x : Session) : Bool := decide (x.st = .open_) || decide (x.st = .closing)

/-! Credit (R440) -/

/-- The distinct frames whose commands have not all completed. -/
def Tenant.slotsUsed (x : Tenant) : Nat :=
  (((x.cmds.map (fun c => (c.sess, c.seq))) ++ (x.replies.map (fun r => (r.sess, r.seq)))).eraseDups).length

/-- Whether the ring takes no more command frames: a record has found no room, or none fits beside the reserve (08 R295,
R453). -/
def Tenant.ringRefuses (x : Tenant) : Bool := x.live && (x.ring.full || decide (x.ring.size < x.ring.used + 48 + 2 ^ 20))

/-- CREDIT: E - 1 plus the free slots; it never falls, and does not advance while the ring refuses frames. -/
def Tenant.creditNow (x : Tenant) : BitVec 32 :=
  let c := x.sess.expect - 1 + BitVec.ofNat 32 (x.sess.creditInit - x.slotsUsed)
  if x.ringRefuses = false ∧ 0 < (c - x.sess.credit).toInt then c else x.sess.credit

/-! Frames (R431, R432) -/

/-- The bytes that MACsec adds: SecTAG and ICV. -/
def State.macsecBytes (s : State) (t : Nat) : Nat := if s.macsecTx t then 32 else 0

/-- A Ublexia header. -/
def ubxHeader (version kind t : Nat) (session seq ack credit : BitVec 32) (len : Nat) : List Byte :=
  beBytes 1 version ++ beBytes 1 kind ++ beBytes 1 0 ++ beBytes 1 t ++ beBytes 4 session.toNat ++ beBytes 4 seq.toNat
    ++ beBytes 4 ack.toNat ++ beBytes 4 credit.toNat ++ beBytes 2 len ++ beBytes 2 0

/-- The 802.1Q tag of a session's frames, where they are tagged (R431). -/
def tagBytes (t : Nat) : List Byte :=
  match Config.tag t with
  | some v => beBytes 2 0x8100 ++ beBytes 2 v.toNat
  | none => []

/-- A device frame leaves under session x, with the ACK and CREDIT of x; on a data port it joins the transmit queue of a
sub-port of the session's port, in the tenant's class. Which sub-port is free. -/
def State.frameOut (s : State) (t : Nat) (x : Session) (kind : Nat) (seq : BitVec 32) (body : List Byte) (tok : Option TokFrame := none) : State :=
  let s1 := s.send (.ubx (BitVec.ofNat 8 t) x.port x.mgmt kind seq (x.expect - 1) x.credit body)
  if x.mgmt then if s1.macsecReady t then s1.macsecStart t else s
  else
    let res := (s.tenant t).res
    let h := ubxHeader x.version.toNat kind t x.id seq (x.expect - 1) x.credit body.length
    let head := 42 + (tagBytes t).length + s.macsecBytes t
    let pad := 64 - (head + body.length)
    let f : TxFrame :=
      { cls := ⟨res.tclass.toNat, res.tclass.isLt⟩, len := 8 + head + body.length + pad, tenant := BitVec.ofNat 8 t,
        bytes := beBytes 6 x.host.toNat ++ beBytes 6 res.mac.toNat ++ tagBytes t ++ beBytes 2 0x88B5 ++ h ++ body ++ List.replicate pad 0,
        gone := 0, tok := tok }
    let n := portNo x.port
    let (d, s2) := s1.draw
    let u := d % max 1 (modeSubs (s.mode n))
    s2.setTxq n u (s2.txq n u ++ [f])

/-- A frame of the present session: it announces the credit and carries the acknowledgement (R440, R441). -/
def State.sessOut (s : State) (t kind : Nat) (seq : BitVec 32) (body : List Byte) (tok : Option TokFrame := none) : State :=
  let tn := s.tenant t
  let x : Session := { tn.sess with credit := tn.creditNow, ackDue := false }
  (s.setSess t x).frameOut t x kind seq body tok

/-- A REPLY or EVENT frame: it takes the next device SEQ and is held until it is acknowledged (R443). -/
def State.heldOut (s : State) (t kind : Nat) (body : List Byte) : State :=
  let x := (s.tenant t).sess
  let s1 := s.setSess t { x with txSeq := x.txSeq + 1, unack := x.unack ++ [{ kind := kind, seq := x.txSeq, body := body }] }
  s1.sessOut t kind x.txSeq body

/-- An ACK frame. -/
def State.ackOut (s : State) (t : Nat) : State := s.sessOut t 4 0 []

/-- The body bytes of a device frame that fit the session's MAX_FRAME. -/
def State.bodyRoom (s : State) (t : Nat) : Nat := (s.tenant t).sess.maxFrame - (42 + (tagBytes t).length + s.macsecBytes t)

/-! Received frames (R433, R434, R438) -/

/-- A field of a received header, in network order. -/
def beFld (l : List Byte) (o n : Nat) : Nat := beNat (bytesAt l o n)

/-- Whether a host frame is malformed (R434), with the KINDs of R433 that are discarded so. -/
def State.ubxMalformed (s : State) (t : Nat) (f : UFrame) : Bool :=
  let l := f.bytes
  let kind := beFld l 1 1
  let x := (s.tenant t).sess
  decide (l.length < 24) || decide (l.length < 24 + beFld l 20 2)
    || (decide (x.st ≠ .none) && decide (x.maxFrame < f.len))
    || decide (1 < beFld l 2 1) || decide (beFld l 16 4 ≠ 0) || decide (beFld l 22 2 ≠ 0)
    || decide (kind = 0) || decide (7 < kind)
    || ((decide (kind = 1) || decide (kind = 4)) && decide (beFld l 8 4 ≠ 0))
    || (decide (kind = 1) && (decide (beFld l 4 4 ≠ 0) || decide (beFld l 20 2 ≠ 8) || decide (beFld l 26 2 ≠ 0) || decide (beFld l 30 2 ≠ 0)))

/-- A discard under R438. -/
def State.ubxDrop (s : State) (t : Nat) (code : BitVec 16) : State :=
  ((s.incSat (s.ubx t 0x6C)).setReg (s.ubx t 0x70) (code.setWidth 32)).raiseIrq (s.homePage t) 4

/-- The security block's bit generator serves a request (15 R478, R479): the bits are free. -/
def State.drbg (s : State) : Nat × State :=
  let (x, s1) := s.draw
  (x, { s1 with sec := { s1.sec with served := s1.sec.served + 1 } })

/-- The lowest MAX_LEN of the tenant's ports, with the host's value, and never below 1,518 (R435). -/
def State.maxFrame (s : State) (t host : Nat) (mgmt : Bool) : Nat :=
  let ports := if mgmt then [s.fld (mmacPage + 0x40) 8 14] else (s.tenant t).res.ports.map (fun p => s.fld (macPage (portNo p) + 0x40) 8 14)
  max 1518 (ports.foldl min host)

/-- HELLO_REPLY's body. -/
def helloReply (status : BitVec 16) (version maxFrame firstSeq : Nat) : List Byte :=
  beBytes 2 status.toNat ++ beBytes 1 version ++ beBytes 1 1 ++ beBytes 2 maxFrame ++ beBytes 2 0 ++ beBytes 4 firstSeq

/-- A HELLO that opens no session: the reply's STATUS, the present session unchanged. The other fields of such a reply are
not given and are free (R435, 15 R480). -/
def State.helloRefused (s : State) (t : Nat) (f : UFrame) (code : BitVec 16) : State :=
  let x : Session := { (s.tenant t).sess with host := f.src, port := f.port, mgmt := f.mgmt }
  let (d, s1) := s.draw
  s1.frameOut t x 2 0 (helloReply code (d % 256) (d / 256 % 65536) (d / 2 ^ 24 % 2 ^ 32))

/-- HELLO (R435, R437): a new session, then the held frames of the older one under its device sequence numbers. -/
def State.hello (s : State) (t : Nat) (f : UFrame) : State :=
  let vmin := beFld f.bytes 24 1
  let vmax := beFld f.bytes 25 1
  if 1 < vmin ∨ vmax < 1 then s.helloRefused t f Code.ucpVersion
  else if s.sec.ready = false then s.helloRefused t f Code.secEntropy
  else
    let (d, s1) := s.drbg
    let tn := s1.tenant t
    let old := tn.sess
    let mf := s1.maxFrame t (beFld f.bytes 28 2) f.mgmt
    let slots := s1.fld (s1.ubx t 0x58) 0 7
    let x : Session :=
      { Session.closed with
        st := .open_, id := BitVec.ofNat 32 (1 + d % (2 ^ 32 - 1)), version := 1, maxFrame := mf, expect := 1,
        credit := BitVec.ofNat 32 (slots - tn.slotsUsed), creditInit := slots, txSeq := 1, tokSeq := 1, host := f.src,
        port := f.port, mgmt := f.mgmt }
    let s2 := ((s1.setSess t x).frameOut t x 2 0 (helloReply 0 1 mf 1)).raiseIrq (s1.homePage t) 1
    old.unack.foldl (fun (s : State) u => s.heldOut t u.kind u.body) s2

/-- An ACK field covers the held frames up to it; a session that closes ends once nothing waits (R438 step 6, CLOSE). -/
def State.applyAck (s : State) (t : Nat) (ack : BitVec 32) : State :=
  let tn := s.tenant t
  let x := tn.sess
  let l := x.unack.filter (fun u => decide (0 < (u.seq - ack).toInt))
  let x1 : Session := { x with unack := l, resends := if l.length = x.unack.length then x.resends else 0 }
  if x.ending = true ∧ l = [] ∧ tn.replies = [] ∧ tn.events = [] ∧ tn.progEvents = [] then s.setSess t .closed
  else s.setSess t x1

/-! Commands of a body (R442, R445) -/

/-- The commands of a body, none where it is malformed. -/
def parseCmds (sess seq : BitVec 32) : Nat → List Byte → Option (List QCmd)
  | 0, l => if l = [] then some [] else none
  | n + 1, l =>
    if l = [] then some []
    else
      let al := beFld l 8 2
      let pl := ceilDiv al 4 * 4
      if l.length < 12 + pl ∨ 1 < beFld l 2 1 ∨ beFld l 3 1 ≠ 0 ∨ beFld l 10 2 ≠ 0 ∨ beFld l (12 + al) (pl - al) ≠ 0 then none
      else
        let c : QCmd :=
          { sess := sess, seq := seq, op := BitVec.ofNat 16 (beFld l 0 2), order := decide (beFld l 2 1 = 1),
            id := BitVec.ofNat 32 (beFld l 4 4), args := bytesAt l 12 al, started := false }
        (parseCmds sess seq n (l.drop (12 + pl))).map (c :: ·)

/-- An accepted frame's commands are queued; a malformed body gets one reply record instead (R442). -/
def State.queueBody (s : State) (t : Nat) (sess seq : BitVec 32) (body : List Byte) : State :=
  let tn := s.tenant t
  match parseCmds sess seq (body.length / 12 + 1) body with
  | some l => s.setTenant t { tn with cmds := tn.cmds ++ l }
  | none =>
    let r : Reply := { sess := sess, seq := seq, id := 0, op := 0, status := Code.ucpMalformed, data := [] }
    s.setTenant t { tn with replies := tn.replies ++ [r] }

/-- The recorder takes the CMD record of a tenant's frame, unless its ring refuses command frames; the administration session has no ring. -/
def State.recordCmd (s : State) (t : Nat) (f : UFrame) : State × Bool :=
  if t = 255 then (s, true)
  else if (s.tenant t).ringRefuses then (s, false)
  else s.record t 1 f.stamp (f.bytes.take (24 + beFld f.bytes 20 2)) (2 ^ 20)

/-- Steps 8 to 12 of R438: a CMD frame of the current session. -/
def State.cmdFrame (s : State) (t : Nat) (f : UFrame) : State :=
  let x := (s.tenant t).sess
  let seq := BitVec.ofNat 32 (beFld f.bytes 8 4)
  let d := (seq - x.expect).toInt
  if d < 0 then (s.incWrap (s.ubx t 0x68)).ackOut t
  else if 0 < d then (s.ubxDrop t Code.ucpSequence).ackOut t
  else if 0 < (seq - (s.tenant t).creditNow).toInt then s.ubxDrop t Code.ucpCredit
  else
    let r := s.recordCmd t f
    if r.2 = false then
      ((r.1.incSat (recKey (s.tenant t).res.home.val t 0x60)).raiseIrq (recPage (s.tenant t).res.home.val) 1).recFull t
    else
      let y : Session := { x with expect := x.expect + 1, port := f.port, ackDue := true }
      let s1 := ((r.1.setSess t y).incWrap (s.ubx t 0x64)).queueBody t x.id seq (bytesAt f.bytes 24 (beFld f.bytes 20 2))
      if beFld f.bytes 2 1 = 1 then s1.ackOut t else s1

/-- A frame is judged by its tenant's home engine (R438). Frames that belong to no tenant have no engine. -/
def State.ubxFrame (s : State) (f : UFrame) : State :=
  let t := if f.mgmt then 255 else f.chan.toNat
  let l := f.bytes
  if f.mgmt = false ∧ (s.tenant t).live = false then s
  else if s.ubxMalformed t f then s.ubxDrop t Code.ucpMalformed
  else if beFld l 3 1 ≠ t then s.ubxDrop t Code.ucpAuth
  else if beFld l 1 1 = 1 then s.hello t f
  else
    let x := (s.tenant t).sess
    if x.st ≠ .none ∧ beFld l 0 1 ≠ x.version.toNat then s.ubxDrop t Code.ucpVersion
    else if x.st = .none ∨ beFld l 4 4 ≠ x.id.toNat then s.ubxDrop t Code.ucpSequence
    else
      let s1 := if x.st = .lost then s.setSess t { x with st := if x.ending then .closing else .open_, resends := 0 } else s
      let s2 := s1.applyAck t (BitVec.ofNat 32 (beFld l 12 4))
      if beFld l 1 1 = 4 ∨ (s2.tenant t).sess.st = .none then s2
      else if beFld l 1 1 ≠ 3 then s2.ubxDrop t Code.ucpMalformed
      else s2.cmdFrame t f

/-- A frame reaches its engine: on a data port one that FRAME_RECEIVE has passed to the engines; on the management port, for
which no command receives frames, one whose last bit arrives now (assumption 83). -/
def State.takeFrame (s : State) (f : UFrame) : State :=
  if f.mgmt then s.ubxFrame { f with stamp := s.time }
  else if s.ubxIn.contains f then { s with ubxIn := s.ubxIn.erase f }.ubxFrame f
  else s

/-- HELLO: a frame of KIND HELLO reaches its engine. -/
def execHello (f : UFrame) (s : State) : Host.Outcome State Fault Refusal := done (s.whenUp fun s => s.takeFrame f)

/-- CMD: a command frame reaches its engine. -/
def execCmd (f : UFrame) (s : State) : Host.Outcome State Fault Refusal := done (s.whenUp fun s => s.takeFrame f)

/-- UBX_ACK: an ACK frame reaches its engine. -/
def execUbxAck (f : UFrame) (s : State) : Host.Outcome State Fault Refusal := done (s.whenUp fun s => s.takeFrame f)

/-! Device frames (R441, R443, R447) -/

/-- ACK_DELAY_EXPIRY: an accepted frame that no other frame has acknowledged is acknowledged by an ACK frame (R441). -/
def execAckDelayExpiry (t : BitVec 8) (s : State) : Host.Outcome State Fault Refusal :=
  done (s.whenUp fun s =>
    let x := (s.tenant t.toNat).sess
    if x.ackDue && x.sends then s.ackOut t.toNat else s)

/-- RETRANSMIT_TIMEOUT: every unacknowledged frame is resent in SEQ order; after RETRIES resends the session is LOST
(R443). -/
def execRetransmitTimeout (t : BitVec 8) (s : State) : Host.Outcome State Fault Refusal :=
  done (s.whenUp fun s =>
    let n := t.toNat
    let x := (s.tenant n).sess
    if x.sends = false ∨ x.unack = [] then s
    else if x.resends < s.ubxCfg n 24 4 then
      let s1 := (s.setSess n { x with resends := x.resends + 1 }).incSat (s.ubx n 0x74) x.unack.length
      x.unack.foldl (fun (s : State) u => s.sessOut n u.kind u.seq u.body) s1
    else (s.setSess n { x with st := .lost }).raiseIrq (s.homePage n) 2)

/-- A reply record (R447). -/
def Reply.bytes (r : Reply) : List Byte :=
  let n := r.data.length
  beBytes 4 r.id.toNat ++ beBytes 2 r.op.toNat ++ beBytes 2 r.status.toNat ++ beBytes 2 n ++ beBytes 2 0 ++ r.data
    ++ List.replicate (ceilDiv n 4 * 4 - n) 0

/-- The replies that fit a frame, the first in any case. -/
def packed (room : Nat) : List Reply → List Reply
  | [] => []
  | r :: l => r :: (l.zip ((List.range l.length).map (fun i => ((r :: l.take (i + 1)).map (fun x => x.bytes.length)).sum))).filterMap
      (fun p => if p.2 ≤ room then some p.1 else none)

/-- Packs finished replies into one REPLY frame, while the session sends and fewer than 64 frames are held. -/
def State.packReplies (s : State) (t : Nat) : State :=
  let tn := s.tenant t
  if tn.sess.sends = false ∨ 64 ≤ tn.sess.unack.length ∨ tn.replies = [] then s
  else
    let l := packed (s.bodyRoom t) tn.replies
    (s.setTenant t { tn with replies := tn.replies.drop l.length }).heldOut t 5 ((l.map Reply.bytes).flatten)

/-! Tokens (R451 to R453; 08 R297) -/

/-- The step that a core's replay block says it runs next (08 R289). -/
def State.blockStep (s : State) (rp : Replay) (x y : Nat) : Nat := leNat (Memory.readN (s.core (s.physOf x y)).spad rp.rb 8)

/-- Whether tenant t's replay domain has still to catch up with the point of its failure (08 R281 phase 7). -/
def State.replaying (s : State) (t : Nat) : Bool :=
  match (s.tenant t).replay with
  | some rp => decide (0 < rp.upTo) && rp.cores.any (fun p => decide (s.blockStep rp p.1.1 p.1.2 ≤ rp.upTo))
  | none => false

/-- Whether a token of a step is compared with its record: in a replay, for the steps up to the point of failure (08 R297). -/
def State.compares (s : State) (t : Nat) (step : Dword) : Bool :=
  s.replaying t || (match (s.tenant t).replay with | some rp => decide (0 < rp.upTo) && decide (step.toNat ≤ rp.upTo) | none => false)

/-- The token of a user and step in the TOKENS records of tenant t's ring that can be read (08 R297, R298). -/
def State.token (s : State) (t : Nat) (step : Dword) (user : Word) : Option Word :=
  let r := (s.tenant t).ring
  (r.recs.filter (fun x => decide (x.typ = 3) && decide (leNat (bytesAt x.body 0 8) = step.toNat) && s.readable r x)).findSome? (fun x =>
    (List.range (leNat (bytesAt x.body 8 4))).findSome? (fun i =>
      if leNat (bytesAt x.body (12 + 8 * i) 4) = user.toNat then some (BitVec.ofNat 32 (leNat (bytesAt x.body (16 + 8 * i) 4))) else none))

/-- What a GO makes of its pairs: the users' highest steps, the pairs that remain, repeats, bad users, and whether a
repeat differs from its record during a replay; and the repeats. -/
structure GoRun where
  highest : Map Nat
  keep : List (Word × Word)
  dup : Nat
  bad : Nat
  differs : Bool
  again : List (Word × Word)
deriving DecidableEq, Repr

/-- One pair of a GO (R452); `recorded` gives the token that a repeat is compared with. -/
def goPair (recorded : Word → Option Word) (step : Dword) (g : GoRun) (p : Word × Word) : GoRun :=
  let h := Sparse.get (fun _ => 0) g.highest p.1.toNat
  if 4095 < p.1.toNat then { g with bad := g.bad + 1 }
  else if step.toNat + 1 ≤ h then
    let diff := (match recorded p.1 with | some v => decide (v ≠ p.2) | none => false)
    { g with dup := g.dup + 1, differs := g.differs || diff, again := g.again ++ [p] }
  else if g.differs then g
  else { g with highest := Sparse.put (fun _ => 0) g.highest p.1.toNat (step.toNat + 1), keep := g.keep ++ [p] }

/-- The bytes of a TOKENS record, little-endian, and of a TOKENS frame, in network order. -/
def tokensBody (wire : Bool) (step : Dword) (l : List (Word × Word)) : List Byte :=
  let b := fun (n x : Nat) => if wire then beBytes n x else leBytes n x
  b 8 step.toNat ++ b 4 l.length ++ (l.map (fun p => b 4 p.1.toNat ++ b 4 p.2.toNat)).flatten

/-- A divergence stops the replay domain and is told to the tenant (08 R297). -/
def State.diverges (s : State) (t : Nat) : State :=
  match (s.tenant t).replay with
  | none => s
  | some rp =>
    let tn := s.tenant t
    let s1 := (s.setTenant t { tn with replay := some { rp with diverged := true } }).raiseIrq (recPage tn.res.home.val) 2
    (s1.event t Code.replayDiverged 0 0xFFFF 0xFFFF Blk.ubx.type (BitVec.ofNat 32 (s.replayStep t))).stopDomain t

/-- A TOKENS frame, which is not held for an acknowledgement. -/
def State.tokensOut (s : State) (t : Nat) (k : TokFrame) : State :=
  s.sessOut t 7 k.seq (tokensBody true k.step k.pairs) (some k)

/-- The token frames that a reef held back and whose step and pairs a GO of the replay repeats leave (01 R43). -/
def State.unsuppress (s : State) (t : Nat) (step : Dword) (again : List (Word × Word)) : State :=
  let tn := s.tenant t
  let hit := fun (k : TokFrame) => decide (k.step = step) && k.pairs.all (fun p => again.contains p)
  let s1 := s.setTenant t { tn with suppressed := tn.suppressed.filter (fun k => !hit k) }
  (tn.suppressed.filter hit).foldl (fun (s : State) k => if (s.tenant t).sess.sends then s.tokensOut t k else s) s1

/-- The home engine takes a GO. -/
def State.takeGo (s : State) (t : Nat) (g : Go) : State :=
  let tn := s.tenant t
  let page := edgePage g.e (0xF040 + t) + 0x100 * (g.ch + 1)
  let recorded := fun (u : Word) => if s.compares t g.step then s.token t g.step u else none
  let r := g.pairs.foldl (goPair recorded g.step) { highest := tn.highest, keep := [], dup := 0, bad := 0, differs := false, again := [] }
  let s1 := (s.incSat (page + 0x10) r.dup).incSat (page + 0x14) r.bad
  let s2 := if r.differs then s1.diverges t else s1.unsuppress t g.step r.again
  if r.keep = [] ∨ (match tn.replay with | some rp => rp.diverged | none => false) = true then s2
  else
    let w := s2.record t 3 s2.time (tokensBody false g.step r.keep)
    if w.2 = false then (s2.incSat (page + 0x18) r.keep.length).recFull t
    else
      let s3 := w.1.setTenant t { (w.1.tenant t) with highest := r.highest }
      let x := (s3.tenant t).sess
      if x.sends then (s3.setSess t { x with tokSeq := x.tokSeq + 1 }).tokensOut t ⟨x.tokSeq, g.step, r.keep⟩ else s3

/-- A write of EMIT_GO: COUNT 0 or above 16 is recorded in the clamp record and does nothing; the pairs and STEP are those
that the registers hold; a page on another die forwards the GO (R451, R465). -/
def State.emitGo (s : State) (e t ch count : Nat) : State :=
  let page := edgePage e (0xF040 + t)
  let b := page + 0x100 * (ch + 1)
  if count = 0 ∨ 16 < count then s.clampAt page (0x100 * (ch + 1) + 8)
  else if (s.tenant t).live = false then s
  else
    let g : Go :=
      { e := e, ch := ch, step := s.reg64 b,
        pairs := (List.range count).map (fun i => (s.reg (b + 0x40 + 8 * i), s.reg (b + 0x44 + 8 * i))) }
    let s1 := s.setFld (b + 0x0C) 0 16 (s.fld (b + 0x0C) 0 16 + 1)
    if (s.tenant t).res.home.val = e then s1.takeGo t g
    else s1.setTenant t { (s1.tenant t) with goes := (s1.tenant t).goes ++ [g] }

/-- EMIT_GO. -/
def execEmitGo (who : Party) (e : Fin 4) (t : Fin 64) (ch : Fin 4) (count : BitVec 5) (s : State) : Host.Outcome State Fault Refusal :=
  done (s.whenUp fun s => s.ctl who (edgePage e.val (0xF040 + t.val) + 0x100 * (ch.val + 1) + 8) fun s => s.emitGo e.val t.val ch.val count.toNat)

/-- GO_FORWARD: the oldest forwarded GO reaches the home engine. -/
def execGoForward (t : Fin 64) (s : State) : Host.Outcome State Fault Refusal :=
  done (s.whenUp fun s =>
    let tn := s.tenant t.val
    match tn.goes with
    | g :: l => (s.setTenant t.val { tn with goes := l }).takeGo t.val g
    | [] => s)

/-! Events (R454 to R456) -/

/-- An event record. -/
def EvRec.bytes (r : EvRec) : List Byte :=
  beBytes 2 r.code.toNat ++ beBytes 1 r.kind ++ beBytes 1 0 ++ beBytes 2 r.count ++ beBytes 2 r.x.toNat ++ beBytes 2 r.y.toNat
    ++ beBytes 2 r.src.toNat ++ beBytes 4 r.detail.toNat ++ beBytes 8 r.time.toNat

/-- EVENT_CODE_TAKE: the engine takes a program event from a sequencer's buffer while the tenant's queue of 64 has room. -/
def execEventCodeTake (c : CoreId) (s : State) : Host.Outcome State Fault Refusal :=
  done (s.onIsland fun s =>
    let n := coreNo c
    let t := (s.niTenant n).toNat
    let tn := s.tenant t
    match (s.core n).events with
    | [] => s
    | code :: l =>
      if tn.live && decide (tn.progEvents.length < 64) then
        let xy := s.eventXY n
        let r : EvRec := { code := code, kind := 1, count := 1, x := xy.1, y := xy.2, src := 0, detail := 0, time := s.time }
        (s.modCore n (fun k => { k with events := l })).setTenant t { tn with progEvents := tn.progEvents ++ [r] }
      else s)

/-- The pending tables after records have left them: a KIND 3 record reports the number lost when room returns. -/
def Tenant.lostRecord (x : Tenant) (now : Dword) : Tenant :=
  if x.lostEvents = 0 ∨ 128 ≤ x.events.length then x
  else
    let r : EvRec := { code := 0, kind := 3, count := 1, x := 0xFFFF, y := 0xFFFF, src := 0, detail := BitVec.ofNat 32 x.lostEvents, time := now }
    { x with events := x.events ++ [r], lostEvents := 0 }

/-- EVENT_FRAME_BUILD: the records that fit leave in an EVENT frame, while the session sends and fewer than 64 frames are
held. -/
def execEventFrameBuild (t : BitVec 8) (s : State) : Host.Outcome State Fault Refusal :=
  done (s.whenUp fun s =>
    let n := t.toNat
    let tn := s.tenant n
    if tn.sess.sends = false ∨ 64 ≤ tn.sess.unack.length ∨ tn.events ++ tn.progEvents = [] then s
    else
      let k := s.bodyRoom n / 24
      let l := (tn.events ++ tn.progEvents).take k
      let tn1 := ({ tn with events := tn.events.drop k, progEvents := tn.progEvents.drop (k - tn.events.length) } : Tenant).lostRecord s.time
      (s.setTenant n tn1).heldOut n 6 ((l.map EvRec.bytes).flatten))

end Sys2Proof.Machine
end

