-- ==== Sys2Proof/Machine/Swap.lean ====
section
/-! DEFINITION. Epoch swaps made by firmware (07 R247) and slot reservations (07 R241 to R243): the bank being prepared, the
path of a stream, its slots, the flip. The drain check and RETIRE that end a swap are commands of their own. -/
namespace Sys2Proof.Machine

/-! Banks -/

/-- The bank that a register of a router or network interface belongs to, and the key of the same register of the other
bank (R264, R268). -/
def bankTwin (k : Nat) : Option (Nat × Nat) :=
  let o := keyOff k
  if 24 ≤ keyDie k ∨ 2112 ≤ keyUnit k then none
  else match keyPage k with
    | 7 =>
      if o = 0x40 then some (0, k + 4) else if o = 0x44 then some (1, k - 4)
      else if 0x400 ≤ o ∧ o < 0x600 then some (0, k + 0x200) else if 0x600 ≤ o ∧ o < 0x800 then some (1, k - 0x200) else none
    | 9 =>
      if 0x400 ≤ o ∧ o < 0x500 then some (0, k + 0x100) else if 0x500 ≤ o ∧ o < 0x600 then some (1, k - 0x100)
      else if 0x800 ≤ o ∧ o < 0xC00 then some (0, k + 0x400) else if 0xC00 ≤ o then some (1, k - 0x400) else none
    | _ => none

/-- The bank that core n uses. -/
def State.liveBank (s : State) (n : Nat) : Nat := b2n (s.stampBit n)

/-- The bank that a swap prepares at core n. -/
def State.nextBank (s : State) (n : Nat) : Nat := 1 - s.liveBank n

/-- The bank being prepared takes the contents of the live one, at every router and interface. -/
def State.copyBanks (s : State) : State :=
  let live := fun (k : Nat) => s.liveBank (keyCore k)
  let kept := s.regs.filter (fun p => match bankTwin p.1 with | some (b, _) => decide (b = live p.1) | none => true)
  { s with regs := kept.foldl (fun m p =>
      match bankTwin p.1 with
      | some (_, k) => Sparse.put regReset m k p.2
      | none => m) kept }

/-- Whether a swap may begin: no bank drains and no flip is pending (R247). -/
def State.swapFree (s : State) : Bool :=
  s.cores.all (fun p => decide (p.2.rt0 ≠ .draining) && decide (p.2.rt1 ≠ .draining) && decide (p.2.ni0 ≠ .draining) && decide (p.2.ni1 ≠ .draining))
    && s.taps.all (fun p => decide (p.2.b0 ≠ .draining) && decide (p.2.b1 ≠ .draining) && !p.2.flipPending)
    && s.cores.all (fun p => !s.bit (niPage p.1 + 0x44) 4)

/-- Whether routing has been brought up at core n. -/
def State.routed (s : State) (n : Nat) : Bool := decide ((s.core n).rt0 ≠ .spare) || decide ((s.core n).rt1 ≠ .spare)

/-- The flip of core n's interface: the new bit is stamped (R247 step 3a). -/
def State.flipNow (s : State) (n : Nat) : State :=
  let pg := niPage n
  let m := !s.stampBit n
  (((s.setReg (pg + 0x5C + 4 * b2n m) 0).setReg (pg + 0x64 + 4 * b2n m) 0).setFld (pg + 0x44) 3 1 (b2n m)).modCore n (fun c =>
    { c with ni0 := if m then .draining else .armed, ni1 := if m then .armed else .draining })

/-- The flip of an edge die's taps. -/
def State.tapFlipNow (s : State) (e : Nat) : State :=
  let t := s.tap e
  s.setTap e { t with stamp := t.next, inj := Sparse.erase t.inj (b2n t.next), rem := Sparse.erase t.rem (b2n t.next) }

/-- An epoch swap up to its flip: the change is made to the bank being prepared, every live router and tap is armed, every
interface and tap flips (R247 steps 1 to 3). -/
def State.epochSwap (s : State) (change : State → State) : State :=
  let s1 := change s.copyBanks
  let s2 := (List.range 50688).foldl (fun (s : State) n => if s.routed n then (s.rtrArm n).flipNow n else s) s1
  (List.range 4).foldl (fun (s : State) e => (s.tapArm e).tapFlipNow e) s2

/-! Paths (R232 to R234, R242) -/

/-- The router that a wrap leads to, through the taps whose links are up. -/
def State.overTaps (s : State) : Nat → Place → Option (Nat × Nat)
  | 0, _ => none
  | _, .core n p => some (n, p)
  | f + 1, .tap e row p =>
    let out := 1 - p
    if s.linkUp (.tap e row p) && s.linkUp (.tap e row out) then
      match tapFar e row out with
      | some q => s.overTaps f q
      | none => none
    else none
  | _, .stop _ _ _ _ => none

/-- The links that a header takes from an input port of core n on, under the route state of the bank being prepared; none
where the packet would be discarded. -/
def State.walk (s : State) : Nat → Nat → Nat → BitVec 168 → Option (List PathLink)
  | 0, _, _, _ => none
  | f + 1, n, inp, h =>
    let st := rtrPage n + 0x40 + 4 * s.nextBank n
    let lx := if s.bit st 9 then some (s.fld st 0 9) else none
    let ly := s.fld st 16 7
    let seg := hdrFld h 115 2
    let hop := if hdrFld h 4 1 = 1 then hopRoute lx ly inp h 0 (4 - seg) seg false else hopPlain lx ly inp h
    match hop with
    | .eject => some []
    | .lost => none
    | .go p seg start _ =>
      let dl := if start then 0 else hdrFld h 117 1
      let wrap := s.bit st (24 + p)
      if !s.linkUp (.core n p) || s.bit st (28 + p) || (wrap && decide (dl = 1)) then none
      else match (coreFar n p).bind (s.overTaps 4) with
        | none => none
        | some (m, q) =>
          (s.walk f m q (hdrSet (hdrSet h 115 2 seg) 117 1 (if wrap then 1 else dl))).map (⟨n, inp, p⟩ :: ·)

/-- The path of a stream between two logical positions. -/
def State.streamPath (s : State) (sx sy dx dy : Nat) : Option (List PathLink) :=
  let n := s.physOf sx sy
  let r := s.routeIn n (s.nextBank n) false dx dy
  if (match r with | some x => routeDead x | none => false) then none
  else
    let h : Nat := 8 + b2n r.isSome * 2 ^ 4 + dx % 512 * 2 ^ 6 + dy % 128 * 2 ^ 15 + 1 * 2 ^ 46 + r.getD 0 * 2 ^ 119
    s.walk 2048 n 4 (BitVec.ofNat 168 h)

/-- The hop time of a link in cc (R222): 2 inside a die, 8 across a die crossing, 16 across a wrap. -/
def hopTime (l : PathLink) : Nat :=
  match coreFar l.core l.out with
  | some (.core m _) =>
    if m / 2112 = l.core / 2112 then 2
    else if (l.out = 2 ∧ l.core / 2112 / 6 = 3) ∨ (l.out = 3 ∧ l.core / 2112 / 6 = 0) then 16 else 8
  | _ => 16

/-- Whether an offset d between the slots of a link and the next is legal for a minimum clock in MHz (R242). -/
def offsetOk (fmin l d : Nat) : Bool := decide (1 ≤ d) && decide (d ≤ 8) && decide ((l + 1) * 1000 ≤ (4 * d - 2) * fmin)

/-! Slot maps (R240, R264, R268) -/

/-- The key and lowest bit of slot i of output p of core n in the bank being prepared. -/
def State.slotAt (s : State) (n p i : Nat) : Nat × Nat := (rtrPage n + 0x400 + 0x200 * s.nextBank n + 0x80 * p + 4 * (i / 8), 4 * (i % 8))

/-- Whether a slot of a router's output is taken. -/
def State.slotTaken (s : State) (n p i : Nat) : Bool := s.bit (s.slotAt n p i).1 ((s.slotAt n p i).2 + 3)

/-- Whether slot i is free on a link; a link that two columns share must be free for both (R218). -/
def State.slotFree (s : State) (l : PathLink) (i : Nat) : Bool :=
  !s.slotTaken l.core l.out i
    && !(sharedLink l.core l.out && s.slotTaken (if l.core % 66 % 2 = 0 then l.core + 1 else l.core - 1) l.out i)

/-- The key and lowest bit of slot i of core n's interface in the bank being prepared. -/
def State.niSlotAt (s : State) (n i : Nat) : Nat × Nat := (niPage n + 0x400 + 0x100 * s.nextBank n + 4 * (i / 4), 8 * (i % 4))

/-- Writes the slots of a path: VALID and the input port on each link, the stream at the source; v = 0 clears them. -/
def State.putSlots (s : State) (src stream : Nat) (path : List PathLink) (slots : List Nat) (v : Nat) : State :=
  let s1 := (path.zip slots).foldl (fun (s : State) p =>
    let k := s.slotAt p.1.core p.1.out p.2
    s.setFld k.1 k.2 4 ((8 + p.1.inp) * v)) s
  match slots with
  | i :: _ => s1.setFld (s1.niSlotAt src i).1 (s1.niSlotAt src i).2 8 (stream * v)
  | [] => s1

/-- Whether slots fit a path (R243): one for each link, each free, each offset legal, and the source's slot free. -/
def State.slotsFit (s : State) (src fmin : Nat) (path : List PathLink) (slots : List Nat) : Bool :=
  decide (slots.length = path.length) && decide (0 < path.length) && slots.all (fun i => decide (i < 256))
    && (path.zip slots).all (fun p => s.slotFree p.1 p.2)
    && (match slots with | i :: _ => decide (s.fld (s.niSlotAt src i).1 (s.niSlotAt src i).2 8 = 0) | [] => false)
    && ((path.zip slots).zip slots.tail).all (fun p => offsetOk fmin (hopTime p.1.1) ((p.2 + 256 - p.1.2) % 256))

/-- Raises RTR_FLOOR of every router of a path (R243 step 1). -/
def State.raiseFloors (s : State) (fmin : Nat) (path : List PathLink) : State :=
  path.foldl (fun (s : State) l => s.setFld (rtrPage l.core + 0x4C) 0 12 (max fmin (s.fld (rtrPage l.core + 0x4C) 0 12))) s

/-- Whether a logical position belongs to a tenant. -/
def Tenant.owns (x : Tenant) (px py : Nat) : Bool :=
  x.live && x.res.rects.any (fun r => decide (r.xlo ≤ px) && decide (px ≤ r.xhi) && decide (r.ylo ≤ py) && decide (py ≤ r.yhi))

/-- The checks of a reservation against the bank being prepared (R243). -/
def State.reserveOk (s : State) (t : Nat) (r : Reservation) : Option (List PathLink) :=
  let x := s.tenant t
  if x.owns r.sx r.sy && x.owns r.dx r.dy && decide (1 ≤ r.stream.toNat) && decide (900 ≤ r.fmin) && decide (r.fmin ≤ 2000) then
    match s.streamPath r.sx r.sy r.dx r.dy with
    | some p => if s.slotsFit (s.physOf r.sx r.sy) r.fmin p r.slots then some p else none
    | none => none
  else none

/-- A reservation is brought into use by an epoch swap; none where it fails its checks (R243). -/
def State.reserveSwap (s : State) (t : Nat) (r : Reservation) : Option State :=
  match s.copyBanks.reserveOk t r with
  | none => none
  | some p =>
    let s1 := (s.raiseFloors r.fmin p).epochSwap (fun s => s.putSlots (s.physOf r.sx r.sy) r.stream.toNat p r.slots 1)
    let tn := s1.tenant t
    some (s1.setTenant t { tn with streams := tn.streams ++ [{ r with links := p }] })

/-- The interface that a reservation starts from: that of its first link's core. -/
def Reservation.src (r : Reservation) : Nat := (r.links.head?.map (fun l => l.core)).getD 0

/-- Clears the slots of a reservation in the bank being prepared: those it was given, whatever its path would be now. -/
def State.clearStream (s : State) (r : Reservation) : State := s.putSlots r.src r.stream.toNat r.links r.slots 0

/-- Every path of a stream is removed by an epoch swap (R243). -/
def State.unreserveSwap (s : State) (t stream : Nat) : State :=
  let l := (s.tenant t).streams.filter (fun r => decide (r.stream.toNat = stream))
  let s1 := s.epochSwap (fun s => l.foldl State.clearStream s)
  let tn := s1.tenant t
  s1.setTenant t { tn with streams := tn.streams.filter (fun r => decide (r.stream.toNat ≠ stream)) }

/-- Once the swap has retired: each RTR_FLOOR falls to the highest F_MIN of the streams still reserved through that
router (R243). -/
def State.lowerFloors (s : State) : State :=
  let all := s.liveTenants.flatMap (fun t => (s.tenant t).streams)
  let paths := all.map (fun r => (r.fmin, r.links))
  (List.range 50688).foldl (fun (s : State) n =>
    let f := paths.foldl (fun m p => if p.2.any (fun l => decide (l.core = n)) then max m p.1 else m) 900
    if f < s.fld (rtrPage n + 0x4C) 0 12 then s.setFld (rtrPage n + 0x4C) 0 12 f else s) s

/-! First-fit slots for a path that firmware recomputes (08 R284) -/

/-- The slots of the links after one whose slot is i, each at the smallest legal offset at which its link is free. -/
def State.fitFrom (s : State) (fmin : Nat) : Nat → PathLink → List PathLink → Option (List Nat)
  | _, _, [] => some []
  | i, l, m :: r =>
    match ((List.range 9).find? (fun d => offsetOk fmin (hopTime l) d && s.slotFree m ((i + d) % 256))) with
    | some d => (s.fitFrom fmin ((i + d) % 256) m r).map ((i + d) % 256 :: ·)
    | none => none

/-- Slots for a path from start slot i on, if it and the links after it have free ones. -/
def State.fitAt (s : State) (src fmin : Nat) (path : List PathLink) (i : Nat) : Option (List Nat) :=
  match path with
  | [] => none
  | l :: r =>
    if s.slotFree l i ∧ s.fld (s.niSlotAt src i).1 (s.niSlotAt src i).2 8 = 0 then (s.fitFrom fmin i l r).map (i :: ·) else none

/-- Slots for a path: the first free start from which every link finds one. -/
def State.fitSlots (s : State) (src fmin : Nat) (path : List PathLink) : Option (List Nat) :=
  (List.range 256).findSome? (s.fitAt src fmin path)

end Sys2Proof.Machine
end

