-- ==== Sys2Proof/Machine/Reef.lean ====
section
/-! DEFINITION. The reef (08 R279 to R286, R291, R296): a logical position moves from one physical core of its row to another.
Phases 1 to 4 run with the command but for the load of a collar image, the route swap and the restart as soon as they may; phase 7 is the program's own, and
RETIRE of the swap follows by commands (assumption 23). -/
namespace Sys2Proof.Machine

/-- Whether the health controller of a core's die has declared it FAILED. -/
def State.isFailed (s : State) (n : Nat) : Bool :=
  (s.hcAt (n / 2112)).table.any (fun p => decide (p.2.st = .failed) && decide (p.2.suspect.toNat = n % 2112))

/-! Source-route entries (07 R237, R238) -/

/-- A source-route entry for one position: its four words. -/
def routeEntry (x y seg0 seg1 seg2 : Nat) : List Word :=
  let route := seg0 + seg1 * 2 ^ 12 + seg2 * 2 ^ 24
  [BitVec.ofNat 32 (x + x * 65536), BitVec.ofNat 32 (y + y * 256 + 65536), BitVec.ofNat 32 route, BitVec.ofNat 32 (route / 2 ^ 32)]

/-- The source-route table of the bank being prepared at core n. -/
def State.table (s : State) (n : Nat) : List (List Word) :=
  (List.range 64).map (fun e => (List.range 4).map (fun w => BitVec.ofNat 32 (s.srt n (s.nextBank n) e w)))

/-- Replaces that table; entries beyond 64 have no room. -/
def State.setTable (s : State) (n : Nat) (l : List (List Word)) : State :=
  let b := niPage n + 0x800 + 0x400 * s.nextBank n
  (List.range 64).foldl (fun (s : State) e => (List.range 4).foldl (fun (s : State) w =>
    s.setReg (b + 16 * e + 4 * w) ((l.getD e []).getD w 0)) s) s

/-- Whether an entry is for the one position (x, y). -/
def entryFor (x y : Nat) (l : List Word) : Bool :=
  decide (l.take 2 = (routeEntry x y 0 0 0).take 2)

/-- The entries for a position are removed and the one given, if any, comes first, so that it supplies the route. -/
def State.reroute (s : State) (n x y : Nat) (e : Option (List Word)) : State :=
  let l := (s.table n).filter (fun l => !entryFor x y l)
  s.setTable n (match e with | some v => v :: l | none => l)

/-- The entry of a position that core `to` serves away from its home column, at an interface with logical X `lx`: moves in
Y to the row, then in X; from the cores east of the position in its die the X move goes east (07 R238's entries A and B). -/
def entryAB (x y lx : Nat) : List Word :=
  if x < lx ∧ lx < x / 64 * 64 + 64 then routeEntry x y 0 1 2 else routeEntry x y 0 1 1

/-- The entries of a tenant's interfaces for a position: none when its home core serves it, A or B when a spare does. -/
def State.rerouteAll (s : State) (t x y to_ : Nat) : State :=
  (rectCores (s.tenant t).res.rects).foldl (fun (s : State) p =>
    s.reroute (s.physOf p.1 p.2) x y (if to_ = homeNo x y then none else some (entryAB x y p.1))) s

/-- The entries that make a position unreachable: every MODE 0 (R285). -/
def State.unreachable (s : State) (t x y : Nat) : State :=
  (rectCores (s.tenant t).res.rects).foldl (fun (s : State) p => s.reroute (s.physOf p.1 p.2) x y (some (routeEntry x y 0 0 0))) s

/-! Moving a position -/

/-- The route state of the bank being prepared: the router of core n holds X and Y (R281 phase 5). -/
def State.takeRouter (s : State) (x y n : Nat) : State :=
  let k := rtrPage n + 0x40 + 4 * s.nextBank n
  (s.setFld k 0 10 (x + 512)).setFld k 16 7 y

/-- The router of a core that serves no longer is a transit router in the bank being prepared; if it does not work, the ports
that face it are DOWN too (R280; 07 R219). -/
def State.leaveRouter (s : State) (n : Nat) (works : Bool) : State :=
  let k := fun (n : Nat) => rtrPage n + 0x40 + 4 * s.nextBank n
  let s1 := s.setFld (k n) 9 1 0
  if works then s1
  else (List.range 4).foldl (fun (s : State) p =>
    match coreFar n p with
    | some (.core m q) => s.setFld (k m) (28 + q) 1 1
    | _ => s) (s1.setFld (k n) 28 4 15)

/-- What firmware gives a core that comes to serve a position: the partition registers and timeout of the interface, the
router's floor, the collar's registers. The core that leaves is unassigned. -/
def State.moveConfig (s : State) (old new : Nat) : State :=
  let copy := fun (s : State) (page off : Nat) => s.setReg (corePage new page + off) (s.reg (corePage old page + off))
  let ni := [0x40, 0x50, 0x58, 0xC0, 0xC4] ++ (List.range 16).map (fun i => 0x80 + 4 * i) ++ (List.range 8).map (fun i => 0xD0 + 4 * i)
  let s1 := ni.foldl (fun (s : State) off => copy s 9 off) s
  ((copy (copy s1 7 0x4C) 8 0x80)).setReg (niPage old + 0x40) 0

/-- The stream with which firmware itself loads an image into a region: a WEAVE stream with TENANT 0xFF (11 R353, R354). -/
def weaveStream (r : BitVec 24) (img : List (Nat × List Word)) : List Word :=
  let frames := if img.any (fun p => decide (p.1 = 0)) then img else (0, []) :: img
  let body := [cmdWord 1 r, cmdWord 3 r]
    ++ frames.flatMap (fun p => cmdWord 7 (BitVec.ofNat 24 p.1) :: (List.range 64).map (fun i => p.2.getD i 0))
  let h := [0x5A3CC3A5, 0x00FF0100, BitVec.ofNat 32 (body.length + 7), 0] ++ body ++ [0x09000000]
  h ++ [~~~ (h.foldl crcWord 0xFFFFFFFF), 0x0B000000]

/-- The stream that loads the last RUNNING image of core old's collar, if there is one, into core new's (R281 phase 3; 11 R353,
R369). -/
def State.collarStream (s : State) (old new : Nat) : List Word :=
  match (s.region (collarRegion old)).image with
  | some img => weaveStream (BitVec.ofNat 24 (collarRegion new)) img
  | none => []

/-- The management port through which firmware loads a core's collar: that of the edge die that serves its die (17 R515;
assumption 23). -/
def collarPort (n : Nat) : Pusher := ⟨⟨(servingEdge (n / 2112) - 24) % 4, Nat.mod_lt _ (by decide)⟩, false⟩

/-- A recomputed reservation with its new slots. -/
def State.refitted (s : State) (t : Nat) (r : Reservation) (p : List PathLink) (l : List Nat) : State :=
  let tn := s.tenant t
  ((s.setTenant t { tn with streams := tn.streams.filter (fun x => decide (x ≠ r)) ++ [{ r with slots := l, links := p }] }).putSlots
    (s.physOf r.sx r.sy) r.stream.toNat p l 1).raiseFloors r.fmin p

/-- The reservations of one stream with every start slot moved on by the same d, which keeps their spacing; none where one of
them finds no slots so. -/
def State.refitBy (t d : Nat) : List Reservation → State → Option State
  | [], s => some s
  | r :: rest, s =>
    match s.streamPath r.sx r.sy r.dx r.dy with
    | none => none
    | some p =>
      match s.fitAt (s.physOf r.sx r.sy) r.fmin p ((r.slots.headD 0 + d) % 256) with
      | none => none
      | some l => State.refitBy t d rest (s.refitted t r p l)

/-- Recomputes one reservation for itself: first-fit slots on its new path, or it is removed and the tenant told (R284). -/
def State.refitAlone (t : Nat) (s : State) (r : Reservation) : State :=
  let tn := s.tenant t
  let gone := (s.setTenant t { tn with streams := tn.streams.filter (fun x => decide (x ≠ r)) }).event t Code.netReservation 0 0xFFFF 0xFFFF
    Blk.rtr.type (BitVec.ofNat 32 r.stream.toNat)
  match s.streamPath r.sx r.sy r.dx r.dy with
  | none => gone
  | some p =>
    match s.fitSlots (s.physOf r.sx r.sy) r.fmin p with
    | none => gone
    | some l => s.refitted t r p l

/-- Recomputes the reservations of a stream that the moved position touches, at the same spacing where that finds slots (R284;
09 R311). -/
def State.refitStream (t : Nat) (s : State) (l : List Reservation) : State :=
  let s1 := l.foldl State.clearStream s
  match (List.range 256).findSome? (fun d => State.refitBy t d l s1) with
  | some s2 => s2
  | none => l.foldl (State.refitAlone t) s1

/-- The reservations of a tenant that cross one of some cores. -/
def State.crossing (s : State) (ns : List Nat) (t : Nat) : List Reservation :=
  (s.tenant t).streams.filter (fun r =>
    ns.contains (s.physOf r.sx r.sy) || ns.contains (s.physOf r.dx r.dy) || r.links.any (fun l => ns.contains l.core))

/-- The streams that cross one of some cores: each with its tenant and its reservations there. -/
def State.crossings (s : State) (ns : List Nat) : List (Nat × List Reservation) :=
  s.liveTenants.flatMap (fun t =>
    ((s.crossing ns t).map (fun r => r.stream)).eraseDups.map (fun k => (t, (s.crossing ns t).filter (fun r => decide (r.stream = k)))))

/-- A reefed position goes to its new core; one without a spare stays. -/
def State.movePhys (s : State) (r : Reefing) : State :=
  match r.new with
  | some c => s.setPhys r.x r.y c
  | none => s

/-- The router and the source-route entries of the core that takes over a position; a router that does not work is avoided. -/
def State.moveBank (s : State) (r : Reefing) : State :=
  match r.new with
  | some c => ((s.setTable c (s.table r.old)).takeRouter r.x r.y c).leaveRouter r.old r.works
  | none => if r.works then s else s.leaveRouter r.old false

/-- The entries of the tenant's interfaces for a reefed position. -/
def State.moveEntries (s : State) (r : Reefing) : State :=
  match r.new with
  | some c => s.rerouteAll r.t r.x r.y c
  | none => s.unreachable r.t r.x r.y

/-- The routers, entries and streams of the new placement, in the banks being prepared (R281 phase 5). -/
def State.reefRoutes (l : List Reefing) (s : State) : State :=
  let cross := s.crossings (l.map (fun r => r.old))
  let s1 := l.foldl State.moveEntries (l.foldl State.moveBank (l.foldl State.movePhys s))
  cross.foldl (fun (s : State) p => State.refitStream p.1 s p.2) s1

/-- Restores one core of the domain from its base context image, with its replay block, and starts it (R291). -/
def State.restartCore (t step : Nat) (rp : Replay) (s : State) (p : (Nat × Nat) × Nat) : State :=
  let b := rp.slot p.1.1 p.1.2 rp.newer
  let v := s.rolled t rp p step
  let n := s.physOf p.1.1 p.1.2
  let s1 := ((s.applyImage n b.ctx).setBlock p.1.1 p.1.2 rp.rb 0 (step + 1)).setBlock p.1.1 p.1.2 rp.rb 8 v.jptr
  s1.modCore n (fun c => ({ c with st := .stopped, stall := .none, pendStart := false, pendSave := false, ctx := none } : Core).start)

/-- Phase 4 for one position of the domain: the newer base image with the committed journal (R291). -/
def State.refill (s : State) (t x y : Nat) (rp : Replay) (step : Nat) : List Host.Cell :=
  match rp.cores.find? (fun p => decide (p.1 = (x, y))) with
  | some p => (s.rolled t rp p step).spad
  | none => []

/-- A core with nothing in it but its route banks, links, flits and generator. -/
def Core.emptied (c : Core) : Core :=
  { Core.reset with rt0 := c.rt0, rt1 := c.rt1, ni0 := c.ni0, ni1 := c.ni1, links := c.links, sw := c.sw, cc := c.cc, frKey := c.frKey, fr := c.fr }

/-- The highest step that a tenant's domain has marked complete or sent tokens for: where a replay has caught up (R281 phase 7,
R297). -/
def State.reached (s : State) (t : Nat) (rp : Replay) : Nat :=
  (s.tenant t).highest.foldl (fun m p => max m (p.2 - 1)) ((rp.cores.map (s.coreStep t rp)).foldl max 0)

/-- Whether the CMD record of a command can still be read (R298); one that has left the ring lies before the replay step. -/
def State.replayable (s : State) (t : Nat) (c : QCmd) : Bool :=
  let r := (s.tenant t).ring
  r.recs.all (fun x => decide (x.typ ≠ 1) || decide (beFld x.body 4 4 ≠ c.sess.toNat) || decide (beFld x.body 8 4 ≠ c.seq.toNat) || s.readable r x)

/-- Phase 6 (R281, R291): the domain of a tenant is restored and started; the commands after the replay step are to be delivered
again. A domain with a core that serves no longer stays stopped (R285). -/
def State.restart (s : State) (t step : Nat) : State :=
  match (s.tenant t).replay with
  | none => s
  | some rp =>
    if rp.cores.any (fun p => decide (s.markOf (s.physOf p.1.1 p.1.2) = .removed)) then s
    else
      let high := s.reached t rp
      let redo := rp.log.filter (fun p => decide (step < p.1) && s.replayable t p.2)
      let s1 := rp.cores.foldl (State.restartCore t step rp) s
      let tn := s1.tenant t
      s1.setTenant t { tn with replay := tn.replay.map (fun r => { r with upTo := high, redo := redo, diverged := false }) }

/-- The configuration of phase 3 and phase 4 for a position that moves from core `old` to core `new` (R281): registers, the
scratchpad zeroed and refilled. -/
def State.fillSpare (s : State) (t x y old new step : Nat) : State :=
  let mem := match (s.tenant t).replay with
    | some rp => s.refill t x y rp step
    | none => []
  (s.moveConfig old new).modCore new (fun c => { c.emptied with spad := mem })

/-- The old core's units are powered down but for its router, if that still works (R280). Its transfers are abandoned without
a status record (06 R209). -/
def State.powerDown (s0 : State) (n : Nat) (routerWorks : Bool) : State :=
  let s := s0.modCore n (fun c => { c with jobs := [], outst := [], unsent := [] })
  (List.range 10).foldl (fun (s : State) p =>
    if routerWorks ∧ p = 7 then s
    else s.setBlk (corePage n p) { on := false, moving := false, want := false, pendingOn := false, resetDue := false }) s

/-- The spare's island is powered. -/
def State.powerUp (s : State) (n : Nat) : State := (List.range 10).foldl (fun (s : State) p => s.setBlk (corePage n p) .reset) s

/-- The spare that serves: column 64, or column 65 if 64 is in use, removed or fails its self-test; a spare that fails sends
SELF and is removed (R273, R280, R284). -/
def State.pickSpare (s : State) (n : Nat) (ok64 ok65 : Bool) : Option Nat × State :=
  let a := n - n % 66 + 64
  let use := fun (s : State) (c : Nat) (ok : Bool) (next : State → Option Nat × State) =>
    if s.idleSpare c then if ok then (some c, s) else next ((s.mark c .removed).selfFree c) else next s
  use s a ok64 (fun s => use s (a + 1) ok65 (fun s => (none, s)))

/-! The phases -/

/-- Reefs whose route swap is still to come. -/
def State.waitingReefs (s : State) : List Reefing := s.reefs.filter (fun r => !r.swapped)

/-- The replay step of a reef of tenant t that begins: that of the reef it joins (R283). -/
def State.reefStep (s : State) (t : Nat) : Nat :=
  match s.waitingReefs.find? (fun r => decide (r.t = t)) with
  | some r => r.step
  | none => s.replayStep t

/-- Phases 2 to 4 for a position that moves from core `old` to core `new`. A core without a tenant skips phase 2 (R280). -/
def State.beginReef (s : State) (t x y old new : Nat) (works : Bool) (decl : Dword) : State :=
  let s1 := if (s.tenant t).live then s.quiesce t else s
  let step := s1.reefStep t
  let s2 := s1.fillSpare t x y old new step
  { s2 with reefs := s2.reefs ++
      [{ t := t, x := x, y := y, old := old, new := some new, works := works, step := step, decl := decl,
         ends := [decl, s.time], swapped := false, stream := s.collarStream old new }] }

/-- Whether the new core of a reef has its collar image: the stream has been pushed, and the region it loads has ended (R281
phase 3). -/
def State.collarReady (s : State) (r : Reefing) : Bool :=
  r.stream.isEmpty && (match r.new with
    | some c => decide ((s.region (collarRegion c)).st ≠ .loading) && decide ((s.region (collarRegion c)).st ≠ .releasing)
    | none => true)

/-- Phase 3 goes on: firmware pushes a collar image once the port is free, and phases 3 and 4 end when the collar has it. -/
def State.bootSpare (s : State) (r : Reefing) : State :=
  let set := fun (s : State) (q : Reefing) => { s with reefs := s.reefs.map (fun x => if x = r then q else x) }
  match r.new with
  | none => s
  | some c =>
    if r.stream ≠ [] then
      if s.portFree (collarPort c) then (set s { r with stream := [] }).pushWords (collarPort c) r.stream else s
    else if r.ends.length = 2 ∧ s.collarReady r = true then set s { r with ends := r.ends ++ [s.time, s.time] }
    else s

/-- Whether the route swap of the waiting reefs may begin: no swap runs, phases 3 and 4 are over, and every core of their tenants
that is FAILED has joined (R283). -/
def State.reefReady (s : State) : Bool :=
  let l := s.waitingReefs
  !l.isEmpty && s.swapFree && l.all (fun r => r.new.isNone || decide (4 ≤ r.ends.length)) && l.all (fun r => (s.tenantCores r.t).all (fun n =>
    !s.isFailed n || decide (s.markOf n = .removed) || l.any (fun q => decide (q.old = n))))

/-- The end of phase 6 for a reef: the tenant receives REEF_DONE. -/
def State.reefDone (s : State) (r : Reefing) : State :=
  if r.new.isSome && (s.tenant r.t).live then
    s.event r.t Code.reefDone 0 (BitVec.ofNat 16 r.x) (BitVec.ofNat 16 r.y) Blk.hc.type (BitVec.ofNat 32 r.step)
  else s

/-- Phases 5 and 6 of the waiting reefs: one route swap serves them all; then each tenant's domain restarts. Before routing has
been brought up there is nothing to swap. A reef without a spare ends here (R285). -/
def State.reefSwap (s : State) : State :=
  let l := s.waitingReefs
  let s1 := if l.any (fun r => s.routed r.old) then s.epochSwap (State.reefRoutes l) else l.foldl State.movePhys s
  let ts := ((l.filter (fun r => r.new.isSome)).map (fun r => r.t)).eraseDups
  let s2 := ts.foldl (fun (s : State) t => s.restart t (s.reefStep t)) s1
  let s3 := l.foldl State.reefDone s2
  { s3 with reefs := (s3.reefs.filter (fun r => r.swapped || r.new.isSome)).map (fun r =>
      if r.swapped then r else { r with swapped := true, ends := r.ends ++ [s.time, s.time] }) }

/-- Whether phase 7 of tenant t's reefs is over: the replay has caught up, or has diverged (R297). -/
def State.caughtUp (s : State) (t : Nat) : Bool :=
  !s.replaying t || (match (s.tenant t).replay with | some rp => rp.diverged | none => false)

/-- Phase 7 of a reef ends: the REEF record is closed, with REPLAY_DIVERGED where the replay has diverged. -/
def State.closeReef (s : State) (r : Reefing) : State :=
  let s1 : State := { s with reefs := s.reefs.filter (fun q => decide (q ≠ r)) }
  if (s.tenant r.t).live then s1.reefRecord r (if s.replaying r.t then Code.replayDiverged else Code.reefDone) (r.ends ++ [s.time]) else s1

/-- What the reefs under way do as soon as they can: the collar image, the route swap with the restart, the end of phase 7
(assumption 23). -/
def State.reefsGo (s : State) : State :=
  if s.reefs = [] then s
  else
    let s0 := s.reefs.foldl State.bootSpare s
    let s1 := if s0.reefReady then s0.reefSwap else s0
    (s1.reefs.filter (fun r => r.swapped && s1.caughtUp r.t)).foldl State.closeReef s1

/-- The time at which a core was declared FAILED. -/
def State.declaredAt (s : State) (n : Nat) : Dword :=
  match (s.hcAt (n / 2112)).table.find? (fun p => decide (p.2.st = .failed) && decide (p.2.suspect.toNat = n % 2112)) with
  | some p => p.2.failedAt
  | none => s.time

/-- The reef of a FAILED core that serves a position, up to phase 4. -/
def State.reef (s : State) (n x y : Nat) (ok64 ok65 works : Bool) : State :=
  let t := (s.niTenant n).toNat
  match s.pickSpare n ok64 ok65 with
  | (none, s1) =>
    let s2 := (s1.mark n .removed).powerDown n works
    if (s.tenant t).live then (s2.quiesce t).exhaust t n x y works (s.declaredAt n) else s2
  | (some c, s1) => ((((s1.mark n .reefed).mark c .serving).powerUp c).beginReef t x y n c works (s.declaredAt n)).powerDown n works

/-- REEF: firmware reefs a core that has been declared FAILED. Phases 1 and 2 run at once, and phases 3 and 4 but for the load of
the collar; the route swap follows when no other runs and every FAILED core of the tenant has joined (R283). -/
def execReef (c : CoreId) (ok64 ok65 routerWorks : Bool) (s : State) : Host.Outcome State Fault Refusal :=
  done (s.whenUp fun s =>
    let n := coreNo c
    match s.logOf n with
    | some (x, y) =>
      if s.isFailed n && decide (s.markOf n ≠ .removed) && !s.reefs.any (fun r => decide (r.old = n) && !r.swapped) then
        (s.reef n x y ok64 ok65 routerWorks).reefsGo
      else s
    | none => s)

/-- Repatriation (R286): phases 2 to 7 in the other direction; the spare returns to the pool, and its collar holds no image
(01 R34). -/
def State.repatriateTo (s : State) (t x y : Nat) : State :=
  let home := homeNo x y
  let spare := s.physOf x y
  (((((s.mark home .serving).mark spare .idleSpare).powerUp home).beginReef t x y spare home true s.time).shrClear (collarRegion spare) 0x40).reefsGo

end Sys2Proof.Machine
end

