-- ==== Sys2Proof/Machine/Security.lean ====
section
/-! DEFINITION. The security block (chapter 15): anti-rollback commits (R470), revocation and the owner key (R469), key import
and erasure (R474 to R477), the bit generator (R478 to R480); and the boundary-scan ports (18 R531, R532). -/
namespace Sys2Proof.Machine

/-- The security page. -/
def secPage : Nat := edgePage 0 0xF080

/-- The key of SEC_CTRL. -/
def secCtrl : Nat := secPage + 0x44

/-- The lowest SVN among the four dies' last passed shells (R470). -/
def Sec.shellSvn (x : Sec) : Nat := (List.range 4).foldl (fun m d => min m (Sparse.get (fun _ => 0) x.loadedShell d)) (2 ^ 32)

/-- The loaded SVN of stream type 1 FIRMWARE, 2 STATIC or 3 SHELL. -/
def Sec.loaded (x : Sec) : Nat → Nat
  | 1 => x.loadedFw
  | 2 => x.loadedStatic
  | _ => x.shellSvn

/-- The fuse count of a stream type. -/
def Sec.count (x : Sec) : Nat → Nat
  | 1 => x.svnFw
  | 2 => x.svnStatic
  | _ => x.svnShell

/-- Sets the fuse count of a stream type. -/
def Sec.setCount (x : Sec) (ty n : Nat) : Sec :=
  match ty with
  | 1 => { x with svnFw := n }
  | 2 => { x with svnStatic := n }
  | _ => { x with svnShell := n }

/-- COMMIT_t: pairs are blown until the count equals min(loaded SVN, 64). A commit while another runs is recorded in the
clamp record and ignored; a loaded SVN above 64 is recorded there too (R470). -/
def State.commit (s : State) (ty : Nat) : State :=
  if s.sec.commit.isSome then s.clampAt secPage 0x44
  else
    let v := s.sec.loaded ty
    let s1 := if 64 < v then s.clampAt secPage 0x44 else s
    { s1 with sec := { s1.sec with commit := some (ty, min v 64) } }

/-- COMMIT_FW. -/
def execCommitFw (who : Party) (s : State) : Host.Outcome State Fault Refusal :=
  done (s.whenUp fun s => s.ctl who secCtrl fun s => s.commit 1)

/-- COMMIT_STATIC. -/
def execCommitStatic (who : Party) (s : State) : Host.Outcome State Fault Refusal :=
  done (s.whenUp fun s => s.ctl who secCtrl fun s => s.commit 2)

/-- COMMIT_SHELL. -/
def execCommitShell (who : Party) (s : State) : Host.Outcome State Fault Refusal :=
  done (s.whenUp fun s => s.ctl who secCtrl fun s => s.commit 3)

/-- COMMIT_DONE: the count has reached the target; a target at or below the count has blown nothing. -/
def execCommitDone (s : State) : Host.Outcome State Fault Refusal :=
  done (s.whenUp fun s =>
    match s.sec.commit with
    | some (ty, target) => ({ s with sec := { (s.sec.setCount ty (max (s.sec.count ty) target)) with commit := none } } : State).raiseIrq secPage 8
    | none => s)

/-- REVOKE_A: refused unless the running firmware was verified under key B (R469). -/
def State.revokeKeyA (s : State) : State :=
  if s.sec.fwKey = 2 then { s with sec := { s.sec with revokedA := true } } else s.clampAt secPage 0x44

/-- REVOKE_B: refused unless the running firmware was verified under key A. -/
def State.revokeKeyB (s : State) : State :=
  if s.sec.fwKey = 1 then { s with sec := { s.sec with revokedB := true } } else s.clampAt secPage 0x44

def execRevokeA (who : Party) (s : State) : Host.Outcome State Fault Refusal :=
  done (s.whenUp fun s => s.ctl who secCtrl fun s => s.revokeKeyA)

def execRevokeB (who : Party) (s : State) : Host.Outcome State Fault Refusal :=
  done (s.whenUp fun s => s.ctl who secCtrl fun s => s.revokeKeyB)

/-- OWNER_FUSE: the owner key is fused once from SEC_OWNER; the key buffers are zeroed either way (R469, R482). -/
def State.fuseOwner (s : State) : State :=
  let x := s.sec
  let s1 : State := { s with sec := { x with pub := [], wrap := [], ownerBuf := [] } }
  if x.owner.isSome then s1.clampAt secPage 0x44
  else { s1 with sec := { s1.sec with owner := some ((List.range 24).map (fun w => Sparse.get (fun _ => 0) x.ownerBuf w)) } }

def execOwnerFuse (who : Party) (s : State) : Host.Outcome State Fault Refusal :=
  done (s.whenUp fun s => s.ctl who secCtrl fun s => s.fuseOwner)

/-- IMPORT: an import into the slot and AN that SEC_IMP_SEL names begins; one written while an import runs is ignored and
recorded in the clamp record (R475, R476). -/
def State.importBegin (s : State) : State :=
  if s.sec.importing.isSome then s.clampAt secPage 0x44
  else
    let k := s.fld (secPage + 0x58) 0 6 * 4 + s.fld (secPage + 0x58) 8 2
    let area := fun (m : Map Word) (n : Nat) => (List.range n).map (fun w => Sparse.get (fun _ => (0 : Word)) m w)
    ({ s with sec := { s.sec with importing := some (k, Config.unwrap k (area s.sec.pub 24) (area s.sec.wrap 14)) } } : State).setReg (secPage + 0x5C) 3

def execImportKey (who : Party) (s : State) : Host.Outcome State Fault Refusal :=
  done (s.whenUp fun s => s.ctl who secCtrl fun s => s.importBegin)

/-- An import fails: the slot is unchanged. -/
def State.importFails (s : State) (code : BitVec 16) : State :=
  let s1 : State := { s with sec := { s.sec with importing := none, pub := [], wrap := [], ownerBuf := [] } }
  ((s1.setReg (secPage + 0x5C) (BitVec.ofNat 32 (2 + code.toNat * 65536))).enterCode secPage code).raiseIrq secPage 4

/-- IMPORT_DONE: the unwrapped key is loaded into the AN, or the import fails. The buffers are zeroed (R476, R482). -/
def State.importEnds (s : State) : State :=
  match s.sec.importing with
  | none => s
  | some (_, .bad) => s.importFails Code.secUnwrap
  | some (k, .key sak salt ssci) =>
    if Sparse.get (fun _ => 0) s.sec.txAn (k / 4) = k % 4 + 1 then s.importFails Code.secKeyInUse
    else
      let a : KeyAn := { loaded := true, sak := sak, salt := salt, ssci := ssci, pn := 0 }
      let sec1 : Sec :=
        { s.sec with
          importing := none, pub := [], wrap := [], ownerBuf := [],
          keys := Sparse.put (fun _ => KeyAn.empty) s.sec.keys k a,
          newAn := Sparse.put (fun _ => 0) s.sec.newAn (k / 4) (k % 4 + 1) }
      ((({ s with sec := sec1 } : State).setReg (secPage + 0x5C) 1)).raiseIrq secPage 2

def execImportDone (s : State) : Host.Outcome State Fault Refusal :=
  done (s.whenUp fun s => s.importEnds)

/-- Zeroes every AN of a key slot (R477). -/
def State.eraseSlot (s : State) (slot : Nat) : State :=
  { s with sec :=
    { s.sec with
      keys := s.sec.keys.filter (fun p => decide (p.1 / 4 ≠ slot)),
      txAn := Sparse.put (fun _ => 0) s.sec.txAn slot 0,
      newAn := Sparse.put (fun _ => 0) s.sec.newAn slot 0 } }

/-- ERASE. -/
def execErase (who : Party) (s : State) : Host.Outcome State Fault Refusal :=
  done (s.whenUp fun s => s.ctl who secCtrl fun s => s.eraseSlot (s.fld (secPage + 0x58) 0 6))

/-! The bit generator (R478, R480) -/

/-- A failed health test (R480): ENT_OK falls, ENT_FAIL is raised, SEC_ENTROPY entered, and the generator serves nothing. -/
def State.entFail (s : State) : State :=
  let s1 : State := { s with sec := { s.sec with entOk := false, ready := false, testing := false } }
  (((s1.incSat (secPage + 0x64)).enterCode secPage Code.secEntropy).raiseIrq secPage 1).setReady 2 false

/-- RETEST runs the start-up tests again. -/
def State.retestBegin (s : State) : State := { s with sec := { s.sec with testing := true } }

def execRetest (who : Party) (s : State) : Host.Outcome State Fault Refusal :=
  done (s.whenUp fun s => s.ctl who secCtrl fun s => s.retestBegin)

/-- ENTROPY_READY: the 1,024 start-up samples have passed both tests and the generator is READY, or a test has failed. -/
def execEntropyReady (pass : Bool) (s : State) : Host.Outcome State Fault Refusal :=
  done (s.whenUp fun s =>
    if s.sec.testing = false then s
    else if pass then ({ s with sec := { s.sec with entOk := true, ready := true, testing := false, served := 0, seeded := s.time } } : State).setReady 2 true
    else s.entFail)

/-- RESEED: a generator that is READY reseeds with 384 bits once 1 ms has passed or 65,536 requests have been served; the health
tests of the source may fail instead. -/
def execReseed (healthy : Bool) (s : State) : Host.Outcome State Fault Refusal :=
  done (s.whenUp fun s =>
    if s.sec.ready = false then s
    else if !healthy then s.entFail
    else if s.sec.seeded.toNat + 1000000 ≤ s.time.toNat ∨ 65536 ≤ s.sec.served then
      ({ s with sec := { s.sec with served := 0, seeded := s.time } } : State).incWrap (secPage + 0x68)
    else s)

/-! Boundary scan (18 R531, R532) -/

/-- The die of a test access port, by its place in the chain from TDI to TDO (R531). -/
def tapDie (port : Fin 28) : Nat := if port.val < 4 then 24 + port.val else port.val - 4

/-- The IDCODE of the port of a die (R531). -/
def tapIdcode (die : Nat) : Word := if die < 24 then 0x0C49074B else 0x0C49174B

/-- The data register that a port shows while no boundary instruction is in force: its IDCODE. -/
def State.tapShows (s : State) (port : Fin 28) : Option Word := if s.jtag = .idcode then some (tapIdcode (tapDie port)) else none

/-- TAP_RESET: five cycles of TCK with TMS at 1. RESET_N does not reach the ports. -/
def execTapReset (s : State) : Host.Outcome State Fault Refusal := done { s with jtag := .idcode }

/-- EXTEST, CLAMP or HIGHZ comes into force (1 to 3); 0 is IDCODE. -/
def execExtest (mode : Fin 4) (s : State) : Host.Outcome State Fault Refusal :=
  done { s with jtag := match mode with | 0 => .idcode | 1 => .extest | 2 => .clamp | 3 => .highz }

end Sys2Proof.Machine
end

