-- ==== Sys2Proof/Machine/RegRead.lean ====
section
/-! DEFINITION. What a control register reads as (17 R507, R512 and each block's register table): most registers hold their
value in State.regs; the rest show other state of the block and are computed here. Clock-cycle counts read as free values
(assumption 1). -/
namespace Sys2Proof.Machine

/-- Page 0 of the unit of a key, which holds the common header: a scheduler's four pages share one (17 R508). -/
def headPage (b : Blk) (k : Nat) : Nat :=
  if b = .tsn then pageAt (keyDie k) (keyUnit k) 0 else pageAt (keyDie k) (keyUnit k) (keyPage k)

/-- Where the value of a register is held: every governor page shows die 24's, and every clock-and-time page shows the time
that die 24 keeps (13 R421, R430; 16 R499). -/
def homeKey (b : Blk) (k : Nat) : Nat :=
  match b with
  | .gov => if keyOff k < 0x40 then k else govPage + keyOff k
  | .time => if 0x44 ≤ keyOff k ∧ keyOff k < 0x80 ∧ keyOff k ≠ 0x4C then timePage 24 + keyOff k else k
  | _ => k

/-! BLK_STATUS (17 R512; 16 R495 to R497) -/

/-- PENDING_OFF: OFF was requested last and has not been reached. -/
def BlkPower.pendingOff (p : BlkPower) : Bool := !p.want && (p.on || p.moving)

/-- Whether a block is on and serving. -/
def BlkPower.ready (p : BlkPower) : Bool := p.on && !p.moving

/-- READY, PENDING_ON, PENDING_OFF and STATE of a page. A scratchpad in retention shows RETAINED; no other chapter names a
STATE value, and its page keeps 0 (06 R194, R195). -/
def State.powerBits (s : State) (b : Blk) (page : Nat) : Nat :=
  let p := s.blk page
  if b = .spad then
    let c := s.core (keyCore page)
    let retain := s.bit (page + 0x44) 0
    let held := decide (c.retention = .retained) || decide (c.retention = .waking)
    b2n (p.ready && !held) + 4 * b2n (p.pendingOn || (c.wake && !retain))
      + 8 * b2n (p.pendingOff || (retain && (decide (c.retention = .entering) || decide (c.retention = .waking))))
      + 16 * (if c.retention = .retained then 4 else 0)
  else b2n p.ready + 4 * b2n p.pendingOn + 8 * b2n p.pendingOff

/-- BLK_STATUS: BUSY stays 0, since no chapter defines it. -/
def State.blkStatus (s : State) (b : Blk) (page : Nat) : Nat :=
  s.powerBits b page + 256 * b2n (decide (s.fld (page + 0x18) 0 16 ≠ 0)) + 512 * b2n (decide (s.fld (page + 0x1C) 0 16 ≠ 0))

/-! Core pages -/

/-- The number of a sequencer's state (04 R151). -/
def SeqState.code : SeqState → Nat
  | .idle => 0 | .running => 1 | .stopping => 2 | .stopped => 3 | .halted => 4 | .faulted => 5 | .saving => 6 | .restoring => 7

/-- SEQ_STATE (04 R154). -/
def Core.seqState (c : Core) : Nat :=
  c.st.code + 16 * b2n (decide (c.stall = .wait)) + 2 ^ 8 * c.ctr 0 + 2 ^ 12 * c.ctr 1 + 2 ^ 16 * c.ctr 2 + 2 ^ 20 * c.ctr 3
    + 2 ^ 24 * b2n c.pendStart

/-- ARR_QUEUE or JIB_QUEUE of unit u (02 R93). -/
def Core.unitQueue (c : Core) (u : Nat) : Nat :=
  (c.unit u).jobs.length + 2 ^ 16 * (match (c.unit u).jobs, (c.unit u).run with | j :: _, some _ => (j.desc 0).passId | _, _ => 0)

/-- ARR_FUSE: the fused row, 0 to 32, and column, 0 to 8 (02 R94). -/
def arrFuse (k : Nat) : Nat :=
  let x := (Config.fused k).toNat
  bits x 0 1 + 2 * (bits x 1 6 % 33) + 2 ^ 7 * bits x 7 1 + 2 ^ 8 * (bits x 8 4 % 9)

/-- SPAD_STAT (06 R215). -/
def Core.spadStat (c : Core) : Nat :=
  b2n c.zeroing + 2 * b2n (decide (c.rlbOp ≠ 0)) + 4 * b2n (decide (c.retention = .retained))

/-- NI_QUEUE (07 R268). -/
def Core.niQueue (c : Core) : Nat := c.jobs.length + 2 ^ 5 * (c.jobs.filter (fun j => j.started)).length

/-- COL_STAT (10 R342, 11 R375). SHROUDED reads 1 in EMPTY, and so right after reset too, where the Reset column has 0 (DESIGN CHOICE,
assumption 88). -/
def State.colStat (s : State) (n : Nat) : Nat :=
  let c := s.core n
  b2n (decide ((s.region (collarRegion n)).st = .running)) + 2 * b2n (s.shrouded n) + 2 ^ 2 * c.ob0.length + 2 ^ 6 * c.ob1.length
    + 2 ^ 10 * c.ib0.length + 2 ^ 14 * c.ib1.length

/-- The number of a region's state (11 R375). -/
def RegionState.code : RegionState → Nat
  | .empty => 0 | .loading => 1 | .releasing => 2 | .running => 3 | .failed => 4

/-- SHR_STATE (11 R375). -/
def Region.show (r : Region) : Nat := r.st.code + 2 ^ 4 * r.loader + 2 ^ 16 * r.err.toNat

/-- Reads half k of a 64-bit count of clock cycles held from key `base` on: while what it counts goes on, a free number of
cycles has passed since the last read (assumption 67). -/
def State.timed (s : State) (goes : Bool) (base k : Nat) : State × Word :=
  let s1 := if goes then s.draw.2.inc64 base s.draw.1 else s
  (s1, s1.reg k)

/-- Whether bank conflicts can have arisen in a scratchpad: a sequencer, a unit, a transfer or the scrubber reaches it. -/
def State.spadBusy (s : State) (n : Nat) : Bool :=
  let c := s.core n
  decide (c.st ≠ .idle) || !c.u0.jobs.isEmpty || !c.u1.jobs.isEmpty || !c.u2.jobs.isEmpty || !c.jobs.isEmpty
    || s.bit (corePage n 5 + 0x60) 0

/-- A register of a core page that shows other state; none where it is held as it reads. -/
def State.readCore (s : State) (b : Blk) (n off k : Nat) : Option (State × Word) :=
  let c := s.core n
  let w := fun (x : Nat) => some (s, (BitVec.ofNat 32 x : Word))
  match b with
  | .seq =>
    if off = 0x44 then w c.seqState else if off = 0x48 then w c.pc.toNat
    else if off = 0x70 ∨ off = 0x74 then some (s.timed (decide (c.st ≠ .idle)) (k / 4096 * 4096 + 0x70) k) else none
  | .arr =>
    if off = 0x44 then w (c.unitQueue (keyPage k - 1)) else if off = 0x60 then w (arrFuse k)
    else if off = 0x74 ∨ off = 0x78 then some (s.timed (!(c.unit (keyPage k - 1)).jobs.isEmpty) (k / 4096 * 4096 + 0x74) k) else none
  | .jib =>
    if off = 0x44 then w (c.unitQueue 2)
    else if off = 0x74 ∨ off = 0x78 then some (s.timed (!c.u2.jobs.isEmpty) (k / 4096 * 4096 + 0x74) k) else none
  | .vec => if off = 0x40 then w c.vf.toNat else none
  | .spad => if off = 0x48 then w c.spadStat else if off = 0x4C ∨ off = 0x50 then some (s.timed (s.spadBusy n) (k / 4096 * 4096 + 0x4C) k) else none
  | .rtr => if off = 0x48 then w ((s.reg k).toNat % 2 ^ 16 + 2 ^ 16 * s.oldHeld n) else none
  | .col =>
    if off = 0x44 then w (s.region (collarRegion n)).show else if off = 0x48 then w (s.niTenant n).toNat
    else if off = 0x84 then w (s.colStat n)
    else if off = 0x9C then
      (if c.tapQ = [] ∧ s.reg (k - 4) = 0 then none else some (let s1 := s.draw.2.incSat k s.draw.1; (s1, s1.reg k)))
    else none
  | .ni => if off = 0x54 then w c.niQueue else none
  | _ => none

/-! Die pages -/

/-- The number of a suspect entry's state (08 R301). -/
def SuspectState.code : SuspectState → Nat
  | .free => 0 | .opened => 1 | .failed => 2 | .closed => 3

/-- Word w of a suspect entry. -/
def Suspect.word (x : Suspect) (w : Nat) : Nat :=
  match w with
  | 0 => x.suspect.toNat + 2 ^ 12 * x.st.code + 2 ^ 14 * b2n x.self + 2 ^ 16 * x.accusers.toNat + 2 ^ 20 * min 255 x.count
  | 1 => x.codeFirst.toNat + 2 ^ 16 * x.codeLast.toNat
  | 2 => x.firstTime.toNat % 2 ^ 32
  | _ => x.firstTime.toNat / 2 ^ 32

/-- How many entries of a health controller have a state. -/
def Hc.countOf (h : Hc) (st : SuspectState) : Nat := ((List.range 16).filter (fun e => decide ((h.entry e).st = st))).length

/-- Registers of a health-controller page. -/
def State.readHc (s : State) (d off : Nat) : Option Nat :=
  let h := s.hcAt d
  if off = 0x44 then some (b2n h.storm + 2 ^ 4 * h.countOf .opened + 2 ^ 9 * h.countOf .failed)
  else if 0x80 ≤ off ∧ off < 0x180 then some ((h.entry ((off - 0x80) / 16)).word ((off - 0x80) % 16 / 4))
  else none

/-- Registers of a clock-and-time page: a read of TIME_NOW_LO latches the high half (13 R430); the island registers show the
selected core (16 R504). -/
def State.readTime (s : State) (die off : Nat) : Option (State × Word) :=
  let sel := die * 2112 + s.fld (timePage die + 0x80) 0 12
  let w := fun (x : Nat) => some (s, (BitVec.ofNat 32 x : Word))
  if off = 0x48 then some (s.setReg (timePage die + 0x4C) ((s.time >>> 32).setWidth 32), s.time.setWidth 32)
  else if 24 ≤ die then none
  else if off = 0x84 then w (s.clk sel)
  else if off = 0x88 then w (s.eff sel)
  else if off = 0x8C then w (s.clkLim sel)
  else none

/-- Whether a core counts as live for its die's agent. -/
def State.liveCore (s : State) (n : Nat) : Bool := decide (Sparse.get (fun _ => CoreMark.serving) s.marks n ≠ .removed)

/-- The banks of a router are armed and its interface has stamped the armed bit. -/
def Core.flipped (c : Core) : Bool :=
  (decide (c.rt1 = .armed) && decide (c.ni1 = .armed)) || (decide (c.rt0 = .armed) && decide (c.ni0 = .armed))

/-- AGT_EPOCH (07 R270): ALL_ARMED, ALL_FLIPPED and REFUSED over the live routers and interfaces of a compute die, or the
taps of an edge die. -/
def State.agtEpoch (s : State) (die : Nat) : Nat :=
  if die < 24 then
    let l := (List.range 2112).map (fun i => die * 2112 + i)
    b2n (l.all (fun n => !s.liveCore n || s.bit (rtrPage n + 0x48) 3)) + 2 * b2n (l.all (fun n => !s.liveCore n || (s.core n).flipped))
      + 4 * b2n (s.regs.any (fun p => decide (keyDie p.1 = die) && decide (keyUnit p.1 < 2112) && decide (keyPage p.1 = 7)
          && decide (keyOff p.1 = 0x10) && p.2.getLsbD 3))
  else
    let t := s.tap (die - 24)
    b2n t.armed + 2 * b2n (decide (t.stamp = t.next) && (decide (t.b0 = .armed) || decide (t.b1 = .armed)))

/-! Edge pages -/

/-- The key that holds a register of a recorder page for the selected tenant (08 R303), and the ring's own registers. -/
def State.readRec (s : State) (e off : Nat) : Option Nat :=
  if off < 0x48 then none
  else
    let t := s.fld (recPage e + 0x40) 0 6
    let tn := s.tenant t
    let r := if tn.live && decide (tn.res.home.val = e) then tn.ring else Ring.empty
    if off = 0x54 then some r.head else if off = 0x58 then some r.tail else if off = 0x5C then some r.seq.toNat
    else if off = 0x64 then some r.written
    else some (s.reg (recKey e t off)).toNat

/-- Registers of a halyard page: the oldest entry of the clamp log (11 R372). -/
def State.readHal (s : State) (e off : Nat) : Option Nat :=
  let h := s.halAt e
  match h.log with
  | c :: _ =>
    if off = 0x6C then some (c.region.toNat + 2 ^ 24 * c.code + 2 ^ 30 * b2n h.overflow + 2 ^ 31)
    else if off = 0x70 then some (c.frame % 2 ^ 16 + 2 ^ 16 * (c.bit % 2 ^ 11))
    else none
  | [] => if off = 0x6C ∨ off = 0x70 then some 0 else none

/-- Registers of an edge shroud page (11 R375). -/
def State.readShr (s : State) (e off : Nat) : Option Nat :=
  if 0x100 ≤ off ∧ off < 0x300 ∧ off % 0x20 = 4 then some (s.region (edgeRegion e ((off - 0x100) / 0x20))).show else none

/-- The number of a session's state (14 R464). -/
def SessState.code : SessState → Nat
  | .none => 0 | .open_ => 1 | .lost => 2 | .closing => 3

/-- Registers of an engine page for the selected tenant (14 R464); they show a session on its home die alone. -/
def State.readUbx (s : State) (e off : Nat) : Option Nat :=
  if off < 0x48 then none
  else
    let t := s.fld (edgePage e 0xF030 + 0x40) 0 6
    let tn := s.tenant t
    let x := if tn.live && decide (tn.res.home.val = e) then tn.sess else Session.closed
    match off with
    | 0x48 => some (x.st.code + 2 ^ 8 * x.version.toNat + 2 ^ 16 * portNo x.port)
    | 0x4C => some x.id.toNat
    | 0x50 => some x.expect.toNat
    | 0x54 => some x.credit.toNat
    | 0x5C => some x.txSeq.toNat
    | 0x60 => some x.unack.length
    | _ => some (s.reg (ubxKey e t off)).toNat

/-- SEC_STAT (15 R482). -/
def Sec.stat (x : Sec) : Nat :=
  b2n x.entOk + 2 * b2n x.ready + 4 * b2n x.commit.isSome + 8 * b2n x.importing.isSome + 16 * b2n x.owner.isSome
    + 32 * b2n x.revokedA + 64 * b2n x.revokedB + 2 ^ 8 * x.fwKey

/-- SEC_SLOT_STAT of a slot. -/
def Sec.slotStat (x : Sec) (slot : Nat) : Nat :=
  (List.range 4).foldl (fun v an => v + 2 ^ an * b2n (Sparse.get (fun _ => KeyAn.empty) x.keys (slot * 4 + an)).loaded) 0
    + 2 ^ 4 * (Sparse.get (fun _ => 0) x.txAn slot - 1)

/-- Registers of the security page. -/
def State.readSec (s : State) (off : Nat) : Option Nat :=
  let x := s.sec
  if off = 0x40 then some x.stat
  else if off = 0x50 then some (x.svnFw % 256 + 2 ^ 8 * (x.svnStatic % 256) + 2 ^ 16 * (x.svnShell % 256))
  else if off = 0x54 then some (min 255 x.loadedFw + 2 ^ 8 * min 255 x.loadedStatic + 2 ^ 16 * min 255 x.shellSvn)
  else if off = 0x60 then some (x.slotStat (s.fld (secPage + 0x58) 0 6))
  else if 0x200 ≤ off ∧ off < 0x2C0 then some (Config.fused (secPage + off)).toNat
  else none

/-- The number of a channel's state (12 R398). -/
def ChanState.code : ChanState → Nat
  | .untrained => 0 | .training => 1 | .active => 2 | .selfRefresh => 3 | .offline => 4

/-- Registers of an LPDDR channel page. The queued lines and INORDER of LPD_STAT depend on the order of service and are free
once the channel is trained (assumption 67). -/
def State.readLpd (s : State) (ch off : Nat) : Option (State × Word) :=
  let k := lpdPage ch + off
  let idle := decide ((s.chan ch).st = .untrained)
  if off = 0x40 then
    let v := setBits (s.reg k).toNat 0 3 (s.chan ch).st.code
    if idle then some (s, BitVec.ofNat 32 v)
    else
      let x := s.draw.1
      some (s.draw.2, BitVec.ofNat 32 (setBits (setBits (setBits v 5 1 x) 16 7 (x / 2 % 65)) 23 7 (x / 130 % 65)))
  else none

/-- The number of a lane's state (13 R426). -/
def LaneState.code : LaneState → Nat
  | .off => 0 | .starting => 1 | .on => 2 | .light => 3 | .deep => 4 | .entering => 5

/-- LQ_STAT of a lane: LOCK reads 1 in ON alone (13 R408, R426). -/
def Lane.stat (l : Lane) : Nat :=
  l.st.code + 8 * b2n (l.lock && decide (l.st = .on)) + 16 * b2n (l.moving && decide (l.want < l.goal))
    + 32 * b2n (l.moving && decide (l.goal < l.want)) + 64 * b2n l.scan + 128 * b2n l.prbs

/-- Registers of a lane-quad page of edge die 24 + e. -/
def State.readLq (s : State) (e q off : Nat) : Option Nat :=
  if 0x100 ≤ off ∧ off < 0x200 ∧ off % 0x40 = 4 then some (s.lane (e * 16 + q * 4 + (off - 0x100) / 0x40)).stat else none

/-- A register of a page beyond the cores that shows other state. -/
def State.readDie (s : State) (b : Blk) (off k : Nat) : Option (State × Word) :=
  let die := keyDie k
  let e := die - 24
  let w := fun (x : Option Nat) => x.map (fun v => (s, (BitVec.ofNat 32 v : Word)))
  match b with
  | .hc => w (s.readHc die off)
  | .time => s.readTime die off
  | .agt => if off = 0x40 then w (some (s.agtEpoch die)) else none
  | .recd => w (s.readRec e off)
  | .hal => w (s.readHal e off)
  | .shr => w (s.readShr e off)
  | .ubx => w (s.readUbx e off)
  | .sec => w (s.readSec off)
  | .lpd => s.readLpd (e * 24 + (keyUnit k - 0xF100)) off
  | .lq => w (s.readLq e (keyUnit k - 0xF200) off)
  | _ => none

/-- Reads one register: its value, and the state after the side effects of the read. An offset that no table lists reads 0
(17 R21). COL_RDATA answers later and is read by State.colRead. -/
def State.readReg (s : State) (k : Nat) : State × Word :=
  match keyBlk k with
  | none => (s, 0)
  | some b =>
    let off := blkOff b k
    if off = 0x0C then (s, BitVec.ofNat 32 (s.blkStatus b (headPage b k)))
    else if off < 0x40 then (s, s.reg k)
    else if (b.find (keyDie k) off).isNone ∧ b ≠ .sec then (s, 0)
    else
      match (if keyDie k < 24 ∧ keyUnit k < 2112 then s.readCore b (keyCore k) off k else s.readDie b off k) with
      | some r => r
      | none => (s, s.reg (homeKey b k))

/-- Reads 4 or 8 bytes. -/
def State.readCtl (s : State) (k : Nat) (wide : Bool) : State × Dword :=
  let lo := s.readReg k
  if wide then
    let hi := lo.1.readReg (k + 4)
    (hi.1, hi.2 ++ lo.2)
  else (lo.1, lo.2.setWidth 64)

end Sys2Proof.Machine
end

