-- ==== Sys2Proof/Machine/RegWrite.lean ====
section
/-! DEFINITION. What a write of a control register does (00 R17 to R22; 17 R511 to R514 and each block's register table), block
power transitions (16 R495 to R498) and SOFT_RESET (R22). -/
namespace Sys2Proof.Machine

/-! Fields (00 R17 to R19) -/

/-- A value with a clamp applied, and how many clamps have been. -/
def Clamp.apply (x : Nat × Nat) (c : Clamp) : Nat × Nat :=
  let f := bits x.1 c.lsb c.width
  if c.lo ≤ f ∧ f ≤ c.hi then (setBits x.1 c.lsb c.width c.dest, x.2 + 1) else x

/-- The value a register takes when v is written: RW fields take it subject to their clamps, a 1 clears a W1C bit, all else
stays. With it the number of clamps. -/
def RegSpec.written (r : RegSpec) (old v : Word) : Word × Nat :=
  let rw := BitVec.ofNat 32 r.rw
  let c := r.clamps.foldl Clamp.apply (((old &&& ~~~rw) ||| (v &&& rw)).toNat, 0)
  (BitVec.ofNat 32 c.1 &&& ~~~(v &&& BitVec.ofNat 32 r.w1c), c.2)

/-- Records clamps. -/
def State.clamps (s : State) (page off n : Nat) : State := (List.range n).foldl (fun (s : State) _ => s.clampAt page off) s

/-- A write that acts on the register's fields alone. -/
def State.writeFields (s : State) (b : Blk) (k : Nat) (v : Word) : State :=
  match b.find (keyDie k) (blkOff b k) with
  | none => s
  | some r => ((s.clamps (headPage b k) (blkOff b k) (r.written (s.reg k) v).2)).setReg k (r.written (s.reg k) v).1

/-- A write of an interrupt register: an enable may let the page's output rise. -/
def State.writeIrq (s : State) (b : Blk) (k : Nat) (v : Word) : State :=
  let s1 := s.writeFields b k v
  if b = .hc then State.hcRise s s1 (keyDie k) else State.irqRise s s1 (headPage b k)

/-! SOFT_RESET (00 R22) -/

/-- The sequencer's state after SOFT_RESET of its page (04 R122, R145): completions of descriptors issued before it are not
counted, and answers that are still to come, to a CLR or a memory-plane read, are discarded. Stores that have left still
await their acknowledgement. -/
def Core.seqReset (c : Core) : Core :=
  let un := fun (u : MatUnit) => { u with jobs := u.jobs.map (fun j => { j with counted := false }) }
  { c with
    g := [], a := [], m := [], base := [], len := [], mode := 0, v := [], p := 1, cnt := [], loops := [], loopBuf := [], pc := 0, pcOut := none,
    rotG := 0, rotV := 0, vl := 32, vf := 0, st := .idle, back := .idle, after := .stopped, pendStart := false, pendSave := false,
    ctx := none, stall := .none, events := [], stepping := false, seqReads := c.dropReads,
    u0 := un c.u0, u1 := un c.u1, u2 := un c.u2, jobs := c.jobs.map (fun j => { j with counted := false }),
    colReads := c.colReads.map (fun q => match q with | .seq _ => .dropped | x => x) }

/-- SOFT_RESET of a matrix unit's page: its descriptors end without result, record or further tap beat and count as
completed (02 R91). -/
def Core.unitReset (c : Core) (u : Nat) : Core :=
  let d := (c.unit u).jobs.foldl (fun (c : Core) j => c.countDown j.ctr.val j.counted) (c.setUnit u MatUnit.empty)
  { d with tapQ := d.tapQ.filter (fun b => decide (u = 2) || decide (b.unit ≠ decide (u = 1))) }

/-- The number of the matrix unit of a page. -/
def unitOfPage (page : Nat) : Nat := if page = 3 then 2 else page - 1

/-- The tenants whose home engine an edge die is. -/
def State.homedOn (s : State) (e : Nat) : List Nat := s.liveTenants.filter (fun t => decide ((s.tenant t).res.home.val = e))

/-- The registers that a page shows per tenant take their reset values. -/
def State.bankedReset (s : State) (base e : Nat) : State :=
  { s with regs := s.regs.filter (fun p => decide (p.1 < base + e * 2 ^ 32) || decide (base + (e + 1) * 2 ^ 32 ≤ p.1)) }

/-- SOFT_RESET of a core page beside the registers. That of the network interface drops its transfers and leaves their completion
counters as they are (DESIGN CHOICE, assumption 91). -/
def State.coreReset (s : State) (b : Blk) (n page : Nat) : State :=
  match b with
  | .seq => s.modCore n Core.seqReset
  | .arr => s.modCore n (fun c => c.unitReset (unitOfPage page))
  | .jib => s.modCore n (fun c => c.unitReset 2)
  | .vec => s.modCore n (fun c => { c with vf := 0 })
  | .rtr => s.modCore n (fun c => { c with rt0 := .spare, rt1 := .spare, links := [] })
  | .ni => s.modCore n (fun c => { c with ni0 := .spare, ni1 := .spare, jobs := [], outst := [], unsent := [] })
  | .col =>
    ((s.modCore n (fun c => { c with ob0 := [], ob1 := [], ib0 := [], ib1 := [] })).setReset (collarRegion n)).setRegion (collarRegion n) Region.reset
  | _ => s

/-- SOFT_RESET of a page beyond the cores, beside the registers. -/
def State.dieReset (s : State) (b : Blk) (die unit : Nat) : State :=
  let e := die - 24
  match b with
  | .hc => s.setHc die Hc.reset
  | .time =>
    let s1 : State := { s with clkSet := s.clkSet.filter (fun p => decide (24 ≤ die) || decide (p.1 / 2112 ≠ die)) }
    s1
  | .agt => if 24 ≤ die then s.setTap e { (s.tap e) with down := [], links := [] } else s
  | .recd => (s.homedOn e).foldl (fun (s : State) t => s.setTenant t { (s.tenant t) with ring := .empty }) (s.bankedReset (2 ^ 41) e)
  | .hal =>
    let s1 := [true, false].foldl (fun (s : State) b => s.truncate ⟨⟨e % 4, Nat.mod_lt _ (by decide)⟩, b⟩) s
    s1.setHal e { (s1.halAt e) with log := [], overflow := false, bytes := [] }
  | .shr => (List.range 16).foldl (fun (s : State) r => (s.setReset (edgeRegion e r)).setRegion (edgeRegion e r) Region.reset) s
  | .ubx => (s.homedOn e).foldl (fun (s : State) t => s.setSess t .closed) (s.bankedReset (2 ^ 40) e)
  | .sec => (({ s with sec := s.sec.afterReset s.draw.1, freeCtr := s.freeCtr + 1 } : State).setReady 2 false)
  | .gov => { s with ceilHalf := false }
  | .lpd => s.setChan (e * 24 + (unit - 0xF100)) ChanRun.reset
  | .lq =>
    (List.range 4).foldl (fun (s : State) j =>
      let k := e * 16 + (unit - 0xF200) * 4 + j
      let s1 := match modeSub (s.mode (lanePort k)) j with | some u => s.subDown (lanePort k) u | none => s
      s1.setLane k Lane.reset) s
  | .mac => s.modeTo (e * 4 + (unit - 0xF210)) 0
  | .mmac => if s.bit (mmacPage + 0x44) 0 then s.setReady 15 false else s
  | .tsn => s.setPort (e * 4 + (unit - 0xF220)) { (s.port (e * 4 + (unit - 0xF220))) with committed := [], excess := [], seen := [], swapAt := none }
  | _ => s

/-- The fields that only RESET_N returns: the readiness map (16 R499). -/
def keptField (b : Blk) (page : Nat) : Option (Nat × Nat) :=
  match b with
  | .gov => if page = govPage then some (page + 0x70, 0xFFFFFFFF) else none
  | _ => none

/-- SOFT_RESET of a block (R22): the block's own reset behaviour, and its registers at their reset values. -/
def State.blkReset (s : State) (b : Blk) (page : Nat) : State :=
  if b = .spad then s.spadReset (keyCore page)
  else
    let s1 := if keyDie page < 24 ∧ keyUnit page < 2112 then s.coreReset b (keyCore page) (keyPage page)
      else s.dieReset b (keyDie page) (keyUnit page)
    let s2 := s1.pageReset page
    let s3 := if b = .tsn then (List.range 3).foldl (fun (s : State) i =>
      { s with regs := s.regs.filter (fun p => decide (p.1 < page + 4096 * (i + 1)) || decide (page + 4096 * (i + 2) ≤ p.1)) }) s2 else s2
    let s4 := match keptField b page with
      | some (k, m) => s3.setReg k (s1.reg k &&& BitVec.ofNat 32 m)
      | none => s3
    if b = .gov then State.pins s s4 else s4

/-- SOFT_RESET is written: during a transition it waits for the end (16 R498). -/
def State.softReset (s : State) (b : Blk) (page : Nat) : State :=
  let p := s.blk page
  let r := (s.core (keyCore page)).retention
  if p.moving || (decide (b = .spad) && (decide (r = .entering) || decide (r = .waking))) then s.setBlk page { p with resetDue := true }
  else s.blkReset b page

/-! Power transitions (16 R496, R497) -/

/-- ENABLE is written. A request that arrives during a transition waits for its end; the last request counts. -/
def BlkPower.request (p : BlkPower) (on : Bool) : BlkPower :=
  let q := { p with want := on, pendingOn := on && (p.pendingOn || p.pendingOff) }
  if p.moving || decide (p.on = on) then { q with pendingOn := q.pendingOn && p.moving } else { q with moving := true }

/-- A transition ends: the block is ON or OFF, a SOFT_RESET that waited drops a waiting request, and a state that differs
from the one requested last starts the next transition. -/
def BlkPower.arrives (p : BlkPower) : BlkPower :=
  let on := !p.on
  if p.resetDue then { on := on, moving := false, want := on, pendingOn := false, resetDue := false }
  else { on := on, moving := decide (p.want ≠ on), want := p.want, pendingOn := p.pendingOn && p.want && !on, resetDue := false }

/-- A request for ON or OFF. -/
def State.requestPower (s : State) (page : Nat) (on : Bool) : State :=
  (s.setReg (page + 8) (BitVec.ofNat 32 (b2n on))).setBlk page ((s.blk page).request on)

/-- A block's transition ends. -/
def State.powerEnds (s : State) (b : Blk) (page : Nat) : State :=
  let p := s.blk page
  if !p.moving then s
  else
    let s1 := s.setBlk page p.arrives
    if p.resetDue then s1.blkReset b page else s1

/-- A write of BLK_CTRL: SOFT_RESET acts first and leaves ENABLE, which then takes its value. -/
def State.writeCtrl (s : State) (b : Blk) (page : Nat) (v : Word) : State :=
  (if v.getLsbD 1 then s.softReset b page else s).requestPower page (v.getLsbD 0)

/-! Core pages -/

/-- SEQ_CTRL.STEP: the next bundle issues, and the sequencer then stops (04 R151). -/
def Core.stepBegin (c : Core) : Core :=
  if c.st.held then { c with st := .running, stall := .none, stepping := true } else c

/-- A write of SEQ_CTRL; one with more than one bit set has no effect (04 R151). -/
def State.writeSeqCtrl (s : State) (n v : Nat) : State :=
  match v % 32 with
  | 1 => s.modCore n Core.start
  | 2 => s.modCore n Core.stop
  | 4 => s.modCore n Core.stepBegin
  | 8 => s.saveCmd n
  | 16 => s.restoreCmd n
  | _ => s

/-- A write of SEQ_PC, ignored in RUNNING and STOPPING (04 R154). -/
def Core.writePc (c : Core) (v : Nat) : Core :=
  if c.st = .running ∨ c.st = .stopping then c else { c with pc := BitVec.ofNat 20 (v / 16 * 16), pcOut := none }

/-- A write of SPAD_CTRL; one with more than one bit set has no effect (06 R215). -/
def State.writeSpadCtrl (s : State) (n v : Nat) : State :=
  match v % 8 with
  | 1 => s.spadZero n
  | 2 => s.modCore n (fun d => { d with rlbOp := max 1 d.rlbOp })
  | 4 => s.modCore n (fun d => { d with rlbOp := max 2 d.rlbOp })
  | _ => s

/-- The bank of a route or interface register, if it has one, is SPARE or the register has none (07 R246). -/
def State.bankOpen (s : State) (n k : Nat) : Bool :=
  match bankTwin k with
  | none => true
  | some (b, _) =>
    let c := s.core n
    decide ((if keyPage k = 7 then (if b = 0 then c.rt0 else c.rt1) else (if b = 0 then c.ni0 else c.ni1)) = .spare)

/-- The slots of an RTR_SLOT word: IN_PORT 5 to 7 sets VALID 0 (07 R264). With it the number of such slots. -/
def slotWord (v : Nat) : Nat × Nat :=
  (List.range 8).foldl (fun x i => if 5 ≤ bits v (4 * i) 3 then (setBits x.1 (4 * i + 3) 1 0, x.2 + 1) else x) (v, 0)

/-- A write of a bank register of a router or interface. -/
def State.writeBank (s : State) (b : Blk) (n k : Nat) (v : Word) : State :=
  if s.bankOpen n k = false then s.clampAt (headPage b k) (keyOff k)
  else if b = .rtr ∧ 0x400 ≤ keyOff k then
    (s.clamps (headPage b k) (keyOff k) (slotWord v.toNat).2).writeFields b k (BitVec.ofNat 32 (slotWord v.toNat).1)
  else s.writeFields b k v

/-- A write of RTR_EPOCH: ARM, then RETIRE. -/
def State.writeRtrEpoch (s : State) (n : Nat) (v : Word) : State :=
  let s1 := if v.getLsbD 0 then s.rtrArm n else s
  if v.getLsbD 1 then s1.rtrRetire n else s1

/-- A write of NI_EPOCH: HOLD, then FLIP, then RETIRE. -/
def State.writeNiEpoch (s : State) (n : Nat) (v : Word) : State :=
  let s1 := s.setFld (niPage n + 0x44) 2 1 (b2n (v.getLsbD 2))
  let s2 := if v.getLsbD 0 then s1.niFlip n else s1
  if v.getLsbD 1 then s2.niRetire n else s2

/-- A write of COL_CFG: it takes effect while the collar is shrouded or holds no image (10 R342). -/
def State.writeColCfg (s : State) (n k : Nat) (v : Word) : State :=
  if s.shrouded n || !s.collarLoaded n then s.writeFields .col k v else s.clampAt (colPage n) 0x80

/-- A write of a register of a core page from 0x040 on. -/
def State.writeCore (s : State) (b : Blk) (k : Nat) (v : Word) : State :=
  let n := keyCore k
  let off := keyOff k
  match b with
  | .seq =>
    if off = 0x40 then s.writeSeqCtrl n v.toNat else if off = 0x48 then s.modCore n (fun c => c.writePc v.toNat)
    else s.writeFields b k v
  | .vec => if off = 0x40 then s.modCore n (fun c => { c with vf := c.vf &&& ~~~(v.setWidth 5) }) else s.writeFields b k v
  | .spad =>
    if off = 0x40 then s.writeSpadCtrl n v.toNat else if off = 0x44 then s.setRetain n (v.getLsbD 0) else s.writeFields b k v
  | .rng => if off = 0x60 then (if v.getLsbD 0 then s.rekey n else s) else s.writeFields b k v
  | .rtr =>
    if off = 0x48 then s.writeRtrEpoch n v else if off = 0x6C then s.raisePorts n (v.toNat % 16) else s.writeBank b n k v
  | .col =>
    if off = 0x40 then (if v.getLsbD 0 then s.shrClear (collarRegion n) 0x40 else s)
    else if off = 0x80 then s.writeColCfg n k v
    else if off = 0x8C then s.colWrite n v
    else s.writeFields b k v
  | .ni => if off = 0x44 then s.writeNiEpoch n v else s.writeBank b n k v
  | _ => s.writeFields b k v

/-- Whether a table lists the register of a key (00 R21). -/
def listed (b : Blk) (k : Nat) : Bool := (b.find (keyDie k) (blkOff b k)).isSome || decide (b = .sec)

/-- A write of any register of a core page. -/
def State.writeCorePage (s : State) (b : Blk) (k : Nat) (v : Word) : State :=
  let off := keyOff k
  if off = 8 then s.writeCtrl b (headPage b k) v
  else if off = 0x18 ∨ off = 0x1C then s.setReg k (halvesCleared (s.reg k) v)
  else if off < 0x40 then s.writeIrq b k v
  else if listed b k then s.writeCore b k v
  else s

/-! Die pages -/

/-- A write of CLK_SET: the selected island (16 R504). -/
def State.writeClkSet (s : State) (die v : Nat) : State :=
  let r := clkClamp v
  let s1 := s.setClk (die * 2112 + s.fld (timePage die + 0x80) 0 12) r.1
  if r.2 then s1.clampAt (timePage die) 0x84 else s1

/-- A write of AGT_DRAIN_CTRL: BIT, and SAMPLE (07 R270). -/
def State.writeDrain (s : State) (die : Nat) (v : Word) : State :=
  if v.getLsbD 0 then s.drainStart die (v.getLsbD 1) else s.setFld (agtPage die + 0x44) 1 1 (b2n (v.getLsbD 1))

/-- A write of AGT_BCAST_DATA: with ENABLE = 1 the word is written at the set offset in the set page of every live core unit
of the die, where firmware may write it (07 R270). -/
def State.broadcast (s : State) (die : Nat) (v : Word) : State :=
  let page := s.fld (agtPage die + 0x50) 0 4
  let off := s.fld (agtPage die + 0x54) 0 12
  if s.bit (agtPage die + 0x50) 4 ∧ die < 24 then
    (List.range 2112).foldl (fun (s : State) i =>
      let k := pageAt die i page + off
      match keyBlk k with
      | some b => if s.liveCore (die * 2112 + i) && s.mayWrite .firmware k then s.writeCorePage b k v else s
      | none => s) s
  else s

/-! Edge pages -/

/-- A write of REC_BASE or REC_SIZE: it takes effect while the selected tenant has no ring in use (08 R303). -/
def State.writeRing (s : State) (e off : Nat) (v : Word) : State :=
  let t := s.fld (recPage e + 0x40) 0 6
  let tn := s.tenant t
  let here := tn.live && decide (tn.res.home.val = e)
  if here && decide (tn.ring.size ≠ 0) then s.clampAt (recPage e) off
  else
    let w : Word := if off = 0x48 then v &&& 0xFFFF0000 else if off = 0x50 then v &&& 0xFFFF else v
    let s1 := s.setReg (recKey e t off) w
    if here then
      s1.setTenant t { tn with ring := { tn.ring with base := (s1.reg64 (recKey e t 0x48)).toNat, size := (s1.reg (recKey e t 0x50)).toNat * 2 ^ 20 } }
    else s1

/-- A write of UBX_CREDIT_INIT of the selected tenant, 1 to 64 (14 R464). -/
def State.writeCredit (s : State) (e v : Nat) : State :=
  let f := v % 128
  let g := min 64 (max 1 f)
  (if g = f then s else s.clampAt (edgePage e 0xF030) 0x58).setReg (ubxKey e (s.fld (edgePage e 0xF030 + 0x40) 0 6) 0x58) (BitVec.ofNat 32 g)

/-- A write of SEC_CTRL; one with more than one bit set has no effect (15 R482). -/
def State.writeSecCtrl (s : State) (v : Nat) : State :=
  match v % 512 with
  | 1 => s.commit 1
  | 2 => s.commit 2
  | 4 => s.commit 3
  | 8 => s.revokeKeyA
  | 16 => s.revokeKeyB
  | 32 => s.importBegin
  | 64 => s.eraseSlot (s.fld (secPage + 0x58) 0 6)
  | 128 => s.retestBegin
  | 256 => s.fuseOwner
  | _ => s

/-- A write of the security page from 0x040 on: SEC_CTRL, the key buffers (15 R482), the selection. -/
def State.writeSec (s : State) (k off : Nat) (v : Word) : State :=
  let put := fun (m : Map Word) (base : Nat) => Sparse.put (fun _ => (0 : Word)) m ((off - base) / 4) v
  if off = 0x44 then s.writeSecCtrl v.toNat
  else if 0x100 ≤ off ∧ off < 0x160 then { s with sec := { s.sec with pub := put s.sec.pub 0x100 } }
  else if 0x160 ≤ off ∧ off < 0x198 then { s with sec := { s.sec with wrap := put s.sec.wrap 0x160 } }
  else if 0x1A0 ≤ off ∧ off < 0x200 then { s with sec := { s.sec with ownerBuf := put s.sec.ownerBuf 0x1A0 } }
  else s.writeFields .sec k v

/-- A write of LPD_CTRL or LPD_TR_CTRL; one with more than one bit set has no effect (12 R397). Whether the training has
reached the full rate is free. -/
def State.writeLpd (s : State) (ch k off : Nat) (v : Word) : State :=
  if off = 0x48 then
    match v.toNat % 8 with
    | 1 => s.lpdBegin ch
    | 2 => s.draw.2.lpdGo ch (decide (s.draw.1 % 2 = 0))
    | 4 => s.lpdOffline ch
    | _ => s
  else if off = 0x100 then
    match v.toNat % 8 with
    | 1 => s.trTake ch .run
    | 2 => s.trStop ch
    | 4 => s.trTake ch .fill
    | _ => s
  else s.writeFields .lpd k v

/-- A write of a register of lane k of the module (13 R426). The count that a scan has reached when it is stopped is free. -/
def State.writeLane (s : State) (k sub : Nat) (v : Word) : State :=
  match sub with
  | 0x00 => s.laneCfg k v.toNat
  | 0x08 => s.lanePrbs k v.toNat
  | 0x0C => if v.getLsbD 0 then s.injectOne k else s
  | 0x1C => s.scanCfgWrite k v.toNat
  | 0x20 =>
    let s1 := if v.getLsbD 0 then s.scanBegin k else s
    if v.getLsbD 1 then s1.draw.2.scanStopped k (s1.draw.1 % 2 ^ 32) else s1
  | 0x28 => if v.getLsbD 0 then s.requestSlip k else s
  | _ => s

/-- A write of ETH_CFG of port n: a sub-port that is disabled goes down, and MODE is changed as R409 says. -/
def State.writeEthCfg (s : State) (n : Nat) (v : Word) : State :=
  let k := macPage n + 0x40
  let s1 := s.writeFields .mac k (BitVec.ofNat 32 (setBits v.toNat 0 3 (s.fld k 0 3)))
  let s2 := (List.range 4).foldl (fun (t : State) u => if s.bit k (4 + u) && !v.getLsbD (4 + u) then t.subDown n u else t) s1
  s2.modeWrite n (v.toNat % 8)

/-- The gate-list bank of a scheduler offset, if it belongs to one (13 R428). -/
def gateBank (off : Nat) : Option Nat :=
  if 0x50 ≤ off ∧ off < 0x70 then some ((off - 0x50) / 0x10) else if 0x400 ≤ off ∧ off < 0xC00 then some ((off - 0x400) / 0x400) else none

/-- The bits of a scheduler entry's word that are reserved: a 1 there is recorded in the clamp record (13 R429). -/
def entryRsv (off : Nat) : Word :=
  if 0x1000 ≤ off ∧ off < 0x2000 then (if off % 16 = 8 then 0x00FE0000 else if off % 16 = 12 then 0xC0000000 else 0)
  else if 0x3000 ≤ off ∧ off < 0x3800 then (if off % 16 = 12 then 0xFFFE0000 else 0)
  else if 0x3800 ≤ off then (if off % 16 = 0 then 0x80 else if off % 16 = 4 then 0xFFFF0000 else 0)
  else 0

/-- A write of a scheduler register of port n: a pending gate list is not written (13 R416). -/
def State.writeTsn (s : State) (n k off : Nat) (v : Word) : State :=
  if off = 0x70 then (if v.getLsbD 0 then s.tsnSwap n else s)
  else if (s.port n).swapAt.isSome ∧ (match gateBank off with | some b => decide (b ≠ s.operBank n) | none => false) = true then
    s.clampAt (tsnPage n) off
  else (if v &&& entryRsv off = 0 then s else s.clampAt (tsnPage n) off).writeFields .tsn k v

/-- A write of a register of an edge region's shroud control (11 R369, R375): region 0 keeps its owner. -/
def State.writeShr (s : State) (e k off : Nat) (v : Word) : State :=
  let r := (off - 0x100) / 0x20
  let st := (s.region (edgeRegion e r)).st
  if off < 0x100 ∨ 0x300 ≤ off then s
  else if off % 0x20 = 0 then (if v.getLsbD 0 then s.shrClear (edgeRegion e r) off else s)
  else if off % 0x20 = 8 ∧ r ≠ 0 ∧ (st = .loading ∨ st = .releasing) then s.clampAt (shrPage e) off
  else s.writeFields .shr k v

/-- A write of a register of a page beyond the cores, from 0x040 on. -/
def State.writeDie (s : State) (b : Blk) (k : Nat) (v : Word) : State :=
  let die := keyDie k
  let e := die - 24
  let unit := keyUnit k
  let off := blkOff b k
  match b with
  | .hc => if off = 0x58 then s.hcRelease die v else s.writeFields b k v
  | .time =>
    if 24 ≤ die then s.writeFields b k v
    else if off = 0x84 then s.writeClkSet die v.toNat
    else if off = 0x90 then s.clkAllSet die v.toNat
    else s.writeFields b k v
  | .agt => if off = 0x44 then s.writeDrain die v else if off = 0x58 then s.broadcast die v else s.writeFields b k v
  | .recd => if off = 0x48 ∨ off = 0x4C ∨ off = 0x50 then s.writeRing e off v else s.writeFields b k v
  | .hal => if off = 0x74 then (if v.getLsbD 0 then s.popClamp e else s) else s.writeFields b k v
  | .shr => s.writeShr e k off v
  | .ubx => if off = 0x58 then s.writeCredit e v.toNat else s.writeFields b k v
  | .emit => if off % 0x100 = 8 ∧ 0x100 ≤ off ∧ off < 0x500 then s.emitGo e (unit - 0xF040) (off / 0x100 - 1) (v.toNat % 32) else s.writeFields b k v
  | .sec => s.writeSec k off v
  | .gov => if die = 24 then State.pins s (s.writeFields b k v) else s
  | .lpd => s.writeLpd (e * 24 + (unit - 0xF100)) k off v
  | .win => if 0x100 ≤ off ∧ off < 0x300 then s.winWrite e ((off - 0x100) / 8) (decide (off % 8 = 4)) v else s
  | .lq =>
    if 0x100 ≤ off ∧ off < 0x200 then s.writeLane (e * 16 + (unit - 0xF200) * 4 + (off - 0x100) / 0x40) (off % 0x40) v else s
  | .mac => if off = 0x40 then s.writeEthCfg (e * 4 + (unit - 0xF210)) v else s.writeFields b k v
  | .tsn => s.writeTsn (e * 4 + (unit - 0xF220)) k off v
  | _ => s.writeFields b k v

/-- Writes one register. An offset that no table lists ignores the write (17 R21). -/
def State.writeReg (s : State) (k : Nat) (v : Word) : State :=
  match keyBlk k with
  | none => s
  | some b =>
    if keyDie k < 24 ∧ keyUnit k < 2112 then s.writeCorePage b k v
    else
      let off := blkOff b k
      if off = 8 then s.writeCtrl b (headPage b k) v
      else if off = 0x18 ∨ off = 0x1C then s.setReg k (halvesCleared (s.reg k) v)
      else if off < 0x40 then s.writeIrq b k v
      else if listed b k then s.writeDie b k v
      else s

/-- Writes 4 or 8 bytes: both halves at once, the lower offset first (17 R507). -/
def State.writeCtl (s : State) (k : Nat) (wide : Bool) (data : Dword) : State :=
  let s1 := s.writeReg k (data.setWidth 32)
  if wide then s1.writeReg (k + 4) ((data >>> 32).setWidth 32) else s1

end Sys2Proof.Machine
end

