-- ==== Sys2Proof/Machine/Control.lean ====
section
/-! DEFINITION. Control accesses as commands: register writes and reads by every party (17 R505 to R516), block power commands
(16 R496), SMBus (16 R487), the agent's broadcast (07 R270), CRD and CWR on the memory planes (07 R255). -/
namespace Sys2Proof.Machine

/-- The register key of a control address; an address whose top field is not 0xC names no page (17 R505, R506). -/
def addrKey (a : Nat) : Nat := if a / 2 ^ 40 = 0xC then a % 2 ^ 40 else 2 ^ 40 - 1

/-- Whether an access of 4 or 8 bytes is aligned (17 R507). -/
def ctlAligned (k : Nat) (wide : Bool) : Bool := decide (k % (if wide then 8 else 4) = 0)

/-- A control write by a party, answered. -/
def State.partyWrite (s : State) (who : Party) (k : Nat) (wide : Bool) (data : Dword) : State :=
  if ctlAligned k wide then s.ctl who k fun s => s.writeCtl k wide data else s.answerCtl Code.netRouteNone

/-- Whether an access covers COL_RDATA, whose read is answered later (10 R342). -/
def coversRdata (k : Nat) (wide : Bool) : Bool :=
  decide (keyBlk k = some .col) && (decide (keyOff k = 0x8C) || (wide && decide (keyOff k = 0x88)))

/-- A control read by a party, answered; a refused read returns 0. -/
def State.partyRead (s : State) (who : Party) (k : Nat) (wide : Bool) : State :=
  if !ctlAligned k wide then s.answerCtl Code.netRouteNone
  else if !s.mayRead who k then s.answerCtl (State.refusal who k)
  else if keyBlk k = none then s.answerCtl Code.netRouteNone
  else if coversRdata k wide then
    if s.mayWrite who k then s.colRead (keyCore k) (if wide then .pair else .host) else s.answerCtl (State.refusal who k)
  else (s.readCtl k wide).1.answerCtl 0 (s.readCtl k wide).2

/-- The block whose common header a page carries: of a unit with several pages, page 0 alone (17 R508). -/
def headBlk (page : Sys2Proof.PageId) : Option Blk :=
  match keyBlk (PageId.key page) with
  | some b => if headPage b (PageId.key page) = PageId.key page then some b else none
  | none => none

/-! Writes of registers (00 R17; 17 R511 to R514) -/

/-- REGISTER_WRITE: a control write acts as the access codes of its register's fields say. -/
def execRegisterWrite (w : CtlWrite) (s : State) : Host.Outcome State Fault Refusal :=
  done (s.whenUp fun s => s.partyWrite w.who (addrKey w.addr.toNat) w.wide w.data)

/-- BLK_ERR_WRITE (R513): the write acts first, then the codes that the hardware enters in the same cc. -/
def execBlkErrWrite (who : Party) (page : PageId) (v : Word) (codes : List (BitVec 16)) (s : State) : Host.Outcome State Fault Refusal :=
  done (s.whenUp fun s =>
    let s1 := s.partyWrite who ((PageId.key page) + 0x18) false (v.setWidth 64)
    match headBlk page with
    | some b => if codes = [] then s1 else s1.enterCodes (headPage b (PageId.key page)) codes
    | none => s1)

/-- BLK_CLAMP_WRITE (R514): the write acts first, then the clamps of the same cc, at the given offsets. -/
def execBlkClampWrite (who : Party) (page : PageId) (v : Word) (clamped : List (BitVec 16)) (s : State) : Host.Outcome State Fault Refusal :=
  done (s.whenUp fun s =>
    let s1 := s.partyWrite who ((PageId.key page) + 0x1C) false (v.setWidth 64)
    match headBlk page with
    | some b => clamped.foldl (fun (s : State) o => s.clampAt (headPage b (PageId.key page)) o.toNat) s1
    | none => s1)

/-- SOFT_RESET (R22): SOFT_RESET is written, ENABLE as it stands. -/
def execSoftReset (who : Party) (page : PageId) (s : State) : Host.Outcome State Fault Refusal :=
  done (s.whenUp fun s => s.ctl who (PageId.key page) fun s =>
    match headBlk page with
    | some b => s.softReset b (headPage b (PageId.key page))
    | none => s)

/-- BLK_ENABLE (16 R496): ENABLE is written. -/
def execBlkEnable (who : Party) (page : PageId) (on : Bool) (s : State) : Host.Outcome State Fault Refusal :=
  done (s.whenUp fun s => s.ctl who (PageId.key page) fun s =>
    match headBlk page with
    | some b => s.requestPower (headPage b (PageId.key page)) on
    | none => s)

/-- POWER_TRANSITION_END (16 R496 to R498). -/
def execPowerTransitionEnd (page : PageId) (s : State) : Host.Outcome State Fault Refusal :=
  done (s.whenUp fun s =>
    match headBlk page with
    | some b => s.powerEnds b (headPage b (PageId.key page))
    | none => s)

/-- TIME_NOW_READ (13 R430). -/
def execTimeNowRead (who : Party) (die : Fin 28) (s : State) : Host.Outcome State Fault Refusal :=
  done (s.whenUp fun s => s.partyRead who (timePage die.val + 0x48) false)

/-- AGT_BCAST_DATA (07 R270). -/
def execAgtBcastData (who : Party) (die : Fin 28) (v : Word) (s : State) : Host.Outcome State Fault Refusal :=
  done (s.whenUp fun s => s.ctl who (agtPage die.val + 0x58) fun s => s.broadcast die.val v)

/-! SMBus (16 R487) -/

/-- Whether the target acknowledges its address: from 1 ms after the release of RESET_N. -/
def State.smbUp (s : State) : Bool := !s.inReset && decide (1000000 ≤ s.time.toNat)

/-- The outcome of an SMBus access: STATUS 0, or 2 with a code; DATA is valid after a read alone, and free otherwise. -/
def State.smbEnds (s : State) (err : BitVec 16) (data : Option Word) : State :=
  match data with
  | some d => { s with smbStatus := if err = 0 then 0 else 2, smbErr := err, smbData := d }
  | none => { s.draw.2 with smbStatus := if err = 0 then 0 else 2, smbErr := err, smbData := BitVec.ofNat 32 s.draw.1 }

/-- The code of an SMBus access that is not delivered, 0 for one that is. -/
def State.smbRefusal (s : State) (k : Nat) (write : Bool) : BitVec 16 :=
  if keyBlk k = none ∨ ctlAligned k false = false then Code.netRouteNone
  else if write && !s.mayWrite .board k then Code.netPartition
  else if !write && coversRdata k false then Code.netPartition
  else 0

/-- SMB_CONTROL_WRITE: command 0xA0, a control write under TENANT 0xFF. The access is made at once. -/
def execSmbControlWrite (pecOk : Bool) (addr : Dword) (data : Word) (s : State) : Host.Outcome State Fault Refusal :=
  done (
    if !pecOk || !s.smbUp || decide (s.smbStatus = 1) then s
    else
      let k := addrKey addr.toNat
      let c := s.smbRefusal k true
      if c ≠ 0 then s.smbEnds c none else (s.writeReg k data).smbEnds 0 none)

/-- SMB_CONTROL_READ: command 0xA1. -/
def execSmbControlRead (pecOk : Bool) (addr : Dword) (s : State) : Host.Outcome State Fault Refusal :=
  done (
    if !pecOk || !s.smbUp || decide (s.smbStatus = 1) then s
    else
      let k := addrKey addr.toNat
      let c := s.smbRefusal k false
      if c ≠ 0 then s.smbEnds c none else (s.readReg k).1.smbEnds 0 (some (s.readReg k).2))

/-- SMB_RESULT_READ: command 0xA2 returns STATUS, ERR and DATA, little-endian. -/
def execSmbResultRead (pecOk : Bool) (s : State) : Host.Outcome State Fault Refusal :=
  done (
    if !pecOk || !s.smbUp then s
    else s.send (.bytes true (leBytes 1 s.smbStatus ++ leBytes 2 s.smbErr.toNat ++ leBytes 4 s.smbData.toNat)))

/-! Control accesses on the memory planes (07 R254, R255, R262) -/

/-- The party of a request: firmware under TENANT 0xFF, else the program of the requesting core. -/
def reqParty (q : PReq) : Party := if q.tenant = 0xFF then .firmware else .program (coreOf (reqCore q))

/-- Whether the TENANT of a request may read a page: 0xFF every page, a tenant those of the cores it owns and its emit pages
(R261, R262). -/
def State.reqMayRead (s : State) (q : PReq) (k : Nat) : Bool := s.mayRead (if q.tenant = 0xFF then .firmware else .runtime q.tenant) k

/-- Whether a request may write a register: under TENANT 0xFF as firmware; under a tenant's, which must own the target, as the
program of the requesting core (R262; 17 R536). -/
def State.reqMayWrite (s : State) (q : PReq) (k : Nat) : Bool :=
  if q.tenant = 0xFF then s.mayWrite .firmware k
  else if keyBlk k = some .emit then decide (q.tenant = BitVec.ofNat 8 (keyUnit k - 0xF040))
  else decide (q.srcDie.toNat < 24) && decide (q.srcUnit.toNat < 2112) && decide (s.niTenant (keyCore k) = q.tenant)
    && s.mayWrite (.program (coreOf (reqCore q))) k

/-- Whether a control request is well formed: space 0x03 with its zero field 0 and SELF 0, SIZE 0 or 1, aligned. SELF = 1 is
completed by the core's own interface and never reaches a unit (06 R184, R185). -/
def ctlFormed (q : PReq) : Bool :=
  decide (q.addr.toNat / 2 ^ 56 = 3) && decide (bits q.addr.toNat 44 12 = 0) && decide (q.size.toNat < 2)
    && ctlAligned (q.addr.toNat % 2 ^ 44) (decide (q.size = 1))

/-- A refused control request: a core's interface counts it (R262). -/
def State.ctlRefused (s : State) (q : PReq) (k : Nat) : State :=
  let s1 := if keyDie k < 24 ∧ keyUnit k < 2112 ∧ (keyBlk k).isSome then s.refused (keyCore k) q.tenant 0 0 else s
  s1.ack q (State.refusal (reqParty q) k)

/-- CRD: the register's value goes back as CDATA. -/
def execCrd (q : PReq) (s : State) : Host.Outcome State Fault Refusal :=
  done (s.whenUp fun s => s.request q (addrEnd q.addr.toNat) false fun s =>
    let k := addrKey (q.addr.toNat % 2 ^ 44)
    let wide := decide (q.size = 1)
    if !ctlFormed q then s.ack q Code.netRouteNone
    else if keyBlk k = none ∨ s.reqMayRead q k = false ∨ coversRdata k wide = true then s.ctlRefused q k
    else (s.readCtl k wide).1.answer 0x19 q 0 (leBytes (if wide then 8 else 4) (s.readCtl k wide).2.toNat) false)

/-- CWR: the register is written, and the write acknowledged. -/
def execCwr (q : PReq) (data : Dword) (s : State) : Host.Outcome State Fault Refusal :=
  done (s.whenUp fun s => s.request q (addrEnd q.addr.toNat) false fun s =>
    let k := addrKey (q.addr.toNat % 2 ^ 44)
    if !ctlFormed q then s.ack q Code.netRouteNone
    else if s.reqMayWrite q k = false then s.ctlRefused q k
    else (s.writeCtl k (decide (q.size = 1)) data).ack q 0)

end Sys2Proof.Machine
end

