-- ==== Sys2Proof/Machine/HostMem.lean ====
section
/-! DEFINITION. The commands of a tenant session that write and read memory and registers (14 R445 to R449): NOP, CLOSE,
DELIVER, WRITE_MEM, READ_MEM, CTRL_WRITE, CTRL_READ; the order in which commands start (R446) and their delivery in a
replay (08 R296). -/
namespace Sys2Proof.Machine

/-! Starting a command (R443, R446) -/

/-- The OPs of a session: those of R448 for a tenant; NOP, CLOSE, ATTEST and R459 for the administration session, which
is kept under 255. -/
def knownOp (t op : Nat) : Bool :=
  if t = 255 then [0x01, 0x02, 0x60, 0x100, 0x101, 0x102].contains op
  else [0x01, 0x02, 0x10, 0x11, 0x12, 0x13, 0x14, 0x20, 0x21, 0x30, 0x31, 0x32, 0x40, 0x41, 0x42, 0x43, 0x44, 0x50, 0x60].contains op

/-- The next command that may start: in order; with ORDER = 1 once no earlier command is left; none while 64 device frames
are unacknowledged (R443). -/
def Tenant.nextCmd (x : Tenant) : Option QCmd :=
  if 64 ≤ x.sess.unack.length then none
  else match x.cmds.find? (fun c => !c.started) with
    | some c => if c.order && decide (x.cmds.head? ≠ some c) then none else some c
    | none => none

/-- Whether a reef holds back the delivery of tenant t's commands: from its phase 2 to the end of its phase 7 (08 R281,
R284). -/
def State.reefing (s : State) (t : Nat) : Bool := s.reefs.any (fun r => decide (r.t = t) && r.new.isSome)

/-- The next command of tenant t that may start now. -/
def State.nextCmd (s : State) (t : Nat) : Option QCmd := if s.reefing t then none else (s.tenant t).nextCmd

/-- Starts the next command if it has this OP. Malformed arguments are answered UCP_MALFORMED. -/
def State.runCmd (s : State) (t op : Nat) (bad : List Byte → Bool) (f : State → QCmd → State) : State :=
  match s.nextCmd t with
  | some c =>
    if c.op.toNat = op ∧ knownOp t op = true then
      if bad c.args then s.finish t c Code.ucpMalformed [] else f s c
    else s
  | none => s

/-- Marks a command as started, with the arguments that it runs on with. -/
def State.started_ (s : State) (t : Nat) (c : QCmd) (args : List Byte) : State :=
  let tn := s.tenant t
  s.setTenant t { tn with cmds := tn.cmds.map (fun x => if x = c then { c with started := true, args := args } else x) }

/-- A write command that a replay delivers again (08 R296): the recorded commands come first, each at the step it was first
delivered at, without a reply. -/
def State.redoCmd (s : State) (t op : Nat) (rp : Replay) (k : Nat) (c : QCmd) (r : List (Nat × QCmd))
    (f : State → QCmd → Option (State × BitVec 16 × List Byte)) : State :=
  if c.op.toNat = op ∧ k ≤ s.lowestStep t rp + 1 then
    match f s c with
    | some w => w.1.setTenant t { (w.1.tenant t) with replay := (w.1.tenant t).replay.map (fun x => { x with redo := r }) }
    | none => s
  else s

/-- Delivers a write command (DELIVER, WRITE_MEM, CTRL_WRITE); `f` answers none while it must wait. With replay declared
the delivery is noted with its step. -/
def State.runWrite (s : State) (t op : Nat) (bad : List Byte → Bool)
    (f : State → QCmd → Option (State × BitVec 16 × List Byte)) : State :=
  match (s.tenant t).replay with
  | some rp =>
    match rp.redo with
    | (k, c) :: r => s.redoCmd t op rp k c r f
    | [] => s.runCmd t op bad (fun s c =>
        match f s c with
        | some w =>
          let s1 := w.1.setTenant t { (w.1.tenant t) with replay := some { rp with log := rp.log ++ [(s.lowestStep t rp + 1, c)] } }
          s1.finish t c w.2.1 w.2.2
        | none => s)
  | none => s.runCmd t op bad (fun s c =>
      match f s c with
      | some w => w.1.finish t c w.2.1 w.2.2
      | none => s)

/-! Logical cores (R448, R449) -/

/-- A RECT argument. -/
def argRect (l : List Byte) (o : Nat) : Rect := ⟨beFld l o 2, beFld l (o + 2) 2, beFld l (o + 4) 2, beFld l (o + 6) 2⟩

/-- Whether a RECT names logical cores. -/
def rectOk (r : Rect) : Bool := decide (r.xlo ≤ r.xhi) && decide (r.xhi ≤ 383) && decide (r.ylo ≤ r.yhi) && decide (r.yhi ≤ 127)

/-- An access of a tenant to the core that serves a logical position: the code that refuses it, 0 for none (R448, 07 R262,
06 R208). The refusal at the interface is counted there. -/
def State.atCore (s : State) (t x y : Nat) (f : State → Nat → State × BitVec 16) : State × BitVec 16 :=
  let n := s.physOf x y
  if (s.tenant t).owns x y = false then (s, Code.netPartition)
  else if !tenantOk (s.niTenant n) (BitVec.ofNat 8 t) then (s.refused n (BitVec.ofNat 8 t) 0 0, Code.netPartition)
  else if s.markOf n = .removed then (s, Code.reefExhausted)
  else f s n

/-- An access to every core of a RECT, lowest Y and then X first; the cores that failed with their codes. -/
def State.atRect (s : State) (t : Nat) (r : Rect) (f : State → Nat → State × BitVec 16) : State × List ((Nat × Nat) × BitVec 16) :=
  (rectCores [r]).foldl (fun q p =>
    let w := q.1.atCore t p.1 p.2 f
    (w.1, if w.2 = 0 then q.2 else q.2 ++ [(p, w.2)])) (s, [])

/-- The reply of DELIVER and CTRL_WRITE (R449). Without a failed core its place is not given, and free. -/
def rectReply (r : Rect) (q : State × List ((Nat × Nat) × BitVec 16)) : State × BitVec 16 × List Byte :=
  match q.2 with
  | [] =>
    let d := q.1.draw
    (d.2, 0, beBytes 4 0 ++ beBytes 2 (d.1 % 65536) ++ beBytes 2 (d.1 / 65536 % 65536))
  | p :: l =>
    (q.1, if l.length + 1 = (rectCores [r]).length then p.2 else Code.xferPartial,
      beBytes 4 (l.length + 1) ++ beBytes 2 p.1.1 ++ beBytes 2 p.1.2)

/-! NOP and CLOSE -/

/-- UBX_NOP. -/
def execUbxNop (t : BitVec 8) (s : State) : Host.Outcome State Fault Refusal :=
  done (s.whenUp fun s => s.runCmd t.toNat 0x01 (fun l => !l.isEmpty) (fun s c => s.finish t.toNat c 0 []))

/-- CLOSE: the session ends once every earlier reply and pending event has been acknowledged. -/
def State.closeCmd (s : State) (t : Nat) (c : QCmd) : State :=
  let s1 := s.finish t c 0 []
  let x := (s1.tenant t).sess
  s1.setSess t (if x.st = .none then x else { x with st := if x.st = .lost then .lost else .closing, ending := true })

/-- CLOSE. -/
def execClose (t : BitVec 8) (s : State) : Host.Outcome State Fault Refusal :=
  done (s.whenUp fun s => s.runCmd t.toNat 0x02 (fun l => !l.isEmpty) (fun s c => s.closeCmd t.toNat c))

/-! DELIVER (R449) -/

/-- Whether DELIVER's arguments are malformed. -/
def deliverBad (l : List Byte) : Bool :=
  decide (l.length < 24) || decide (16 + 8192 < l.length) || decide (l.length % 8 ≠ 0) || !rectOk (argRect l 0)
    || decide (beFld l 8 4 % 64 ≠ 0) || decide (beFld l 12 4 ≠ 0)

/-- DELIVER: every line but the first is written and acknowledged before the first; bytes beyond the scratchpad are
answered NET_ROUTE_NONE. -/
def State.deliver (s : State) (t : Nat) (c : QCmd) : State × BitVec 16 × List Byte :=
  let r := argRect c.args 0
  let off := beFld c.args 8 4
  let data := c.args.drop 16
  rectReply r (s.atRect t r (fun s n =>
    if 2 ^ 20 < off + data.length then (s, Code.netRouteNone)
    else (((s.spadTouch n).spadWrite n (off + 64) (data.drop 64)).spadWrite n off (data.take 64), 0)))

/-- DELIVER. -/
def execDeliver (t : BitVec 8) (s : State) : Host.Outcome State Fault Refusal :=
  done (s.whenUp fun s => s.runWrite t.toNat 0x10 deliverBad (fun s c => some (s.deliver t.toNat c)))

/-! WRITE_MEM and READ_MEM -/

/-- The number of a physical line in the window of core n's tenant. -/
def State.windowLine (s : State) (n pl : Nat) : Option Nat :=
  let t := s.niTenant n
  if t = 0xFF then some pl
  else match s.window (chanOf (pl * 64) / 24) t.toNat with
    | some (b, sz) => if b ≤ pl * 64 ∧ pl * 64 < b + sz then some (pl - b / 64) else none
    | none => none

/-- Every line buffer gives up its copy of a line for an engine's access, dirty data written back; for a read the copies
stay, shared (07 R257, R258). The snoops of the access are answered within it. -/
def State.recall (s : State) (pl : Nat) (keep : Bool) : State :=
  let s1 := s.cores.foldl (fun (s : State) p =>
    match s.windowLine p.1 pl with
    | none => s
    | some line =>
      match (s.core p.1).rlbFind line with
      | none => s
      | some l =>
        let s1 := if l.dirty then (s.storeLine (pl * 64) l.data l.poisoned).incWrap (lpdPage (chanCo (pl * 64)).1 + 0xA8) else s
        (s1.modCore p.1 (fun c =>
          if keep then { c with rlb := c.rlb.map (fun x => if x.line = line then { x with own := false, dirty := false } else x) }
          else c.rlbDrop line)).incWrap (spadPage p.1 + 0x70)) s
  let d := s1.dirAt pl
  s1.setDir pl { d with st := if keep then (match d.st with | .m o => .s [o] | st => st) else .u }

/-- The physical lines of a range of tenant t's window, or the code that refuses it (12 R379). -/
def State.windowLines (s : State) (t o len : Nat) : Except (BitVec 16) (List Nat) :=
  (linesOf o len).foldr (fun l r =>
    match s.translate (chanOf (l * 64) / 24) (BitVec.ofNat 8 t) (l * 64) 64, r with
    | .ok pa, .ok ls => .ok (pa / 64 :: ls)
    | .error c, _ => .error c
    | _, .error c => .error c) (.ok [])

/-- An access of tenant t to LPDDR: refused, MEM_UNCORRECTABLE where a channel is OFFLINE, waiting while a channel does not
serve or a line has a transaction in progress, or made on its physical lines. -/
def State.atLines (s : State) (t o len : Nat) (f : State → List Nat → State × BitVec 16 × List Byte) :
    Option (State × BitVec 16 × List Byte) :=
  match s.windowLines t o len with
  | .error c => some (s, c, [])
  | .ok ls =>
    if ls.any (fun l => s.chanOffline (chanCo (l * 64)).1) then some (s, Code.memUncorrectable, [])
    else if ls.any (fun l => !s.chanServes (chanCo (l * 64)).1 || (s.dirAt l).txn.isSome) then none
    else some (f s ls)

/-- Writes bytes at an offset o of the window, line by line. -/
def State.writeWindow (s : State) (o : Nat) (data : List Byte) (ls : List Nat) : State × BitVec 16 × List Byte :=
  let r := ls.zipIdx.foldl (fun (r : State × BitVec 16) p =>
    let lo := (o / 64 + p.2) * 64
    let be : Nat := (List.range 64).foldl (fun m i => if o ≤ lo + i ∧ lo + i < o + data.length then m + 2 ^ i else m) 0
    let bytes := (List.range 64).map (fun i => if o ≤ lo + i then data.getD (lo + i - o) 0 else 0)
    let w := (r.1.recall p.1 false).writeLine 2 (p.1 * 64) (BitVec.ofNat 64 be) bytes .clean
    (w.1, if r.2 = 0 then w.2 else r.2)) (s, 0)
  (r.1, r.2, [])

/-- Reads bytes at an offset o of the window. -/
def State.readWindow (s : State) (o len : Nat) (ls : List Nat) : State × BitVec 16 × List Byte :=
  let r := ls.foldl (fun (r : State × List Byte × Bool) l =>
    let x := (r.1.recall l true).readLine 2 (l * 64) .clean
    (x.1, r.2.1 ++ x.2.1, r.2.2 || x.2.2)) (s, [], false)
  if r.2.2 then (r.1, Code.memUncorrectable, []) else (r.1, 0, bytesAt r.2.1 (o % 64) len)

/-- The code that refuses tenant t a read or a write of fabric RAM (10 R324, R331). -/
def State.framCode (s : State) (t e off len : Nat) (write : Bool := false) : BitVec 16 :=
  ((linesOf off len).map (fun l => if write then s.framHolds e (BitVec.ofNat 8 t) (l * 64) else s.framRefuses e (BitVec.ofNat 8 t) (l * 64))).foldl
    (fun a c => if a = 0 then c else a) 0

/-- Whether an address is one of WRITE_MEM and READ_MEM: space 0x00, 0x01 or 0x02 with its zero fields 0; SELF names an
issuing core, which an engine is not (06 R184, R185). -/
def memAddrOk (a : Nat) : Bool := !addrBad a && !(decide (spaceOf a = 0) && (selfOf a || decide (383 < colOf a) || decide (127 < rowOf a)))

/-- Whether WRITE_MEM's arguments are malformed. -/
def writeMemBad (l : List Byte) : Bool :=
  decide (l.length < 8) || decide (8 + 8192 < l.length) || decide (l.length % 8 ≠ 0) || !memAddrOk (beFld l 0 8)

/-- WRITE_MEM. -/
def State.writeMem (s : State) (t : Nat) (c : QCmd) : Option (State × BitVec 16 × List Byte) :=
  let a := beFld c.args 0 8
  let data := c.args.drop 8
  let o := offOf a
  match spaceOf a with
  | 0 =>
    let w := s.atCore t (colOf a) (rowOf a) (fun s n =>
      if 2 ^ 20 < o + data.length then (s, Code.netRouteNone) else ((s.spadTouch n).spadWrite n o data, 0))
    some (w.1, w.2, [])
  | 1 => s.atLines t o data.length (fun s ls => s.writeWindow o data ls)
  | _ =>
    let code := s.framCode t (edgeOf a) o data.length true
    if code ≠ 0 then some (s, code, [])
    else some ({ s with fram := Memory.writeN s.fram (framKey (edgeOf a) o) data }, 0, [])

/-- WRITE_MEM. -/
def execWriteMem (t : BitVec 8) (s : State) : Host.Outcome State Fault Refusal :=
  done (s.whenUp fun s => s.runWrite t.toNat 0x11 writeMemBad (fun s c => s.writeMem t.toNat c))

/-- The bytes of reply data that fit one REPLY frame of the session. -/
def State.replyRoom (s : State) (t : Nat) : Nat := s.bodyRoom t - 12

/-- READ_MEM: poison is answered with an error (06 R191). -/
def State.readMem (s : State) (t : Nat) (args : List Byte) : Option (State × BitVec 16 × List Byte) :=
  let a := beFld args 0 8
  let len := beFld args 8 4
  let o := offOf a
  match spaceOf a with
  | 0 =>
    let n := s.physOf (colOf a) (rowOf a)
    let w := s.atCore t (colOf a) (rowOf a) (fun s n =>
      if 2 ^ 20 < o + len then (s, Code.netRouteNone)
      else if (s.core n).poisonedAt o len then (s.spadTouch n, Code.memUncorrectable)
      else (s.spadTouch n, 0))
    some (w.1, w.2, if w.2 = 0 then (s.core n).spadBytes o len else [])
  | 1 => s.atLines t o len (fun s ls => s.readWindow o len ls)
  | _ =>
    let code := s.framCode t (edgeOf a) o len
    some (s, code, if code = 0 then Memory.readN s.fram (framKey (edgeOf a) o) len else [])

/-- READ_MEM. -/
def execReadMem (t : BitVec 8) (s : State) : Host.Outcome State Fault Refusal :=
  done (s.whenUp fun s =>
    s.runCmd t.toNat 0x12 (fun l => decide (l.length ≠ 12) || !memAddrOk (beFld l 0 8) || decide (8192 < beFld l 8 4)
        || decide (beFld l 8 4 % 8 ≠ 0) || decide (s.replyRoom t.toNat < beFld l 8 4)) (fun s c =>
      match s.readMem t.toNat c.args with
      | some w => w.1.finish t.toNat c w.2.1 w.2.2
      | none => s))

/-! CTRL_WRITE and CTRL_READ -/

/-- Whether CTRL_WRITE's arguments are malformed. -/
def ctrlWriteBad (l : List Byte) : Bool :=
  decide (l.length ≠ 16) || !rectOk (argRect l 0) || decide (9 < beFld l 8 1) || decide (beFld l 9 1 ≠ 0) || decide (beFld l 10 2 % 4 ≠ 0)
    || decide (0xFFF < beFld l 10 2)

/-- CTRL_WRITE: a register of a page of every core of RECT, under the page's own access rules (R448). -/
def State.ctrlWrite (s : State) (t : Nat) (c : QCmd) : State × BitVec 16 × List Byte :=
  let r := argRect c.args 0
  rectReply r (s.atRect t r (fun s n =>
    let k := corePage n (beFld c.args 8 1) + beFld c.args 10 2
    if s.mayWrite (.runtime (BitVec.ofNat 8 t)) k then (s.writeReg k (BitVec.ofNat 32 (beFld c.args 12 4)), 0)
    else (s, Code.netPartition)))

/-- CTRL_WRITE. -/
def execCtrlWrite (t : BitVec 8) (s : State) : Host.Outcome State Fault Refusal :=
  done (s.whenUp fun s => s.runWrite t.toNat 0x13 ctrlWriteBad (fun s c => some (s.ctrlWrite t.toNat c)))

/-- Whether CTRL_READ's arguments are malformed. -/
def ctrlReadBad (l : List Byte) : Bool :=
  decide (l.length ≠ 8) || decide (383 < beFld l 0 2) || decide (127 < beFld l 2 2) || decide (9 < beFld l 4 1) || decide (beFld l 5 1 ≠ 0)
    || decide (beFld l 6 2 % 4 ≠ 0) || decide (0xFFF < beFld l 6 2)

/-- CTRL_READ: a read of COL_RDATA waits for the collar's answer (10 R342); any other is answered at once. -/
def State.ctrlRead (s : State) (t : Nat) (c : QCmd) : State :=
  let x := beFld c.args 0 2
  let y := beFld c.args 2 2
  let n := s.physOf x y
  let k := corePage n (beFld c.args 4 1) + beFld c.args 6 2
  let who : Party := .runtime (BitVec.ofNat 8 t)
  let w := s.atCore t x y (fun s _ => (s, if s.mayRead who k then 0 else Code.netPartition))
  if w.2 ≠ 0 then w.1.finish t c w.2 []
  else if coversRdata k false then
    if s.mayWrite who k then (s.started_ t c c.args).colRead n (.cmd (BitVec.ofNat 8 t)) else s.finish t c Code.netPartition []
  else (s.readReg k).1.finish t c 0 (beBytes 4 (s.readReg k).2.toNat)

/-- CTRL_READ. -/
def execCtrlRead (t : BitVec 8) (s : State) : Host.Outcome State Fault Refusal :=
  done (s.whenUp fun s => s.runCmd t.toNat 0x14 ctrlReadBad (fun s c => s.ctrlRead t.toNat c))

end Sys2Proof.Machine
end

