-- ==== Sys2Proof/Machine/HostCmds.lean ====
section
/-! DEFINITION. The other commands of a tenant session (14 R448, R450): regions, reservations, filters, replay, records, seeds
and attestation (15 R471 to R473); the end of commands (R447). -/
namespace Sys2Proof.Machine

/-! LOAD_REGION (R450; 11 R353; 15 R472) -/

/-- The management port that loads a tenant's regions: that of its home die's halyard. -/
def State.loadPort (s : State) (t : Nat) : Pusher := ⟨(s.tenant t).res.home, false⟩

/-- The region that serves now what a tenant's image names by the home core of a logical position. -/
def State.placeRegion (s : State) (r : BitVec 24) : BitVec 24 :=
  let n := regionDie r.toNat * 2112 + regionUnit r.toNat
  if regionKind r.toNat = 0 ∧ regionDie r.toNat < 24 ∧ regionUnit r.toNat < 2112 then
    BitVec.ofNat 24 (collarRegion (Sparse.get (fun k => k) s.remap n))
  else r

/-- A rectangle command under the current placement: as it stands where every collar is served at home, else collar by
collar. -/
def State.placeRect (s : State) (op : Nat) (arg : BitVec 24) (rect : Word) : List Word :=
  let l := rectRegions (arg.toNat / 2 ^ 19) rect.toNat
  if l.all (fun r => decide (s.placeRegion r = r)) then [cmdWord op arg, rect]
  else if op = 2 then l.map (fun r => cmdWord 1 (s.placeRegion r))
  else if op = 6 then l.map (fun r => cmdWord 5 (s.placeRegion r))
  else match l with
    | [] => []
    | r :: q => cmdWord 3 (s.placeRegion r) :: q.map (fun r => cmdWord 5 (s.placeRegion r))

/-- The commands of a tenant's image under the current placement. -/
def State.placeWords (s : State) : Nat → List Word → List Word
  | 0, _ => []
  | _, [] => []
  | f + 1, w :: r =>
    let op := w.toNat / 2 ^ 24
    let arg : BitVec 24 := w.setWidth 24
    if op = 1 ∨ op = 3 ∨ op = 5 then cmdWord op (s.placeRegion arg) :: s.placeWords f r
    else if op = 2 ∨ op = 4 ∨ op = 6 then
      match r with
      | x :: q => s.placeRect op arg x ++ s.placeWords f q
      | [] => [w]
    else w :: r.take (cmdWords op) ++ s.placeWords f (r.drop (cmdWords op))

/-- Whether the tenant's own CRC holds: the stream ends with CRC, its value and START, and the value covers every word up
to the CRC command. -/
def imageCrcOk (l : List Word) : Bool :=
  let n := l.length
  decide (7 ≤ n) && decide (l.getD 0 0 = 0x5A3CC3A5) && decide (l.getD (n - 3) 0 = 0x09000000)
    && decide (~~~ ((l.take (n - 2)).foldl crcWord 0xFFFFFFFF) = l.getD (n - 2) 0)

/-- The stream that firmware pushes: positions translated, LENGTH kept right, a new CRC. -/
def State.placedStream (s : State) (l : List Word) : List Word :=
  let n := l.length
  let body := s.placeWords n ((l.take (n - 3)).drop 4)
  let len := if (l.getD 2 0).toNat = n then BitVec.ofNat 32 (body.length + 7) else l.getD 2 0
  let h := [l.getD 0 0, l.getD 1 0, len, l.getD 3 0] ++ body ++ [0x09000000]
  h ++ [~~~ (h.foldl crcWord 0xFFFFFFFF), l.getD (n - 1) 0]

/-- Whether the management port of a halyard is given a tenant's stream (R355). -/
def State.setForTenant (s : State) (e : Nat) (v : Bool) : State := s.setHal e { (s.halAt e) with forTenant := v }

/-- Pushes a tenant's image. The command runs on with the digest of the stream as the host placed it and the declared
regions. -/
def State.pushImage (s : State) (t : Nat) (c : QCmd) (l : List Word) : State :=
  let p := s.loadPort t
  let d := Config.sha384 (((l.take (l.length - 1)).map (fun w => leBytes 4 w.toNat)).flatten)
  let w := s.placedStream l
  let s1 := s.setReg (halPage p.e.val + 0x50) (BitVec.ofNat 32 t)
  let s2 := (s1.setForTenant p.e.val true).pushWords p (w.take (w.length - 1))
  let regions := (s2.stm p).effective
  let s3 := (s2.pushWords p (w.drop (w.length - 1))).setForTenant p.e.val false
  s3.started_ t c (beBytes 48 d.toNat ++ (regions.map (fun r => beBytes 3 r.toNat)).flatten)

/-- LOAD_REGION: firmware reads the stream from the window, checks the tenant's CRC and pushes the translated stream. -/
def State.loadRegion (s : State) (t : Nat) (c : QCmd) : State :=
  let o := beFld c.args 0 8
  let len := 4 * beFld c.args 8 4
  if !s.portFree (s.loadPort t) then s
  else match s.atLines t o len (fun s ls => s.readWindow o len ls) with
    | none => s
    | some w =>
      if w.2.1 ≠ 0 then w.1.finish t c w.2.1 (beBytes 4 0)
      else
        let l := (wordsOfBytes w.2.2).1
        if imageCrcOk l then w.1.pushImage t c l else w.1.finish t c Code.cfgCrc (beBytes 4 0)

/-- LOAD_REGION. -/
def execLoadRegion (t : BitVec 8) (s : State) : Host.Outcome State Fault Refusal :=
  done (s.whenUp fun s =>
    s.runCmd t.toNat 0x20 (fun l => decide (l.length ≠ 16) || decide (beFld l 12 4 ≠ 0)) (fun s c => s.loadRegion t.toNat c))

/-- A LOAD_REGION that runs on ends with the halyard's rejection, or once every declared region has ended RUNNING or one of
them FAILED. STATUS 0 extends the tenant's measurement. -/
def State.loadEnds (s : State) (t : Nat) (c : QCmd) : State :=
  let v := (s.reg (resKey (s.loadPort t))).toNat
  let rs := (List.range ((c.args.length - 48) / 3)).map (fun i => beFld c.args (48 + 3 * i) 3)
  let up := (rs.filter (fun r => decide ((s.region r).st = .running))).length
  if v % 4 = 2 then s.finish t c (BitVec.ofNat 16 (v / 65536)) (beBytes 4 0)
  else if v % 4 ≠ 1 then s
  else if up = rs.length then
    let tn := s.tenant t
    let m := Config.sha384 (beBytes 48 tn.measure.toNat ++ c.args.take 48)
    (s.setTenant t { tn with measure := m, loads := tn.loads + 1 }).finish t c 0 (beBytes 4 up)
  else match rs.find? (fun r => decide ((s.region r).st = .failed)) with
    | some r => s.finish t c (s.region r).err (beBytes 4 up)
    | none => s

/-! CLEAR_REGION -/

/-- CLEAR_REGION: firmware writes SHR_CTRL.CLEAR of a collar or an edge region that the tenant holds. An edge region is
named 16 times its die, 0 to 3, plus its number. -/
def State.clearRegion (s : State) (t : Nat) (c : QCmd) : State :=
  let x := beFld c.args 2 2
  let y := beFld c.args 4 2
  if beFld c.args 0 1 = 0 then
    let w := s.atCore t x y (fun s n => (s.shrClear (collarRegion n) 0x40, 0))
    w.1.finish t c w.2 []
  else if (s.tenant t).res.regions.any (fun r => decide (r.1.val * 16 + r.2.val = x)) then
    (s.shrClear (edgeRegion (x / 16) (x % 16)) (0x100 + 0x20 * (x % 16))).finish t c 0 []
  else s.finish t c Code.ucpResource []

/-- CLEAR_REGION. -/
def execClearRegion (t : BitVec 8) (s : State) : Host.Outcome State Fault Refusal :=
  done (s.whenUp fun s =>
    s.runCmd t.toNat 0x21 (fun l => decide (l.length ≠ 8) || decide (1 < beFld l 0 1) || decide (beFld l 1 1 ≠ 0) || decide (beFld l 6 2 ≠ 0))
      (fun s c => s.clearRegion t.toNat c))

/-! RESERVE, UNRESERVE and FILTER -/

/-- RESERVE: checked, brought into use by a swap, answered after the flip (07 R243). While a swap is under way it waits. -/
def State.reserveCmd (s : State) (t : Nat) (c : QCmd) : State :=
  let l := c.args
  let r : Reservation :=
    { stream := BitVec.ofNat 8 (beFld l 0 1), fmin := beFld l 2 2, sx := beFld l 4 2, sy := beFld l 6 2, dx := beFld l 8 2, dy := beFld l 10 2,
      slots := (List.range (beFld l 12 2)).map (fun i => beFld l (16 + 2 * i) 2), links := [] }
  if !s.swapFree then s
  else match s.reserveSwap t r with
    | some s1 => s1.finish t c 0 []
    | none => s.finish t c Code.netReservation []

/-- RESERVE. -/
def execReserve (t : BitVec 8) (s : State) : Host.Outcome State Fault Refusal :=
  done (s.whenUp fun s =>
    s.runCmd t.toNat 0x30 (fun l => decide (l.length ≠ 16 + 2 * beFld l 12 2) || decide (beFld l 0 1 = 0) || decide (beFld l 1 1 ≠ 0)
      || decide (beFld l 14 2 ≠ 0)) (fun s c => s.reserveCmd t.toNat c))

/-- UNRESERVE: every path of the stream is removed by a swap; it completes once the swap has retired. -/
def State.unreserveCmd (s : State) (t : Nat) (c : QCmd) : State :=
  let stream := beFld c.args 0 1
  if !(s.tenant t).streams.any (fun r => decide (r.stream.toNat = stream)) then s.finish t c Code.ucpResource []
  else if !s.swapFree then s
  else (s.unreserveSwap t stream).started_ t c c.args

/-- UNRESERVE. -/
def execUnreserve (t : BitVec 8) (s : State) : Host.Outcome State Fault Refusal :=
  done (s.whenUp fun s =>
    s.runCmd t.toNat 0x31 (fun l => decide (l.length ≠ 4) || decide (beFld l 1 3 ≠ 0)) (fun s c => s.unreserveCmd t.toNat c))

/-- Writes a 16-byte entry, given in network order, to a scheduler table of port n as firmware writes its registers. -/
def State.putEntry (s : State) (n k v : Nat) : State :=
  (List.range 4).foldl (fun (s : State) w => s.writeTsn n (k + 4 * w) (k + 4 * w - tsnPage n) (BitVec.ofNat 32 (v / 2 ^ (32 * w)))) s

/-- FILTER: an entry of the tenant's allotment on each of its ports, under the tenant's id and meter. -/
def State.filterCmd (s : State) (t : Nat) (c : QCmd) : State :=
  let r := (s.tenant t).res
  let i := beFld c.args 0 2
  let sf := setBits (setBits (beFld c.args 4 16) 88 8 t) 96 7 r.meter
  let dest := bits sf 111 3
  let owned (p : PortId) : Bool := r.regions.any (fun x => decide (x.1 = p.e) && decide (x.2.val = bits sf 114 4) && decide (x.2.val ≠ 0))
  if r.filters ≤ i ∨ 2 < dest ∨ (dest = 2 ∧ r.ports.all owned = false) then s.finish t c Code.ucpResource []
  else
    (r.ports.foldl (fun (s : State) p =>
      (s.putEntry (portNo p) (meterKey (portNo p) r.meter) (beFld c.args 20 16)).putEntry (portNo p) (filterKey (portNo p) (r.filterBase + i)) sf) s).finish
      t c 0 []

/-- FILTER. -/
def execFilter (t : BitVec 8) (s : State) : Host.Outcome State Fault Refusal :=
  done (s.whenUp fun s =>
    s.runCmd t.toNat 0x32 (fun l => decide (l.length ≠ 36) || decide (beFld l 2 2 ≠ 0)) (fun s c => s.filterCmd t.toNat c))

/-! Replay (08 R286 to R290) -/

/-- The base image of a core as firmware writes it when the programs are loaded: scratchpad and context, step 0. -/
def State.baseImage (s : State) (n : Nat) : Slot2 :=
  { step := 0, jptr := 0, spad := (s.core n).spad, ctx := (s.core n).image (s.reg (corePage n 4 + 0x44)) }

/-- REPLAY_DECLARE: the journals and the replay block of a domain of the tenant's cores, inside its window. -/
def State.replayDeclare (s : State) (t : Nat) (c : QCmd) : State :=
  let l := c.args
  let rects := (List.range ((l.length - 24) / 8)).map (fun i => argRect l (24 + 8 * i))
  let cores := rectCores rects
  let tn := s.tenant t
  let rp0 : Replay :=
    { jbase := beFld l 0 8, jsize := beFld l 8 8, rb := beFld l 16 4, domain := rects, slots := [], newer := 0, upTo := 0, log := [],
      redo := [], diverged := false }
  if !cores.all (fun p => tn.owns p.1 p.2) then s.finish t c Code.netPartition []
  else if tn.res.winSize * 2 ^ 20 < rp0.jbase + cores.length * rp0.jsize then s.finish t c Code.netPartition []
  else
    let rp := cores.foldl (fun (r : Replay) p => r.setSlot p.1 p.2 0 (s.baseImage (s.physOf p.1 p.2))) rp0
    (s.setTenant t { tn with replay := some rp }).finish t c 0 []

/-- REPLAY_DECLARE. -/
def execReplayDeclare (t : BitVec 8) (s : State) : Host.Outcome State Fault Refusal :=
  done (s.whenUp fun s =>
    s.runCmd t.toNat 0x40 (fun l => decide (l.length < 32) || decide (l.length % 8 ≠ 0) || decide (beFld l 20 4 ≠ 0)
      || decide (2 ^ 20 < beFld l 16 4 + 32) || !((List.range ((l.length - 24) / 8)).all (fun i => rectOk (argRect l (24 + 8 * i)))))
      (fun s c => s.replayDeclare t.toNat c))

/-- CHECKPOINT: the reply gives S_c. -/
def State.checkpointCmd (s : State) (t : Nat) (c : QCmd) : State :=
  match (s.tenant t).replay with
  | some rp => (s.checkpoint t).finish t c 0 (beBytes 8 (s.checkStep t rp))
  | none => s.finish t c Code.ucpResource []

/-- CHECKPOINT. -/
def execCheckpoint (t : BitVec 8) (s : State) : Host.Outcome State Fault Refusal :=
  done (s.whenUp fun s => s.runCmd t.toNat 0x41 (fun l => !l.isEmpty) (fun s c => s.checkpointCmd t.toNat c))

/-- REPATRIATE: a position returns to its original core, if that is REPATRIABLE. -/
def State.repatriateCmd (s : State) (t : Nat) (c : QCmd) : State :=
  let x := beFld c.args 0 2
  let y := beFld c.args 2 2
  if (s.tenant t).owns x y = false ∨ s.physOf x y = homeNo x y ∨ s.markOf (homeNo x y) ≠ .repatriable then
    s.finish t c Code.ucpResource []
  else if !s.swapFree then s
  else (s.repatriateTo t x y).finish t c 0 []

/-- REPATRIATE. -/
def execRepatriate (t : BitVec 8) (s : State) : Host.Outcome State Fault Refusal :=
  done (s.whenUp fun s => s.runCmd t.toNat 0x42 (fun l => decide (l.length ≠ 4)) (fun s c => s.repatriateCmd t.toNat c))

/-- The ring's bytes of a record. -/
def State.recBytes (s : State) (r : Ring) (x : Rec) : List Byte := ringRead s.lpddr r.base r.size x.off x.size

/-- Whole records, as many as fit, up to the first that cannot be read. -/
def State.recordsFrom (s : State) (r : Ring) (room : Nat) (l : List Rec) : List Byte :=
  ((l.takeWhile (s.readable r)).foldl (fun (q : List Byte × Bool) x =>
    if q.2 && decide (q.1.length + x.size ≤ room) then (q.1 ++ s.recBytes r x, true) else (q.1, false)) ([], true)).1

/-- RECORD_READ: a first record that cannot be read is reported with MEM_UNCORRECTABLE (08 R298; assumption 84). -/
def State.recordRead (s : State) (t : Nat) (c : QCmd) : State :=
  let r := (s.tenant t).ring
  let l := r.recs.filter (fun x => decide (0 ≤ (x.seq - BitVec.ofNat 32 (beFld c.args 0 4)).toInt))
  if l.take 1 ≠ [] ∧ (l.take 1).all (s.readable r) = false then s.finish t c Code.memUncorrectable []
  else s.finish t c 0 (s.recordsFrom r (min (beFld c.args 4 4) (s.replyRoom t)) l)

/-- RECORD_READ. -/
def execRecordRead (t : BitVec 8) (s : State) : Host.Outcome State Fault Refusal :=
  done (s.whenUp fun s => s.runCmd t.toNat 0x43 (fun l => decide (l.length ≠ 8)) (fun s c => s.recordRead t.toNat c))

/-- Bytes of a base-image slot: the scratchpad image, then the context image in 64 KiB; what the slot holds beyond the
image's end is not given, and free. -/
def Slot2.bytes (v : Slot2) (free off len : Nat) : List Byte :=
  (List.range len).map (fun i =>
    let o := off + i
    if o < 2 ^ 20 then Memory.read v.spad o
    else if o - 2 ^ 20 < v.ctx.length then v.ctx.getD (o - 2 ^ 20) 0
    else BitVec.ofNat 8 (Config.free (free + i)))

/-- IMAGE_READ. -/
def State.imageRead (s : State) (t : Nat) (c : QCmd) : State :=
  let l := c.args
  let x := beFld l 0 2
  let y := beFld l 2 2
  match (s.tenant t).replay with
  | none => s.finish t c Code.ucpResource []
  | some rp =>
    if !(rectCores rp.domain).contains (x, y) then s.finish t c Code.ucpResource []
    else
      let len := beFld l 12 4
      ({ s with freeCtr := s.freeCtr + len } : State).finish t c 0 ((rp.slot x y (beFld l 4 1)).bytes s.freeCtr (beFld l 8 4) len)

/-- IMAGE_READ. -/
def execImageRead (t : BitVec 8) (s : State) : Host.Outcome State Fault Refusal :=
  done (s.whenUp fun s =>
    s.runCmd t.toNat 0x44 (fun l => decide (l.length ≠ 16) || decide (1 < beFld l 4 1) || decide (beFld l 5 3 ≠ 0) || decide (8192 < beFld l 12 4)
      || decide (2 ^ 20 + 2 ^ 16 < beFld l 8 4 + beFld l 12 4) || decide (s.replyRoom t.toNat < beFld l 12 4))
      (fun s c => s.imageRead t.toNat c))

/-! SEED and ATTEST -/

/-- SEED: drawn from the bit generator, recorded; without a READY generator it fails (15 R480). -/
def State.seedCmd (s : State) (t : Nat) (c : QCmd) : State :=
  if s.sec.ready = false then s.finish t c Code.secEntropy []
  else
    let d := s.drbg
    let seed := d.1 % 2 ^ 64
    let body := leBytes 8 seed ++ leBytes 4 (beFld c.args 0 4) ++ leBytes 8 (beFld c.args 4 8)
    (d.2.recordOrFull t 2 d.2.time body).finish t c 0 (beBytes 8 seed)

/-- SEED. -/
def execSeedDraw (t : BitVec 8) (s : State) : Host.Outcome State Fault Refusal :=
  done (s.whenUp fun s => s.runCmd t.toNat 0x50 (fun l => decide (l.length ≠ 12)) (fun s c => s.seedCmd t.toNat c))

/-- The ANs of a slot that are loaded, and the transmitting one. -/
def State.slotKeys (s : State) (slot : Nat) : Nat :=
  (List.range 4).foldl (fun m an => if (s.keyAn slot an).loaded then m + 2 ^ an else m) 0
    + (Sparse.get (fun _ => 0) s.sec.txAn slot - 1) % 4 * 16

/-- The signed part of an attestation report (15 R471). -/
def State.report (s : State) (t : Nat) (nonce : List Byte) : List Byte :=
  let tn := s.tenant t
  let x := s.sec
  let sh (d : Nat) : List Byte := beBytes 48 (Sparse.get (fun _ => (0 : BitVec 384)) x.mShell d).toNat
  let flags := b2n (tn.res.macsecRequired || decide (t = 255)) + 2 * b2n x.owner.isSome + 4 * b2n x.revokedA + 8 * b2n x.revokedB + 16 * (x.fwKey % 4)
  beBytes 4 0x4C5A4154 ++ beBytes 2 1 ++ beBytes 1 0xA0 ++ beBytes 1 t
    ++ beBytes 8 ((Config.fused 4).toNat * 2 ^ 32 + (Config.fused 3).toNat) ++ beBytes 8 s.time.toNat
    ++ beBytes 4 tn.sess.id.toNat ++ beBytes 2 (96 * Config.chanGiB) ++ beBytes 2 flags ++ bytesAt nonce 0 48
    ++ beBytes 1 (min 255 x.loadedFw) ++ beBytes 1 (min 255 x.loadedStatic) ++ beBytes 1 (min 255 x.shellSvn)
    ++ beBytes 1 x.svnFw ++ beBytes 1 x.svnStatic ++ beBytes 1 x.svnShell ++ beBytes 2 0
    ++ beBytes 48 x.mFw.toNat ++ beBytes 48 x.mStatic.toNat ++ sh 0 ++ sh 1 ++ sh 2 ++ sh 3
    ++ beBytes 48 tn.measure.toNat ++ beBytes 4 tn.loads ++ beBytes 4 (rectCores tn.res.rects).length ++ beBytes 4 tn.res.winSize
    ++ beBytes 4 (s.slotKeys (slotOf t)) ++ beBytes 8 0

/-- ATTEST: the report with its signature, whose nonce is drawn from the bit generator, and the certificates. -/
def State.attestCmd (s : State) (t : Nat) (c : QCmd) : State :=
  if s.sec.ready = false then s.finish t c Code.secEntropy []
  else
    let r := s.report t c.args
    let d := s.drbg
    let cert := fun (l : List Byte) => beBytes 2 l.length ++ l
    d.2.finish t c 0 (r ++ bytesAt (Config.reportSig r d.1) 0 96 ++ cert Config.caCert ++ cert Config.idCert)

/-- ATTEST. -/
def execAttest (t : BitVec 8) (s : State) : Host.Outcome State Fault Refusal :=
  done (s.whenUp fun s => s.runCmd t.toNat 0x60 (fun l => decide (l.length ≠ 48)) (fun s c => s.attestCmd t.toNat c))

/-! COMMAND_COMPLETE (R447) -/

/-- Ends a command that runs on, if it can end: LOAD_REGION, and UNRESERVE once its swap has retired. -/
def State.endStarted (t : Nat) (s : State) (c : QCmd) : State :=
  if !c.started then s
  else if c.op = 0x20 then s.loadEnds t c
  else if c.op = 0x31 ∧ s.swapFree = true then s.lowerFloors.finish t c 0 []
  else s

/-- A next command whose OP the session does not take: UCP_AUTH for an administration OP of a tenant session, else
UCP_UNSUPPORTED (R448). -/
def State.endUnknown (s : State) (t : Nat) : State :=
  match s.nextCmd t with
  | some c =>
    if knownOp t c.op.toNat then s
    else s.finish t c (if t ≠ 255 ∧ c.op.toNat / 256 = 1 then Code.ucpAuth else Code.ucpUnsupported) []
  | none => s

/-- COMMAND_COMPLETE: commands that can end do, and finished ones are packed into a REPLY frame. -/
def execCommandComplete (t : BitVec 8) (s : State) : Host.Outcome State Fault Refusal :=
  done (s.whenUp fun s =>
    let n := t.toNat
    (((s.tenant n).cmds.foldl (State.endStarted n) s).endUnknown n).packReplies n)

end Sys2Proof.Machine
end

