-- ==== Sys2Proof/Machine/Admin.lean ====
section
/-! DEFINITION. Tenants (14 R457 to R460): TENANT_CREATE, TENANT_DESTROY and TENANT_STATUS of the administration session. -/
namespace Sys2Proof.Machine

/-! TENANT_CREATE (R458, R459) -/

/-- First byte and bytes of a record's window and of its recorder ring. -/
def recWindow (r : TenantRec) : Nat × Nat := (r.winBase * (96 * 2 ^ 20), r.winSize * 2 ^ 20)
def recRing (r : TenantRec) : Nat × Nat := (r.ringBase, r.ringMiB * 2 ^ 20)

/-- Whether two ranges (first, number) share a member. -/
def rangesMeet (a b : Nat × Nat) : Bool := decide (a.1 < b.1 + b.2) && decide (b.1 < a.1 + a.2)

/-- Whether two rectangles share a core. -/
def rectsMeet (a b : Rect) : Bool :=
  decide (a.xlo ≤ b.xhi) && decide (b.xlo ≤ a.xhi) && decide (a.ylo ≤ b.yhi) && decide (b.ylo ≤ a.yhi)

/-- How many filters firmware installs for a tenant on each port: one for frames under its secure channel, one more for
frames without MACsec where that is admitted (R462). -/
def recOwnFilters (r : TenantRec) : Nat := if r.macsecRequired then 1 else 2

/-- Whether a fabric-RAM range lies in the record's edge regions (10 R326: 192 blocks of 4 KiB each). -/
def framInRegions (r : TenantRec) (f : Fin 4 × Nat × Nat) : Bool :=
  decide (f.2.1 ≤ f.2.2) && (linesOf f.2.1 (f.2.2 + 1 - f.2.1)).all (fun l =>
    r.regions.any (fun g => decide (g.1 = f.1) && decide (g.2.val = l * 64 / (192 * 4096))))

/-- Whether a record names what the resources' own registers can hold. -/
def recordOk (r : TenantRec) : Bool :=
  decide (1 ≤ r.id.toNat) && decide (r.id.toNat ≤ 63) && decide (r.rects.length ≤ 8) && r.rects.all rectOk
    && decide (r.winBase < 2 ^ 15) && decide (r.winSize < 2 ^ 21) && r.regions.all (fun g => decide (g.2.val ≠ 0))
    && decide (r.fram.length ≤ 4) && r.fram.all (framInRegions r)
    && decide (r.filterBase + r.filters ≤ 256) && decide (recOwnFilters r ≤ r.filters) && decide (r.meter < 128)
    && decide (r.ringBase % 2 ^ 16 = 0) && decide (r.ringMiB < 2 ^ 16) && decide (r.replayWindow ≤ 64)
    && decide (1 ≤ r.creditInit) && decide (r.creditInit ≤ 64) && r.scis.all (fun p => r.ports.contains p.1)

/-- Whether a new record names a resource that the record of another tenant holds. Ports and traffic classes are shared. -/
def recordsMeet (r q : TenantRec) : Bool :=
  let shared := r.ports.any (fun p => q.ports.contains p)
  r.rects.any (fun a => q.rects.any (rectsMeet a))
    || rangesMeet (recWindow r) (recWindow q) || rangesMeet (recWindow r) (recRing q)
    || rangesMeet (recRing r) (recWindow q) || rangesMeet (recRing r) (recRing q)
    || r.regions.any (fun g => q.regions.contains g) || decide (r.mac = q.mac)
    || (shared && (rangesMeet (r.filterBase, r.filters) (q.filterBase, q.filters) || decide (r.meter = q.meter)))
    || r.scis.any (fun c => q.scis.contains c)

/-- Whether every resource that R458 reserves to one tenant is free for a record: not held by another tenant, its window free
of every VALID window and inside the module's memory, its ring outside the windows. -/
def State.resourcesFree (s : State) (r : TenantRec) : Bool :=
  s.liveTenants.all (fun t => !recordsMeet r (s.tenant t).res)
    && (List.range 4).all (fun e => s.windowFits e r.id.toNat (recWindow r).1 (recWindow r).2 && s.windowFits e 0 (recRing r).1 (recRing r).2)
    && !rangesMeet (recWindow r) (recRing r)

/-- The checks of TENANT_CREATE, in order; 0 when all pass. -/
def State.createCode (s : State) (r : TenantRec) : BitVec 16 :=
  let t := r.id.toNat
  if (s.tenant t).live then Code.ucpResource
  else if !(List.range 15).all s.ready then Code.ucpNotReady
  else if !s.resourcesFree r then Code.ucpResource
  else if !(List.range 4).any (fun an => (s.keyAn t an).loaded) then Code.ucpAuth
  else 0

/-- The NI registers of core n under a record (07 R268): window size, rectangles, fabric-RAM ranges, then the owner. -/
def State.buildCore (r : TenantRec) (s : State) (n : Nat) : State :=
  let k := niPage n
  let s1 := s.setReg64 (k + 0xC0) (BitVec.ofNat 64 (recWindow r).2)
  let s2 := r.rects.zipIdx.foldl (fun (s : State) p =>
    (s.setReg (k + 0x80 + 8 * p.2) (BitVec.ofNat 32 (p.1.xlo + p.1.xhi * 2 ^ 16 + 2 ^ 31))).setReg (k + 0x84 + 8 * p.2)
      (BitVec.ofNat 32 (p.1.ylo + p.1.yhi * 2 ^ 8))) s1
  let s3 := r.fram.zipIdx.foldl (fun (s : State) p =>
    (s.setReg (k + 0xD0 + 8 * p.2) (BitVec.ofNat 32 (p.1.2.1 + p.1.1.val * 2 ^ 24 + 2 ^ 31))).setReg (k + 0xD4 + 8 * p.2)
      (BitVec.ofNat 32 p.1.2.2)) s2
  s3.setReg (k + 0x40) (r.id.setWidth 32)

/-- The window of a record on the four window pages (12 R379, R399). -/
def State.buildWindow (s : State) (r : TenantRec) : State :=
  (List.range 4).foldl (fun (s : State) e =>
    ((s.winWrite e r.id.toNat false 0).winWrite e r.id.toNat true (BitVec.ofNat 32 r.winSize)).winWrite e r.id.toNat false
      (BitVec.ofNat 32 (r.winBase + 2 ^ 31))) s

/-- The registers of a record's home die: recorder ring, credit (08 R303, 14 R464). -/
def State.buildHome (s : State) (r : TenantRec) : State :=
  let t := r.id.toNat
  let e := r.home.val
  ((s.setReg64 (recKey e t 0x48) (BitVec.ofNat 64 r.ringBase)).setReg (recKey e t 0x50) (BitVec.ofNat 32 r.ringMiB)).setReg
    (ubxKey e t 0x58) (BitVec.ofNat 32 r.creditInit)

/-- The filter of a tenant's Ublexia frames: destination address, EtherType, any VLAN, to the engine; ch is the tenant, or 0
for frames without MACsec (13 R429; 14 R431, R462). -/
def engineFilter (r : TenantRec) (ch : Nat) : Nat :=
  r.mac.toNat + 2 ^ 60 + 1 * 2 ^ 61 + 2 ^ 63 + 0x88B5 * 2 ^ 64 + ch * 2 ^ 88 + 1 * 2 ^ 111

/-- Installs the filters of a record on each of its ports. -/
def State.buildFilters (s : State) (r : TenantRec) : State :=
  r.ports.foldl (fun (s : State) p =>
    let n := portNo p
    let s1 := s.putEntry n (filterKey n r.filterBase) (engineFilter r r.id.toNat)
    if r.macsecRequired then s1 else s1.putEntry n (filterKey n (r.filterBase + 1)) (engineFilter r 0)) s

/-- Builds a tenant: the owned blocks, then the filters. M_TENANT is zero (15 R472). -/
def State.buildTenant (s : State) (r : TenantRec) : State :=
  let t := r.id.toNat
  let ring := recRing r
  let s1 := s.setTenant t { Tenant.free with live := true, res := r, ring := { Ring.empty with base := ring.1, size := ring.2, since := s.time.toNat } }
  let s2 := (s1.tenantCores t).foldl (State.buildCore r) (s1.buildWindow r)
  let s3 := r.regions.foldl (fun (s : State) g => s.setReg (regionKey (edgeRegion g.1.val g.2.val) 0x48) (r.id.setWidth 32)) s2
  (s3.buildHome r).buildFilters r

/-- TENANT_CREATE. -/
def execTenantCreate (r : TenantRec) (s : State) : Host.Outcome State Fault Refusal :=
  done (s.whenUp fun s =>
    s.runCmd 255 0x100 (fun _ => !recordOk r) (fun s c =>
      let code := s.createCode r
      (if code = 0 then s.buildTenant r else s).finish 255 c code []))

/-! TENANT_DESTROY (R460) -/

/-- Steps 1 and 2: the filters and the meter are removed, the session is closed, and nothing that waits is sent. -/
def State.cutOff (s : State) (t : Nat) : State :=
  let r := (s.tenant t).res
  let s1 := r.ports.foldl (fun (s : State) p =>
    let n := portNo p
    (List.range r.filters).foldl (fun (s : State) i => s.putEntry n (filterKey n (r.filterBase + i)) 0) (s.putEntry n (meterKey n r.meter) 0)) s
  let s2 := (List.range 16).foldl (fun (s : State) n =>
    let p := s.port n
    let tx := p.tx.map (fun q => (q.1, q.2.filter (fun f => decide (f.tenant.toNat ≠ t) || decide (f.gone ≠ 0))))
    s.setPort n { p with tx := tx.filter (fun q => decide (q.2 ≠ [])) }) s1
  s2.setTenant t { (s2.tenant t) with sess := .closed, cmds := [], replies := [], events := [], progEvents := [], goes := [] }

/-- Step 3: whether a reef of the tenant is in progress, a configuration stream of it is still open, one of its regions is being loaded or released, or
the swap that its reservations need cannot begin yet. -/
def State.destroyWaits (s : State) (t : Nat) : Bool :=
  let r := (s.tenant t).res
  let busy (g : Nat) : Bool := decide ((s.region g).st = .loading) || decide ((s.region g).st = .releasing)
  s.reefs.any (fun x => decide (x.t = t)) || (List.range 4).any (fun e => (s.halAt e).mc.opened && decide ((s.halAt e).mc.tenant.toNat = t))
    || (s.tenantCores t).any (fun n => busy (collarRegion n)) || r.regions.any (fun g => busy (edgeRegion g.1.val g.2.val))
    || (!(s.tenant t).streams.isEmpty && !s.swapFree)

/-- Steps 4 and 5 at one core: its sequencer stopped, every page soft-reset, scratchpad and line buffer empty, the collar
cleared, the owner 0. -/
def State.clearCore (s : State) (n : Nat) : State :=
  let s1 := s.modCore n Core.stop
  let s2 := (List.range 10).foldl (fun (s : State) p =>
    match keyBlk (corePage n p) with
    | some b => s.softReset b (headPage b (corePage n p))
    | none => s) s1
  let s3 := s2.modCore n (fun c => { c with spad := [], poison := [], zeroing := false, rlb := [], misses := [], rlbOp := 0 })
  (s3.setReg (niPage n + 0x40) 0).shrClear (collarRegion n) 0x40

/-- The reservations of a tenant are cleared by a swap on the links they were made on; each RTR_FLOOR falls with it. -/
def State.clearStreams (s : State) (t : Nat) : State :=
  let l := (s.tenant t).streams
  if l.isEmpty then s
  else
    let s1 := s.epochSwap (fun s => l.foldl State.clearStream s)
    (s1.setTenant t { (s1.tenant t) with streams := [] }).lowerFloors

/-- Fills a range of physical memory with zeros: contents, poison and directory state are gone. -/
def State.fillZero (s : State) (base size : Nat) : State :=
  let out (k w : Nat) : Bool := decide (k < base / w) || decide ((base + size + w - 1) / w ≤ k)
  let lost := ((List.range 96).any (fun c => decide ((s.chan c).lost ≠ 0)))
  let fresh := s.lfresh.filter (fun p => out p.1 64)
  { s with
    lpddr := s.lpddr.filter (fun p => out p.1 1), lpoison := s.lpoison.filter (fun p => out p.1 64), dir := s.dir.filter (fun p => out p.1 64),
    lfresh := if lost then Sparse.putRange false fresh (base / 64) ((size + 63) / 64) true else fresh }

/-- The window is taken down on the four pages. -/
def State.dropWindow (s : State) (t : Nat) : State := (List.range 4).foldl (fun (s : State) e => s.winWrite e t false 0) s

/-- Steps 4 to 6. -/
def State.eraseTenant (s : State) (t : Nat) : State :=
  let r := (s.tenant t).res
  let s1 := ((s.tenantCores t).foldl State.clearCore s).clearStreams t
  let s2 := r.regions.foldl (fun (s : State) g =>
    let k := edgeRegion g.1.val g.2.val
    ((s.clearMemory k).shrClear k (0x100 + 0x20 * g.2.val)).setReg (regionKey k 0x48) 0) s1
  let s3 := ((s2.dropWindow t).fillZero (recWindow r).1 (recWindow r).2).fillZero (recRing r).1 (recRing r).2
  let s4 := (s3.setReg64 (recKey r.home.val t 0x48) 0).setReg (recKey r.home.val t 0x50) 0
  let s5 := ({ s4 with rxChans := s4.rxChans.filter (fun p => decide (p.1 / 16 ≠ t)) } : State).eraseSlot t
  s5.setTenant t Tenant.free

/-- TENANT_DESTROY of tenant t: the first two steps at once, the rest as soon as nothing of step 3 is in progress. -/
def State.destroy (s : State) (t : Nat) (c : QCmd) : State :=
  if (s.tenant t).live = false ∨ 63 < t then s.finish 255 c Code.ucpResource []
  else
    let s1 := s.cutOff t
    if s1.destroyWaits t then s1 else (s1.eraseTenant t).finish 255 c 0 []

/-- TENANT_DESTROY. -/
def execTenantDestroy (t : BitVec 8) (s : State) : Host.Outcome State Fault Refusal :=
  done (s.whenUp fun s => s.runCmd 255 0x101 (fun _ => false) (fun s c => s.destroy t.toNat c))

/-! TENANT_STATUS (R459) -/

/-- A tenant's record and session state as TENANT_STATUS returns them; the layout is the model's. -/
def Tenant.statusBytes (x : Tenant) : List Byte :=
  let r := x.res
  let lst {α : Type} (l : List α) (f : α → List Byte) : List Byte := beBytes 1 l.length ++ (l.map f).flatten
  beBytes 1 r.id.toNat
    ++ lst r.rects (fun a => beBytes 2 a.xlo ++ beBytes 2 a.xhi ++ beBytes 2 a.ylo ++ beBytes 2 a.yhi)
    ++ beBytes 4 r.winBase ++ beBytes 4 r.winSize ++ lst r.regions (fun g => beBytes 1 g.1.val ++ beBytes 1 g.2.val)
    ++ lst r.fram (fun f => beBytes 1 f.1.val ++ beBytes 4 f.2.1 ++ beBytes 4 f.2.2)
    ++ lst r.ports (fun p => beBytes 1 (portNo p)) ++ beBytes 1 r.tclass.toNat ++ beBytes 6 r.mac.toNat
    ++ beBytes 2 r.filterBase ++ beBytes 2 r.filters ++ beBytes 1 r.meter ++ beBytes 1 r.home.val ++ beBytes 8 r.ringBase
    ++ beBytes 2 r.ringMiB ++ beBytes 1 r.replayWindow ++ beBytes 1 (b2n r.macsecRequired) ++ beBytes 1 r.creditInit
    ++ lst r.scis (fun p => beBytes 1 (portNo p.1) ++ beBytes 8 p.2.toNat)
    ++ beBytes 1 (match x.sess.st with | .none => 0 | .open_ => 1 | .lost => 2 | .closing => 3)

/-- TENANT_STATUS. -/
def execTenantStatus (t : BitVec 8) (s : State) : Host.Outcome State Fault Refusal :=
  done (s.whenUp fun s =>
    s.runCmd 255 0x102 (fun _ => false) (fun s c =>
      let x := s.tenant t.toNat
      if x.live then s.finish 255 c 0 x.statusBytes else s.finish 255 c Code.ucpResource []))

end Sys2Proof.Machine
end

