-- ==== Sys2Proof/Machine/MemOps.lean ====
section
/-! DEFINITION. The loads and stores of slot 2 (04 R132 to R135): address generators, the own scratchpad, LPDDR through the
remote-line buffer (06 R196 to R198), fabric RAM and control registers over the memory planes (06 R184, R185; 07 R254,
R255, R261). -/
namespace Sys2Proof.Machine

/-! Address generators (R132) -/

/-- wrap(n, x): none where the mode is circular and the length 0. -/
def Core.wrapAddr (c : Core) (n : BitVec 3) (x : Int) : Option Nat :=
  if c.mode.getLsbD n.toNat = false then some (x % 2 ^ 56).toNat
  else
    let len : Int := (c.lenOf n).toNat
    let b : Int := (c.baseOf n).toNat
    if len = 0 then none else some ((b + (x - b) % len) % 2 ^ 56).toNat

/-- An address with its offset replaced; the space stays. -/
def inSpace (a : Dword) (x : Nat) : Dword := BitVec.ofNat 64 (a.toNat / 2 ^ 56 * 2 ^ 56 + x)

/-- access(n, am, off, size): the effective address, and the new a_n of a post-modify; none is an AGU fault. -/
def Core.agu (c : Core) (n : BitVec 3) (am : BitVec 2) (off : BitVec 11) (size : Nat) : Option (Dword × Option Dword) :=
  let a := c.ar n
  let x : Int := (a.toNat % 2 ^ 56 : Nat)
  let d : Int := off.toInt * size
  if am = 0 then (c.wrapAddr n (x + d)).map (fun e => (inSpace a e, none))
  else
    match c.wrapAddr n x, c.wrapAddr n (x + (if am = 1 then (c.mr n).toInt else d)) with
    | some e, some u => some (inSpace a e, some (inSpace a u))
    | _, _ => none

/-! The operations (R133) -/

/-- A slot-2 access: opcode, the size by which offsets count, the alignment, load or store, and whether a v register is
named (moved lane by lane, or one word to every lane). -/
structure MemKind where
  op : Nat
  size : Nat
  align : Nat
  load : Bool
  vec : Bool
  bcast : Bool
deriving DecidableEq, Repr

def MemKind.ldb : MemKind := ⟨0x01, 1, 1, true, false, false⟩
def MemKind.ldh : MemKind := ⟨0x02, 2, 2, true, false, false⟩
def MemKind.ldw : MemKind := ⟨0x03, 4, 4, true, false, false⟩
def MemKind.ldd : MemKind := ⟨0x04, 8, 8, true, false, false⟩
def MemKind.stb : MemKind := ⟨0x05, 1, 1, false, false, false⟩
def MemKind.sth : MemKind := ⟨0x06, 2, 2, false, false, false⟩
def MemKind.stw : MemKind := ⟨0x07, 4, 4, false, false, false⟩
def MemKind.std : MemKind := ⟨0x08, 8, 8, false, false, false⟩
def MemKind.ldv : MemKind := ⟨0x09, 128, 64, true, true, false⟩
def MemKind.stv : MemKind := ⟨0x0A, 128, 64, false, true, false⟩
def MemKind.ldvb : MemKind := ⟨0x0B, 4, 4, true, false, true⟩

/-- Whether the access names a v register. -/
def MemKind.usesV (k : MemKind) : Bool := k.vec || k.bcast

/-- The bytes that an access moves: of a vector, those of its active lanes. -/
def MemKind.moved (k : MemKind) (c : Core) : Nat := if k.vec then 4 * min 32 c.vl else k.size

/-- The bytes that a store moves, from the registers before the bundle. -/
def MemKind.source (k : MemKind) (c : Core) (r : BitVec 6) : List Byte :=
  if k.vec then leBytes (k.moved c) (c.vr r).toNat else leBytes k.size (c.gr (r.setWidth 5)).toNat

/-- The register that a load writes. -/
def MemKind.dest (k : MemKind) (c : Core) (r : BitVec 6) : Dest :=
  if k.usesV then .v (physV c.rotV r) else .g (physG c.rotG (r.setWidth 5))

/-- A load delivers its bytes: zero-extended to a g register, lane by lane to a v register, or one word to every active
lane; inactive lanes stay. `c` is the core before the bundle. -/
def MemKind.deliver (k : MemKind) (c : Core) (r : BitVec 6) (l : List Byte) (d : Core) : Core :=
  if k.usesV then
    let i := physV c.rotV r
    let lanes := 32 * min 32 c.vl
    let v := if k.bcast then (List.range 32).foldl (fun x j => x + leNat l * 2 ^ (32 * j)) 0 else leNat l
    d.setV i (BitVec.ofNat 1024 (setBits (c.vPhys i).toNat 0 lanes v))
  else d.setG (physG c.rotG (r.setWidth 5)) (BitVec.ofNat 64 (leNat l))

/-! What an access does in its space -/

/-- An access in one space: its fault, whether it stalls, its effect, what it does while it stalls, and what its checks
have found when it faults. -/
structure MemDo where
  fault : Option Flt := none
  stalls : Bool := false
  act : State → State := fun s => s
  wait : State → State := fun s => s
  onFault : State → State := fun s => s

/-- The own scratchpad: bits [19:0] count, and the access never wraps (R134). -/
def State.memSpad (s : State) (n : Nat) (k : MemKind) (r : BitVec 6) (a : Dword) (e : Ecc) : MemDo :=
  let c := s.core n
  let off := a.toNat % 2 ^ 20
  let len := k.moved c
  let ws := wordsOf off len
  if 2 ^ 20 < off + k.size then { fault := some (.access a) }
  else if c.spadWaits then { stalls := true, wait := fun t => t.spadTouch n }
  else if k.load then
    { fault := if c.readPoisoned off len e then some (.poison a) else none,
      act := fun t => (t.eccFound n ws e).modCore n (k.deliver c r (c.spadBytes off len)),
      onFault := fun t => t.eccFound n ws e }
  else { act := fun t => t.spadWrite n off (k.source c r) }

/-- The fault of a request that has been answered with an error (R150). -/
def answerFault (a : Dword) (status : BitVec 16) : Flt :=
  if status = Code.memUncorrectable then .poison a
  else if status = Code.netPartition then .refused a
  else .access a

/-- The bit errors that a read of the line buffer finds (06 R198), in the words of a window offset: corrected ones are
counted; an uncorrectable one discards a clean line, and marks a dirty one poisoned. -/
def State.rlbEcc (s : State) (n o len : Nat) (e : Ecc) : State :=
  let ws := wordsOf o len
  let corr := ws.filter (fun w => e.corr.contains w && !e.unc.contains w)
  let unc := ws.filter (fun w => e.unc.contains w)
  let s1 := if corr.isEmpty then s else s.incSat (spadPage n + 0x54) corr.length
  let s2 := if unc.isEmpty then s1 else s1.incSat (spadPage n + 0x58) unc.length
  s2.modCore n (fun c => { c with
    rlb := c.rlb.filterMap (fun l =>
      if !unc.any (fun w => decide (w / 8 = l.line)) then some l
      else if l.dirty then some { l with poisoned := true } else none) })

/-- LPDDR, through the remote-line buffer: the partition check, then misses, whose failures fault, then poison. -/
def State.memLpddr (s : State) (n : Nat) (k : MemKind) (r : BitVec 6) (a : Dword) (e : Ecc) : MemDo :=
  let c := s.core n
  let o := offOf a.toNat
  let len := k.moved c
  let lines := linesOf o len
  let failed := c.misses.filter (fun m => lines.contains m.line && decide (m.status ≠ 0))
  let bad := lines.any (fun l => wordsOf (l * 64) 64 |>.any (fun w => (wordsOf o len).contains w && e.unc.contains w))
  let c1 := (s.rlbEcc n o len e).core n
  if addrBad a.toNat ∨ 2 ^ 41 < o + k.size then { fault := some (.access a) }
  else if !s.admits n ⟨1, 0, 0, 0, o⟩ k.size then { fault := some (.refused a) }
  else if decide (c.retention = .retained) || decide (c.retention = .waking) then { stalls := true, wait := fun t => t.spadTouch n }
  else match failed with
    | m :: _ =>
      { fault := some (answerFault a m.status),
        onFault := fun t => t.modCore n (fun c => { c with misses := c.misses.filter (fun x => !failed.contains x) }) }
    | [] =>
      if !lines.all (c.rlbServes !k.load) then
        { stalls := true, wait := fun t => lines.foldl (fun t l => t.rlbMiss n (!k.load) l) t }
      else if k.load then
        if bad && !lines.all (c1.rlbServes false) then
          { stalls := true, wait := fun t => lines.foldl (fun t l => t.rlbMiss n false l) (t.rlbEcc n o len e) }
        else
          { fault := if lines.any (fun l => match c1.rlbFind l with | some x => x.poisoned | none => false) then some (.poison a) else none,
            act := fun t => (lines.foldl (fun t l => t.rlbUse n l) (t.rlbEcc n o len e)).modCore n (k.deliver c r (c.rlbBytes o len)),
            onFault := fun t => t.rlbEcc n o len e }
      else
        { act := fun t => (lines.foldl (fun t l => t.rlbUse n l) t).modCore n (fun d =>
            d.rlbStore o ((k.source c r).map (fun b => (true, b)))) }

/-! Memory-plane accesses of the sequencer -/

/-- The byte enables of an access of 8 B or less. -/
def beOf (a len : Nat) : BitVec 8 := BitVec.ofNat 8 ((2 ^ min 8 len - 1) * 2 ^ (a % 8))

/-- A request of the sequencer: SIZE 0 up to 4 B, 1 for 8 B, 2 beyond (07 R254). -/
def State.seqReq (s : State) (n op : Nat) (tag : BitVec 12) (a : Dword) (len : Nat) : PReq :=
  let q := s.planeReq n (BitVec.ofNat 5 op) tag a (if len ≤ 4 then 0 else if len ≤ 8 then 1 else 2)
  if len ≤ 8 then { q with be := beOf a.toNat len } else q

/-- The pieces of an access: an address and bytes in each 64 B line. -/
def pieces (a : Dword) (len : Nat) : List (Dword × Nat) :=
  let o := a.toNat % 64
  if len = 0 then []
  else (List.range ((o + len - 1) / 64 + 1)).map (fun i =>
    let lo := if i = 0 then o else 64 * i
    (a - BitVec.ofNat 64 o + BitVec.ofNat 64 lo, min (o + len) (64 * i + 64) - lo))

/-- The tags of the sequencer's reads, 0xFF0 to 0xFFB, that no read holds. -/
def Core.readTags (c : Core) : List (BitVec 12) :=
  ((List.range 12).map (fun i => BitVec.ofNat 12 (0xFF0 + i))).filter (fun t => !c.seqReads.any (fun r => decide (r.tag = t)))

/-- A load over a plane: it waits for the acknowledgement of earlier stores (R135), sends its reads, and waits for their
answers. `op` is RD or CRD; `data` takes a piece's bytes from its answer. -/
def State.planeLoad (s : State) (n op : Nat) (k : MemKind) (r : BitVec 6) (a : Dword)
    (data : Dword → Nat → BitVec 16 × List Byte → List Byte) (failed : BitVec 16 → Bool) : MemDo :=
  let c := s.core n
  let ps := pieces a (k.moved c)
  let live := c.seqReads.filter (fun x => !x.dropped)
  let ans := ps.map (fun p => (live.find? (fun x => decide (x.addr = p.1))).bind (fun x => x.ans.map (fun v => (p, v))))
  let sendAll (t : State) : State :=
    let rs := ps.zip c.readTags
    rs.foldl (fun t p => t.send (.plane op (s.seqReq n op p.2 p.1.1 p.1.2) [] false))
      (t.modCore n (fun c => { c with seqReads := c.seqReads ++ rs.map (fun p => { addr := p.1.1, tag := p.2, dropped := false, ans := none }) }))
  let sent := ps.all (fun p => live.any (fun x => decide (x.addr = p.1)))
  if c.posted ≠ 0 then { stalls := true }
  else if !sent then { stalls := true, wait := if ps.length ≤ c.readTags.length then sendAll else fun t => t }
  else if !ans.all Option.isSome then { stalls := true }
  else match (ans.filterMap id).find? (fun v => failed v.2.1) with
    | some v => { fault := some (answerFault a v.2.1) }
    | none =>
      let l := ((ans.filterMap id).map (fun v => data v.1.1 v.1.2 v.2)).flatten
      { act := fun t => t.modCore n (k.deliver c r l) }

/-- A posted store over a plane: WR or CWR. One to the own generator page carries the tag 0xFFE and is counted apart, for
the draws that wait for it (05 R173). -/
def State.planeStore (s : State) (n op : Nat) (k : MemKind) (r : BitVec 6) (a : Dword) (own : Bool := false) : MemDo :=
  let c := s.core n
  let src := k.source c r
  let ps := pieces a (k.moved c)
  { act := fun t =>
      ps.foldl (fun t p =>
        (t.modCore n (fun c => { c with posted := c.posted + 1, rngPosted := c.rngPosted + b2n own })).send
          (.plane op (s.seqReq n op (if own then 0xFFE else 0xFFD) p.1 p.2) (bytesAt src (p.1 - a).toNat p.2) false)) t }

/-- Fabric RAM. -/
def State.memFram (s : State) (n : Nat) (k : MemKind) (r : BitVec 6) (a : Dword) : MemDo :=
  let o := offOf a.toNat
  if addrBad a.toNat ∨ spaceEnd 2 < o + k.size then { fault := some (.access a) }
  else if !s.admits n ⟨2, 0, 0, edgeOf a.toNat, o⟩ k.size then { fault := some (.refused a) }
  else if k.load then
    s.planeLoad n 5 k r a (fun p len v => bytesAt v.2 (p.toNat % 64) len) (fun st => decide (st ≠ 0))
  else s.planeStore n 6 k r a

/-- The party that a core's own control access acts for. -/
def State.corePartyOf (s : State) (n : Nat) : Party := if s.niTenant n = 0xFF then .firmware else .program (coreOf n)

/-- Control registers: LDW, LDD, STW and STD alone. SELF = 1 is a page of the own unit, served by the own interface at
once; any other address leaves as CRD or CWR once the sending check of R261 lets it. -/
def State.memCtl (s : State) (n : Nat) (k : MemKind) (r : BitVec 6) (a : Dword) : MemDo :=
  let c := s.core n
  let x := a.toNat
  let wide := decide (k.size = 8)
  let self := selfOf x
  let key := if self then corePage n (bits x 12 4) + bits x 0 12 else addrKey (x % 2 ^ 44)
  let who := s.corePartyOf n
  let fw := decide (s.niTenant n = 0xFF)
  if k.usesV || decide (k.size < 4) then { fault := some (.access a) }
  else if bits x 44 11 ≠ 0 ∨ (self = true ∧ (bits x 32 8 ≠ 0 ∨ bits x 16 16 ≠ 0)) then { fault := some (.access a) }
  else if s.niTenant n = 0 ∨ (fw = false ∧ s.mayRead who key = false) then { fault := some (.refused a) }
  else if self then
    if c.posted ≠ 0 then { stalls := true }
    else if keyBlk key = none then
      { act := fun t => if k.load then t.modCore n (k.deliver c r []) else t }
    else if (if k.load then coversRdata key wide else !s.mayWrite who key) then { fault := some (.refused a) }
    else if k.load then
      { act := fun t =>
          let q := t.readCtl key wide
          q.1.modCore n (k.deliver c r (leBytes k.size q.2.toNat)) }
    else { act := fun t => t.writeCtl key wide (BitVec.ofNat 64 (leNat (k.source c r))) }
  else if k.load then
    s.planeLoad n 7 k r a (fun _ len v => bytesAt v.2 0 len) (fun st => decide (st ≠ 0) && !(fw && decide (st = Code.netRouteNone)))
  else s.planeStore n 8 k r a (decide (key / 4096 * 4096 = rngPage n))

/-- An access in the space that its address names (R134). -/
def State.memDo (s : State) (n : Nat) (k : MemKind) (r : BitVec 6) (a : Dword) (e : Ecc) : MemDo :=
  if a.toNat % k.align ≠ 0 then { fault := some (.misaligned a) }
  else match spaceOf a.toNat with
    | 0 => s.memSpad n k r a e
    | 1 => s.memLpddr n k r a e
    | 2 => s.memFram n k r a
    | 3 => s.memCtl n k r a
    | _ => { fault := some (.access a) }

/-- A load or store as a slot operation. -/
def memOp (k : MemKind) (r : BitVec 6) (g : BitVec 3) (am : BitVec 2) (off : BitVec 11) (e : Ecc) : State → Nat → SlotOp := fun s n =>
  let c := s.core n
  let bad := decide (am = 3) || (!k.usesV && r.getLsbD 5)
  let dests : List Dest := (if k.load then [k.dest c r] else []) ++ (if am = 1 ∨ am = 2 then [.a g.toNat] else [])
  match c.agu g am off k.size with
  | none => { op := k.op, illegal := bad, dests := dests, fault := some .agu }
  | some (a, upd) =>
    let d := s.memDo n k r a e
    { op := k.op, illegal := bad, dests := dests, fault := d.fault, stall := if d.stalls then .other else .none, onFault := d.onFault,
      wait := d.wait,
      act := fun t => match upd with
        | some u => (d.act t).modCore n (fun c => c.setA g u)
        | none => d.act t }

/-- The operation of LDB: loads 1 byte, zero-extended. -/
def opLdb (r : BitVec 6) (n : BitVec 3) (am : BitVec 2) (off : BitVec 11) (e : Ecc) : State → Nat → SlotOp := memOp .ldb r n am off e

/-- LDB. -/
def execLdb (o : Slot) (r : BitVec 6) (n : BitVec 3) (am : BitVec 2) (off : BitVec 11) (e : Ecc) (s : State) : Host.Outcome State Fault Refusal :=
  done (s.issueOp o 2 (opLdb r n am off e))

/-- The operation of LDH: loads 2 bytes, zero-extended. -/
def opLdh (r : BitVec 6) (n : BitVec 3) (am : BitVec 2) (off : BitVec 11) (e : Ecc) : State → Nat → SlotOp := memOp .ldh r n am off e

/-- LDH. -/
def execLdh (o : Slot) (r : BitVec 6) (n : BitVec 3) (am : BitVec 2) (off : BitVec 11) (e : Ecc) (s : State) : Host.Outcome State Fault Refusal :=
  done (s.issueOp o 2 (opLdh r n am off e))

/-- The operation of LDW: loads 4 bytes, zero-extended. -/
def opLdw (r : BitVec 6) (n : BitVec 3) (am : BitVec 2) (off : BitVec 11) (e : Ecc) : State → Nat → SlotOp := memOp .ldw r n am off e

/-- LDW. -/
def execLdw (o : Slot) (r : BitVec 6) (n : BitVec 3) (am : BitVec 2) (off : BitVec 11) (e : Ecc) (s : State) : Host.Outcome State Fault Refusal :=
  done (s.issueOp o 2 (opLdw r n am off e))

/-- The operation of LDD: loads 8 bytes. -/
def opLdd (r : BitVec 6) (n : BitVec 3) (am : BitVec 2) (off : BitVec 11) (e : Ecc) : State → Nat → SlotOp := memOp .ldd r n am off e

/-- LDD. -/
def execLdd (o : Slot) (r : BitVec 6) (n : BitVec 3) (am : BitVec 2) (off : BitVec 11) (e : Ecc) (s : State) : Host.Outcome State Fault Refusal :=
  done (s.issueOp o 2 (opLdd r n am off e))

/-- The operation of STB: stores the low byte of g. -/
def opStb (r : BitVec 6) (n : BitVec 3) (am : BitVec 2) (off : BitVec 11) : State → Nat → SlotOp := memOp .stb r n am off ⟨[], []⟩

/-- STB. -/
def execStb (o : Slot) (r : BitVec 6) (n : BitVec 3) (am : BitVec 2) (off : BitVec 11) (s : State) : Host.Outcome State Fault Refusal :=
  done (s.issueOp o 2 (opStb r n am off))

/-- The operation of STH: stores the low 2 bytes of g. -/
def opSth (r : BitVec 6) (n : BitVec 3) (am : BitVec 2) (off : BitVec 11) : State → Nat → SlotOp := memOp .sth r n am off ⟨[], []⟩

/-- STH. -/
def execSth (o : Slot) (r : BitVec 6) (n : BitVec 3) (am : BitVec 2) (off : BitVec 11) (s : State) : Host.Outcome State Fault Refusal :=
  done (s.issueOp o 2 (opSth r n am off))

/-- The operation of STW: stores the low 4 bytes of g. -/
def opStw (r : BitVec 6) (n : BitVec 3) (am : BitVec 2) (off : BitVec 11) : State → Nat → SlotOp := memOp .stw r n am off ⟨[], []⟩

/-- STW. -/
def execStw (o : Slot) (r : BitVec 6) (n : BitVec 3) (am : BitVec 2) (off : BitVec 11) (s : State) : Host.Outcome State Fault Refusal :=
  done (s.issueOp o 2 (opStw r n am off))

/-- The operation of STD: stores g. -/
def opStd (r : BitVec 6) (n : BitVec 3) (am : BitVec 2) (off : BitVec 11) : State → Nat → SlotOp := memOp .std r n am off ⟨[], []⟩

/-- STD. -/
def execStd (o : Slot) (r : BitVec 6) (n : BitVec 3) (am : BitVec 2) (off : BitVec 11) (s : State) : Host.Outcome State Fault Refusal :=
  done (s.issueOp o 2 (opStd r n am off))

/-- The operation of LDV: loads each active lane of v. -/
def opLdv (r : BitVec 6) (n : BitVec 3) (am : BitVec 2) (off : BitVec 11) (e : Ecc) : State → Nat → SlotOp := memOp .ldv r n am off e

/-- LDV. -/
def execLdv (o : Slot) (r : BitVec 6) (n : BitVec 3) (am : BitVec 2) (off : BitVec 11) (e : Ecc) (s : State) : Host.Outcome State Fault Refusal :=
  done (s.issueOp o 2 (opLdv r n am off e))

/-- The operation of STV: stores each active lane of v; the bytes of inactive lanes are not written. -/
def opStv (r : BitVec 6) (n : BitVec 3) (am : BitVec 2) (off : BitVec 11) : State → Nat → SlotOp := memOp .stv r n am off ⟨[], []⟩

/-- STV. -/
def execStv (o : Slot) (r : BitVec 6) (n : BitVec 3) (am : BitVec 2) (off : BitVec 11) (s : State) : Host.Outcome State Fault Refusal :=
  done (s.issueOp o 2 (opStv r n am off))

/-- The operation of LDVB: one 32-bit word into every active lane of v. -/
def opLdvb (r : BitVec 6) (n : BitVec 3) (am : BitVec 2) (off : BitVec 11) (e : Ecc) : State → Nat → SlotOp := memOp .ldvb r n am off e

/-- LDVB. -/
def execLdvb (o : Slot) (r : BitVec 6) (n : BitVec 3) (am : BitVec 2) (off : BitVec 11) (e : Ecc) (s : State) : Host.Outcome State Fault Refusal :=
  done (s.issueOp o 2 (opLdvb r n am off e))

end Sys2Proof.Machine
end

