-- ==== Sys2Proof/Machine/Bundle.lean ====
section
/-! DEFINITION. A bundle in the scratchpad: its slot words (04 R125, R126), the encodings of every Slovo operation (R128 to
R138), the fetch, and STEP (R151). -/
namespace Sys2Proof.Machine

/-! Slot words -/

/-- A field of a slot word. -/
abbrev sf (w lo n : Nat) : BitVec n := BitVec.ofNat n (bits w lo n)

/-- An illegal operation of an opcode. -/
def badOp (op : Nat) : State → Nat → SlotOp := fun _ _ => { op := op, illegal := true }

/-- An operation whose operand bits outside `used` shall be 0 (R128). -/
def usedBits (w used : Nat) (f : State → Nat → SlotOp) : State → Nat → SlotOp :=
  if (w % 2 ^ 22) &&& (2 ^ 22 - 1 - used) = 0 then f else badOp (bits w 22 6)

/-- The control operations of slot 0 (R129). -/
def decodeControl (w : Nat) (e : Ecc) : State → Nat → SlotOp :=
  match bits w 22 6 with
  | 0x01 => opBr (sf w 0 22)
  | 0x02 => usedBits w 0x01F000 (opBrr (sf w 12 5))
  | 0x03 => opCall (sf w 0 22)
  | 0x04 => usedBits w 0x3FFF00 (opLoop (sf w 17 5) (sf w 11 6) (sf w 9 2) (w.testBit 8))
  | 0x05 => opLoopi (sf w 9 13) (sf w 3 6) (sf w 1 2) (w.testBit 0)
  | 0x06 => usedBits w 0x3DF000 (opIssue (sf w 20 2) (sf w 18 2) (sf w 12 5) e)
  | 0x07 => usedBits w 0x3FFF00 (opWait (sf w 18 4) (sf w 14 4) (w.testBit 13) (sf w 8 5))
  | 0x08 => usedBits w 0 opFence
  | 0x09 => usedBits w 0x3E07E0 (opMfs (sf w 17 5) (sf w 5 6))
  | 0x0A => usedBits w 0x01F7E0 (opMts (sf w 12 5) (sf w 5 6))
  | 0x0B => usedBits w 0x3E03FF (opClr (sf w 17 5) (sf w 0 10))
  | 0x0C => usedBits w 0x01F3FF (opClw (sf w 12 5) (sf w 0 10))
  | 0x0D => usedBits w 0x00FFFF (opEvent (sf w 0 16))
  | 0x0E => usedBits w 0 opHalt
  | op => badOp op

/-- The scalar operations of slots 0 and 1 (R130). -/
def decodeScalar (w : Nat) : State → Nat → SlotOp :=
  let gd : BitVec 5 := sf w 17 5
  let ga : BitVec 5 := sf w 12 5
  let gb : BitVec 5 := sf w 7 5
  let pd : BitVec 3 := sf w 17 3
  let imm : BitVec 12 := sf w 0 12
  match bits w 22 6 with
  | 0x10 => usedBits w 0x3FFF80 (opAdd gd ga gb)
  | 0x11 => usedBits w 0x3FFF80 (opSub gd ga gb)
  | 0x12 => usedBits w 0x3FFF80 (opAnd gd ga gb)
  | 0x13 => usedBits w 0x3FFF80 (opOr gd ga gb)
  | 0x14 => usedBits w 0x3FFF80 (opXor gd ga gb)
  | 0x15 => usedBits w 0x3FFF80 (opShl gd ga gb)
  | 0x16 => usedBits w 0x3FFF80 (opShr gd ga gb)
  | 0x17 => usedBits w 0x3FFF80 (opSha gd ga gb)
  | 0x18 => usedBits w 0x3FFF80 (opMul gd ga gb)
  | 0x19 => usedBits w 0x3FFF80 (opSmin gd ga gb)
  | 0x1A => usedBits w 0x3FFF80 (opSmax gd ga gb)
  | 0x1B => usedBits w 0x0FFF80 (opCmplt pd ga gb)
  | 0x1C => usedBits w 0x0FFF80 (opCmpltu pd ga gb)
  | 0x1D => usedBits w 0x0FFF80 (opCmpeq pd ga gb)
  | 0x1E => usedBits w 0x0E738F (opPlog pd (sf w 12 3) (sf w 7 3) (sf w 0 4))
  | 0x20 => opAddi gd ga imm
  | 0x21 => opAndi gd ga imm
  | 0x22 => opOri gd ga imm
  | 0x23 => opXori gd ga imm
  | 0x24 => opShli gd ga imm
  | 0x25 => opShri gd ga imm
  | 0x26 => opShai gd ga imm
  | 0x27 => usedBits w 0x0FFFFF (opCmplti pd ga imm)
  | 0x28 => usedBits w 0x0FFFFF (opCmpeqi pd ga imm)
  | 0x29 => opMovi gd (sf w 0 17)
  | 0x2A => opShlor gd (sf w 0 17)
  | op => badOp op

/-- The generator operations of slot 1 (R131). -/
def decodeGen (w : Nat) : State → Nat → SlotOp :=
  let n : BitVec 3 := sf w 19 3
  let ga : BitVec 5 := sf w 12 5
  let imm : BitVec 12 := sf w 0 12
  match bits w 22 6 with
  | 0x30 => usedBits w 0x39FFFF (opSeta n ga imm)
  | 0x31 => usedBits w 0x39FFFF (opSetm n ga imm)
  | 0x32 => usedBits w 0x39FFFF (opSetb n ga imm)
  | 0x33 => usedBits w 0x39FFFF (opSetl n ga imm)
  | 0x34 => usedBits w 0x39FFFF (opSetmd n ga imm)
  | 0x35 => usedBits w 0x39FFFF (opGeta n ga imm)
  | op => badOp op

/-- The memory operations of slot 2 (R133). -/
def decodeMem (w : Nat) (e : Ecc) : State → Nat → SlotOp :=
  let r : BitVec 6 := sf w 16 6
  let n : BitVec 3 := sf w 13 3
  let am : BitVec 2 := sf w 11 2
  let off : BitVec 11 := sf w 0 11
  match bits w 22 6 with
  | 0x01 => opLdb r n am off e
  | 0x02 => opLdh r n am off e
  | 0x03 => opLdw r n am off e
  | 0x04 => opLdd r n am off e
  | 0x05 => opStb r n am off
  | 0x06 => opSth r n am off
  | 0x07 => opStw r n am off
  | 0x08 => opStd r n am off
  | 0x09 => opLdv r n am off e
  | 0x0A => opStv r n am off
  | 0x0B => opLdvb r n am off e
  | 0x0C => usedBits w 0x3F0001 (opVpush r (w.testBit 0))
  | 0x0D => usedBits w 0x3F0001 (opVpull r (w.testBit 0))
  | op => badOp op

/-- The vector operations of slot 3 (R136, R137). -/
def decodeVector (w : Nat) : State → Nat → SlotOp :=
  let vd : BitVec 6 := sf w 16 6
  let va : BitVec 6 := sf w 10 6
  let vb : BitVec 6 := sf w 4 6
  let mod : BitVec 4 := sf w 0 4
  let v (q : VecOp) : State → Nat → SlotOp := vecOp q vd va vb mod
  match bits w 22 6 with
  | 0x01 => v (opFaddS va vb mod)
  | 0x02 => v (opFsubS va vb mod)
  | 0x03 => v (opFmulS va vb mod)
  | 0x04 => v (opFmaS va vb mod)
  | 0x05 => v (opFminS va vb mod)
  | 0x06 => v (opFmaxS va vb mod)
  | 0x07 => v (opFdivS va vb mod)
  | 0x08 => v (opFsqrtS va vb mod)
  | 0x09 => v (opFaddD va vb mod)
  | 0x0A => v (opFsubD va vb mod)
  | 0x0B => v (opFmulD va vb mod)
  | 0x0C => v (opFmaD va vb mod)
  | 0x0D => v (opFdivD va vb mod)
  | 0x0E => v (opFsqrtD va vb mod)
  | 0x10 => v (opHaddB va vb mod)
  | 0x11 => v (opHmulB va vb mod)
  | 0x12 => v (opHfmaB va vb mod)
  | 0x13 => v (opHaddH va vb mod)
  | 0x14 => v (opHmulH va vb mod)
  | 0x15 => v (opHfmaH va vb mod)
  | 0x16 => v (opFcmpltS va vb mod)
  | 0x17 => v (opFcmpeqS va vb mod)
  | 0x18 => v (opFcmpleS va vb mod)
  | 0x19 => v (opSel va vb mod)
  | 0x1A => v (opIadd va vb mod)
  | 0x1B => v (opIsub va vb mod)
  | 0x1C => v (opVand va vb mod)
  | 0x1D => v (opVor va vb mod)
  | 0x1E => v (opVxor va vb mod)
  | 0x20 => v (opCvt va vb mod)
  | 0x21 => v (opMxq va vb mod)
  | 0x22 => v (opMxd va vb mod)
  | 0x23 => v (opNorm va vb mod)
  | 0x24 => v (opGetexp va vb mod)
  | 0x25 => v (opRed va vb mod)
  | 0x26 => v (opApx va vb mod)
  | 0x27 => v (opRand va vb mod)
  | 0x28 => v (opSample va vb mod)
  | 0x29 => v (opDrop va vb mod)
  | 0x2A => v (opBcast va vb mod)
  | 0x2B => v (opPerm va vb mod)
  | op => badOp op

/-- The operation of a slot word: OP 0 is NOP, with no operand bit set (R126, R128); slot 1 takes no control operation,
slot 0 no generator operation (R129 to R131). -/
def decodeSlot (slot w : Nat) (e : Ecc) : State → Nat → SlotOp :=
  let op := bits w 22 6
  if op = 0 then usedBits w 0 nopOp
  else match slot with
    | 0 => if op < 0x10 then decodeControl w e else decodeScalar w
    | 1 => if op < 0x10 then badOp op else if op < 0x30 then decodeScalar w else decodeGen w
    | 2 => decodeMem w e
    | _ => decodeVector w

/-! The fetch -/

/-- A bundle, slot by slot; slot k is bits [32k + 31:32k] (R125). -/
def State.bundleOf (s : State) (n : Nat) (b : BitVec 128) (e : Ecc) : List SlotIn :=
  (List.range 4).map (fun k =>
    let w := bits b.toNat (32 * k) 32
    { slot := k, on := (s.core n).pr (sf w 29 3) ^^ w.testBit 28, what := decodeSlot k w e s n })

/-- The bundle at pc in the scratchpad. -/
def Core.bundleWord (c : Core) : BitVec 128 := BitVec.ofNat 128 (leNat (c.spadBytes c.pc.toNat 16))

/-- The bundle at pc as a fetch finds it. -/
def State.bundleAt (s : State) (n : Nat) (e : Ecc) : List SlotIn := s.bundleOf n (s.core n).bundleWord e

/-- Whether pc lies in the innermost body, and how many of that loop's trips are complete. -/
def Core.innerTrip (c : Core) : Option Nat :=
  match c.loops.getLast? with
  | some l => if l.holds (c.pc.toNat : Int) then some l.done else none
  | none => none

/-- The bundle at pc in the loop buffer, on a trip after the first (R143). -/
def Core.buffered (c : Core) : Option (BitVec 128) :=
  match c.innerTrip with
  | some (_ + 1) => (c.loopBuf.find? (fun p => decide (p.1 = c.pc.toNat))).map (·.2)
  | _ => none

/-- A fetched bundle of the innermost body enters the loop buffer. -/
def Core.keepBundle (c : Core) : Core :=
  if c.innerTrip.isSome then { c with loopBuf := Sparse.insert (Sparse.erase c.loopBuf c.pc.toNat) c.pc.toNat c.bundleWord } else c

/-- Fetches the bundle at pc and issues it. A pc beyond the scratchpad is an ACCESS fault, poison under the fetch a POISON
fault (R150); while the scratchpad waits, so does the fetch (06 R193, R195). A bundle that the loop buffer holds is not
read from the scratchpad (R143). -/
def State.fetchBundle (s : State) (n : Nat) (e : Ecc) : State :=
  let c := s.core n
  let pc := c.pc.toNat
  match c.pcOut with
  | some a => s.seqFault n 0 0 (.access a)
  | none =>
    match c.buffered with
    | some b => s.runBundle n (s.bundleOf n b e)
    | none =>
      if c.spadWaits then (s.spadTouch n).modCore n (fun c => { c with stall := .other })
      else
        let s1 := s.eccFound n (wordsOf pc 16) e
        if c.readPoisoned pc 16 e then s1.seqFault n 0 0 (.poison (BitVec.ofNat 64 pc))
        else
          let s2 := s1.modCore n Core.keepBundle
          s2.runBundle n (s2.bundleAt n e)

/-- A write of SEQ_CTRL.STEP: from a state of rest the sequencer issues the bundle at pc and then stops. While a stepped
bundle is stalled the write has no effect on the sequencer, and the bundle tries again. -/
def execStep (who : Party) (c : CoreId) (e : Ecc) (s : State) : Host.Outcome State Fault Refusal :=
  done (s.whenUp fun s => s.ctl who (seqCtrlKey (coreNo c)) fun s =>
    let n := coreNo c
    let s1 := s.modCore n Core.stepBegin
    if (s1.core n).stepping && s1.canIssue n then s1.fetchBundle n e else s1)

end Sys2Proof.Machine
end

