-- ==== Sys2Proof/Machine/Edge.lean ====
section
/-! DEFINITION. An edge of a user clock (10 R316, R323 to R325, R334, R335, R340; 11 R366; 13 R402): what the ports of a region
show it, what its logic asks of them, and the words of a raw lane. -/
namespace Sys2Proof.Machine

/-! What a region sees (10 R334, R335) -/

/-- Whether region u of edge die 24 + e has MAC q: the shell has every one, another region those of the tenant that owns it (R334;
assumption 86). -/
def State.macFor (s : State) (e u : Nat) (q : Fin 4) : Bool :=
  decide (u = 0) || (s.tenant (s.regionOwner (edgeRegion e u)).toNat).live
    && (s.tenant (s.regionOwner (edgeRegion e u)).toNat).res.ports.any (fun p => decide (p.e.val = e) && decide (p.q = q))

/-- Whether region u of edge die 24 + e has claimed lane n (13 R401). -/
def State.laneFor (s : State) (e u n : Nat) : Bool :=
  decide (u ≠ 0) && s.raw (e * 16 + n) && decide (s.fld (laneKey (e * 16 + n) 0) 8 4 = u)

/-- Whether user pin i belongs to a region and is an input of it (R340). Under a boundary test user logic sees 0 (18 R532). -/
def State.pinFor (s : State) (r i : Nat) : Bool :=
  (pinsOf r).contains i && decide ((s.pinCfg (regionDie r - 24) i).dir ≠ .output) && decide (s.jtag = .idcode)

/-- What a region sees of a port signal; a port that is not assigned to it reads 0 (R334). -/
def State.sigLevel (s : State) (x : FabIn) : Bool :=
  let r := x.region.toNat
  let e := regionDie r - 24
  let u := regionUnit r
  if regionKind r = 0 then
    match x.sig with
    | .core => x.level
    | .time b => s.time.getLsbD b.val
    | _ => false
  else
    let owned := decide (s.regionOwner r ≠ 0)
    match x.sig with
    | .core => false
    | .time b => owned && s.time.getLsbD b.val
    | .pps => owned && x.level
    | .plane => owned && decide (u ≠ 0) && x.level
    | .mac q => s.macFor e u q && x.level
    | .rxData n b => s.laneFor e u n.val && decide (s.jtag = .idcode) && (s.lane (e * 16 + n.val)).rxData.getLsbD b.val
    | .rxLock n => s.laneFor e u n.val && (s.lane (e * 16 + n.val)).lock && decide ((s.lane (e * 16 + n.val)).st = .on)
    | .txReady n => s.laneFor e u n.val && decide ((s.lane (e * 16 + n.val)).st = .on)
    | .pin i => s.pinFor r i.val && (if (s.pinCfg e i.val).inReg then (s.pinReg e i.val).inp else x.level)
    | .pinFall i => s.pinFor r i.val && (s.pinCfg e i.val).ddr && (if (s.pinCfg e i.val).inReg then (s.pinReg e i.val).inFall else x.level)

/-- The port signals at the arrivals of a region. -/
def State.insOf (s : State) (r : Nat) (l : List FabIn) : List (Nat × Bool) :=
  (l.filter (fun x => decide (x.region.toNat = r))).map (fun x => (x.place, s.sigLevel x))

/-- The level at an input pin of region r at the rising edge, or at the falling edge before it, if the operand gives it. -/
def pinLevel (r : Nat) (l : List FabIn) (i : Nat) (second : Bool) : Option Bool :=
  (l.find? (fun x => decide (x.region.toNat = r) && match x.sig with
    | .pin j => !second && decide (j.val = i)
    | .pinFall j => second && decide (j.val = i)
    | _ => false)).map (fun x => x.level)

/-! What a region asks of its ports (10 R334; 11 R366) -/

/-- The request of a region's plane port: a line of LPDDR or fabric RAM, with the region's TENANT (07 R254; assumption 86). -/
def State.regionReq (s : State) (r : Nat) (op : BitVec 5) (tag : BitVec 12) (a : Dword) : PReq :=
  { op := op, srcDie := BitVec.ofNat 5 (regionDie r), srcUnit := 0xF021, tenant := s.regionOwner r, tag := tag,
    dstDie := BitVec.ofNat 5 (24 + if spaceOf a.toNat = 1 then chanOf (offOf a.toNat) / 24 else edgeOf a.toNat), size := 2, addr := a,
    be := 0xFF }

/-- Whether a line that a region names lies in its tenant's partition (07 R261): its window or its fabric-RAM ranges. The plane
port carries no control-space operation (R334). -/
def State.regionMay (s : State) (r : Nat) (a : Dword) : Bool :=
  let t := s.regionOwner r
  let off := offOf a.toNat / 64 * 64
  match spaceOf a.toNat with
  | 1 => decide (t = 0xFF) || (match s.window (chanOf off / 24) t.toNat with | some w => decide (off + 64 ≤ w.2) | none => false)
  | 2 => decide (t = 0xFF) || (s.tenant t.toNat).res.fram.any (fun f =>
      decide (f.1.val = edgeOf a.toNat) && decide (f.2.1 ≤ off) && decide (off + 64 ≤ f.2.2 + 1))
  | _ => false

/-- What the logic of region r asks of a port. A request that fails its check is answered NET_PARTITION and not sent. -/
def State.regionOut (r : Nat) (s : State) (o : FabOut) : State :=
  let e := regionDie r - 24
  let u := regionUnit r
  match o with
  | .plane q op tag a data =>
    if q.toNat ≠ r ∨ u = 0 ∨ s.regionOwner r = 0 ∨ (op ≠ 5 ∧ op ≠ 6) then s
    else if s.regionMay r a then s.send (.plane op.toNat (s.regionReq r op tag a) (if op = 6 then data else []) false)
    else s.send (.regionPlane r tag.toNat Code.netPartition [])
  | .mac q m sub pcp len bytes =>
    if q.toNat ≠ r ∨ s.macFor e u m = false then s
    else
      let n := portNo ⟨⟨e % 4, Nat.mod_lt _ (by decide)⟩, m⟩
      s.setTxq n sub.val (s.txq n sub.val ++ [{ cls := s.pcpClass n pcp, len := len, tenant := s.regionOwner r, bytes := bytes, gone := 0, tok := none }])

/-! Raw words (13 R400, R402) -/

/-- A PAM4 symbol, as a level 0 to 3, of its most and least significant bit, and the two bits of a level, least significant
first: Gray coding puts 0, 1, 3, 2 on the levels. -/
def symOf (msb lsb : Bool) : Nat := 2 * b2n msb + b2n (msb ^^ lsb)
def symBits (v : BitVec 2) : List Bool := [v.getLsbD 1 ^^ v.getLsbD 0, v.getLsbD 1]

/-- The symbols of bits in their order, bit 0 first. -/
def symbolsOf (nrz : Bool) (l : List Bool) : List Nat :=
  if nrz then l.map b2n else (List.range (l.length / 2)).map (fun i => symOf (l.getD (2 * i + 1) false) (l.getD (2 * i) false))

/-- The bits of received symbols in their order; an NRZ symbol is one bit. -/
def bitsOf (nrz : Bool) (l : List (BitVec 2)) : List Bool :=
  if nrz then l.map (fun v => v.getLsbD 0) else (l.map symBits).flatten

/-- TX_DATA of lane k: the crossings of the region that has claimed it. -/
def State.txData (s : State) (k : Nat) : List Bool :=
  (List.range 256).map (fun b => s.crossLevel (edgeRegion (k / 16) (s.fld (laneKey k 0) 8 4)) (Config.txCross k b % 2048))

/-- What a lane transmits in one parallel clock: TX_DATA, or in the far-end loop RX_DATA, inverted under TX_INV. -/
def State.txBits (s : State) (k : Nat) : List Bool :=
  let d := if s.fld (laneKey k 0) 12 2 = 2 then (List.range 256).map (fun b => (s.lane k).rxData.getLsbD b) else s.txData k
  if s.bit (laneKey k 0) 6 then d.map (fun b => !b) else d

/-- The bits after those that a bit-slip discards, and how many are still to be discarded. -/
def dropSlip (n : Nat) (l : List Bool) : List Bool × Nat := (l.drop n, n - l.length)

/-- The receiver of a raw lane takes bits: whole words go to RX_DATA, the bits that make none wait. Without lock RX_DATA is not
meaningful and is free (13 R405). -/
def Lane.rxTake (x : Lane) (l : List Bool) (free : Nat) : Lane :=
  let q := dropSlip x.rxDrop (x.rxTail ++ l)
  if !x.lock then { x with rxTail := [], rxDrop := 0, rxData := BitVec.ofNat 256 free }
  else if q.1.length < 256 then { x with rxTail := q.1, rxDrop := q.2 }
  else
    let v := (List.range 256).foldl (fun v b => v + b2n (q.1.getD b false) * 2 ^ b) 0
    { x with rxTail := q.1.drop 256, rxDrop := q.2, rxData := BitVec.ofNat 256 v }

/-- The raw port of lane k at an edge of its parallel clock: it transmits a word unless the pattern generator (13 R403) or the
boundary register (18 R532) replaces it and receives symbols, its own in the near-end loop, inverted under RX_INV. `old` is the state before the edge. -/
def State.rawEdge (s old : State) (k : Nat) (rx : List (BitVec 2)) : State :=
  let tx := old.txBits k
  let s1 := if (s.lane k).st = .on ∧ s.jtag = .idcode ∧ s.fld (laneKey k 8) 0 4 = 0 then s.send (.symbols k (symbolsOf (s.nrz k) tx)) else s
  let rb := if s.fld (laneKey k 0) 12 2 = 1 then tx else bitsOf (s.nrz k) rx
  let q := s1.draw
  q.2.setLane k ((s.lane k).rxTake (if s.bit (laneKey k 0) 7 then rb.map (fun b => !b) else rb) q.1)

/-! The edge -/

/-- An edge of a clock source at one region: from stage 1 of its release on, the flip-flops of the clusters whose spine has the
edge load once the spine has left reset, fabric-RAM ports and pin registers are clocked, and what leaves the region follows. -/
def State.regionEdge (clk : FabClk) (ins : List FabIn) (rams : List RamOp) (outs : List FabOut) (s : State) (r : Nat) : State :=
  let g := s.region r
  if g.st ≠ .releasing ∧ g.st ≠ .running then s
  else
    let sp := s.spines clk r
    if sp = [] then s
    else
      let ext := s.insOf r ins
      let l := s.comb r ext
      let g1 := g.edge s.time sp
      let writes := decide (g.st = .running) || decide (2 ≤ g.stage)
      let s1 := if regionKind r = 1 then s.clockRams r sp writes rams else s
      let s2 := { s1 with ffs := s.ffsNext r ext l (g1.loads sp), freeCtr := s1.freeCtr + 16 * regionClusters r }.setRegion r g1
      if regionKind r ≠ 1 then s2
      else
        let s3 := s2.clockPins r sp l (pinLevel r ins)
        let s4 := s3.driveOut r (s3.comb r (s3.insOf r ins))
        if writes then outs.foldl (State.regionOut r) s4 else s4

/-- Whether a clock source runs: the recovered clock of a lane that is off or DEEP has stopped (10 R323; 13 R407). -/
def State.clkRuns (s : State) (clk : FabClk) : Bool :=
  match clk with
  | .lane l => decide ((s.lane (laneNo l)).st ≠ .off) && decide ((s.lane (laneNo l)).st ≠ .deep)
  | _ => true

/-- The regions that an edge of a clock source may reach: the collar, or the edge regions of its die. -/
def clkRegions (clk : FabClk) : List Nat :=
  match clk with
  | .collar c => [collarRegion (coreNo c)]
  | .pll e _ => (List.range 16).map (edgeRegion e.val)
  | .pin e _ => (List.range 16).map (edgeRegion e.val)
  | .lane l => (List.range 16).map (edgeRegion l.e.val)
  | .mac p => (List.range 16).map (edgeRegion p.e.val)

/-- FABRIC_CLOCK_EDGE: a rising edge of a clock source, at every region that has it on a spine and, of a lane, at its raw port. -/
def execFabricClockEdge (clk : FabClk) (ins : List FabIn) (rx : List (BitVec 2)) (rams : List RamOp) (outs : List FabOut) (s : State) :
    Host.Outcome State Fault Refusal :=
  done (s.whenUp fun s =>
    if s.tripped || !s.clkRuns clk then s
    else
      let s1 := (clkRegions clk).foldl (State.regionEdge clk ins rams outs) s
      match clk with
      | .lane l => if s.raw (laneNo l) then s1.rawEdge s (laneNo l) rx else s1
      | _ => s1)

end Sys2Proof.Machine
end

