-- ==== Sys2Proof/Machine/Time.lean ====
section
/-! DEFINITION. Device time (chapter 13, R421 to R425, R430): lock, holdover, fault, the pulse inputs and outputs, and the
passing of one nanosecond. -/
namespace Sys2Proof.Machine

/-- A signed number as a 32-bit register shows it, saturating. -/
def satInt32 (x : Int) : Word := BitVec.ofInt 32 (max (-2147483648) (min 2147483647 x))

/-- TIME_CFG.SRC. -/
def State.timeSrc (s : State) : Nat := s.fld (timePage 24 + 0x40) 0 2

/-- TIME_LOCK (R421, R422): device time locks to the source that SRC selects; `offset` is the measured offset of device time
from the source. The first lock after reset steps by an offset beyond 1 us; the function is READY from then on, and with
SRC = 0 at once. The frequency correction that is applied is free within ±100 ppm. -/
def State.timeLock (s : State) (offset : Int) : State :=
  let k := timePage 24 + 0x44
  let ready := s.bit k 0
  let src := s.timeSrc
  if src = 0 then (s.setFld k 0 1 1).setReady 1 true
  else
    let step := !ready && decide (1000 < offset.natAbs)
    let (x, s1) := s.draw
    let s2 : State := if step then { s1 with time := s1.time - BitVec.ofInt 64 offset } else s1
    let s3 := ((s2.setReg (timePage 24 + 0x50) (satInt32 offset)).setReg (timePage 24 + 0x54) (satInt32 ((x % 200001 : Nat) - (100000 : Int))))
    let v := 3 + 16 * src + 64 * (if step then 1 else s.fld k 6 1) + 8 * s.fld k 3 1
    let s4 := s3.setReg k (BitVec.ofNat 32 v)
    let ok := if src = 1 then setBits (s4.reg (timePage 24 + 0x68)).toNat 2 1 1 else setBits (s4.reg (timePage 24 + 0x68)).toNat 0 2 3
    ((s4.setReg (timePage 24 + 0x68) (BitVec.ofNat 32 ok)).raiseIrq (timePage 24) 1).setReady 1 true

def execTimeLock (offset : Int) (s : State) : Host.Outcome State Fault Refusal :=
  done (s.whenUp fun s => s.timeLock offset)

/-- HOLDOVER_ENTRY (R423): the selected source is lost; the last frequency is kept. Of PPS_IN and REF10M_IN it is free which
was lost. -/
def execHoldoverEntry (s : State) : Host.Outcome State Fault Refusal :=
  done (s.whenUp fun s =>
    let k := timePage 24 + 0x68
    match s.timeSrc with
    | 0 => s
    | 1 => (s.setFld k 2 1 0).holdover
    | _ =>
      let (x, s1) := s.draw
      (s1.setFld k 0 2 (x % 3)).holdover)

/-- TIME_FAULT (R422): an offset from the source above 100 us for 10 s sets FAULT and raises it; slewing continues. -/
def execTimeFault (s : State) : Host.Outcome State Fault Refusal :=
  done (s.whenUp fun s => if s.timeSrc = 0 then s else (s.setFld (timePage 24 + 0x44) 3 1 1).raiseIrq (timePage 24) 4)

/-- PPS_IN_EDGE (R424): the device time of the edge is kept; with SRC = 2 it is the start of the second in TIME_TOD_SEC,
which advances by 1. -/
def execPpsInEdge (s : State) : Host.Outcome State Fault Refusal :=
  done (s.whenUp fun s =>
    let s1 := (s.setReg64 (timePage 24 + 0x60) s.time).setFld (timePage 24 + 0x68) 1 1 1
    if s.timeSrc = 2 then s1.inc64 (timePage 24 + 0x58) else s1)

/-- PPS_OUT_RISE (R424): with PPS_OUT_EN the pin rises within 5 ns of a whole second and stays high for PPS_WIDTH ms. -/
def execPpsOutRise (s : State) : Host.Outcome State Fault Refusal :=
  done (s.whenUp fun s =>
    if s.bit (timePage 24 + 0x40) 7 ∧ (s.time.toNat + 5) % 1000000000 ≤ 10 then
      { s.send (.pin .ppsOut 1) with ppsUntil := some (s.time + BitVec.ofNat 64 (s.fld (timePage 24 + 0x40) 16 8 * 1000000)) }
    else s)

/-- One nanosecond of device time: what step does when no command waits (assumption 2). Flits that wait may move, reefs go on,
and PPS_OUT falls when its width is over. -/
def State.tick (s : State) : State :=
  if s.inReset then s
  else
    let s1 := ({ s with time := s.time + 1 } : State).moveFlits.reefsGo
    if s1.ppsUntil = some s1.time then { s1.send (.pin .ppsOut 0) with ppsUntil := none } else s1

end Sys2Proof.Machine
end

