-- ==== Sys2Proof/Machine/Dispatch.lean ====
section
/-! DEFINITION. What each command does: one arm per constructor, each one call of the command's meaning. -/
namespace Sys2Proof.Machine

/-- The effect of a command on everything but the queue. -/
def exec (i : Instr) (s : State) : Host.Outcome State Fault Refusal :=
  match i with
  | .resetNAssert => Sys2Proof.Machine.execResetNAssert s
  | .resetNRelease cfgMode => Sys2Proof.Machine.execResetNRelease cfgMode s
  | .pwrOkRise mv railsOk => Sys2Proof.Machine.execPwrOkRise mv railsOk s
  | .inputPowerDrop mv pwrOkFalls => Sys2Proof.Machine.execInputPowerDrop mv pwrOkFalls s
  | .refLoss lane => Sys2Proof.Machine.execRefLoss lane s
  | .governorStep mv ma avgW => Sys2Proof.Machine.execGovernorStep mv ma avgW s
  | .governorRaise avgW => Sys2Proof.Machine.execGovernorRaise avgW s
  | .junctionRead tj die => Sys2Proof.Machine.execJunctionRead tj die s
  | .thermalTrip die => Sys2Proof.Machine.execThermalTrip die s
  | .islandClockChange c => Sys2Proof.Machine.execIslandClockChange c s
  | .clkAll who die v => Sys2Proof.Machine.execClkAll who die v s
  | .smbControlWrite pecOk addr data => Sys2Proof.Machine.execSmbControlWrite pecOk addr data s
  | .smbControlRead pecOk addr => Sys2Proof.Machine.execSmbControlRead pecOk addr s
  | .smbResultRead pecOk => Sys2Proof.Machine.execSmbResultRead pecOk s
  | .registerWrite w => Sys2Proof.Machine.execRegisterWrite w s
  | .blkErrWrite who page v codes => Sys2Proof.Machine.execBlkErrWrite who page v codes s
  | .blkClampWrite who page v clamped => Sys2Proof.Machine.execBlkClampWrite who page v clamped s
  | .softReset who page => Sys2Proof.Machine.execSoftReset who page s
  | .blkEnable who page on => Sys2Proof.Machine.execBlkEnable who page on s
  | .powerTransitionEnd page => Sys2Proof.Machine.execPowerTransitionEnd page s
  | .timeNowRead who die => Sys2Proof.Machine.execTimeNowRead who die s
  | .nop o k => Sys2Proof.Machine.execNop o k s
  | .br o imm => Sys2Proof.Machine.execBr o imm s
  | .brr o ga => Sys2Proof.Machine.execBrr o ga s
  | .call o imm => Sys2Proof.Machine.execCall o imm s
  | .loop o ga blm1 sm1 rot => Sys2Proof.Machine.execLoop o ga blm1 sm1 rot s
  | .loopi o n blm1 sm1 rot => Sys2Proof.Machine.execLoopi o n blm1 sm1 rot s
  | .issue o cls ctr ga e => Sys2Proof.Machine.execIssue o cls ctr ga e s
  | .wait o mask n time ga => Sys2Proof.Machine.execWait o mask n time ga s
  | .fence o => Sys2Proof.Machine.execFence o s
  | .mfs o gd sidx => Sys2Proof.Machine.execMfs o gd sidx s
  | .mts o ga sidx => Sys2Proof.Machine.execMts o ga sidx s
  | .clr o gd idx => Sys2Proof.Machine.execClr o gd idx s
  | .clrTimeout c => Sys2Proof.Machine.execClrTimeout c s
  | .clw o ga idx => Sys2Proof.Machine.execClw o ga idx s
  | .event o code => Sys2Proof.Machine.execEvent o code s
  | .halt o => Sys2Proof.Machine.execHalt o s
  | .add o k gd ga gb => Sys2Proof.Machine.execAdd o k gd ga gb s
  | .sub o k gd ga gb => Sys2Proof.Machine.execSub o k gd ga gb s
  | .and o k gd ga gb => Sys2Proof.Machine.execAnd o k gd ga gb s
  | .or o k gd ga gb => Sys2Proof.Machine.execOr o k gd ga gb s
  | .xor o k gd ga gb => Sys2Proof.Machine.execXor o k gd ga gb s
  | .shl o k gd ga gb => Sys2Proof.Machine.execShl o k gd ga gb s
  | .shr o k gd ga gb => Sys2Proof.Machine.execShr o k gd ga gb s
  | .sha o k gd ga gb => Sys2Proof.Machine.execSha o k gd ga gb s
  | .mul o k gd ga gb => Sys2Proof.Machine.execMul o k gd ga gb s
  | .smin o k gd ga gb => Sys2Proof.Machine.execSmin o k gd ga gb s
  | .smax o k gd ga gb => Sys2Proof.Machine.execSmax o k gd ga gb s
  | .cmplt o k pd ga gb => Sys2Proof.Machine.execCmplt o k pd ga gb s
  | .cmpltu o k pd ga gb => Sys2Proof.Machine.execCmpltu o k pd ga gb s
  | .cmpeq o k pd ga gb => Sys2Proof.Machine.execCmpeq o k pd ga gb s
  | .plog o k pd pa pb tt => Sys2Proof.Machine.execPlog o k pd pa pb tt s
  | .addi o k gd ga imm => Sys2Proof.Machine.execAddi o k gd ga imm s
  | .andi o k gd ga imm => Sys2Proof.Machine.execAndi o k gd ga imm s
  | .ori o k gd ga imm => Sys2Proof.Machine.execOri o k gd ga imm s
  | .xori o k gd ga imm => Sys2Proof.Machine.execXori o k gd ga imm s
  | .shli o k gd ga imm => Sys2Proof.Machine.execShli o k gd ga imm s
  | .shri o k gd ga imm => Sys2Proof.Machine.execShri o k gd ga imm s
  | .shai o k gd ga imm => Sys2Proof.Machine.execShai o k gd ga imm s
  | .cmplti o k pd ga imm => Sys2Proof.Machine.execCmplti o k pd ga imm s
  | .cmpeqi o k pd ga imm => Sys2Proof.Machine.execCmpeqi o k pd ga imm s
  | .movi o k gd imm => Sys2Proof.Machine.execMovi o k gd imm s
  | .shlor o k gd imm => Sys2Proof.Machine.execShlor o k gd imm s
  | .seta o n ga imm => Sys2Proof.Machine.execSeta o n ga imm s
  | .setm o n ga imm => Sys2Proof.Machine.execSetm o n ga imm s
  | .setb o n ga imm => Sys2Proof.Machine.execSetb o n ga imm s
  | .setl o n ga imm => Sys2Proof.Machine.execSetl o n ga imm s
  | .setmd o n ga imm => Sys2Proof.Machine.execSetmd o n ga imm s
  | .geta o n gd imm => Sys2Proof.Machine.execGeta o n gd imm s
  | .ldb o r n am off e => Sys2Proof.Machine.execLdb o r n am off e s
  | .ldh o r n am off e => Sys2Proof.Machine.execLdh o r n am off e s
  | .ldw o r n am off e => Sys2Proof.Machine.execLdw o r n am off e s
  | .ldd o r n am off e => Sys2Proof.Machine.execLdd o r n am off e s
  | .stb o r n am off => Sys2Proof.Machine.execStb o r n am off s
  | .sth o r n am off => Sys2Proof.Machine.execSth o r n am off s
  | .stw o r n am off => Sys2Proof.Machine.execStw o r n am off s
  | .std o r n am off => Sys2Proof.Machine.execStd o r n am off s
  | .ldv o r n am off e => Sys2Proof.Machine.execLdv o r n am off e s
  | .stv o r n am off => Sys2Proof.Machine.execStv o r n am off s
  | .ldvb o r n am off e => Sys2Proof.Machine.execLdvb o r n am off e s
  | .vpush o r stream => Sys2Proof.Machine.execVpush o r stream s
  | .vpull o r stream => Sys2Proof.Machine.execVpull o r stream s
  | .rlbMissFill c data poisoned => Sys2Proof.Machine.execRlbMissFill c data poisoned s
  | .faddS o vd va vb mod => Sys2Proof.Machine.execFaddS o vd va vb mod s
  | .fsubS o vd va vb mod => Sys2Proof.Machine.execFsubS o vd va vb mod s
  | .fmulS o vd va vb mod => Sys2Proof.Machine.execFmulS o vd va vb mod s
  | .fmaS o vd va vb mod => Sys2Proof.Machine.execFmaS o vd va vb mod s
  | .fminS o vd va vb mod => Sys2Proof.Machine.execFminS o vd va vb mod s
  | .fmaxS o vd va vb mod => Sys2Proof.Machine.execFmaxS o vd va vb mod s
  | .fdivS o vd va vb mod => Sys2Proof.Machine.execFdivS o vd va vb mod s
  | .fsqrtS o vd va vb mod => Sys2Proof.Machine.execFsqrtS o vd va vb mod s
  | .faddD o vd va vb mod => Sys2Proof.Machine.execFaddD o vd va vb mod s
  | .fsubD o vd va vb mod => Sys2Proof.Machine.execFsubD o vd va vb mod s
  | .fmulD o vd va vb mod => Sys2Proof.Machine.execFmulD o vd va vb mod s
  | .fmaD o vd va vb mod => Sys2Proof.Machine.execFmaD o vd va vb mod s
  | .fdivD o vd va vb mod => Sys2Proof.Machine.execFdivD o vd va vb mod s
  | .fsqrtD o vd va vb mod => Sys2Proof.Machine.execFsqrtD o vd va vb mod s
  | .haddB o vd va vb mod => Sys2Proof.Machine.execHaddB o vd va vb mod s
  | .hmulB o vd va vb mod => Sys2Proof.Machine.execHmulB o vd va vb mod s
  | .hfmaB o vd va vb mod => Sys2Proof.Machine.execHfmaB o vd va vb mod s
  | .haddH o vd va vb mod => Sys2Proof.Machine.execHaddH o vd va vb mod s
  | .hmulH o vd va vb mod => Sys2Proof.Machine.execHmulH o vd va vb mod s
  | .hfmaH o vd va vb mod => Sys2Proof.Machine.execHfmaH o vd va vb mod s
  | .fcmpltS o vd va vb mod => Sys2Proof.Machine.execFcmpltS o vd va vb mod s
  | .fcmpeqS o vd va vb mod => Sys2Proof.Machine.execFcmpeqS o vd va vb mod s
  | .fcmpleS o vd va vb mod => Sys2Proof.Machine.execFcmpleS o vd va vb mod s
  | .sel o vd va vb mod => Sys2Proof.Machine.execSel o vd va vb mod s
  | .iadd o vd va vb mod => Sys2Proof.Machine.execIadd o vd va vb mod s
  | .isub o vd va vb mod => Sys2Proof.Machine.execIsub o vd va vb mod s
  | .vand o vd va vb mod => Sys2Proof.Machine.execVand o vd va vb mod s
  | .vor o vd va vb mod => Sys2Proof.Machine.execVor o vd va vb mod s
  | .vxor o vd va vb mod => Sys2Proof.Machine.execVxor o vd va vb mod s
  | .cvt o vd va vb mod => Sys2Proof.Machine.execCvt o vd va vb mod s
  | .mxq o vd va vb mod => Sys2Proof.Machine.execMxq o vd va vb mod s
  | .mxd o vd va vb mod => Sys2Proof.Machine.execMxd o vd va vb mod s
  | .norm o vd va vb mod => Sys2Proof.Machine.execNorm o vd va vb mod s
  | .getexp o vd va vb mod => Sys2Proof.Machine.execGetexp o vd va vb mod s
  | .red o vd va vb mod => Sys2Proof.Machine.execRed o vd va vb mod s
  | .apx o vd va vb mod => Sys2Proof.Machine.execApx o vd va vb mod s
  | .rand o vd va vb mod => Sys2Proof.Machine.execRand o vd va vb mod s
  | .sample o vd va vb mod => Sys2Proof.Machine.execSample o vd va vb mod s
  | .drop o vd va vb mod => Sys2Proof.Machine.execDrop o vd va vb mod s
  | .bcast o vd va vb mod => Sys2Proof.Machine.execBcast o vd va vb mod s
  | .perm o vd va vb mod => Sys2Proof.Machine.execPerm o vd va vb mod s
  | .rekey who c => Sys2Proof.Machine.execRekey who c s
  | .seqStart who c => Sys2Proof.Machine.execSeqStart who c s
  | .seqStop who c => Sys2Proof.Machine.execSeqStop who c s
  | .stoppingEnd c => Sys2Proof.Machine.execStoppingEnd c s
  | .step who c e => Sys2Proof.Machine.execStep who c e s
  | .save who c => Sys2Proof.Machine.execSave who c s
  | .contextSave c => Sys2Proof.Machine.execContextSave c s
  | .contextSaveDone c => Sys2Proof.Machine.execContextSaveDone c s
  | .restore who c => Sys2Proof.Machine.execRestore who c s
  | .contextRestore c e => Sys2Proof.Machine.execContextRestore c e s
  | .descriptorTakeUp c u => Sys2Proof.Machine.execDescriptorTakeUp c u s
  | .passStart c u p e => Sys2Proof.Machine.execPassStart c u p e s
  | .groupDrain c u p e => Sys2Proof.Machine.execGroupDrain c u p e s
  | .groupRetry c u => Sys2Proof.Machine.execGroupRetry c u s
  | .epilogueTapBeat c => Sys2Proof.Machine.execEpilogueTapBeat c s
  | .epilogueEndBeat c => Sys2Proof.Machine.execEpilogueEndBeat c s
  | .descriptorComplete c u => Sys2Proof.Machine.execDescriptorComplete c u s
  | .zero who c => Sys2Proof.Machine.execZero who c s
  | .zeroingEnd c => Sys2Proof.Machine.execZeroingEnd c s
  | .rlbFlush who c => Sys2Proof.Machine.execRlbFlush who c s
  | .rlbInval who c => Sys2Proof.Machine.execRlbInval who c s
  | .rlbDone c => Sys2Proof.Machine.execRlbDone c s
  | .retain who c on => Sys2Proof.Machine.execRetain who c on s
  | .retentionEntry c => Sys2Proof.Machine.execRetentionEntry c s
  | .spadWakeDone c => Sys2Proof.Machine.execSpadWakeDone c s
  | .scrubRead c line e => Sys2Proof.Machine.execScrubRead c line e s
  | .transferStart c e => Sys2Proof.Machine.execTransferStart c e s
  | .transferComplete c id => Sys2Proof.Machine.execTransferComplete c id s
  | .niTimeoutExpiry c tag => Sys2Proof.Machine.execNiTimeoutExpiry c tag s
  | .flitReceive n port f crcOk => Sys2Proof.Machine.execFlitReceive n port f crcOk s
  | .idleFlit c => Sys2Proof.Machine.execIdleFlit c s
  | .linkSilence n port => Sys2Proof.Machine.execLinkSilence n port s
  | .raise who c ports => Sys2Proof.Machine.execRaise who c ports s
  | .linkUp n port => Sys2Proof.Machine.execLinkUp n port s
  | .raiseTimeout n port => Sys2Proof.Machine.execRaiseTimeout n port s
  | .tapLinkRaise e row port => Sys2Proof.Machine.execTapLinkRaise e row port s
  | .writePacket c hdr data => Sys2Proof.Machine.execWritePacket c hdr data s
  | .readPacket c hdr e => Sys2Proof.Machine.execReadPacket c hdr e s
  | .ackPacket c hdr => Sys2Proof.Machine.execAckPacket c hdr s
  | .rdata c hdr data => Sys2Proof.Machine.execRdata c hdr data s
  | .arm who n => Sys2Proof.Machine.execArm who n s
  | .rtrRetire who n => Sys2Proof.Machine.execRtrRetire who n s
  | .flip who n => Sys2Proof.Machine.execFlip who n s
  | .epochFlip n => Sys2Proof.Machine.execEpochFlip n s
  | .niRetire who n => Sys2Proof.Machine.execNiRetire who n s
  | .drainSample who die bit => Sys2Proof.Machine.execDrainSample who die bit s
  | .drainSampleDone die => Sys2Proof.Machine.execDrainSampleDone die s
  | .agtBcastData who die v => Sys2Proof.Machine.execAgtBcastData who die v s
  | .rds q e => Sys2Proof.Machine.execRds q e s
  | .rdo q e => Sys2Proof.Machine.execRdo q e s
  | .upg q e => Sys2Proof.Machine.execUpg q e s
  | .wb q data poisoned => Sys2Proof.Machine.execWb q data poisoned s
  | .rd q e => Sys2Proof.Machine.execRd q e s
  | .wr q be data e => Sys2Proof.Machine.execWr q be data e s
  | .crd q => Sys2Proof.Machine.execCrd q s
  | .cwr q data => Sys2Proof.Machine.execCwr q data s
  | .planeCmd q data => Sys2Proof.Machine.execPlaneCmd q data s
  | .cfg e die region frame words => Sys2Proof.Machine.execCfg e die region frame words s
  | .snpInv c line => Sys2Proof.Machine.execSnpInv c line s
  | .snpDown c line => Sys2Proof.Machine.execSnpDown c line s
  | .planeAck to_ tag status => Sys2Proof.Machine.execPlaneAck to_ tag status s
  | .cdata c tag data => Sys2Proof.Machine.execCdata c tag data s
  | .snpRsp c line data poisoned => Sys2Proof.Machine.execSnpRsp c line data poisoned s
  | .unblock c line => Sys2Proof.Machine.execUnblock c line s
  | .dataHdr to_ tag status data => Sys2Proof.Machine.execDataHdr to_ tag status data s
  | .faultReportArrival die w => Sys2Proof.Machine.execFaultReportArrival die w s
  | .reportSelf die unc => Sys2Proof.Machine.execReportSelf die unc s
  | .reportAccuse die unc => Sys2Proof.Machine.execReportAccuse die unc s
  | .reportLink die unc => Sys2Proof.Machine.execReportLink die unc s
  | .suspectWindowExpiry die entry => Sys2Proof.Machine.execSuspectWindowExpiry die entry s
  | .stormWindowEnd die => Sys2Proof.Machine.execStormWindowEnd die s
  | .hcRelease who die mask => Sys2Proof.Machine.execHcRelease who die mask s
  | .reef c ok64 ok65 routerWorks => Sys2Proof.Machine.execReef c ok64 ok65 routerWorks s
  | .backgroundSelfTest c pass => Sys2Proof.Machine.execBackgroundSelfTest c pass s
  | .checkpointRun t => Sys2Proof.Machine.execCheckpointRun t s
  | .recorderEpochEnd t => Sys2Proof.Machine.execRecorderEpochEnd t s
  | .regRvalid c v => Sys2Proof.Machine.execRegRvalid c v s
  | .colRdataRead who c => Sys2Proof.Machine.execColRdataRead who c s
  | .colRdataWrite who c v => Sys2Proof.Machine.execColRdataWrite who c v s
  | .colRdataTimeout c => Sys2Proof.Machine.execColRdataTimeout c s
  | .streamSync p hdr len svn => Sys2Proof.Machine.execStreamSync p hdr len svn s
  | .streamNop p arg => Sys2Proof.Machine.execStreamNop p arg s
  | .decl p arg => Sys2Proof.Machine.execDecl p arg s
  | .declr p arg rect => Sys2Proof.Machine.execDeclr p arg rect s
  | .streamSet p arg => Sys2Proof.Machine.execStreamSet p arg s
  | .setr p arg rect => Sys2Proof.Machine.execSetr p arg rect s
  | .streamAdd p arg => Sys2Proof.Machine.execStreamAdd p arg s
  | .addr p arg rect => Sys2Proof.Machine.execAddr p arg rect s
  | .streamWrite p arg frame => Sys2Proof.Machine.execStreamWrite p arg frame s
  | .streamRepeat p arg => Sys2Proof.Machine.execStreamRepeat p arg s
  | .streamCrc p arg value => Sys2Proof.Machine.execStreamCrc p arg value s
  | .streamSig p arg block => Sys2Proof.Machine.execStreamSig p arg block s
  | .signatureVerified p => Sys2Proof.Machine.execSignatureVerified p s
  | .streamStart p arg => Sys2Proof.Machine.execStreamStart p arg s
  | .regionClearDone region => Sys2Proof.Machine.execRegionClearDone region s
  | .streamIdleTimeout p => Sys2Proof.Machine.execStreamIdleTimeout p s
  | .releaseStage1 p => Sys2Proof.Machine.execReleaseStage1 p s
  | .releaseStage2 region => Sys2Proof.Machine.execReleaseStage2 region s
  | .releaseStage3 region => Sys2Proof.Machine.execReleaseStage3 region s
  | .cfgDoneRise => Sys2Proof.Machine.execCfgDoneRise s
  | .mcStart => Sys2Proof.Machine.execMcStart s
  | .serialWrite bytes => Sys2Proof.Machine.execSerialWrite bytes s
  | .serialStatus => Sys2Proof.Machine.execSerialStatus s
  | .clogPop who e => Sys2Proof.Machine.execClogPop who e s
  | .shrClear who region => Sys2Proof.Machine.execShrClear who region s
  | .configFrameCheck region frame e => Sys2Proof.Machine.execConfigFrameCheck region frame e s
  | .lpdWinWrite who e t hi v => Sys2Proof.Machine.execLpdWinWrite who e t hi v s
  | .refresh ch bank urgent => Sys2Proof.Machine.execRefresh ch bank urgent s
  | .temperaturePoll ch hot => Sys2Proof.Machine.execTemperaturePoll ch hot s
  | .neighbourRefresh ch bank => Sys2Proof.Machine.execNeighbourRefresh ch bank s
  | .selfRefreshEntry ch => Sys2Proof.Machine.execSelfRefreshEntry ch s
  | .selfRefreshExit ch => Sys2Proof.Machine.execSelfRefreshExit ch s
  | .recentre ch dly => Sys2Proof.Machine.execRecentre ch dly s
  | .lpddrScrub ch co e => Sys2Proof.Machine.execLpddrScrub ch co e s
  | .trainingRun who ch => Sys2Proof.Machine.execTrainingRun who ch s
  | .trainingStop who ch => Sys2Proof.Machine.execTrainingStop who ch s
  | .fill who ch => Sys2Proof.Machine.execFill who ch s
  | .trDone ch errs => Sys2Proof.Machine.execTrDone ch errs s
  | .lpdBegin who ch => Sys2Proof.Machine.execLpdBegin who ch s
  | .lpdGo who ch fullRate => Sys2Proof.Machine.execLpdGo who ch fullRate s
  | .lpdOffline who ch => Sys2Proof.Machine.execLpdOffline who ch s
  | .laneClaim who l raw region => Sys2Proof.Machine.execLaneClaim who l raw region s
  | .lanePowerRequest who l pwr => Sys2Proof.Machine.execLanePowerRequest who l pwr s
  | .lanePowerDone l => Sys2Proof.Machine.execLanePowerDone l s
  | .injectOne who l => Sys2Proof.Machine.execInjectOne who l s
  | .prbsRelock l => Sys2Proof.Machine.execPrbsRelock l s
  | .scanStart who l => Sys2Proof.Machine.execScanStart who l s
  | .scanStop who l count => Sys2Proof.Machine.execScanStop who l count s
  | .scanDone l count => Sys2Proof.Machine.execScanDone l count s
  | .lqSlip who l => Sys2Proof.Machine.execLqSlip who l s
  | .rxSlip l => Sys2Proof.Machine.execRxSlip l s
  | .bitSlip l => Sys2Proof.Machine.execBitSlip l s
  | .lockLost l => Sys2Proof.Machine.execLockLost l s
  | .modeChange who p mode => Sys2Proof.Machine.execModeChange who p mode s
  | .ethLinkUp p sub mgmt => Sys2Proof.Machine.execEthLinkUp p sub mgmt s
  | .ethLinkDown p sub mgmt => Sys2Proof.Machine.execEthLinkDown p sub mgmt s
  | .frameReceive p sub f fcsOk fecOk => Sys2Proof.Machine.execFrameReceive p sub f fcsOk fecOk s
  | .meterCredit p => Sys2Proof.Machine.execMeterCredit p s
  | .recoveryReset p r => Sys2Proof.Machine.execRecoveryReset p r s
  | .frameTransmit p sub => Sys2Proof.Machine.execFrameTransmit p sub s
  | .tsnSwap who p => Sys2Proof.Machine.execTsnSwap who p s
  | .gateListChange p => Sys2Proof.Machine.execGateListChange p s
  | .timeLock offset => Sys2Proof.Machine.execTimeLock offset s
  | .holdoverEntry => Sys2Proof.Machine.execHoldoverEntry s
  | .timeFault => Sys2Proof.Machine.execTimeFault s
  | .ppsInEdge => Sys2Proof.Machine.execPpsInEdge s
  | .ppsOutRise => Sys2Proof.Machine.execPpsOutRise s
  | .hello f => Sys2Proof.Machine.execHello f s
  | .cmd f => Sys2Proof.Machine.execCmd f s
  | .ubxAck f => Sys2Proof.Machine.execUbxAck f s
  | .ackDelayExpiry t => Sys2Proof.Machine.execAckDelayExpiry t s
  | .retransmitTimeout t => Sys2Proof.Machine.execRetransmitTimeout t s
  | .commandComplete t => Sys2Proof.Machine.execCommandComplete t s
  | .ubxNop t => Sys2Proof.Machine.execUbxNop t s
  | .close t => Sys2Proof.Machine.execClose t s
  | .deliver t => Sys2Proof.Machine.execDeliver t s
  | .writeMem t => Sys2Proof.Machine.execWriteMem t s
  | .readMem t => Sys2Proof.Machine.execReadMem t s
  | .ctrlWrite t => Sys2Proof.Machine.execCtrlWrite t s
  | .ctrlRead t => Sys2Proof.Machine.execCtrlRead t s
  | .loadRegion t => Sys2Proof.Machine.execLoadRegion t s
  | .clearRegion t => Sys2Proof.Machine.execClearRegion t s
  | .reserve t => Sys2Proof.Machine.execReserve t s
  | .unreserve t => Sys2Proof.Machine.execUnreserve t s
  | .filter t => Sys2Proof.Machine.execFilter t s
  | .replayDeclare t => Sys2Proof.Machine.execReplayDeclare t s
  | .checkpoint t => Sys2Proof.Machine.execCheckpoint t s
  | .repatriate t => Sys2Proof.Machine.execRepatriate t s
  | .recordRead t => Sys2Proof.Machine.execRecordRead t s
  | .imageRead t => Sys2Proof.Machine.execImageRead t s
  | .seedDraw t => Sys2Proof.Machine.execSeedDraw t s
  | .attest t => Sys2Proof.Machine.execAttest t s
  | .tenantCreate r => Sys2Proof.Machine.execTenantCreate r s
  | .tenantDestroy t => Sys2Proof.Machine.execTenantDestroy t s
  | .tenantStatus t => Sys2Proof.Machine.execTenantStatus t s
  | .emitGo who e t ch count => Sys2Proof.Machine.execEmitGo who e t ch count s
  | .goForward t => Sys2Proof.Machine.execGoForward t s
  | .eventCodeTake c => Sys2Proof.Machine.execEventCodeTake c s
  | .eventFrameBuild t => Sys2Proof.Machine.execEventFrameBuild t s
  | .commitFw who => Sys2Proof.Machine.execCommitFw who s
  | .commitStatic who => Sys2Proof.Machine.execCommitStatic who s
  | .commitShell who => Sys2Proof.Machine.execCommitShell who s
  | .commitDone => Sys2Proof.Machine.execCommitDone s
  | .revokeA who => Sys2Proof.Machine.execRevokeA who s
  | .revokeB who => Sys2Proof.Machine.execRevokeB who s
  | .ownerFuse who => Sys2Proof.Machine.execOwnerFuse who s
  | .importKey who => Sys2Proof.Machine.execImportKey who s
  | .importDone => Sys2Proof.Machine.execImportDone s
  | .erase who => Sys2Proof.Machine.execErase who s
  | .retest who => Sys2Proof.Machine.execRetest who s
  | .entropyReady pass => Sys2Proof.Machine.execEntropyReady pass s
  | .reseed healthy => Sys2Proof.Machine.execReseed healthy s
  | .tapReset => Sys2Proof.Machine.execTapReset s
  | .extest mode => Sys2Proof.Machine.execExtest mode s
  | .collarOutboundBeat c stream => Sys2Proof.Machine.execCollarOutboundBeat c stream s
  | .collarInboundBeat c stream beat => Sys2Proof.Machine.execCollarInboundBeat c stream beat s
  | .fabricClockEdge clk ins rx rams outs => Sys2Proof.Machine.execFabricClockEdge clk ins rx rams outs s
  | .clockRecoveryLock l => Sys2Proof.Machine.execClockRecoveryLock l s
  | .prbsCheckerLock l bits errs => Sys2Proof.Machine.execPrbsCheckerLock l bits errs s
  | .verificationEnd p ok => Sys2Proof.Machine.execVerificationEnd p ok s
  | .islandMonitorTrip c x => Sys2Proof.Machine.execIslandMonitorTrip c x s

end Sys2Proof.Machine
end

