-- ==== Sys2Proof/Safety.lean ====
section
/-! DEFINITION. The terms the statements use: when a core issues the operation of a command as an ordinary bundle, and
what the issue itself changes. -/
namespace Sys2Proof.Machine

/-- The step answers a next state: it neither faults nor refuses. -/
def Completes (s : State) : Prop := ∃ t, step s = .next t

/-- Core n can issue its next bundle: the module is out of reset and not tripped, the sequencer is RUNNING and not
stepped, no CLR waits for its reply (04 R147), and pc lies in the scratchpad. -/
def State.atBundle (s : State) (n : Nat) : Prop :=
  s.inReset = false ∧ s.tripped = false ∧ (s.core n).st = .running ∧ (s.core n).stepping = false ∧
    (s.core n).reads = false ∧ (s.core n).pcOut = none

/-- Core n issues its next bundle as an ordinary one: another bundle follows it, and it ends no hardware loop (04 R139). -/
def State.issues (s : State) (n : Nat) : Prop :=
  s.atBundle n ∧ (s.core n).pc.toNat + 16 < 2 ^ 20 ∧ ∀ l ∈ (s.core n).loops, l.last ≠ (s.core n).pc

/-- The core of a slot issues and the slot's predicate lets its operation execute (04 R126). -/
def State.executes (s : State) (o : Slot) : Prop := s.issues (coreNo o.core) ∧ (s.core (coreNo o.core)).pred o = true

/-- The core at its next bundle. -/
def Core.next (c : Core) : Core := { c with pc := c.pc + 16, pcOut := none, stall := .none, seqReads := c.dropReads }

/-- What the issue of a bundle changes beside the effects of its operations: pc goes on to the next bundle, a stall ends,
and the counter of issued bundles gains 1 (04 R127, R149). -/
def State.issued (s : State) (n : Nat) : State :=
  (s.modCore n Core.next).inc64 (corePage n 0 + 0x68)

/-- The same, with control sent to an address (04 R128, R129). -/
def State.issuedTo (s : State) (n : Nat) (a : BitVec 20) : State :=
  (s.modCore n (fun c => { c with pc := a, pcOut := none, stall := .none, seqReads := c.dropReads })).inc64 (corePage n 0 + 0x68)

/-- Register g[i] of core n takes a value: the physical register that the logical name stands for now (04 R140). -/
def State.setGr (s : State) (n : Nat) (i : BitVec 5) (v : Dword) : State :=
  s.modCore n (fun d => d.setG (physG (s.core n).rotG i) v)

/-- Predicate p[i] of core n takes a value. -/
def State.setPr (s : State) (n : Nat) (i : BitVec 3) (v : Bool) : State := s.modCore n (fun d => d.setP i v)

/-- Command i, issued as an ordinary bundle of the core of slot o, has the effect t and nothing else. -/
def State.gives (s : State) (o : Slot) (i : Instr) (t : State) : Prop := exec i s = .next (t.issued (coreNo o.core))

/-- Command i raises a precise fault in a slot. -/
def State.faults (s : State) (o : Slot) (i : Instr) (slot op : Nat) (f : Flt) : Prop :=
  exec i s = .next (s.seqFault (coreNo o.core) slot op f)

/-- The load commands of slot 2, each with its kind (04 R133). -/
def loadsOf (o : Slot) (r : BitVec 6) (n : BitVec 3) (am : BitVec 2) (off : BitVec 11) (e : Ecc) : List (Instr × MemKind) :=
  [(.ldb o r n am off e, .ldb), (.ldh o r n am off e, .ldh), (.ldw o r n am off e, .ldw), (.ldd o r n am off e, .ldd),
    (.ldv o r n am off e, .ldv), (.ldvb o r n am off e, .ldvb)]

/-- The store commands of slot 2, each with its kind. -/
def storesOf (o : Slot) (r : BitVec 6) (n : BitVec 3) (am : BitVec 2) (off : BitVec 11) : List (Instr × MemKind) :=
  [(.stb o r n am off, .stb), (.sth o r n am off, .sth), (.stw o r n am off, .stw), (.std o r n am off, .std), (.stv o r n am off, .stv)]

/-- The operand fields of a slot-2 access are legal: AM is not 0b11, and a g register is named with [21] = 0 (04 R132, R133). -/
def MemKind.legal (k : MemKind) (r : BitVec 6) (am : BitVec 2) : Prop := am ≠ 3 ∧ (k.usesV = true ∨ r.getLsbD 5 = false)

/-- The post-modify of generator g, if the access makes one (04 R132). -/
def State.postMod (s : State) (n : Nat) (g : BitVec 3) : Option Dword → State
  | some u => s.modCore n (fun c => c.setA g u)
  | none => s

/-- Vector command i writes the first e elements of w bits of register vd with the results g, leaves its other bits (04 R124), and
raises the flags of those e results, on the state `base` (the state itself, or the one whose generator the command advances). -/
def State.lanewise (s : State) (o : Slot) (i : Instr) (vd : BitVec 6) (w e : Nat) (base : State) (g : Nat → Nat × Flags) : Prop :=
  let c := s.core (coreNo o.core)
  ∃ r : BitVec 1024, (∀ j, (j + 1) * w ≤ 1024 → elemOf w r j = if j < e then (g j).1 % 2 ^ w else elemOf w (c.vr vd) j) ∧
    s.gives o i (base.vecDone (coreNo o.core) (physV c.rotV vd) (r, (List.range e).foldl (fun f j => f ||| (g j).2) 0, false))

/-- The draw of element j of e for GEN = 0 or 1 (05 R172, R176). -/
def State.drawOf (s : State) (n : Nat) (gen : Bool) (e j : Nat) : BitVec 128 := if gen then s.freeDraw n (s.core n).vl e j else s.keyedDraw n j

/-- The state after the draws of e elements: a keyed draw advances the generator, a free-running one lets the lanes' states run on. -/
def State.afterDraw (s : State) (n : Nat) (gen : Bool) (e : Nat) : State :=
  if gen then s.ticked n else s.drewKeyed n e

/-- The rounding of element j of e under a MOD field (04 R136; 05 R179). -/
def State.roundOf (s : State) (n : Nat) (mod : BitVec 4) (e j : Nat) : Rm :=
  if mod.toNat % 4 = 0 then .rne
  else if mod.toNat % 4 = 1 then .rto
  else
    let b := if s.bit (rngPage n + 0x58) 1 then 3 else 4
    .sr b (srBits (s.drawOf n (mod.getLsbD 3) e j) b)

/-- Command i, with the module out of reset, leads to t. -/
def State.goes (s : State) (i : Instr) (t : State) : Prop := s.inReset = false → exec i s = .next t

/-- Command i, of a core whose island runs, leads to t (16 R494). -/
def State.runs (s : State) (i : Instr) (t : State) : Prop := s.inReset = false → s.tripped = false → exec i s = .next t

/-- Command i, a control access to the register of key k by a party that may write it, has the effect t and is answered with
ACK STATUS 0 (17 R516). -/
def State.acts (s : State) (who : Party) (k : Nat) (i : Instr) (t : State) : Prop :=
  s.inReset = false → s.mayWrite who k = true → exec i s = .next (t.answerCtl 0)

/-- In u a device frame of session x, of a KIND with a SEQ and a body, has left s: on the management port under MACsec it has been
sent, on a data port it stands last in the transmit queue of a sub-port of the session's port (14 R431, R432, R452). -/
def State.leaves (s u : State) (t : Nat) (x : Session) (kind : Nat) (seq : BitVec 32) (body : List Byte) : Prop :=
  let n := portNo x.port
  let res := (s.tenant t).res
  (x.mgmt = true → s.macsecReady t = true → ∃ l, u.sent = s.sent ++ .ubx (BitVec.ofNat 8 t) x.port true kind seq (x.expect - 1) x.credit body :: l) ∧
  (x.mgmt = false → ∃ q pad, ∃ f : TxFrame, q < max 1 (modeSubs (s.mode n)) ∧ u.txq n q = s.txq n q ++ [f] ∧ f.tenant = BitVec.ofNat 8 t ∧ f.cls.val = res.tclass.toNat ∧ f.gone = 0 ∧
    f.len = 8 + 42 + (tagBytes t).length + body.length + pad + s.macsecBytes t ∧
    (pad = 0 ∨ 42 + (tagBytes t).length + body.length + pad + s.macsecBytes t = 64) ∧
    f.bytes = beBytes 6 x.host.toNat ++ beBytes 6 res.mac.toNat ++ tagBytes t ++ [0x88, 0xB5] ++ (beBytes 1 x.version.toNat ++ beBytes 1 kind ++ [0] ++ beBytes 1 t ++ beBytes 4 x.id.toNat ++
      beBytes 4 seq.toNat ++ beBytes 4 (x.expect - 1).toNat ++ beBytes 4 x.credit.toNat ++ beBytes 2 body.length ++ [0, 0]) ++ body ++ List.replicate pad 0)

/-- The same with the frame leaving after the step has changed other parts of s: what the frame depends on is as in s. -/
def State.leavesAfter (s u : State) (t : Nat) (x : Session) (kind : Nat) (seq : BitVec 32) (body : List Byte) : Prop :=
  ∃ v : State, v.sent = s.sent ∧ v.ports = s.ports ∧ v.sec = s.sec ∧ (v.tenant t).res = (s.tenant t).res ∧ (v.tenant t).live = (s.tenant t).live ∧ (∀ n, v.mode n = s.mode n) ∧
    v.leaves u t x kind seq body

/-- The session of a frame that carries the acknowledgement and announces the credit (14 R440, R441). -/
def Tenant.speaks (x : Tenant) : Session := { x.sess with credit := x.creditNow, ackDue := false }

/-- The commands of a session run as command c of tenant t comes next (14 R446): an OP that the session takes, with the module out
of reset. -/
def State.nextIs (s : State) (t : Nat) (c : QCmd) (op : Nat) : Prop :=
  s.inReset = false ∧ s.nextCmd t = some c ∧ c.op = BitVec.ofNat 16 op ∧ knownOp t op = true

/-- The slot, the opcode and the operand bits [21:0] that the encoding tables give a Slovo operation (04 R129 to R137), with the bit errors
that its access is said to find. -/
def slotFields : Instr → Option (Slot × Nat × Ecc × BitVec 6 × BitVec 22)
  | .nop o k => some (o, k.val, ⟨[], []⟩, 0, 0)
  | .br o imm => some (o, 0, ⟨[], []⟩, 0x01, imm)
  | .brr o ga => some (o, 0, ⟨[], []⟩, 0x02, 0#5 ++ ga ++ 0#12)
  | .call o imm => some (o, 0, ⟨[], []⟩, 0x03, imm)
  | .loop o ga blm1 sm1 rot => some (o, 0, ⟨[], []⟩, 0x04, ga ++ blm1 ++ sm1 ++ BitVec.ofBool rot ++ 0#8)
  | .loopi o n blm1 sm1 rot => some (o, 0, ⟨[], []⟩, 0x05, n ++ blm1 ++ sm1 ++ BitVec.ofBool rot)
  | .issue o cls ctr ga e => some (o, 0, e, 0x06, cls ++ ctr ++ 0#1 ++ ga ++ 0#12)
  | .wait o mask n time ga => some (o, 0, ⟨[], []⟩, 0x07, mask ++ n ++ BitVec.ofBool time ++ ga ++ 0#8)
  | .fence o => some (o, 0, ⟨[], []⟩, 0x08, 0)
  | .mfs o gd sidx => some (o, 0, ⟨[], []⟩, 0x09, gd ++ 0#6 ++ sidx ++ 0#5)
  | .mts o ga sidx => some (o, 0, ⟨[], []⟩, 0x0A, 0#5 ++ ga ++ 0#1 ++ sidx ++ 0#5)
  | .clr o gd idx => some (o, 0, ⟨[], []⟩, 0x0B, gd ++ 0#7 ++ idx)
  | .clw o ga idx => some (o, 0, ⟨[], []⟩, 0x0C, 0#5 ++ ga ++ 0#2 ++ idx)
  | .event o code => some (o, 0, ⟨[], []⟩, 0x0D, 0#6 ++ code)
  | .halt o => some (o, 0, ⟨[], []⟩, 0x0E, 0)
  | .add o k gd ga gb => some (o, k.val, ⟨[], []⟩, 0x10, gd ++ ga ++ gb ++ 0#7)
  | .sub o k gd ga gb => some (o, k.val, ⟨[], []⟩, 0x11, gd ++ ga ++ gb ++ 0#7)
  | .and o k gd ga gb => some (o, k.val, ⟨[], []⟩, 0x12, gd ++ ga ++ gb ++ 0#7)
  | .or o k gd ga gb => some (o, k.val, ⟨[], []⟩, 0x13, gd ++ ga ++ gb ++ 0#7)
  | .xor o k gd ga gb => some (o, k.val, ⟨[], []⟩, 0x14, gd ++ ga ++ gb ++ 0#7)
  | .shl o k gd ga gb => some (o, k.val, ⟨[], []⟩, 0x15, gd ++ ga ++ gb ++ 0#7)
  | .shr o k gd ga gb => some (o, k.val, ⟨[], []⟩, 0x16, gd ++ ga ++ gb ++ 0#7)
  | .sha o k gd ga gb => some (o, k.val, ⟨[], []⟩, 0x17, gd ++ ga ++ gb ++ 0#7)
  | .mul o k gd ga gb => some (o, k.val, ⟨[], []⟩, 0x18, gd ++ ga ++ gb ++ 0#7)
  | .smin o k gd ga gb => some (o, k.val, ⟨[], []⟩, 0x19, gd ++ ga ++ gb ++ 0#7)
  | .smax o k gd ga gb => some (o, k.val, ⟨[], []⟩, 0x1A, gd ++ ga ++ gb ++ 0#7)
  | .cmplt o k pd ga gb => some (o, k.val, ⟨[], []⟩, 0x1B, 0#2 ++ pd ++ ga ++ gb ++ 0#7)
  | .cmpltu o k pd ga gb => some (o, k.val, ⟨[], []⟩, 0x1C, 0#2 ++ pd ++ ga ++ gb ++ 0#7)
  | .cmpeq o k pd ga gb => some (o, k.val, ⟨[], []⟩, 0x1D, 0#2 ++ pd ++ ga ++ gb ++ 0#7)
  | .plog o k pd pa pb tt => some (o, k.val, ⟨[], []⟩, 0x1E, 0#2 ++ pd ++ 0#2 ++ pa ++ 0#2 ++ pb ++ 0#3 ++ tt)
  | .addi o k gd ga imm => some (o, k.val, ⟨[], []⟩, 0x20, gd ++ ga ++ imm)
  | .andi o k gd ga imm => some (o, k.val, ⟨[], []⟩, 0x21, gd ++ ga ++ imm)
  | .ori o k gd ga imm => some (o, k.val, ⟨[], []⟩, 0x22, gd ++ ga ++ imm)
  | .xori o k gd ga imm => some (o, k.val, ⟨[], []⟩, 0x23, gd ++ ga ++ imm)
  | .shli o k gd ga imm => some (o, k.val, ⟨[], []⟩, 0x24, gd ++ ga ++ imm)
  | .shri o k gd ga imm => some (o, k.val, ⟨[], []⟩, 0x25, gd ++ ga ++ imm)
  | .shai o k gd ga imm => some (o, k.val, ⟨[], []⟩, 0x26, gd ++ ga ++ imm)
  | .cmplti o k pd ga imm => some (o, k.val, ⟨[], []⟩, 0x27, 0#2 ++ pd ++ ga ++ imm)
  | .cmpeqi o k pd ga imm => some (o, k.val, ⟨[], []⟩, 0x28, 0#2 ++ pd ++ ga ++ imm)
  | .movi o k gd imm => some (o, k.val, ⟨[], []⟩, 0x29, gd ++ imm)
  | .shlor o k gd imm => some (o, k.val, ⟨[], []⟩, 0x2A, gd ++ imm)
  | .seta o n g imm => some (o, 1, ⟨[], []⟩, 0x30, n ++ 0#2 ++ g ++ imm)
  | .setm o n g imm => some (o, 1, ⟨[], []⟩, 0x31, n ++ 0#2 ++ g ++ imm)
  | .setb o n g imm => some (o, 1, ⟨[], []⟩, 0x32, n ++ 0#2 ++ g ++ imm)
  | .setl o n g imm => some (o, 1, ⟨[], []⟩, 0x33, n ++ 0#2 ++ g ++ imm)
  | .setmd o n g imm => some (o, 1, ⟨[], []⟩, 0x34, n ++ 0#2 ++ g ++ imm)
  | .geta o n g imm => some (o, 1, ⟨[], []⟩, 0x35, n ++ 0#2 ++ g ++ imm)
  | .ldb o r n am off e => some (o, 2, e, 0x01, r ++ n ++ am ++ off)
  | .ldh o r n am off e => some (o, 2, e, 0x02, r ++ n ++ am ++ off)
  | .ldw o r n am off e => some (o, 2, e, 0x03, r ++ n ++ am ++ off)
  | .ldd o r n am off e => some (o, 2, e, 0x04, r ++ n ++ am ++ off)
  | .ldv o r n am off e => some (o, 2, e, 0x09, r ++ n ++ am ++ off)
  | .ldvb o r n am off e => some (o, 2, e, 0x0B, r ++ n ++ am ++ off)
  | .stb o r n am off => some (o, 2, ⟨[], []⟩, 0x05, r ++ n ++ am ++ off)
  | .sth o r n am off => some (o, 2, ⟨[], []⟩, 0x06, r ++ n ++ am ++ off)
  | .stw o r n am off => some (o, 2, ⟨[], []⟩, 0x07, r ++ n ++ am ++ off)
  | .std o r n am off => some (o, 2, ⟨[], []⟩, 0x08, r ++ n ++ am ++ off)
  | .stv o r n am off => some (o, 2, ⟨[], []⟩, 0x0A, r ++ n ++ am ++ off)
  | .vpush o r stream => some (o, 2, ⟨[], []⟩, 0x0C, r ++ 0#15 ++ BitVec.ofBool stream)
  | .vpull o r stream => some (o, 2, ⟨[], []⟩, 0x0D, r ++ 0#15 ++ BitVec.ofBool stream)
  | .faddS o vd va vb mod => some (o, 3, ⟨[], []⟩, 0x01, vd ++ va ++ vb ++ mod)
  | .fsubS o vd va vb mod => some (o, 3, ⟨[], []⟩, 0x02, vd ++ va ++ vb ++ mod)
  | .fmulS o vd va vb mod => some (o, 3, ⟨[], []⟩, 0x03, vd ++ va ++ vb ++ mod)
  | .fmaS o vd va vb mod => some (o, 3, ⟨[], []⟩, 0x04, vd ++ va ++ vb ++ mod)
  | .fminS o vd va vb mod => some (o, 3, ⟨[], []⟩, 0x05, vd ++ va ++ vb ++ mod)
  | .fmaxS o vd va vb mod => some (o, 3, ⟨[], []⟩, 0x06, vd ++ va ++ vb ++ mod)
  | .fdivS o vd va vb mod => some (o, 3, ⟨[], []⟩, 0x07, vd ++ va ++ vb ++ mod)
  | .fsqrtS o vd va vb mod => some (o, 3, ⟨[], []⟩, 0x08, vd ++ va ++ vb ++ mod)
  | .faddD o vd va vb mod => some (o, 3, ⟨[], []⟩, 0x09, vd ++ va ++ vb ++ mod)
  | .fsubD o vd va vb mod => some (o, 3, ⟨[], []⟩, 0x0A, vd ++ va ++ vb ++ mod)
  | .fmulD o vd va vb mod => some (o, 3, ⟨[], []⟩, 0x0B, vd ++ va ++ vb ++ mod)
  | .fmaD o vd va vb mod => some (o, 3, ⟨[], []⟩, 0x0C, vd ++ va ++ vb ++ mod)
  | .fdivD o vd va vb mod => some (o, 3, ⟨[], []⟩, 0x0D, vd ++ va ++ vb ++ mod)
  | .fsqrtD o vd va vb mod => some (o, 3, ⟨[], []⟩, 0x0E, vd ++ va ++ vb ++ mod)
  | .haddB o vd va vb mod => some (o, 3, ⟨[], []⟩, 0x10, vd ++ va ++ vb ++ mod)
  | .hmulB o vd va vb mod => some (o, 3, ⟨[], []⟩, 0x11, vd ++ va ++ vb ++ mod)
  | .hfmaB o vd va vb mod => some (o, 3, ⟨[], []⟩, 0x12, vd ++ va ++ vb ++ mod)
  | .haddH o vd va vb mod => some (o, 3, ⟨[], []⟩, 0x13, vd ++ va ++ vb ++ mod)
  | .hmulH o vd va vb mod => some (o, 3, ⟨[], []⟩, 0x14, vd ++ va ++ vb ++ mod)
  | .hfmaH o vd va vb mod => some (o, 3, ⟨[], []⟩, 0x15, vd ++ va ++ vb ++ mod)
  | .fcmpltS o vd va vb mod => some (o, 3, ⟨[], []⟩, 0x16, vd ++ va ++ vb ++ mod)
  | .fcmpeqS o vd va vb mod => some (o, 3, ⟨[], []⟩, 0x17, vd ++ va ++ vb ++ mod)
  | .fcmpleS o vd va vb mod => some (o, 3, ⟨[], []⟩, 0x18, vd ++ va ++ vb ++ mod)
  | .sel o vd va vb mod => some (o, 3, ⟨[], []⟩, 0x19, vd ++ va ++ vb ++ mod)
  | .iadd o vd va vb mod => some (o, 3, ⟨[], []⟩, 0x1A, vd ++ va ++ vb ++ mod)
  | .isub o vd va vb mod => some (o, 3, ⟨[], []⟩, 0x1B, vd ++ va ++ vb ++ mod)
  | .vand o vd va vb mod => some (o, 3, ⟨[], []⟩, 0x1C, vd ++ va ++ vb ++ mod)
  | .vor o vd va vb mod => some (o, 3, ⟨[], []⟩, 0x1D, vd ++ va ++ vb ++ mod)
  | .vxor o vd va vb mod => some (o, 3, ⟨[], []⟩, 0x1E, vd ++ va ++ vb ++ mod)
  | .cvt o vd va vb mod => some (o, 3, ⟨[], []⟩, 0x20, vd ++ va ++ vb ++ mod)
  | .mxq o vd va vb mod => some (o, 3, ⟨[], []⟩, 0x21, vd ++ va ++ vb ++ mod)
  | .mxd o vd va vb mod => some (o, 3, ⟨[], []⟩, 0x22, vd ++ va ++ vb ++ mod)
  | .norm o vd va vb mod => some (o, 3, ⟨[], []⟩, 0x23, vd ++ va ++ vb ++ mod)
  | .getexp o vd va vb mod => some (o, 3, ⟨[], []⟩, 0x24, vd ++ va ++ vb ++ mod)
  | .red o vd va vb mod => some (o, 3, ⟨[], []⟩, 0x25, vd ++ va ++ vb ++ mod)
  | .apx o vd va vb mod => some (o, 3, ⟨[], []⟩, 0x26, vd ++ va ++ vb ++ mod)
  | .rand o vd va vb mod => some (o, 3, ⟨[], []⟩, 0x27, vd ++ va ++ vb ++ mod)
  | .sample o vd va vb mod => some (o, 3, ⟨[], []⟩, 0x28, vd ++ va ++ vb ++ mod)
  | .drop o vd va vb mod => some (o, 3, ⟨[], []⟩, 0x29, vd ++ va ++ vb ++ mod)
  | .bcast o vd va vb mod => some (o, 3, ⟨[], []⟩, 0x2A, vd ++ va ++ vb ++ mod)
  | .perm o vd va vb mod => some (o, 3, ⟨[], []⟩, 0x2B, vd ++ va ++ vb ++ mod)
  | _ => none

/-- A slot word: PRED, PNEG, OP, operands (04 R126). -/
def slotCode (o : Slot) (op : BitVec 6) (arg : BitVec 22) : BitVec 32 := o.pred ++ BitVec.ofBool o.neg ++ op ++ arg

end Sys2Proof.Machine
end

