-- ==== Sys2Proof/Certificates/Slice0/Obligations.lean ====
section
/-! DEFINITION. The statements for the provers. -/
open Sys2Proof Sys2Proof.Machine

/-- A step with command c at the front of the queue is exec of c on the state with the queue's rest. -/
def Obligations.StepRunsFront : Prop :=
  ∀ (s : State) (c : Instr) (rest : List Instr), s.pending = c :: rest → step s = exec c { s with pending := rest }

/-- Every operation of R130: with its predicate true it writes exactly its result to gd, or its truth value to pd; the
immediate forms that R130 marks illegal raise an ILLEGAL fault. -/
def Claims.ScalarResults : Prop :=
  ∀ (s : State) (o : Slot) (k : Fin 2) (gd ga gb : BitVec 5) (pd pa pb : BitVec 3) (tt : BitVec 4) (imm : BitVec 12)
    (big : BitVec 17), s.executes o →
    let n := coreNo o.core
    let c := s.core n
    let x := c.gr ga
    let y := c.gr gb
    let i : Dword := imm.signExtend 64
    let sh := imm.toNat % 64
    s.gives o (.add o k gd ga gb) (s.setGr n gd (x + y)) ∧
    s.gives o (.sub o k gd ga gb) (s.setGr n gd (x - y)) ∧
    s.gives o (.and o k gd ga gb) (s.setGr n gd (x &&& y)) ∧
    s.gives o (.or o k gd ga gb) (s.setGr n gd (x ||| y)) ∧
    s.gives o (.xor o k gd ga gb) (s.setGr n gd (x ^^^ y)) ∧
    s.gives o (.shl o k gd ga gb) (s.setGr n gd (x <<< (y.toNat % 64))) ∧
    s.gives o (.shr o k gd ga gb) (s.setGr n gd (x >>> (y.toNat % 64))) ∧
    s.gives o (.sha o k gd ga gb) (s.setGr n gd (x.sshiftRight (y.toNat % 64))) ∧
    s.gives o (.mul o k gd ga gb) (s.setGr n gd (BitVec.ofNat 64 (x.toNat * y.toNat))) ∧
    s.gives o (.smin o k gd ga gb) (s.setGr n gd (if x.toInt ≤ y.toInt then x else y)) ∧
    s.gives o (.smax o k gd ga gb) (s.setGr n gd (if y.toInt ≤ x.toInt then x else y)) ∧
    s.gives o (.cmplt o k pd ga gb) (s.setPr n pd (decide (x.toInt < y.toInt))) ∧
    s.gives o (.cmpltu o k pd ga gb) (s.setPr n pd (decide (x.toNat < y.toNat))) ∧
    s.gives o (.cmpeq o k pd ga gb) (s.setPr n pd (decide (x = y))) ∧
    s.gives o (.plog o k pd pa pb tt)
      (s.setPr n pd (tt.getLsbD ((if c.pr pa then 2 else 0) + (if c.pr pb then 1 else 0)))) ∧
    s.gives o (.addi o k gd ga imm) (s.setGr n gd (x + i)) ∧
    s.gives o (.andi o k gd ga imm) (s.setGr n gd (x &&& i)) ∧
    s.gives o (.ori o k gd ga imm) (s.setGr n gd (x ||| i)) ∧
    s.gives o (.xori o k gd ga imm) (s.setGr n gd (x ^^^ i)) ∧
    (imm.toNat < 64 → s.gives o (.shli o k gd ga imm) (s.setGr n gd (x <<< sh)) ∧
      s.gives o (.shri o k gd ga imm) (s.setGr n gd (x >>> sh)) ∧
      s.gives o (.shai o k gd ga imm) (s.setGr n gd (x.sshiftRight sh))) ∧
    (64 ≤ imm.toNat → s.faults o (.shli o k gd ga imm) k.val 0x24 .illegal ∧
      s.faults o (.shri o k gd ga imm) k.val 0x25 .illegal ∧ s.faults o (.shai o k gd ga imm) k.val 0x26 .illegal) ∧
    s.gives o (.cmplti o k pd ga imm) (s.setPr n pd (decide (x.toInt < i.toInt))) ∧
    s.gives o (.cmpeqi o k pd ga imm) (s.setPr n pd (decide (x = i))) ∧
    s.gives o (.movi o k gd big) (s.setGr n gd (big.signExtend 64)) ∧
    (big.getLsbD 16 = false →
      s.gives o (.shlor o k gd big) (s.setGr n gd ((c.gr gd <<< 16) ||| (big.setWidth 16).setWidth 64))) ∧
    (big.getLsbD 16 = true → s.faults o (.shlor o k gd big) k.val 0x2A .illegal)

/-- The generator operations of R131: SETA, SETM, SETB, SETL and SETMD write their own field of generator n alone, GETA
copies a_n; a length of 0 or above 2^20 is an AGU fault, and a nonzero unused field an ILLEGAL fault. -/
def Claims.GeneratorResults : Prop :=
  ∀ (s : State) (o : Slot) (n : BitVec 3) (ga : BitVec 5) (imm : BitVec 12), s.executes o →
    let k := coreNo o.core
    let c := s.core k
    let v := c.gr ga + imm.signExtend 64
    s.gives o (.seta o n ga imm) (s.modCore k (fun d => d.setA n v)) ∧
    s.gives o (.setm o n ga imm) (s.modCore k (fun d => d.setM n (v.setWidth 32))) ∧
    s.gives o (.setb o n ga imm) (s.modCore k (fun d => d.setBase n (v.setWidth 56))) ∧
    (0 < v.toNat → v.toNat ≤ 2 ^ 20 → s.gives o (.setl o n ga imm) (s.modCore k (fun d => d.setLen n (v.setWidth 21)))) ∧
    (v.toNat = 0 ∨ 2 ^ 20 < v.toNat → s.faults o (.setl o n ga imm) 1 0x33 .agu) ∧
    (ga = 0 → imm.toNat ≤ 1 → ∃ m : BitVec 8, (∀ j : Fin 8, m.getLsbD j.val = if j.val = n.toNat then imm.getLsbD 0 else c.mode.getLsbD j.val) ∧
      s.gives o (.setmd o n ga imm) (s.modCore k (fun d => { d with mode := m }))) ∧
    (ga ≠ 0 ∨ 1 < imm.toNat → s.faults o (.setmd o n ga imm) 1 0x34 .illegal) ∧
    (imm = 0 → s.gives o (.geta o n ga imm) (s.setGr k ga (c.ar n))) ∧
    (imm ≠ 0 → s.faults o (.geta o n ga imm) 1 0x35 .illegal)

/-- The scalar operations of slots 0 and 1 and the generator operations of slot 1. -/
def Obligations.ScalarResults : Prop :=
  Claims.ScalarResults ∧ Claims.GeneratorResults

/-- What a core's registers read after a write (04 R122, R140): g0 and p0 keep their values, the written register reads
the value, and every other logical register reads as before. -/
def Claims.RegisterWrites : Prop :=
  ∀ (s : State) (n : Nat) (i j : BitVec 5) (v : Dword) (p q : BitVec 3) (b : Bool),
    ((s.setGr n i v).core n).gr j = (if j = 0 then 0 else if j = i then v else (s.core n).gr j) ∧
    ((s.setPr n p b).core n).pr q = (if q = 0 then true else if q = p then b else (s.core n).pr q)

/-- The rotating names (04 R140): the physical register of g(16 + i) is 16 + (i - rot_g) mod 16 and that of v(32 + i) is
32 + (i - rot_v) mod 32; the other names do not rotate; and when a trip of a rotating loop ends, a value written
under a logical name is read under the next one. -/
def Claims.RotatingNames : Prop :=
  (∀ (r : BitVec 4) (i : Nat), i < 16 →
    physG r (BitVec.ofNat 5 i) = i ∧ (physG r (BitVec.ofNat 5 (16 + i)) : Int) = 16 + ((i : Int) - r.toNat) % 16) ∧
  (∀ (r : BitVec 5) (i : Nat), i < 32 →
    physV r (BitVec.ofNat 6 i) = i ∧ (physV r (BitVec.ofNat 6 (32 + i)) : Int) = 32 + ((i : Int) - r.toNat) % 32) ∧
  (∀ (c : Core) (i : Nat) (v : Dword), i < 15 →
    let d := c.setG (physG c.rotG (BitVec.ofNat 5 (16 + i))) v
    ({ d with rotG := d.rotG + 1 } : Core).gr (BitVec.ofNat 5 (17 + i)) = v)

/-- The names of a core's registers: what each reads after a write, and where the rotating names lie. -/
def Obligations.NamesOfRegisters : Prop :=
  Claims.RegisterWrites ∧ Claims.RotatingNames

/-- BR, BRR and CALL (04 R129, R142): control goes to the target; a taken BR or BRR pops, from the top, the loops whose
body does not hold the target, and no others; CALL writes g15 and pops nothing; BRR's faults. A target outside the
scratchpad is kept for the fetch to fault on. -/
def Claims.BranchResults : Prop :=
  ∀ (s : State) (o : Slot) (imm : BitVec 22) (ga : BitVec 5),
    let n := coreNo o.core
    let c := s.core n
    let t : Int := (c.pc.toNat : Int) + imm.toInt * 16
    let v := c.gr ga
    let popped (x : Int) (kept : List LoopEntry) : Prop :=
      ∃ gone, c.loops = kept ++ gone ∧ (∀ l ∈ gone, l.holds x = false) ∧ ∀ l, kept.getLast? = some l → l.holds x = true
    s.atBundle n → c.pred o = true →
    (0 ≤ t → t < 2 ^ 20 →
      (∃ kept, popped t kept ∧
        exec (.br o imm) s = .next ((s.modCore n (fun d => d.bufferKept { d with loops := kept })).issuedTo n (BitVec.ofInt 20 t))) ∧
      exec (.call o imm) s = .next ((s.setGr n 15 (c.pc.setWidth 64 + 16)).issuedTo n (BitVec.ofInt 20 t))) ∧
    (t < 0 ∨ 2 ^ 20 ≤ t →
      (∃ u, exec (.br o imm) s = .next u ∧ (u.core n).pcOut = some (BitVec.ofInt 64 t)) ∧
      (∃ u, exec (.call o imm) s = .next u ∧ (u.core n).pcOut = some (BitVec.ofInt 64 t) ∧ (u.core n).gr 15 = c.pc.setWidth 64 + 16)) ∧
    (v.toNat % 16 = 0 → v.toNat < 2 ^ 20 → ∃ kept, popped v.toNat kept ∧
      exec (.brr o ga) s = .next ((s.modCore n (fun d => d.bufferKept { d with loops := kept })).issuedTo n (v.setWidth 20))) ∧
    (v.toNat % 16 ≠ 0 → v.toNat < 2 ^ 20 → s.faults o (.brr o ga) 0 0x02 (.misaligned v)) ∧
    (v.toNat % 16 = 0 → 2 ^ 20 ≤ v.toNat → s.faults o (.brr o ga) 0 0x02 (.access v)) ∧
    (v.toNat % 16 ≠ 0 → 2 ^ 20 ≤ v.toNat →
      s.faults o (.brr o ga) 0 0x02 (.misaligned v) ∨ s.faults o (.brr o ga) 0 0x02 (.access v))

/-- LOOP and LOOPI (04 R139, R141, R143): with N = 0 control goes past the body; else the loop is pushed with N trips, its
first and last bundle and its stages, and a rotating loop starts with p4 set and p5 to p(3 + S) clear. S > 1 without ROT is
illegal; a full stack, a second rotating loop, or a body outside the enclosing one is a LOOP fault whatever N is. -/
def Claims.LoopResults : Prop :=
  ∀ (s : State) (o : Slot) (ga : BitVec 5) (trips : BitVec 13) (blm1 : BitVec 6) (sm1 : BitVec 2) (rot : Bool),
    let n := coreNo o.core
    let c := s.core n
    let b := c.pc.toNat
    let bl := blm1.toNat + 1
    let st := sm1.toNat + 1
    let full := 4 ≤ c.loops.length
    let second := rot = true ∧ ∃ l ∈ c.loops, l.rot = true
    let outside := ∃ l, c.loops.getLast? = some l ∧ ¬ (l.first.toNat ≤ b + 16 ∧ b + 16 * bl ≤ l.last.toNat)
    s.executes o →
    ∀ (i : Instr) (op N : Nat),
      (i = .loop o ga blm1 sm1 rot ∧ op = 0x04 ∧ N = (c.gr ga).toNat % 2 ^ 32) ∨ (i = .loopi o trips blm1 sm1 rot ∧ op = 0x05 ∧ N = trips.toNat) →
      (1 < st → rot = false → s.faults o i 0 op .illegal) ∧
      ((1 < st → rot = true) → full ∨ second ∨ outside → s.faults o i 0 op .loop) ∧
      ((1 < st → rot = true) → ¬ (full ∨ second ∨ outside) →
        (N = 0 → b + 16 * (bl + 1) < 2 ^ 20 → exec i s = .next (s.issuedTo n (BitVec.ofNat 20 (b + 16 * (bl + 1))))) ∧
        (N = 0 → 2 ^ 20 ≤ b + 16 * (bl + 1) → ∃ u, exec i s = .next u ∧ (u.core n).pcOut = some (BitVec.ofNat 64 (b + 16 * (bl + 1))) ∧
          (u.core n).loops = c.loops) ∧
        (0 < N → ∃ p : BitVec 8,
          (∀ q : Fin 8, p.getLsbD q.val = if rot = true ∧ 4 ≤ q.val ∧ q.val < 4 + st then decide (q.val = 4) else c.p.getLsbD q.val) ∧
          s.gives o i (s.modCore n (fun d => { d with p := p, loopBuf := [], loops := d.loops ++ [LoopEntry.mk (BitVec.ofNat 20 (b + 16)) (BitVec.ofNat 20 (b + 16 * bl)) st rot N 0] }))))

/-- The end of a trip (04 R139 to R142), shown on a NOP in the last bundle of the innermost loop: with trips left control
goes back to the body's first bundle; else the loop is popped and, where no enclosing loop ends at the same bundle, control goes on. A
rotating loop advances rot_g and rot_v by 1 and recomputes its stage predicates for the next trip index t. -/
def Claims.TripEnds : Prop :=
  ∀ (s : State) (o : Slot) (k : Fin 4) (l : LoopEntry) (below : List LoopEntry),
    let n := coreNo o.core
    let c := s.core n
    let t := l.done + 1
    let last := l.n + l.stages - 1 ≤ t
    s.atBundle n → c.loops = below ++ [l] → l.last = c.pc → below.length ≤ 3 → (∀ x ∈ below, x.last ≠ c.pc) → 1 ≤ l.stages → l.stages ≤ 4 →
      c.pc.toNat + 16 < 2 ^ 20 →
      ∃ p : BitVec 8,
        (∀ q : Fin 8, p.getLsbD q.val = if l.rot = true ∧ 4 ≤ q.val ∧ q.val < 4 + l.stages then decide (q.val - 4 ≤ t ∧ t - (q.val - 4) < l.n)
          else c.p.getLsbD q.val) ∧
        let turned : Core := { c with p := p, rotG := if l.rot then c.rotG + 1 else c.rotG, rotV := if l.rot then c.rotV + 1 else c.rotV }
        (¬ last → exec (.nop o k) s = .next ((s.setCore n { turned with loops := below ++ [{ l with done := t }] }).issuedTo n l.first)) ∧
        (last → exec (.nop o k) s = .next ((s.setCore n { turned with loops := below, loopBuf := [] }).issued n))

/-- Branches and hardware loops: BR, BRR and CALL, LOOP and LOOPI, and the end of a trip. -/
def Obligations.BranchesAndLoops : Prop :=
  Claims.BranchResults ∧ Claims.LoopResults ∧ Claims.TripEnds

/-- The other control operations (04 R123, R129, R146, R147): NOP, WAIT, FENCE, MFS, MTS, CLR, CLW, EVENT and HALT. A
condition that does not hold stalls the bundle, which changes nothing but the stall. -/
def Claims.ControlResults : Prop :=
  ∀ (s : State) (o : Slot) (k : Fin 4) (ga gd : BitVec 5) (mask lim : BitVec 4) (time : Bool) (idx : BitVec 10) (code : BitVec 16),
    s.executes o →
    let n := coreNo o.core
    let c := s.core n
    let v := c.gr ga
    let stalls (i : Instr) (st : Stall) : Prop := exec i s = .next (s.modCore n (fun d => { d with stall := st }))
    let over_ := (∀ j, j < 4 → mask.getLsbD j = true → c.ctr j ≤ lim.toNat) ∧ (time = true → v.toNat ≤ s.time.toNat)
    s.gives o (.nop o k) s ∧
    (over_ → s.gives o (.wait o mask lim time ga) s) ∧ (¬ over_ → stalls (.wait o mask lim time ga) .wait) ∧
    (c.posted = 0 → s.gives o (.fence o) s) ∧ (c.posted ≠ 0 → stalls (.fence o) .other) ∧
    (s.shrouded n = true → s.gives o (.clr o gd idx) (s.setGr n gd ((s.parkRdata n).setWidth 64)) ∧ s.gives o (.clw o ga idx) s) ∧
    (s.shrouded n = false →
      s.gives o (.clr o gd idx)
        ((s.modCore n (fun d => { d with colReads := d.colReads ++ [.seq (BitVec.ofNat 5 (physG c.rotG gd))] })).send (.collar n 4 idx.toNat 0)) ∧
      s.gives o (.clw o ga idx) (s.send (.collar n 5 idx.toNat ((v.setWidth 32).setWidth 512)))) ∧
    (c.events.length < 8 → s.gives o (.event o code) (s.modCore n (fun d => { d with events := d.events ++ [code] }))) ∧
    (8 ≤ c.events.length → stalls (.event o code) .event) ∧
    exec (.halt o) s = .next (((s.modCore n (fun d => { d.next with st := .halted })).inc64 (corePage n 0 + 0x68)).raiseIrq (corePage n 0) 1)

/-- MFS and MTS (04 R123): what each special register reads, which may be written and how; any other index, and an MTS to a
register marked RO, is illegal. cc reads the count of the island's cycles, of which a free number has passed (assumption 1); xy of a core that serves no position reads a free value. -/
def Claims.SpecialRegisters : Prop :=
  ∀ (s : State) (o : Slot) (gd ga : BitVec 5), s.executes o →
    let n := coreNo o.core
    let c := s.core n
    let v := c.gr ga
    let reads (i : BitVec 6) (x : Nat) : Prop := s.gives o (.mfs o gd i) (s.setGr n gd (BitVec.ofNat 64 x))
    let left (i : Nat) : Nat := match c.loops[i]? with | some l => l.n + l.stages - 1 - l.done | none => 0
    let rotating : Nat := match c.loops.findIdx? (fun l => l.rot) with | some i => 2 ^ 6 + i * 2 ^ 3 | none => 0
    reads 0x00 c.vl ∧ reads 0x01 (c.rotG.toNat + c.rotV.toNat * 2 ^ 8) ∧ reads 0x02 (c.loops.length + rotating) ∧
    reads 0x03 (left 0) ∧ reads 0x04 (left 1) ∧ reads 0x05 (left 2) ∧ reads 0x06 (left 3) ∧
    reads 0x07 (c.ctr 0 + c.ctr 1 * 2 ^ 4 + c.ctr 2 * 2 ^ 8 + c.ctr 3 * 2 ^ 12) ∧
    (∃ k : Nat, 0 < k ∧ ((s.ticked n).core n).cc = c.cc + BitVec.ofNat 64 k) ∧ s.gives o (.mfs o gd 0x08) ((s.ticked n).setGr n gd ((s.ticked n).core n).cc) ∧
    reads 0x09 s.time.toNat ∧ (∀ x y, s.logOf n = some (x, y) → reads 0x0A (x + y * 2 ^ 16)) ∧ reads 0x0B 32 ∧ reads 0x0C c.vf.toNat ∧
    (∀ i : BitVec 6, 0x0D ≤ i.toNat → s.faults o (.mfs o gd i) 0 0x09 .illegal) ∧
    s.gives o (.mts o ga 0x00) (s.modCore n (fun d => { d with vl := min 32 v.toNat })) ∧
    s.gives o (.mts o ga 0x01) (s.modCore n (fun d => { d with rotG := v.setWidth 4, rotV := (v >>> 8).setWidth 5 })) ∧
    s.gives o (.mts o ga 0x0C) (s.setVf n (v.setWidth 5)) ∧
    (∀ i : BitVec 6, i ≠ 0 → i ≠ 1 → i ≠ 0x0C → s.faults o (.mts o ga i) 0 0x0A .illegal)

/-- The control operations of slot 0 and the special registers. -/
def Obligations.ControlAndSpecials : Prop :=
  Claims.ControlResults ∧ Claims.SpecialRegisters

/-- The words of a bundle (04 R125, R126): slot k of a bundle is bits [32k + 31:32k] of its 16 bytes, and an instruction is fetched at pc. -/
def Claims.BundleSlots : Prop :=
  ∀ (s : State) (n k : Nat) (e : Ecc), k < 4 →
    let c := s.core n
    let w := leNat (Memory.readN c.spad (c.pc.toNat + 4 * k) 4)
    ∃ x, (s.bundleAt n e)[k]? = some x ∧ x.slot = k ∧ x.on = (c.pr (BitVec.ofNat 3 (w / 2 ^ 29)) ^^ decide (w / 2 ^ 28 % 2 = 1)) ∧ x.what = decodeSlot k w e s n

/-- Illegal slot words (04 R128 to R137): an opcode that the slot's class does not list and a nonzero bit in an operand field that the opcode does not use are illegal whatever the predicate. -/
def Claims.IllegalWords : Prop :=
  ∀ (s : State) (n slot op arg : Nat) (e : Ecc), op < 64 → arg < 2 ^ 22 → 
    let bad := (decodeSlot slot (op * 2 ^ 22 + arg) e s n).illegal = true ∧ (decodeSlot slot (op * 2 ^ 22 + arg) e s n).op = op
    (op = 0 → arg ≠ 0 → bad) ∧
    (slot = 0 → op = 0x0F ∨ op = 0x1F ∨ 0x2B ≤ op → bad) ∧
    (slot = 1 → (1 ≤ op ∧ op ≤ 0x0F) ∨ op = 0x1F ∨ (0x2B ≤ op ∧ op ≤ 0x2F) ∨ 0x36 ≤ op → bad) ∧
    (slot = 2 → 0x0E ≤ op → bad) ∧ (slot = 3 → op = 0x0F ∨ op = 0x1F ∨ 0x2C ≤ op → bad) ∧
    (slot = 0 → op = 8 ∨ op = 0x0E → arg ≠ 0 → bad) ∧ (slot = 0 → op = 2 → arg % 4096 ≠ 0 ∨ 2 ^ 17 ≤ arg → bad) ∧
    (slot ≤ 1 → 0x10 ≤ op → op ≤ 0x1A → arg % 128 ≠ 0 → bad) ∧ (slot ≤ 1 → 0x1B ≤ op → op ≤ 0x1D → arg % 128 ≠ 0 ∨ 2 ^ 20 ≤ arg → bad) ∧
    (slot = 1 → 0x30 ≤ op → op ≤ 0x35 → arg / 2 ^ 17 % 4 ≠ 0 → bad) ∧ (slot = 2 → op = 0x0C ∨ op = 0x0D → arg / 2 % 2 ^ 15 ≠ 0 → bad)

/-- An operation whose predicate is false has no effect and raises no flag (04 R126): whatever the operation of a slot, when
it is legal and its predicate is false, its issue changes nothing but what the issue itself does. -/
def Claims.PredicateOff : Prop :=
  ∀ (s : State) (o : Slot) (slot : Nat) (f : State → Nat → SlotOp), s.issues (coreNo o.core) → (s.core (coreNo o.core)).pred o = false →
    (f s (coreNo o.core)).illegal = false → s.issueOp o slot f = s.issued (coreNo o.core)

/-- A fault is precise (04 R149, R150, R155): the sequencer enters FAULTED with pc at the faulting bundle and the core is
otherwise as it was, but that the plane reads its bundle waited for are given up; the first fault is held in SEQ_FAULT, SEQ_FAULT_PC and SEQ_FAULT_ADDR and a later one leaves them; the
code is entered in BLK_ERR and FAULTED is raised; no other core changes. -/
def Claims.PreciseFault : Prop :=
  ∀ (s : State) (c : CoreId) (slot op : Nat) (f : Flt),
    let n := coreNo c
    s.atBundle n → slot < 4 → op < 64 → f.cause < 8 → f.code ≠ 0 →
    let t := s.seqFault n slot op f
    let pg := corePage n 0
    t.core n = { s.core n with st := .faulted, stall := .none, stepping := false, seqReads := (s.core n).dropReads } ∧
    (∀ m, m ≠ n → t.core m = s.core m) ∧
    (s.bit (pg + 0x4C) 0 = false → t.bit (pg + 0x4C) 0 = true ∧ t.fld (pg + 0x4C) 1 4 = f.cause ∧ t.fld (pg + 0x4C) 5 2 = slot ∧
      t.fld (pg + 0x4C) 16 6 = op ∧ t.reg (pg + 0x50) = (s.core n).pc.setWidth 32 ∧ t.reg64 (pg + 0x54) = f.addr.getD 0) ∧
    (s.bit (pg + 0x4C) 0 = true → t.reg (pg + 0x4C) = s.reg (pg + 0x4C) ∧ t.reg (pg + 0x50) = s.reg (pg + 0x50) ∧
      t.reg64 (pg + 0x54) = s.reg64 (pg + 0x54)) ∧
    t.bit (pg + 0x10) 1 = true ∧
    ((s.reg (pg + 0x18)).setWidth 16 = (0 : BitVec 16) → (t.reg (pg + 0x18)).setWidth 16 = f.code)

/-- What a bundle is and how its issue ends: its slot words, the words that are illegal, an operation whose predicate is false, and a precise fault. -/
def Obligations.BundlesAndFaults : Prop :=
  Claims.BundleSlots ∧ Claims.IllegalWords ∧ Claims.PredicateOff ∧ Claims.PreciseFault

/-- Loads from the own scratchpad (04 R133, R134; 06 R190): each load delivers the bytes at its address and updates its
generator; single-bit errors that it finds are counted; a word marked poisoned, or found uncorrectable, is a POISON fault. -/
def Claims.ScratchpadLoads : Prop :=
  ∀ (s : State) (o : Slot) (r : BitVec 6) (g : BitVec 3) (am : BitVec 2) (off : BitVec 11) (e : Ecc) (a : Dword) (u : Option Dword),
    s.executes o → ∀ p ∈ loadsOf o r g am off e,
    let n := coreNo o.core
    let c := s.core n
    let x := a.toNat % 2 ^ 20
    let len := p.2.moved c
    p.2.legal r am → c.agu g am off p.2.size = some (a, u) → a.toNat % p.2.align = 0 → spaceOf a.toNat = 0 → x + p.2.size ≤ 2 ^ 20 →
    c.spadWaits = false →
    (c.readPoisoned x len e = false →
      s.gives o p.1 (((s.eccFound n (wordsOf x len) e).modCore n (p.2.deliver c r (c.spadBytes x len))).postMod n g u)) ∧
    (c.readPoisoned x len e = true →
      exec p.1 s = .next ((s.eccFound n (wordsOf x len) e).seqFault n 2 p.2.op (.poison a)))

/-- What a load delivers (04 R124, R133): LDB, LDH, LDW and LDD the bytes in little-endian order, zero-extended; LDV each
active lane's own four bytes; LDVB one word in every active lane; inactive lanes stay. -/
def Claims.LoadedValues : Prop :=
  ∀ (c d : Core) (r : BitVec 6) (l : List Byte) (j : Nat), j < 32 →
    (∀ k ∈ [MemKind.ldb, .ldh, .ldw, .ldd], k.deliver c r l d = d.setG (physG c.rotG (r.setWidth 5)) (BitVec.ofNat 64 (leNat l))) ∧
    (l.length = 4 * min 32 c.vl → ∃ x, MemKind.ldv.deliver c r l d = d.setV (physV c.rotV r) x ∧
      elemOf 32 x j = if j < c.vl then leNat (bytesAt l (4 * j) 4) else elemOf 32 (c.vr r) j) ∧
    (l.length = 4 → ∃ x, MemKind.ldvb.deliver c r l d = d.setV (physV c.rotV r) x ∧
      elemOf 32 x j = if j < c.vl then leNat l else elemOf 32 (c.vr r) j)

/-- Stores to the own scratchpad (04 R133, R134): each store writes the low bytes of its register, or the active lanes, at its
address and updates its generator; every other byte of the scratchpad reads as before, and nothing else changes. -/
def Claims.ScratchpadStores : Prop :=
  ∀ (s : State) (o : Slot) (r : BitVec 6) (g : BitVec 3) (am : BitVec 2) (off : BitVec 11) (a : Dword) (u : Option Dword),
    s.executes o → ∀ p ∈ storesOf o r g am off,
    let n := coreNo o.core
    let c := s.core n
    let x := a.toNat % 2 ^ 20
    let v : Nat := if p.2.vec then (c.vr r).toNat else (c.gr (r.setWidth 5)).toNat
    let len := if p.2.vec then 4 * min 32 c.vl else p.2.size
    p.2.legal r am → c.agu g am off p.2.size = some (a, u) → a.toNat % p.2.align = 0 → spaceOf a.toNat = 0 → x + p.2.size ≤ 2 ^ 20 →
    c.spadWaits = false →
    ∃ m q, (∀ y, Memory.read m y = if x ≤ y ∧ y < x + len then BitVec.ofNat 8 (v / 2 ^ (8 * (y - x))) else Memory.read c.spad y) ∧
      (∀ w, Sparse.get (fun _ => false) q w = (c.wordPoisoned w && !(decide (x ≤ 8 * w) && decide (8 * w + 8 ≤ x + len)))) ∧
      s.gives o p.1 ((s.modCore n (fun d => { d with spad := m, poison := q })).postMod n g u)

/-- A load returns the bytes of the latest earlier store to the same address by the same sequencer (04 R135): STD and then LDD of
the same generator without post-modify, in the own scratchpad. -/
def Claims.StoreThenLoad : Prop :=
  ∀ (s t : State) (o : Slot) (ra rb : BitVec 6) (g : BitVec 3) (a : Dword),
    let n := coreNo o.core
    let c := s.core n
    s.executes o → c.pc.toNat + 32 < 2 ^ 20 → (∀ l ∈ c.loops, l.last ≠ c.pc + 16) →
    ra.getLsbD 5 = false → rb.getLsbD 5 = false → c.agu g 0 0 8 = some (a, none) → a.toNat % 8 = 0 → spaceOf a.toNat = 0 → c.spadWaits = false →
    exec (.std o ra g 0 0) s = .next t →
    ∃ u, exec (.ldd o rb g 0 0 ⟨[], []⟩) t = .next u ∧ (rb.setWidth 5 ≠ (0 : BitVec 5) → (u.core n).gr (rb.setWidth 5) = c.gr (ra.setWidth 5))

/-- Loads and stores of the own scratchpad: each load's and store's effect, the values that loads give, and a load after a store to the same address. -/
def Obligations.ScratchpadAccesses : Prop :=
  Claims.ScratchpadLoads ∧ Claims.LoadedValues ∧ Claims.ScratchpadStores ∧ Claims.StoreThenLoad

/-- The address generators (04 R132): in post-modify mode the effective address is a_n plus the scaled offset (AM 0) or a_n
itself, modulo 2^56, and a_n then gains m_n (AM 1) or the scaled offset (AM 2); in circular mode both are brought into the
buffer from base; the space, bits [63:56], never changes; a circular access with length 0 is an AGU fault. -/
def Claims.GeneratorAddresses : Prop :=
  ∀ (c : Core) (n : BitVec 3) (am : BitVec 2) (off : BitVec 11) (size : Nat), am ≠ 3 →
    let a := c.ar n
    let x : Int := (a.toNat % 2 ^ 56 : Nat)
    let step : Int := if am = 1 then (c.mr n).toInt else off.toInt * size
    let first : Int := if am = 0 then x + step else x
    let put (y : Int) : Nat := a.toNat / 2 ^ 56 * 2 ^ 56 + (y % 2 ^ 56).toNat
    (c.mode.getLsbD n.toNat = false → ∃ e u, c.agu n am off size = some (e, u) ∧ e.toNat = put first ∧
      (am = 0 → u = none) ∧ (am ≠ 0 → ∃ y, u = some y ∧ y.toNat = put (x + step))) ∧
    (c.mode.getLsbD n.toNat = true → c.lenOf n = 0 → c.agu n am off size = none) ∧
    (c.mode.getLsbD n.toNat = true → c.lenOf n ≠ 0 →
      let b : Int := (c.baseOf n).toNat
      let wrap (y : Int) : Int := b + (y - b) % ((c.lenOf n).toNat : Int)
      ∃ e u, c.agu n am off size = some (e, u) ∧ e.toNat = put (wrap first) ∧
        (am = 0 → u = none) ∧ (am ≠ 0 → ∃ y, u = some y ∧ y.toNat = put (wrap (x + step))))

/-- The checks of slot-2 accesses (04 R132, R134, R150): a circular access with length 0 is an AGU fault, an address that is not
aligned MISALIGNED, an access past the end of the scratchpad or in spaces 0x04 to 0xFF an ACCESS fault, and a byte, halfword
or vector access in space 0x03 too; AM 0b11 and a g register named above 31 are illegal. -/
def Claims.AccessFaults : Prop :=
  ∀ (s : State) (o : Slot) (r : BitVec 6) (g : BitVec 3) (am : BitVec 2) (off : BitVec 11) (e : Ecc) (a : Dword) (u : Option Dword),
    s.executes o → ∀ p ∈ loadsOf o r g am off e ++ storesOf o r g am off,
    let n := coreNo o.core
    let c := s.core n
    (¬ p.2.legal r am → s.faults o p.1 2 p.2.op .illegal) ∧
    (p.2.legal r am → c.agu g am off p.2.size = none → s.faults o p.1 2 p.2.op .agu) ∧
    (p.2.legal r am → c.agu g am off p.2.size = some (a, u) →
      (a.toNat % p.2.align ≠ 0 → s.faults o p.1 2 p.2.op (.misaligned a)) ∧
      (a.toNat % p.2.align = 0 →
        (spaceOf a.toNat = 0 → 2 ^ 20 < a.toNat % 2 ^ 20 + p.2.size → s.faults o p.1 2 p.2.op (.access a)) ∧
        (4 ≤ spaceOf a.toNat → s.faults o p.1 2 p.2.op (.access a)) ∧
        (spaceOf a.toNat = 3 → (p.2.usesV = true ∨ p.2.size < 4) → s.faults o p.1 2 p.2.op (.access a))))

/-- The addresses that a generator forms and the faults of an access. -/
def Obligations.GeneratorAccesses : Prop :=
  Claims.GeneratorAddresses ∧ Claims.AccessFaults

/-- Space 0x01 through the remote-line buffer (06 R196, R197; 04 R134): a load whose lines are held delivers their bytes, a
store whose lines are held with ownership changes them alone and marks them dirty; a line that is not held stalls the bundle and
sends its request; an address outside the tenant's window is an ACCESS fault with NET_PARTITION. -/
def Claims.RemoteAccesses : Prop :=
  ∀ (s : State) (o : Slot) (r : BitVec 6) (g : BitVec 3) (am : BitVec 2) (off : BitVec 11) (a : Dword) (u : Option Dword),
    s.executes o →
    let n := coreNo o.core
    let c := s.core n
    let x := a.toNat % 2 ^ 41
    ∀ p ∈ loadsOf o r g am off ⟨[], []⟩ ++ storesOf o r g am off,
    let lines := linesOf x (p.2.moved c)
    p.2.legal r am → c.agu g am off p.2.size = some (a, u) → a.toNat % p.2.align = 0 → spaceOf a.toNat = 1 → bits a.toNat 41 15 = 0 →
    x + p.2.size ≤ 2 ^ 41 →
    (s.admits n ⟨1, 0, 0, 0, x⟩ p.2.size = false → s.faults o p.1 2 p.2.op (.refused a)) ∧
    (s.admits n ⟨1, 0, 0, 0, x⟩ p.2.size = true → c.retention = .on → (∀ m ∈ c.misses, m.status = 0) →
      ((∀ l ∈ lines, c.rlbServes (!p.2.load) l = true) → (∀ l ∈ c.rlb, l.poisoned = false) →
        (p.2.load = true → s.gives o p.1
          (((lines.foldl (fun t l => t.rlbUse n l) s).modCore n (p.2.deliver c r (c.rlbBytes x (p.2.moved c)))).postMod n g u)) ∧
        (p.2.load = false → s.gives o p.1
          (((lines.foldl (fun t l => t.rlbUse n l) s).modCore n (fun d => d.rlbStore x ((p.2.source c r).map (fun b => (true, b))))).postMod n g u))) ∧
      ((∃ l ∈ lines, c.rlbServes (!p.2.load) l = false) →
        exec p.1 s = .next ((lines.foldl (fun t l => t.rlbMiss n (!p.2.load) l) s).modCore n (fun d => { d with stall := .other }))))

/-- Spaces 0x02 and 0x03 over the memory planes (06 R184, R185; 04 R135; 07 R261): a store leaves as one WR (fabric RAM) or CWR
(the registers of another unit) request per 64 B line and does not wait, and one to the core's own generator page is counted apart (05 R173); a load first sends its RD or CRD requests and
stalls; an access that the partition check does not let out is an ACCESS fault with NET_PARTITION. -/
def Claims.PlaneAccesses : Prop :=
  ∀ (s : State) (o : Slot) (r : BitVec 6) (g : BitVec 3) (am : BitVec 2) (off : BitVec 11) (a : Dword) (u : Option Dword),
    s.executes o → ∀ p ∈ loadsOf o r g am off ⟨[], []⟩ ++ storesOf o r g am off,
    let n := coreNo o.core
    let c := s.core n
    let x := a.toNat % 2 ^ 24
    let ps := pieces a (p.2.moved c)
    let fram := spaceOf a.toNat = 2 ∧ bits a.toNat 26 30 = 0 ∧ x + p.2.size ≤ 0xC00000
    let framOk := s.admits n ⟨2, 0, 0, edgeOf a.toNat, x⟩ p.2.size
    let ctl := spaceOf a.toNat = 3 ∧ bits a.toNat 44 12 = 0 ∧ p.2.usesV = false ∧ 4 ≤ p.2.size
    let ctlOk := decide (s.niTenant n ≠ 0) && (decide (s.niTenant n = 0xFF) || s.mayRead (s.corePartyOf n) (addrKey (a.toNat % 2 ^ 44)))
    let own := decide (spaceOf a.toNat = 3) && decide (addrKey (a.toNat % 2 ^ 44) / 4096 * 4096 = rngPage n)
    let leaves (op : Nat) (l : List (Nat × BitVec 12 × Dword × List Byte)) : State :=
      { s with sent := s.sent ++ l.map (fun q => Msg.plane op (s.seqReq n op q.2.1 q.2.2.1 q.1) q.2.2.2 false) }
    let stored (op : Nat) : Prop :=
      s.gives o p.1 (((leaves op (ps.map (fun q => (q.2, if own then 0xFFE else 0xFFD, q.1, bytesAt (p.2.source c r) (q.1 - a).toNat q.2)))).modCore n
      (fun d => { d with posted := d.posted + ps.length, rngPosted := if own then d.rngPosted + ps.length else d.rngPosted })).postMod n g u)
    let asked (op : Nat) : Prop := exec p.1 s = .next ((leaves op (ps.zipIdx.map (fun q => (q.1.2, BitVec.ofNat 12 (0xFF0 + q.2), q.1.1, [])))).modCore n
      (fun d => { d with stall := .other, seqReads := ps.zipIdx.map (fun q => ⟨q.1.1, BitVec.ofNat 12 (0xFF0 + q.2), false, none⟩) }))
    p.2.legal r am → c.agu g am off p.2.size = some (a, u) → a.toNat % p.2.align = 0 →
    (fram → framOk = false → s.faults o p.1 2 p.2.op (.refused a)) ∧
    (ctl → ctlOk = false → s.faults o p.1 2 p.2.op (.refused a)) ∧
    (p.2.load = false → fram → framOk = true → stored 6) ∧
    (p.2.load = false → ctl → ctlOk = true → stored 8) ∧
    (p.2.load = true → c.posted = 0 → c.seqReads = [] → 0 < p.2.moved c → fram → framOk = true → asked 5) ∧
    (p.2.load = true → c.posted = 0 → c.seqReads = [] → ctl → ctlOk = true → asked 7)

/-- Accesses outside the own scratchpad: the line buffer and the memory planes (spaces 0x01 to 0x03). -/
def Obligations.OtherSpaces : Prop :=
  Claims.RemoteAccesses ∧ Claims.PlaneAccesses

/-- The integer, logic, lane-movement and compare operations (04 R137; 05 R160, R162), lane by lane, with their flags; a
MOD field that is not 0 makes each illegal, and so does a BCAST index above 31. -/
def Claims.VectorLanes : Prop :=
  ∀ (s : State) (o : Slot) (vd va vb : BitVec 6), s.executes o →
    let c := s.core (coreNo o.core)
    let A := elemOf 32 (c.vr va)
    let B := elemOf 32 (c.vr vb)
    let D := elemOf 32 (c.vr vd)
    let nan (x : Nat) : Bool := decide (2 ^ 31 - 2 ^ 23 < x % 2 ^ 31)
    let sig (x : Nat) : Bool := nan x && decide (x % 2 ^ 23 < 2 ^ 22)
    let ones (b : Bool) : Nat := if b then 2 ^ 32 - 1 else 0
    let inv (b : Bool) : Flags := if b then fInvalid else 0
    let pos (x : Nat) : Int := if x < 2 ^ 31 then (x : Int) else -((x % 2 ^ 31 : Nat) : Int)
    (∀ p ∈ ([
      ((fun m => .iadd o vd va vb m), 0x1A, fun j => (A j + B j, 0)),
      ((fun m => .isub o vd va vb m), 0x1B, fun j => (A j + (2 ^ 32 - B j), 0)),
      ((fun m => .vand o vd va vb m), 0x1C, fun j => (A j &&& B j, 0)),
      ((fun m => .vor o vd va vb m), 0x1D, fun j => (A j ||| B j, 0)),
      ((fun m => .vxor o vd va vb m), 0x1E, fun j => (A j ^^^ B j, 0)),
      ((fun m => .sel o vd va vb m), 0x19, fun j => (if D j ≠ 0 then A j else B j, 0)),
      ((fun m => .perm o vd va vb m), 0x2B, fun j => (A (B j % 32), 0)),
      ((fun m => .fcmpltS o vd va vb m), 0x16, fun j => (ones (!nan (A j) && !nan (B j) && decide (pos (A j) < pos (B j))), inv (nan (A j) || nan (B j)))),
      ((fun m => .fcmpleS o vd va vb m), 0x18, fun j => (ones (!nan (A j) && !nan (B j) && decide (pos (A j) ≤ pos (B j))), inv (nan (A j) || nan (B j)))),
      ((fun m => .fcmpeqS o vd va vb m), 0x17, fun j => (ones (!nan (A j) && !nan (B j) && decide (pos (A j) = pos (B j))), inv (sig (A j) || sig (B j))))]
      : List ((BitVec 4 → Instr) × Nat × (Nat → Nat × Flags))),
      s.lanewise o (p.1 0) vd 32 c.vl s p.2.2 ∧ ∀ m, m ≠ 0 → s.faults o (p.1 m) 3 p.2.1 .illegal) ∧
    (vb.toNat < 32 → s.lanewise o (.bcast o vd va vb 0) vd 32 c.vl s (fun _ => (A vb.toNat, 0))) ∧
    (∀ m, 32 ≤ vb.toNat ∨ m ≠ 0 → s.faults o (.bcast o vd va vb m) 3 0x2A .illegal)

/-- FMIN.S and FMAX.S (05 R160): a NaN loses to a number; two NaNs give the first made quiet; -0 orders below +0; an sNaN sets INVALID. -/
def Claims.VectorMinMax : Prop :=
  ∀ (s : State) (o : Slot) (vd va vb : BitVec 6), s.executes o →
    let c := s.core (coreNo o.core)
    let A := elemOf 32 (c.vr va)
    let B := elemOf 32 (c.vr vb)
    let nan (x : Nat) : Bool := decide (2 ^ 31 - 2 ^ 23 < x % 2 ^ 31)
    let sig (x : Nat) : Bool := nan x && decide (x % 2 ^ 23 < 2 ^ 22)
    let quiet (x : Nat) : Nat := if x % 2 ^ 23 < 2 ^ 22 then x + 2 ^ 22 else x
    let order (x : Nat) : Int := if x < 2 ^ 31 then (x : Int) else -((x % 2 ^ 31 : Nat) : Int) - 1
    let pick (max : Bool) (x y : Nat) : Nat :=
      if nan x && nan y then quiet x else if nan x then y else if nan y then x
      else if max then (if order x < order y then y else x) else (if order y < order x then y else x)
    let fl (x y : Nat) : Flags := if sig x || sig y then fInvalid else 0
    s.lanewise o (.fminS o vd va vb 0) vd 32 c.vl s (fun j => (pick false (A j) (B j), fl (A j) (B j))) ∧
    s.lanewise o (.fmaxS o vd va vb 0) vd 32 c.vl s (fun j => (pick true (A j) (B j), fl (A j) (B j))) ∧
    (∀ m, m ≠ 0 → s.faults o (.fminS o vd va vb m) 3 0x05 .illegal ∧ s.faults o (.fmaxS o vd va vb m) 3 0x06 .illegal)

/-- The integer and moving operations of the vector unit, lane by lane, and the minima and maxima. -/
def Obligations.VectorIntegers : Prop :=
  Claims.VectorLanes ∧ Claims.VectorMinMax

/-- The floating-point operations rounded once per element (04 R136, R137; 05 R159, R179): every active element of vd is the operation on
the elements of va, vb and vd, in its format and under the rounding that MOD names; stochastic rounding draws for each
element, and a keyed draw waits for the stores to the core's own generator page (R173); RM 0b11, SAT, and a nonzero vb of a square root are illegal. -/
def Claims.VectorFloats : Prop :=
  ∀ (s : State) (o : Slot) (vd va vb : BitVec 6) (mod : BitVec 4), s.executes o →
    let n := coreNo o.core
    let c := s.core n
    let A (f : Fmt) (j : Nat) : FVal := f.unpack (elemOf f.width (c.vr va) j)
    let B (f : Fmt) (j : Nat) : FVal := f.unpack (elemOf f.width (c.vr vb) j)
    let D (f : Fmt) (j : Nat) : FVal := f.unpack (elemOf f.width (c.vr vd) j)
    let rm (f : Fmt) := s.roundOf n mod (activeElems c.vl f.width)
    ∀ p ∈ ([
      (.faddS o vd va vb mod, 0x01, .fp32, fun f j => f.add (rm f j) (A f j) (B f j)),
      (.fsubS o vd va vb mod, 0x02, .fp32, fun f j => f.sub (rm f j) (A f j) (B f j)),
      (.fmulS o vd va vb mod, 0x03, .fp32, fun f j => f.mul (rm f j) (A f j) (B f j)),
      (.fmaS o vd va vb mod, 0x04, .fp32, fun f j => f.fma (rm f j) (A f j) (B f j) (D f j)),
      (.fdivS o vd va vb mod, 0x07, .fp32, fun f j => f.div (rm f j) (A f j) (B f j)),
      (.fsqrtS o vd va 0 mod, 0x08, .fp32, fun f j => f.sqrt (rm f j) (A f j)),
      (.faddD o vd va vb mod, 0x09, .fp64, fun f j => f.add (rm f j) (A f j) (B f j)),
      (.fsubD o vd va vb mod, 0x0A, .fp64, fun f j => f.sub (rm f j) (A f j) (B f j)),
      (.fmulD o vd va vb mod, 0x0B, .fp64, fun f j => f.mul (rm f j) (A f j) (B f j)),
      (.fmaD o vd va vb mod, 0x0C, .fp64, fun f j => f.fma (rm f j) (A f j) (B f j) (D f j)),
      (.fdivD o vd va vb mod, 0x0D, .fp64, fun f j => f.div (rm f j) (A f j) (B f j)),
      (.fsqrtD o vd va 0 mod, 0x0E, .fp64, fun f j => f.sqrt (rm f j) (A f j)),
      (.haddB o vd va vb mod, 0x10, .bf16, fun f j => f.add (rm f j) (A f j) (B f j)),
      (.hmulB o vd va vb mod, 0x11, .bf16, fun f j => f.mul (rm f j) (A f j) (B f j)),
      (.hfmaB o vd va vb mod, 0x12, .bf16, fun f j => f.fma (rm f j) (A f j) (B f j) (D f j)),
      (.haddH o vd va vb mod, 0x13, .fp16, fun f j => f.add (rm f j) (A f j) (B f j)),
      (.hmulH o vd va vb mod, 0x14, .fp16, fun f j => f.mul (rm f j) (A f j) (B f j)),
      (.hfmaH o vd va vb mod, 0x15, .fp16, fun f j => f.fma (rm f j) (A f j) (B f j) (D f j))]
      : List (Instr × Nat × Fmt × (Fmt → Nat → Nat × Flags))),
      let e := activeElems c.vl p.2.2.1.width
      (mod.toNat % 4 ≠ 3 → mod.getLsbD 2 = false → (mod.toNat % 4 = 2 → mod.getLsbD 3 = false → c.rngPosted = 0) →
        s.lanewise o p.1 vd p.2.2.1.width e (if mod.toNat % 4 = 2 then s.afterDraw n (mod.getLsbD 3) e else s) (p.2.2.2 p.2.2.1)) ∧
      (mod.toNat % 4 = 2 → mod.getLsbD 2 = false → mod.getLsbD 3 = false → c.rngPosted ≠ 0 → exec p.1 s = .next (s.modCore n (fun d => { d with stall := .other }))) ∧
      (mod.toNat % 4 = 3 ∨ mod.getLsbD 2 = true → s.faults o p.1 3 p.2.1 .illegal) ∧
      (vb ≠ 0 → s.faults o (.fsqrtS o vd va vb mod) 3 0x08 .illegal ∧ s.faults o (.fsqrtD o vd va vb mod) 3 0x0E .illegal)

/-- Rounding (03 R100): a value that a multiple of 2^q represents is exact; else to nearest even takes the nearer multiple, the even one of two equally near; to odd
takes the odd one of the two neighbours; stochastic rounding goes up when u is below the first b bits of the fraction. -/
def Claims.RoundingRule : Prop :=
  ∀ (m d : Nat) (e : Int) (b u : Nat),
    let q := e + d
    let lo := m / 2 ^ d
    let part := m % 2 ^ d
    (part = 0 → ∀ rm, roundAt rm m e q = (lo, false)) ∧
    (part ≠ 0 → ∃ r, roundAt .rne m e q = (r, true) ∧ (r = lo ∨ r = lo + 1) ∧
      2 * ((r * 2 ^ d : Nat) - (m : Int)).natAbs ≤ 2 ^ d ∧ (2 * ((r * 2 ^ d : Nat) - (m : Int)).natAbs = 2 ^ d → r % 2 = 0)) ∧
    (part ≠ 0 → ∃ r, roundAt .rto m e q = (r, true) ∧ (r = lo ∨ r = lo + 1) ∧ r % 2 = 1) ∧
    (part ≠ 0 → roundAt (.sr b u) m e q = (if u < part * 2 ^ b / 2 ^ d then lo + 1 else lo, true))

/-- CVT, NORM, APX, MXD, RAND, SAMPLE and DROP (04 R138; 05 R164, R168, R169, R174, R177, R178), element by element. The value that APX returns
where the spec bounds it only is a free function of the operand (assumption 6). -/
def Claims.VectorConversions : Prop :=
  ∀ (s : State) (o : Slot) (vd va vb : BitVec 6) (mod : BitVec 4), s.executes o →
    let n := coreNo o.core
    let c := s.core n
    let vl := c.vl
    let A := elemOf 32 (c.vr va)
    let gen := mod.getLsbD 3
    let low := mod.toNat % 4
    let word (j i : Nat) : Nat := rngWord (s.drawOf n gen vl j) i
    let ready := gen = false → c.rngPosted = 0
    let a := vb.toNat / 8
    let b := vb.toNat % 8
    let E := activeElems vl (max (cvtWidth a) (cvtWidth b))
    let unlisted := (a = 6 ∧ (b = 4 ∨ b = 5 ∨ b = 6 ∨ b = 7)) ∨ (a = 7 ∧ (b = 4 ∨ b = 5 ∨ b = 7))
    (¬ unlisted → low ≠ 3 → (low = 2 → cvtExact a b = false → ready) → s.lanewise o (.cvt o vd va vb mod) vd (cvtWidth b) E
      (if low = 2 ∧ cvtExact a b = false then s.afterDraw n gen E else s)
      (fun j => cvtElem a b (s.roundOf n (if cvtExact a b then mod &&& 7 else mod) E j) (mod.getLsbD 2) (elemOf (cvtWidth a) (c.vr va) j))) ∧
    (unlisted ∨ low = 3 → s.faults o (.cvt o vd va vb mod) 3 0x20 .illegal) ∧
    (mod.toNat < 2 → s.lanewise o (.norm o vd va 0 mod) vd 32 vl s
      (fun j => scalebLane (s.roundOf n mod vl j) (Fmt.fp32.unpack (A j)) (sIntOf 32 (elemOf 32 (c.vr vd) j)))) ∧
    (mod.toNat < 2 → s.lanewise o (.norm o vd va 1 mod) vd 32 vl s (fun j => mantLane (Fmt.fp32.unpack (A j)))) ∧
    (2 ≤ mod.toNat ∨ 2 ≤ vb.toNat → s.faults o (.norm o vd va vb mod) 3 0x23 .illegal) ∧
    (vb.toNat ≤ 0x0C → s.lanewise o (.apx o vd va vb 0) vd 32 vl s (fun j => apxLane vb.toNat (A j))) ∧
    (mod ≠ 0 ∨ 0x0C < vb.toNat → s.faults o (.apx o vd va vb mod) 3 0x26 .illegal) ∧
    (vb.toNat % 4 = 0 → vb.toNat / 4 ≤ 5 → s.lanewise o (.mxd o vd va vb 0) vd 32 32 s
      (fun j => mxdElem (vb.toNat / 4) (elemOf 8 (c.vr va) 32) (elemOf (mxWidth (vb.toNat / 4)) (c.vr va) j))) ∧
    (mod ≠ 0 ∨ vb.toNat % 4 ≠ 0 ∨ 5 < vb.toNat / 4 → s.faults o (.mxd o vd va vb mod) 3 0x22 .illegal ∧ s.faults o (.mxq o vd va vb mod) 3 0x21 .illegal) ∧
    (mod.toNat % 8 = 0 → vb.toNat < 4 → ready → s.lanewise o (.rand o vd 0 vb mod) vd 32 vl (s.afterDraw n gen vl) (fun j => (word j vb.toNat, 0))) ∧
    (mod.toNat % 8 = 0 → ready → s.lanewise o (.sample o vd va 0 mod) vd 32 vl (s.afterDraw n gen vl)
      (fun j => Fmt.fp32.add .rne (Fmt.fp32.unpack (A j)) (Fmt.fp32.unpack (gumbel (word j 0 / 2 ^ 8))))) ∧
    (mod.toNat % 8 = 0 → ready → s.lanewise o (.drop o vd 0 0 mod) vd 32 vl (s.afterDraw n gen vl)
      (fun j => (if word j 1 / 2 ^ 8 < s.fld (rngPage n + 0x5C) 0 25 then 2 ^ 32 - 1 else 0, 0))) ∧
    (mod.toNat % 8 ≠ 0 ∨ va ≠ 0 ∨ 3 < vb.toNat → s.faults o (.rand o vd va vb mod) 3 0x27 .illegal) ∧
    (mod.toNat % 8 ≠ 0 ∨ vb ≠ 0 → s.faults o (.sample o vd va vb mod) 3 0x28 .illegal) ∧
    (mod.toNat % 8 ≠ 0 ∨ va ≠ 0 ∨ vb ≠ 0 → s.faults o (.drop o vd va vb mod) 3 0x29 .illegal)

/-- The floating operations of the vector unit over the rounding of every format, and its conversions, draws and masks. -/
def Obligations.VectorFloatResults : Prop :=
  Claims.VectorFloats ∧ Claims.RoundingRule ∧ Claims.VectorConversions

/-- GETEXP (05 R163) writes to each active lane the unbiased exponent of va as an INT32: a subnormal's true exponent, from -149 to -127; -2^31 for a zero; 2^31 - 1 for an infinity and a NaN; only an sNaN sets a flag, INVALID. A nonzero vb or MOD is illegal. -/
def Obligations.ExponentsRead : Prop :=
  ∀ (s : State) (o : Slot) (vd va vb : BitVec 6), s.executes o →
    let c := s.core (coreNo o.core)
    let A := elemOf 32 (c.vr va)
    let m (x : Nat) : Nat := x % 2 ^ 31
    let exponent (x : Nat) : Int :=
      if 2 ^ 31 - 2 ^ 23 ≤ m x then 2 ^ 31 - 1 else if m x = 0 then -2 ^ 31 else if m x < 2 ^ 23 then (Nat.log2 (m x) : Int) - 149 else ((m x / 2 ^ 23 : Nat) : Int) - 127
    let signalling (x : Nat) : Bool := decide (2 ^ 31 - 2 ^ 23 < m x) && decide (m x % 2 ^ 23 < 2 ^ 22)
    s.lanewise o (.getexp o vd va 0 0) vd 32 c.vl s (fun j => ((exponent (A j) % 2 ^ 32).toNat, if signalling (A j) then fInvalid else 0)) ∧
    (∀ mod, vb ≠ 0 ∨ mod ≠ 0 → s.faults o (.getexp o vd va vb mod) 3 0x24 .illegal)

/-- The results of RED (05 R165): each sub-function writes element 0 of vd, ARGMAX.S also element 1, and leaves the other bytes; vb above 7 is illegal, and so is a MOD other than the rounding modes 0 and 1 (04 R136). The flags are stated apart. -/
def Claims.ReductionValues : Prop :=
  ∀ (s : State) (o : Slot) (vd va vb : BitVec 6) (mod : BitVec 4), s.executes o →
    let n := coreNo o.core
    let c := s.core n
    let rm : Rm := if mod = 0 then .rne else .rto
    let f := Fmt.fp32
    let elems (g : Fmt) : List FVal := (List.range (activeElems c.vl g.width)).map (fun j => g.unpack (elemOf g.width (c.vr va) j))
    let lanes : List Nat := (List.range c.vl).map (elemOf 32 (c.vr va))
    let red (w : Nat) (x : Nat) : Prop := ∃ r fl, (elemOf w r 0 = x % 2 ^ w ∧ ∀ j, w ≤ j → r.getLsbD j = (c.vr vd).getLsbD j) ∧
      s.gives o (.red o vd va vb mod) (s.vecDone n (physV c.rotV vd) (r, fl, false))
    (mod.toNat < 2 →
      (vb = 0 → red 32 (redSum f rm ((elems f).map (redLeaf f))).1) ∧
      (vb = 1 → red 32 (redMinmax true lanes).1) ∧
      (vb = 2 → red 32 (redMinmax false lanes).1) ∧
      (vb = 3 → red 64 ((redArgmax lanes).1 % 2 ^ 32 + 2 ^ 32 * (redArgmax lanes).2)) ∧
      (vb = 4 → red 32 (redSum f rm ((elems f).map (fun v => f.mul rm v v))).1) ∧
      (vb = 5 → red 64 (redSum .fp64 rm ((elems .fp64).map (redLeaf .fp64))).1) ∧
      (vb = 6 → red 32 (redSum f rm ((elems .bf16).map (redLeaf f))).1) ∧
      (vb = 7 → red 32 (redSum f rm ((elems .fp16).map (redLeaf f))).1)) ∧
    (2 ≤ mod.toNat ∨ 8 ≤ vb.toNat → s.faults o (.red o vd va vb mod) 3 0x25 .illegal)

/-- The order of every reduction (05 R166): one level combines elements 2j and 2j + 1, an odd last element moves up, and it halves the count rounded up; levels follow until one element is left. A sum applies its addition, rounded once with RM, in that order, and a minimum or maximum its operation; a NaN
result is made quiet. -/
def Claims.ReductionOrder : Prop :=
  (∀ (α : Type) (op : α → α → α) (l : List α),
    (treeLevel op l).length = (l.length + 1) / 2 ∧
    (∀ j, 2 * j + 1 < l.length → (treeLevel op l)[j]? = (do let a ← l[2 * j]?; let b ← l[2 * j + 1]?; pure (op a b))) ∧
    (l.length % 2 = 1 → (treeLevel op l)[l.length / 2]? = l[l.length - 1]?) ∧
    (2 ≤ l.length → l.length ≤ 64 → treeRed op 6 l = treeRed op 6 (treeLevel op l)) ∧
    (∀ a, treeRed op 6 [a] = some a)) ∧
  (∀ (f : Fmt) (rm : Rm) (l : List (Nat × Flags)), (redSum f rm l).1 = (treeRed (fun a b => (f.add rm (f.unpack a) (f.unpack b)).1) 6 (l.map (fun p => p.1))).getD 0) ∧
  (∀ (isMax : Bool) (l : List Nat) (x : Nat), treeRed (fun a b => (Fmt.fp32.minmax isMax a b).1) 6 l = some x →
    (redMinmax isMax l).1 = if (Fmt.fp32.unpack x).isNan then Fmt.fp32.nanBits (Fmt.fp32.unpack x) else x)

/-- A reduction of no elements, and ARGMAX.S (05 R167): the sums give +0, MAX.S and ARGMAX.S -infinity, with the index 0xFFFF_FFFF, MIN.S +infinity; a NaN loses to every number; with NaNs only the result is the canonical NaN with index 0; of equal maxima the lowest lane wins, and +0 beats -0. -/
def Claims.EmptyAndArgmax : Prop :=
  (∀ (f : Fmt) (rm : Rm), (redSum f rm []).1 = 0) ∧ (redMinmax true []).1 = 0xFF800000 ∧ (redMinmax false []).1 = 0x7F800000 ∧ redArgmax [] = (0xFF800000, 0xFFFFFFFF) ∧
  (∀ l : List Nat, 0 < l.length → l.length ≤ 64 →
    let nan (x : Nat) : Bool := (Fmt.fp32.unpack x).isNan
    let below (x y : Nat) : Bool := fLess (Fmt.fp32.unpack x) (Fmt.fp32.unpack y)
    ((∀ x ∈ l, nan x = true) → redArgmax l = (0x7FC00000, 0)) ∧
    ((∃ x ∈ l, nan x = false) → ∃ x j, redArgmax l = (x, j) ∧ l[j]? = some x ∧ nan x = false ∧
      (∀ i y : Nat, l[i]? = some y → nan y = false → below x y = false ∧ (i < j → below y x = true)))) ∧
  fLess (Fmt.fp32.unpack 0x80000000) (Fmt.fp32.unpack 0) = true

/-- Reductions (05 R165, R166, R167): the results of RED's sub-functions, the order in which its tree combines, a reduction of no elements, and ARGMAX.S. -/
def Obligations.VectorReductions : Prop :=
  Claims.ReductionValues ∧ Claims.ReductionOrder ∧ Claims.EmptyAndArgmax

/-- RED and MXQ with their flags (05 R165, R167, R168; that a sum's sNaN leaf sets INVALID and ARGMAX.S sets no flag is the model's choice, assumption 14): RED writes element 0 (ARGMAX.S also element 1) and leaves the other bytes of vd; its sub-functions; MXQ
writes the packed elements, zeros to byte 31 and the scale at byte 32, leaves the bytes above, and counts a block in
which values vanished. -/
def Claims.ReductionFlags : Prop :=
  ∀ (s : State) (o : Slot) (vd va vb : BitVec 6) (mod : BitVec 4), s.executes o →
    let n := coreNo o.core
    let c := s.core n
    let rm : Rm := if mod = 0 then .rne else .rto
    let elems (f : Fmt) : List FVal := (List.range (activeElems c.vl f.width)).map (fun j => f.unpack (elemOf f.width (c.vr va) j))
    let lanes : List Nat := (List.range c.vl).map (elemOf 32 (c.vr va))
    let first (w : Nat) (x : Nat) (r : BitVec 1024) : Prop :=
      elemOf w r 0 = x % 2 ^ w ∧ ∀ j, w ≤ j → r.getLsbD j = (c.vr vd).getLsbD j
    let red (w : Nat) (x : Nat × Flags) : Prop := ∃ r, first w x.1 r ∧
      s.gives o (.red o vd va vb mod) (s.vecDone n (physV c.rotV vd) (r, x.2, false))
    let f := Fmt.fp32
    (mod.toNat < 2 →
      (vb = 0 → red 32 (redSum f rm ((elems f).map (redLeaf f)))) ∧
      (vb = 1 → red 32 (redMinmax true lanes)) ∧
      (vb = 2 → red 32 (redMinmax false lanes)) ∧
      (vb = 3 → red 64 ((redArgmax lanes).1 % 2 ^ 32 + 2 ^ 32 * (redArgmax lanes).2, 0)) ∧
      (vb = 4 → red 32 (redSum f rm ((elems f).map (fun v => f.mul rm v v)))) ∧
      (vb = 5 → red 64 (redSum .fp64 rm ((elems .fp64).map (redLeaf .fp64)))) ∧
      (vb = 6 → red 32 (redSum f rm ((elems .bf16).map (redLeaf f)))) ∧
      (vb = 7 → red 32 (redSum f rm ((elems .fp16).map (redLeaf f))))) ∧
    (2 ≤ mod.toNat ∨ 8 ≤ vb.toNat → s.faults o (.red o vd va vb mod) 3 0x25 .illegal) ∧
    (vb.toNat % 4 = 0 → vb.toNat / 4 ≤ 5 →
      let k := vb.toNat / 4
      let q := mxQuant k ((List.range 32).map (fun j => f.unpack (elemOf 32 (c.vr va) j)))
      ∃ r, first 264 (packElems (mxWidth k) q.1 + 2 ^ 256 * q.2.1) r ∧
        s.gives o (.mxq o vd va vb 0) (s.vecDone n (physV c.rotV vd) (r, q.2.2.1, q.2.2.2)))

/-- What the end of a vector operation leaves (05 R182; 03 R118): the flags are or-ed into VEC_FLAGS, a flag of the first three that goes from 0 to 1 raises its
interrupt bit, VEC_INSTR counts, VEC_VANISH counts a vanish and saturates, and no other register of the core changes. -/
def Claims.VectorEffects : Prop :=
  ∀ (s : State) (k : CoreId) (i : Nat) (r : BitVec 1024) (fl : Flags) (van : Bool),
    let n := coreNo k
    let c := s.core n
    let pg := corePage n 4
    let t := s.vecDone n i (r, fl, van)
    t.core n = { c.setV i r with vf := c.vf ||| fl } ∧ (∀ m, m ≠ n → t.core m = s.core m) ∧
    (∀ b : Fin 3, t.bit (pg + 0x10) b.val = (s.bit (pg + 0x10) b.val || (fl.getLsbD b.val && !c.vf.getLsbD b.val))) ∧
    t.reg64 (pg + 0x48) = s.reg64 (pg + 0x48) + 1 ∧
    (t.reg (pg + 0x44)).toNat = (if van then min (2 ^ 32 - 1) ((s.reg (pg + 0x44)).toNat + 1) else (s.reg (pg + 0x44)).toNat)

/-- A keyed draw (05 R172): RNG_DRAWS counts the elements; with AUTO = 1 RNG_BASE advances by E modulo 2^64, else it stays; so the next draw of element j is the one that
element e + j would have had; no other page changes. -/
def Claims.KeyedDraws : Prop :=
  ∀ (s : State) (c : CoreId) (e j : Nat),
    let n := coreNo c
    let pg := rngPage n
    let t := s.drewKeyed n e
    t.reg64 (pg + 0x50) = (if s.bit (pg + 0x58) 0 then s.reg64 (pg + 0x50) + BitVec.ofNat 64 e else s.reg64 (pg + 0x50)) ∧
    t.reg64 (pg + 0x64) = s.reg64 (pg + 0x64) + BitVec.ofNat 64 e ∧
    (s.bit (pg + 0x58) 0 = true → t.keyedDraw n j = s.keyedDraw n (e + j)) ∧
    (∀ k, k / 2 ^ 12 ≠ pg / 2 ^ 12 → t.reg k = s.reg k) ∧ t.cores = s.cores

/-- The other operations of slot 3 with effects beside vd: the flags of RED, MXQ, collar beats, and the keyed draws. -/
def Obligations.VectorEffectsAndDraws : Prop :=
  Claims.ReductionFlags ∧ Claims.VectorEffects ∧ Claims.KeyedDraws

/-- ISSUE (04 R144, R145): with room, its counter below 15 and a readable descriptor, the descriptor joins its queue, the counter gains 1 and a matrix
job keeps RNG_SEED (05 R172); the read finds bit errors (06 R190); with no room it stalls; a bad offset is an ISSUE fault and a reserved class illegal. -/
def Obligations.IssueResults : Prop :=
  ∀ (s : State) (o : Slot) (cls ctr : BitVec 2) (ga : BitVec 5) (e : Ecc), s.executes o →
    let n := coreNo o.core
    let c := s.core n
    let v := c.gr ga
    let off := v.toNat
    let found (len : Nat) := s.eccFound n (wordsOf off len) e
    let count := c.ctr ctr.toNat
    let k : Fin 4 := ctr.toFin
    let placed := off < 2 ^ 20 ∧ off % 64 = 0
    (2 ≤ cls.toNat → s.faults o (.issue o cls ctr ga e) 0 0x06 .illegal) ∧
    (cls.toNat < 2 → ¬ placed → s.faults o (.issue o cls ctr ga e) 0 0x06 .issue) ∧
    (cls = 1 → placed → c.spadWaits = false → c.readPoisoned off 64 e = false → count < 15 → c.jobs.length < 16 →
      s.gives o (.issue o cls ctr ga e) ((found 64).modCore n (fun d => { d.setCtr ctr.toNat (count + 1) with
        nextJob := d.nextJob + 1, jobs := d.jobs ++ [⟨d.nextJob, dwordsOf 8 (c.spadBytes off 64), k, true, false, []⟩] }))) ∧
    (cls = 0 → placed → c.spadWaits = false → c.readPoisoned off (c.descBytes 0 off) e = false → count < 15 →
      ∀ u, s.routeOf n (Desc.of (dwordsOf 8 (c.spadBytes off 64))) = some u →
        s.routeOf n (Desc.of (dwordsOf (c.descBytes 0 off / 8) (c.spadBytes off (c.descBytes 0 off)))) = some u → s.unitOn n u = true →
        (c.unit u).jobs.length < 4 →
        s.gives o (.issue o cls ctr ga e) ((found (c.descBytes 0 off)).modCore n (fun d => (d.setCtr ctr.toNat (count + 1)).setUnit u
          { d.unit u with jobs := (d.unit u).jobs ++ [⟨dwordsOf (c.descBytes 0 off / 8) (c.spadBytes off (c.descBytes 0 off)), k, true, s.reg64 (rngPage n + 0x40)⟩] }))) ∧
    (cls.toNat < 2 → placed → c.spadWaits = false → c.readPoisoned off (c.descBytes cls.toNat off) e = false → count = 15 →
      exec (.issue o cls ctr ga e) s = .next (s.modCore n (fun d => { d with stall := .other }))) ∧
    (cls.toNat < 2 → placed → c.spadWaits = false → c.readPoisoned off (c.descBytes cls.toNat off) e = true →
      exec (.issue o cls ctr ga e) s = .next ((found (c.descBytes cls.toNat off)).seqFault n 0 0x06 (.poison v)))

/-- VPUSH and VPULL (04 R147; 10 R336): four beats, lanes 8b to 8b + 7 on beat b; without four free places or four beats, or while the collar is
shrouded, they stall. A beat leaves the outbound FIFO for the collar in order, and a beat of the collar enters the inbound FIFO while it has a place;
each is counted; the data that the collar drives stay on IBn_DATA (11 R348). -/
def Claims.CollarStreams : Prop :=
  ∀ (s : State) (o : Slot) (k : CoreId) (r : BitVec 6) (st : Bool) (beat : BitVec 256),
    (s.executes o →
      let n := coreNo o.core
      let c := s.core n
      let blocked := s.shrouded n = true
      (blocked ∨ 4 < (c.ob st).length → exec (.vpush o r st) s = .next (s.modCore n (fun d => { d with stall := .vpush }))) ∧
      (blocked ∨ (c.ib st).length < 4 → exec (.vpull o r st) s = .next (s.modCore n (fun d => { d with stall := .vpull }))) ∧
      (¬ blocked → (c.ob st).length ≤ 4 → s.gives o (.vpush o r st) (s.modCore n (fun d => d.setOb st (d.ob st ++
        [(0, (c.vr r).extractLsb' 0 256), (1, (c.vr r).extractLsb' 256 256), (2, (c.vr r).extractLsb' 512 256), (3, (c.vr r).extractLsb' 768 256)])))) ∧
      (¬ blocked → ∀ b0 b1 b2 b3 rest, c.ib st = b0 :: b1 :: b2 :: b3 :: rest →
        s.gives o (.vpull o r st) (s.modCore n (fun d => (d.setIb st rest).setV (physV c.rotV r) ((b3 ++ b2 ++ b1 ++ b0 : BitVec (256 + 256 + 256 + 256)).setWidth 1024))))) ∧
    (s.inReset = false → s.tripped = false → s.shrouded (coreNo k) = false →
      let n := coreNo k
      let c := s.core n
      (∀ b x rest, c.ob st = (b, x) :: rest → exec (.collarOutboundBeat k st) s =
        .next (((s.modCore n (fun d => d.setOb st rest)).send (.collar n (if st then 1 else 0) b.toNat (x.setWidth 512))).incWrap (colPage n + 0x90))) ∧
      (c.ob st = [] → exec (.collarOutboundBeat k st) s = .next s) ∧
      let shown := s.modCore n (fun d => if st then { d with ibLast1 := beat } else { d with ibLast0 := beat })
      ((c.ib st).length < 8 → exec (.collarInboundBeat k st beat) s =
        .next ((shown.modCore n (fun d => d.setIb st (d.ib st ++ [beat]))).incWrap (colPage n + 0x94))) ∧
      (8 ≤ (c.ib st).length → exec (.collarInboundBeat k st beat) s = .next shown))

/-- Collar register reads and writes (04 R147; 10 R338, R342): the oldest outstanding read takes the answer of REG_RVALID, a CLR into its register; a CLR
that times out ends with g[gd] := 0, COLLAR_TO and a count, and its late answer is discarded; COL_RDATA reads and
writes go to the register port at COL_RIDX, and a read that times out returns 0. -/
def Claims.CollarRegisters : Prop :=
  ∀ (s : State) (k : CoreId) (who : Party) (v : Word), s.inReset = false →
    let n := coreNo k
    let c := s.core n
    let key := colPage n + 0x8C
    let idx := s.fld (colPage n + 0x88) 0 10
    (s.tripped = false → s.shrouded n = false →
      (∀ g rest, c.colReads = .seq g :: rest → exec (.regRvalid k v) s =
        .next (s.modCore n (fun d => ({ d with colReads := rest, colAnswer := v } : Core).setG g.toNat (v.setWidth 64)))) ∧
      (∀ rest, c.colReads = .host :: rest → exec (.regRvalid k v) s =
        .next ((s.modCore n (fun d => { d with colReads := rest, colAnswer := v })).answerCtl 0 (v.setWidth 64))) ∧
      (∀ rest, c.colReads = .dropped :: rest → exec (.regRvalid k v) s =
        .next (s.modCore n (fun d => { d with colReads := rest, colAnswer := v })))) ∧
    (∀ before g rest, s.tripped = false → c.colReads = before ++ .seq g :: rest → (∀ x ∈ before, ∀ h, x ≠ .seq h) → exec (.clrTimeout k) s =
      .next (((s.modCore n (fun d => ({ d with colReads := before ++ .dropped :: rest } : Core).setG g.toNat 0)).raiseIrq (corePage n 0) 0x10).incSat (corePage n 0 + 0x78))) ∧
    (∀ before rest, s.tripped = false → c.colReads = before ++ .host :: rest → (∀ x ∈ before, x = .dropped ∨ ∃ h, x = .seq h) → exec (.colRdataTimeout k) s =
      .next ((s.modCore n (fun d => { d with colReads := before ++ .dropped :: rest })).answerCtl 0 0)) ∧
    (s.mayWrite who key = true →
      (s.shrouded n = false →
        exec (.colRdataRead who k) s = .next ((s.modCore n (fun d => { d with colReads := d.colReads ++ [.host] })).send (.collar n 4 idx 0)) ∧
        exec (.colRdataWrite who k v) s = .next ((s.send (.collar n 5 idx (v.setWidth 512))).answerCtl 0)) ∧
      (s.shrouded n = true →
        exec (.colRdataRead who k) s = .next (s.answerCtl 0 ((s.parkRdata n).setWidth 64)) ∧
        exec (.colRdataWrite who k v) s = .next (s.answerCtl 0)))

/-- The collar of a core: its streams and its register accesses. -/
def Obligations.CollarPorts : Prop :=
  Claims.CollarStreams ∧ Claims.CollarRegisters

/-- START, STOP and the end of STOPPING (04 R151, R152): START runs a resting sequencer and is queued in STOPPING, SAVING and RESTORING; STOP abandons a bundle
stalled in WAIT, EVENT, VPUSH or VPULL; STOPPING ends in the state reached once nothing drains, then a queued SAVE runs, or a
queued START, which FAULTED drops. -/
def Claims.SequencerControl : Prop :=
  ∀ (s : State) (k : CoreId) (who : Party),
    let n := coreNo k
    let c := s.core n
    let key := corePage n 0 + 0x40
    let rests := c.st = .idle ∨ c.st = .stopped ∨ c.st = .halted ∨ c.st = .faulted
    let start := Instr.seqStart who k
    let stop := Instr.seqStop who k
    (rests → s.acts who key start (s.modCore n (fun d => { d with st := .running, stall := .none, stepping := false }))) ∧
    (c.st = .stopping ∨ c.st = .saving ∨ c.st = .restoring → s.acts who key start (s.modCore n (fun d => { d with pendStart := true }))) ∧
    (c.st = .running → c.stall ≠ .other →
      s.acts who key stop (s.modCore n (fun d => { d with st := .stopping, after := .stopped, stepping := false, stall := .none, seqReads := d.dropReads }))) ∧
    (c.st = .running → c.stall = .other →
      s.acts who key stop (s.modCore n (fun d => { d with st := .stopping, after := .stopped, stepping := false }))) ∧
    (c.st = .stopping → c.stall ≠ .other → c.reads = false →
      (c.pendSave = true → s.runs (.stoppingEnd k) (s.modCore n (fun d => { d with
        st := .saving, back := d.after, pendStart := d.pendStart && decide (d.after ≠ SeqState.faulted), pendSave := false, ctx := none }))) ∧
      (c.pendSave = false → c.pendStart = true → c.after ≠ .faulted →
        s.runs (.stoppingEnd k) (s.modCore n (fun d => { d with st := .running, pendStart := false, stall := .none, stepping := false }))) ∧
      (c.pendSave = false → (c.pendStart = false ∨ c.after = .faulted) →
        s.runs (.stoppingEnd k) (s.modCore n (fun d => { d with st := d.after, pendStart := false }))))

/-- STEP (04 R151) issues the bundle at pc and then stops: a bundle of four NOP words leaves the sequencer STOPPED at the next bundle; one that the loop
buffer holds is not read from the scratchpad (R143). -/
def Claims.StepCommand : Prop :=
  ∀ (s : State) (k : CoreId) (who : Party),
    let n := coreNo k
    let c := s.core n
    let steps (f : Core → Core) : Prop :=
      exec (.step who k ⟨[], []⟩) s = .next (((s.modCore n (fun d => { (f d).next with st := .stopped, stepping := false })).inc64 (corePage n 0 + 0x68)).answerCtl 0)
    s.inReset = false → s.tripped = false → s.mayWrite who (corePage n 0 + 0x40) = true → c.st.held = true → c.reads = false → c.pcOut = none →
    c.pc.toNat + 16 < 2 ^ 20 → (∀ l ∈ c.loops, l.last ≠ c.pc) →
    (c.buffered = none → c.spadWaits = false → c.poisonedAt c.pc.toNat 16 = false → c.spadBytes c.pc.toNat 16 = List.replicate 16 0 → steps Core.keepBundle) ∧
    (c.buffered = some 0 → steps id) ∧
    (∀ l below, c.loops = below ++ [l] → l.done ≠ 0 → l.first.toNat ≤ c.pc.toNat → c.pc.toNat ≤ l.last.toNat → c.buffered = (c.loopBuf.find? (fun p => p.1 = c.pc.toNat)).map (·.2)) ∧
    (c.loops = [] → c.buffered = none ∧ c.keepBundle = c)

/-- The commands to a sequencer: start, stop, halt, resume and step. -/
def Obligations.SequencerCommands : Prop :=
  Claims.SequencerControl ∧ Claims.StepCommand

/-- SAVE and RESTORE (04 R151, R153, R155, R156): refused, with CTX_INVALID, CTX_FAIL and no other change, for an address that R156 does not allow and RESTORE also in RUNNING and
STOPPING; SAVE of a resting sequencer enters SAVING, of a running one stops it first; the save writes the image once every counter is 0; its
completion returns to the state before with CTX_DONE. -/
def Claims.ContextCommands : Prop :=
  ∀ (s : State) (k : CoreId) (who : Party),
    let n := coreNo k
    let c := s.core n
    let pg := corePage n 0
    let key := pg + 0x40
    let addr := s.ctxAddr n
    let refused := ((s.setReg (pg + 0x64) (BitVec.ofNat 32 (4 + 0x7007 * 2 ^ 16))).raiseIrq pg 8).enterCode pg Code.ctxInvalid
    let busy := c.st = .saving ∨ c.st = .restoring
    let spot := s.ctxSpot n addr
    (¬ busy → spot 8896 = none → s.acts who key (.save who k) refused) ∧
    (c.st.held = true → spot 8896 ≠ none → s.acts who key (.save who k) (s.modCore n (fun d => { d with st := .saving, back := d.st, ctx := none }))) ∧
    (c.st = .running → spot 8896 ≠ none → c.stall ≠ .other → s.acts who key (.save who k)
      (s.modCore n (fun d => { d with st := .stopping, after := .stopped, stepping := false, stall := .none, seqReads := d.dropReads, pendSave := true }))) ∧
    (c.st = .stopping → spot 8896 ≠ none → s.acts who key (.save who k) (s.modCore n (fun d => { d with pendSave := true }))) ∧
    (c.st = .running ∨ c.st = .stopping ∨ (¬ busy ∧ spot 64 = none) → s.acts who key (.restore who k) refused) ∧
    (c.st.held = true → spot 64 ≠ none → s.acts who key (.restore who k) (s.modCore n (fun d => { d with st := .restoring, back := d.st, ctx := none }))) ∧
    (busy → s.acts who key (.save who k) s ∧ s.acts who key (.restore who k) s) ∧
    (c.st = .saving → c.ctx = none → c.countersZero = true → ∀ off, spot 8896 = some (.own off) → c.spadWaits = false →
      s.runs (.contextSave k) ((s.spadWrite n off (c.image (s.reg (corePage n 4 + 0x44)))).modCore n (fun d => { d with ctx := some 0 }))) ∧
    (c.st = .saving → c.countersZero = false → s.runs (.contextSave k) s) ∧
    (c.st = .saving → c.pendStart = false → c.ctx = some 0 → s.runs (.contextSaveDone k)
      (((s.modCore n (fun d => { d with st := d.back, ctx := none, stall := .none })).setReg (pg + 0x64) 1).raiseIrq pg 4))

/-- RESTORE's reading of an image (04 R158; 05 R182): an image in the own scratchpad that is unpoisoned, has MAGIC, VERSION and LANES 32, a matching CRC and a well-formed
body gives the sequencer exactly the registers of the image and the vector page its two registers, and ends in STOPPED with
CTX_DONE; one with another MAGIC, VERSION or LANES, or a wrong CRC, fails with CTX_INVALID, and a poisoned one with
MEM_UNCORRECTABLE; a failed restore changes no state but SEQ_CTX_STAT and the state it returns to, beside what its reads find. -/
def Claims.RestoreImages : Prop :=
  ∀ (s : State) (k : CoreId) (off : Nat),
    let n := coreNo k
    let c := s.core n
    let pg := corePage n 0
    let l := c.spadBytes off 8896
    let head := imgFld l 0 4 = 0x4F564C53 ∧ imgFld l 4 2 = 1 ∧ imgFld l 6 1 = 32
    let fails (code : BitVec 16) : Prop := exec (.contextRestore k ⟨[], []⟩) s =
      .next ((((s.modCore n (fun d => { d with st := d.back, ctx := none, stall := .none })).setReg (pg + 0x64) (BitVec.ofNat 32 (3 + code.toNat * 2 ^ 16))).raiseIrq pg 8).enterCode pg code)
    s.inReset = false → s.tripped = false → c.st = .restoring → c.countersZero = true → c.pendStart = false → c.spadWaits = false →
    (∀ len, off + len ≤ 2 ^ 20 → s.ctxSpot n (s.ctxAddr n) len = some (.own off)) → off + 8896 ≤ 2 ^ 20 →
    (c.poisonedAt off 8896 = false → head → crc32c (l.take 8892) = BitVec.ofNat 32 (imgFld l 8892 4) → imageFormOk l = true →
      exec (.contextRestore k ⟨[], []⟩) s = .next ((((s.applyImage n l).modCore n (fun d => { d with st := .stopped, ctx := none, stall := .none })).setReg (pg + 0x64) 2).raiseIrq pg 4)) ∧
    (c.poisonedAt off 8 = false → ¬ (imgFld l 0 4 = 0x4F564C53 ∧ imgFld l 4 2 = 1 ∧ (imgFld l 6 1 = 8 ∨ imgFld l 6 1 = 16 ∨ imgFld l 6 1 = 32)) → fails Code.ctxInvalid) ∧
    (c.poisonedAt off 8896 = false → head → crc32c (l.take 8892) ≠ BitVec.ofNat 32 (imgFld l 8892 4) → fails Code.ctxInvalid) ∧
    (∀ e, c.readPoisoned off 8 e = true → exec (.contextRestore k e) s =
      .next (((((s.eccFound n (wordsOf off 8) e).modCore n (fun d => { d with st := d.back, ctx := none, stall := .none })).setReg (pg + 0x64)
        (BitVec.ofNat 32 (3 + Code.memUncorrectable.toNat * 2 ^ 16))).raiseIrq pg 8).enterCode pg Code.memUncorrectable))

/-- A loop entry comes back from the words of an image as it was saved (04 R157). -/
def Claims.LoopEntriesRoundTrip : Prop :=
  ∀ (ls : List LoopEntry) (pre post : List Byte) (i : Nat) (l : LoopEntry), pre.length = 0x40 → ls.length ≤ 4 → ls[i]? = some l →
    1 ≤ l.stages → l.stages ≤ 4 → l.n < 2 ^ 32 → l.done < 2 ^ 32 →
    imgEntry (pre ++ bytesAt ((ls.map LoopEntry.bytes).flatten) 0 64 ++ post) i = l

/-- Context images: saving, restoring, and the entries of a restored loop stack. -/
def Obligations.ContextImages : Prop :=
  Claims.ContextCommands ∧ Claims.RestoreImages ∧ Claims.LoopEntriesRoundTrip

/-- What the end of a descriptor does (02 R81; 04 R145): its record is written at an aligned STAT_ADDR, every other byte of the scratchpad stays, the record is
copied into the LAST registers of a named unit; the head of the unit's queue leaves it, and its completion counter
loses 1, never below 0, if it still counts it. -/
def Claims.DescriptorEnds : Prop :=
  ∀ (s : State) (k : CoreId) (u : Fin 3) (stat : Nat) (r : Dword) (j : MatJob) (rest : List MatJob),
    let n := coreNo k
    let c := s.core n
    let t := s.putRecord n (some u.val) stat r
    (∀ a, Memory.read (t.core n).spad a =
      if stat % 8 = 0 ∧ stat ≤ a ∧ a < stat + 8 then BitVec.ofNat 8 (r.toNat / 2 ^ (8 * (a - stat))) else Memory.read c.spad a) ∧
    t.reg64 (corePage n (1 + u.val) + 0x48) = r ∧
    (∀ a, Memory.read ((s.putRecord n none stat r).core n).spad a = Memory.read (t.core n).spad a) ∧ (s.putRecord n none stat r).regs = s.regs ∧
    ((c.unit u.val).jobs = j :: rest →
      let d := (s.dequeue n u.val j).core n
      (d.unit u.val).jobs = rest ∧ (d.unit u.val).run = none ∧ (∀ v : Fin 3, v ≠ u → d.unit v.val = c.unit v.val) ∧
      (∀ i, d.ctr i = if i = j.ctr.val ∧ j.counted = true then c.ctr i - 1 else c.ctr i) ∧ d.spad = c.spad ∧ d.g = c.g)

/-- DESCRIPTOR_TAKE_UP (02 R60, R76, R84): a disabled unit refuses the head of its queue (RESULT 3, UNIT naming it); a descriptor that fails a check ends DESC_FAULT with
NUM_DESCRIPTOR, its first fault held in ARR_FAULT; else its run begins, in the jib with the A it has loaded ahead (R74). -/
def Claims.MatrixTakeUp : Prop :=
  ∀ (s : State) (k : CoreId) (u : Fin 3) (j : MatJob) (rest : List MatJob),
    let n := coreNo k
    let c := s.core n
    let d := j.desc 0
    let pg := corePage n (1 + u.val)
    let cmd := Instr.descriptorTakeUp k u
    let s1 := s.modCore n (fun c => c.setUnit u.val { c.unit u.val with nextA := none })
    s.inReset = false → s.tripped = false → (c.unit u.val).jobs = j :: rest → (c.unit u.val).run = none → c.spadWaits = false →
    (j.tap && c.tapTaken u.val) = false →
    (s.bit (pg + 8) 0 = false → exec cmd s = .next ((s1.putRecord n (some u.val) d.stat
      (statusRecord 3 (if d.split then 3 else 0) (0, false) (0, false) u.val false false d.passId 0)).dequeue n u.val j)) ∧
    (s.bit (pg + 8) 0 = true → j.check = none → exec cmd s =
      .next (s.modCore n (fun c => c.setUnit u.val { c.unit u.val with run := some (MatRun.init j (s.core n |>.unit u.val).nextA), nextA := none }))) ∧
    (s.bit (pg + 8) 0 = true → ∀ x half, j.check = some (x, half) → x.reason < 16 → x.word < 8 → x.lsb < 64 → (j.desc half).passId < 2 ^ 16 → half < 2 →
      ∃ t : State, exec cmd s = .next (t.dequeue n u.val j) ∧
        t.bit (pg + 0x10) 0 = true ∧ ((s.reg (pg + 0x18)).setWidth 16 = (0 : BitVec 16) → (t.reg (pg + 0x18)).setWidth 16 = Code.numDescriptor) ∧
        (s.bit (pg + 0x50) 0 = true → t.reg (pg + 0x50) = s.reg (pg + 0x50)) ∧
        (s.bit (pg + 0x50) 0 = false → t.bit (pg + 0x50) 0 = true ∧ t.fld (pg + 0x50) 1 3 = x.word ∧ t.fld (pg + 0x50) 4 6 = x.lsb ∧
          t.fld (pg + 0x50) 10 1 = half ∧ t.fld (pg + 0x50) 12 4 = x.reason ∧ t.fld (pg + 0x50) 16 16 = (j.desc half).passId))

/-- Pass descriptors: which are ended at once, and which a unit takes up. -/
def Obligations.DescriptorsTaken : Prop :=
  Claims.DescriptorEnds ∧ Claims.MatrixTakeUp

/-- PASS_START (02 R64 to R67, R70, R72, R74, R87): the halves of a pair run in lockstep, the lower of their next passes first, and a pass waits for a retry and for a
free bank; it starts at least max(M_p, 8) cycles after the one before; a half that takes part adds one k tile to its group, or marks the
group poisoned; corrected words and the pass are counted, and the first offence is captured. How long a pass waits beyond that
is the model's free value (assumption 67). -/
def Claims.MatrixPass : Prop :=
  ∀ (s : State) (k : CoreId) (u : Fin 3) (p : PathErr) (e : Ecc) (j : MatJob) (rest : List MatJob) (r : MatRun),
    let n := coreNo k
    let c := s.core n
    let pg := matPage n u.val
    s.inReset = false → s.tripped = false → (c.unit u.val).jobs = j :: rest → (c.unit u.val).run = some r → c.spadWaits = false →
    (r.lockPass j = none → exec (.passStart k u p e) s = .next s) ∧
    (∀ i, r.lockPass j = some i → r.ready j i = false → exec (.passStart k u p e) s = .next s) ∧
    (∀ i, r.lockPass j = some i → r.ready j i = true →
      let s1 := s.draw.2.eccFound n (r.passReads (c.unit u.val) u.val j i) e
      let c1 := s1.core n
      ∃ start, (r.rows = 0 → start = 0) ∧ (r.rows ≠ 0 → r.start + max r.rows 8 ≤ start) ∧
        (let x (half : Nat) := r.halfPass c1 u.val j half i start p
         let t := (if p.corrected = 0 then s1 else s1.incSat (pg + 0x70) p.corrected).capture n u.val j r.fo ((x 0).2 ++ (x 1).2)
         let ahead := match (c.unit u.val).ahead u.val with | some a => some (c1.snap a.1 a.2) | none => (c.unit u.val).nextA
         exec (.passStart k u p e) s = .next ((t.1.modCore n (fun c => c.setUnit u.val { c.unit u.val with
            run := some { r with
              h0 := (x 0).1, h1 := (x 1).1, foTaken := r.foTaken || t.2.2, start := start, rows := r.passRows j i, fo := t.2.1,
              bufA := if u = 2 then some (r.viewA c1 u.val (j.desc 0)) else none },
            nextA := ahead })).incWrap (pg + 0x68)) ∧
         ∀ half < 2,
          let d := j.desc half
          let h := if half = 0 then r.h0 else r.h1
          (r.part j half i = none → (x half).1 = h ∧ (x half).2 = []) ∧
          (∀ g, r.part j half i = some g →
            let av := r.viewA c1 u.val d
            let wv := (h.loaded c1 u.val d j.pair i).tileOf (g.passNo d j.pair)
            let bad := g.poisoned || p.rowBus || p.weight.getLsbD half || p.accum.getLsbD half || g.meetsPoison c1 av wv d j.pair
            ∃ g' ∈ (x half).1.groups, g'.chunk = g.chunk ∧ g'.tile = g.tile ∧ g'.kt = g.kt + 1 ∧ g'.poisoned = bad ∧
              (bad = false → ∀ row col, row < min 256 (d.m - 256 * g.chunk) → col < min (d.nt j.pair) (d.n - d.nt j.pair * g.tile) → col < 16 →
                Sparse.get (fun _ => (0 : Word)) g'.acc (accKey row col) = BitVec.ofNat 32 (cellPass c1 av.mem wv.mem d j.pair g (256 * g.chunk + row) col).acc))))

/-- A pass of INT8 operands into INT32 (02 R67, R68): the accumulator becomes its old value plus the exact sum of the products, saturated to 32 bits, and SAT
says whether it saturated. The first pass of an overwrite starts from 0. -/
def Claims.IntegerPass : Prop :=
  ∀ (c : Core) (av wv : List Host.Cell) (d : Desc) (pair : Bool) (g : Group) (m col : Nat),
    d.aFmt = 5 → d.wFmt = 5 → d.outFmt = 3 → d.scale = false → d.acc = false → g.kt < d.kt → g.tile < d.tiles pair →
    let nt := d.nt pair
    let ks := min 32 (d.k - 32 * g.kt)
    let a (k : Nat) : Int := (Memory.read av (d.aAddr + m * d.aLd + 32 * g.kt + k)).toInt
    let w (k : Nat) : Int := (Memory.read wv (d.wAddr + (g.tile * d.kt + g.kt) * d.tb pair + k * nt + col)).toInt
    let old : Int := if g.kt = 0 then 0 else (Sparse.get (fun _ => (0 : Word)) g.acc (accKey (m - 256 * g.chunk) col)).toInt
    let sum : Int := old + ((List.range ks).map (fun k => a k * w k)).sum
    let o := cellPass c av wv d pair g m col
    col < nt →
    (BitVec.ofNat 32 o.acc).toInt = max (-2 ^ 31) (min (2 ^ 31 - 1) sum) ∧ o.sat = decide (sum < -2 ^ 31 ∨ 2 ^ 31 - 1 < sum) ∧ o.flags = 0 ∧ o.offs = []

/-- GROUP_DRAIN (02 R66, R89; 10 R337): the halves drain in order; a half whose oldest group is clean and finished writes its rows, puts one beat per row on the tap if EPI
asks for it, and frees the bank; a group that the drain finds poisoned writes nothing; while the tap holds beats a tap descriptor waits; and half 1's beats
wait for half 0's end beat (assumption 74). -/
def Claims.MatrixDrain : Prop :=
  (∀ (s : State) (k : CoreId) (u : Fin 3) (p : PathErr) (e : Ecc) (j : MatJob) (rest : List MatJob) (r : MatRun),
    let n := coreNo k
    let c := s.core n
    let none_ := r.h0.drains (j.desc 0) = none ∧ r.h1.drains (j.desc 1) = none
    s.inReset = false → s.tripped = false → (c.unit u.val).jobs = j :: rest → (c.unit u.val).run = some r → c.spadWaits = false →
    (none_ → exec (.groupDrain k u p e) s = .next s) ∧
    (¬ none_ → ∃ s0 s1 r0 r1, (s.eccFound n (r.drainReads j) e).drainStep n u.val 0 j r (p.accum.getLsbD 0) = (s0, r0) ∧
      s0.drainStep n u.val 1 j r0 (p.accum.getLsbD 1) = (s1, r1) ∧
      exec (.groupDrain k u p e) s = .next ((if p.corrected = 0 then s1 else s1.incSat (matPage n u.val + 0x70) p.corrected).modCore n
        (fun c => c.setUnit u.val { c.unit u.val with run := some r1 })))) ∧
  (∀ (s : State) (n u half : Nat) (j : MatJob) (r : MatRun) (poison : Bool), half < 2 →
    let d := j.desc half
    let c := s.core n
    let h := if half = 0 then r.h0 else r.h1
    let put (h : HalfRun) : MatRun := if half = 0 then { r with h0 := h } else { r with h1 := h }
    let held := decide (half = 1) && decide ((j.desc 0).epi ≠ 0) && !r.end0
    let x := s.drainStep n u half j r poison
    (h.drains d = none → x = (s, r)) ∧
    (∀ g rest, h.groups = g :: rest →
      (h.drains d = some g ↔ d.kt ≤ g.kt ∧ g.poisoned = false) ∧
      (d.kt ≤ g.kt → g.poisoned = false →
        let bad := poison || (g.spansDrain d j.pair).any (fun y => c.poisonedAt y.1 y.2)
        let rows := min 256 (d.m - 256 * g.chunk)
        let cols := min (d.nt j.pair) (d.n - d.nt j.pair * g.tile)
        let out (i : Nat) := rowOut c d j.pair j.seed g (256 * g.chunk + i)
        let beats := (List.range rows).map (fun i => d.beat j.pair g.tile u (256 * g.chunk + i) (out i))
        (bad = true → x = (s, put { h with groups := { g with poisoned := true } :: rest })) ∧
        (bad = false → d.epi ≠ 0 → held = false → c.tapQ ≠ [] → x = (s, r)) ∧
        (bad = false → (d.epi = 0 ∨ held = true ∨ c.tapQ = []) →
          (∃ fl, x.2 = { put (({ h with groups := rest, flags := h.flags ||| g.flags ||| fl, sat := h.sat || g.sat } : HalfRun).fill d j.pair) with
            held := if held = true ∧ d.epi ≠ 0 then r.held ++ beats else r.held }) ∧
          (x.1.core n).tapQ = (if d.epi = 0 ∨ held = true then c.tapQ else c.tapQ ++ beats) ∧
          (d.epi = 2 → (x.1.core n).spad = c.spad) ∧
          (d.epi ≠ 2 → cols * d.outBytes ≤ d.cLd → ∀ i col b, i < rows → col < cols → b < d.outBytes →
            Memory.read (x.1.core n).spad (d.coAddr + (256 * g.chunk + i) * d.cLd + (d.nt j.pair * g.tile + col) * d.outBytes + b) =
              BitVec.ofNat 8 (((out i).getD col (0, 0)).1 / 2 ^ (8 * b))) ∧
          (d.epi ≠ 2 → ∀ a, (∀ i col b, i < rows → col < cols → b < d.outBytes →
              a ≠ d.coAddr + (256 * g.chunk + i) * d.cLd + (d.nt j.pair * g.tile + col) * d.outBytes + b) →
            Memory.read (x.1.core n).spad a = Memory.read c.spad a)))))

/-- GROUP_RETRY (02 R89, R90, R115): the halves are handled in order; with AUTO_RETRY a poisoned group that has not been retried starts again from its first k tile, which is
counted, its flags kept apart; else its half ends POISONED with the flags of every step that was not discarded, and the first such group is recorded; a half with no
poisoned group stays as it is. -/
def Claims.MatrixRetry : Prop :=
  (∀ (s : State) (k : CoreId) (u : Fin 3) (j : MatJob) (rest : List MatJob) (r : MatRun),
    let n := coreNo k
    let c := s.core n
    s.inReset = false → s.tripped = false → (c.unit u.val).jobs = j :: rest → (c.unit u.val).run = some r →
    ∃ s0 s1 h0 h1 b0 b1, s.retryStep n u.val 0 j r.h0 = (s0, h0, b0) ∧ s0.retryStep n u.val 1 j r.h1 = (s1, h1, b1) ∧
      exec (.groupRetry k u) s = .next (s1.modCore n
        (fun c => c.setUnit u.val { c.unit u.val with run := some { r with h0 := h0, h1 := h1, retried := r.retried || b0 || b1 } }))) ∧
  (∀ (s : State) (n u half : Nat) (j : MatJob) (h : HalfRun),
    let pg := matPage n u
    let x := s.retryStep n u half j h
    let auto := s.bit (pg + 0x40) 0
    let waits (g : Group) : Bool := decide ((j.desc half).kt ≤ g.kt) && g.poisoned
    (h.groups.any waits = false → x = (s, h, false)) ∧
    (∀ before g after, h.groups = before ++ g :: after → before.any waits = false → waits g = true → (∀ y ∈ before ++ after, y ≠ g) →
      (auto = true → g.retried = false → x = ((s.raiseIrq pg 0x10).incSat (pg + 0x6C), { h with tiles := [], groups := before ++ ({ g with
        kt := 0, acc := [], flags := 0, sat := false, lostFlags := g.flags, lostSat := g.sat, poisoned := false, retried := true } : Group) :: after }, true)) ∧
      (auto = false ∨ g.retried = true → x = (if s.bit (pg + 0x64) 31 then s else s.setReg (pg + 0x64)
          (BitVec.ofNat 32 (g.chunk % 2 ^ 8 + g.tile % 2 ^ 14 * 2 ^ 16 + (if u = 2 then 0 else half) * 2 ^ 30 + 2 ^ 31)),
        { h with
          groups := [], next := none, tiles := [], dead := true, flags := h.groups.foldl (fun f y => f ||| y.flags ||| y.lostFlags) h.flags,
          sat := h.sat || h.groups.any (fun y => y.sat || y.lostSat) }, false))))

/-- The work of a matrix unit: its pass over a tile with the sums of an integer pass, its drain and its retry. -/
def Obligations.MatrixPass : Prop :=
  Claims.MatrixPass ∧ Claims.IntegerPass ∧ Claims.MatrixDrain ∧ Claims.MatrixRetry

/-- DESCRIPTOR_COMPLETE (02 R81, R83, R84, R88): the record of the run with its flags, SAT and the highest-ranked code, the codes entered in BLK_ERR with their interrupt bits, a SELF report of each final
POISONED result; the descriptor leaves the queue. A tap descriptor waits for its end beats; of a pair the record gives half 0's PASS_ID. -/
def Claims.MatrixComplete : Prop :=
  ∀ (s : State) (k : CoreId) (u : Fin 3) (j : MatJob) (rest : List MatJob) (r : MatRun),
    let n := coreNo k
    let c := s.core n
    let pg := corePage n (1 + u.val)
    let d := j.desc 0
    let dead := r.h0.dead || r.h1.dead
    let fl := r.h0.flags ||| r.h1.flags
    let inv := fl.getLsbD 0
    let ovf := fl.getLsbD 2 || r.h0.sat || r.h1.sat
    let err := if dead then Code.numPoisoned else if inv then Code.numInvalid else if ovf then Code.numOverflow else 0
    let record := statusRecord (b2n r.h0.dead) (if j.pair then b2n r.h1.dead else 0) (r.h0.flags, r.h0.sat) (r.h1.flags, r.h1.sat) u.val r.retried r.foTaken d.passId err
    let report := Msg.report (n / 2112) (reportWord 1 (n % 2112) (n % 2112) (1 + u.val) Code.numPoisoned 0)
    let reports (x : State) : Nat := (x.sent.filter (fun m => decide (m = report))).length
    s.inReset = false → s.tripped = false → (c.unit u.val).jobs = j :: rest → (c.unit u.val).run = some r → c.spadWaits = false →
    (r.h0.ended = false ∨ r.h1.ended = false ∨ (j.taps 0 = true ∧ r.end0 = false) ∨ (j.taps 1 = true ∧ r.end1 = false) → exec (.descriptorComplete k u) s = .next s) ∧
    (r.h0.ended = true → r.h1.ended = true → (j.taps 0 = true → r.end0 = true) → (j.taps 1 = true → r.end1 = true) →
      (err = 0 → exec (.descriptorComplete k u) s = .next ((s.putRecord n (some u.val) d.stat record).dequeue n u.val j)) ∧
      (err ≠ 0 → ∃ t : State, exec (.descriptorComplete k u) s = .next (t.dequeue n u.val j) ∧ t.cores = (s.putRecord n (some u.val) d.stat record).cores ∧
        t.reg64 (pg + 0x48) = record ∧
        (t.bit (pg + 0x10) 1 = (s.bit (pg + 0x10) 1 || inv)) ∧ (t.bit (pg + 0x10) 2 = (s.bit (pg + 0x10) 2 || ovf)) ∧ (t.bit (pg + 0x10) 3 = (s.bit (pg + 0x10) 3 || dead)) ∧
        reports t = reports s + b2n r.h0.dead + b2n r.h1.dead))

/-- The status record (02 R82): its fields, each at its place; bits [31:24] are 0. -/
def Claims.StatusRecordFields : Prop :=
  ∀ (r0 r1 : Nat) (f0 f1 : BitVec 5) (s0 s1 : Bool) (unit : Nat) (retried fo : Bool) (passId : Nat) (err : BitVec 16),
    r0 < 16 → r1 < 16 → unit < 4 → passId < 2 ^ 16 →
    let x := (statusRecord r0 r1 (f0, s0) (f1, s1) unit retried fo passId err).toNat
    bits x 0 4 = r0 ∧ bits x 4 4 = r1 ∧ bits x 8 5 = f0.toNat ∧ bits x 13 1 = b2n s0 ∧ bits x 14 2 = unit ∧ bits x 16 5 = f1.toNat ∧
    bits x 21 1 = b2n s1 ∧ bits x 22 1 = b2n retried ∧ bits x 23 1 = b2n fo ∧ bits x 24 8 = 0 ∧ bits x 32 16 = passId ∧ bits x 48 16 = err.toNat

/-- The epilogue tap (10 R337): the oldest beat passes to the collar and is counted; the end beat of each half that uses the tap follows once the half has ended and its row beats have
gone, half 0's first, with that half's PASS_ID and RESULT; then half 1's held beats follow. -/
def Claims.TapBeats : Prop :=
  ∀ (s : State) (k : CoreId),
    let n := coreNo k
    let c := s.core n
    s.inReset = false → s.tripped = false → s.shrouded n = false →
    (c.tapQ = [] → exec (.epilogueTapBeat k) s = .next s) ∧
    (∀ b rest, c.tapQ = b :: rest → exec (.epilogueTapBeat k) s = .next (((s.modCore n (fun c => { c with tapQ := rest })).send (.collar n 2
      (b.fmt.toNat + b.row.toNat * 2 ^ 2 + b.col.toNat * 2 ^ 18 + b.cnt * 2 ^ 34 + b.pid.toNat * 2 ^ 39 + b2n b.unit * 2 ^ 55) b.data)).incWrap (corePage n 8 + 0x98))) ∧
    (c.tapQ ≠ [] → exec (.epilogueEndBeat k) s = .next s) ∧
    (∀ u < 2, ∀ j rest r, (u = 1 → c.u0.run = none) → (c.unit u).jobs = j :: rest → (c.unit u).run = some r → c.tapQ = [] →
      let ends (half : Nat) (h : HalfRun) (f : Core → Core) : Prop :=
        exec (.epilogueEndBeat k) s = .next (((s.modCore n f).send
          (.collar n 3 ((j.desc half).passId + u * 2 ^ 16) (BitVec.ofNat 512 (b2n h.dead)))).incWrap (corePage n 8 + 0x98))
      ((j.desc 0).epi ≠ 0 → r.end0 = false → r.h0.ended = true →
        ends 0 r.h0 (fun c => { c.setUnit u { c.unit u with run := some { r with end0 := true, held := [] } } with tapQ := r.held })) ∧
      ((j.desc 0).epi = 0 ∨ r.end0 = true → j.pair = true → (j.desc 1).epi ≠ 0 → r.end1 = false → r.h1.ended = true →
        ends 1 r.h1 (fun c => c.setUnit u { c.unit u with run := some { r with end1 := true } })))

/-- The end of a descriptor: its status record, its counters, and the tap beats. -/
def Obligations.MatrixEnds : Prop :=
  Claims.MatrixComplete ∧ Claims.StatusRecordFields ∧ Claims.TapBeats

/-- SPAD_CTRL and the end of zeroing (06 R193, R199): ZERO clears the contents and every poison mark and makes accesses wait; a second ZERO is ignored and
recorded as a clamp; ZEROING_END raises ZERO_DONE; RLB_FLUSH and RLB_INVAL write back every dirty line, oldest use first, and
RLB_DONE is raised; an invalidation empties the buffer, a flush keeps the lines (how the write-back says so is the model's choice, assumption 13). -/
def Claims.ScratchpadControl : Prop :=
  ∀ (s : State) (k : CoreId) (who : Party),
    let n := coreNo k
    let c := s.core n
    let pg := corePage n 5
    let key := pg + 0x40
    let flushed (keep : Bool) : State := { s with sent := s.sent ++ (c.rlb.filter (fun l => l.dirty && decide (s.niTenant n ≠ 0))).map (fun l =>
      Msg.plane 4 { s.lineReq n l.line with op := 4, tag := 0xFFC, be := if keep then 0 else 0xFF } l.data l.poisoned) }
    (c.zeroing = false → s.acts who key (.zero who k) (s.modCore n (fun d => { d with zeroing := true, spad := [], poison := [] }))) ∧
    (c.zeroing = true → s.acts who key (.zero who k) (s.clampAt pg 0x40)) ∧
    (c.zeroing = true → s.runs (.zeroingEnd k) ((s.modCore n (fun d => { d with zeroing := false })).raiseIrq pg 2)) ∧
    (c.zeroing = false → s.runs (.zeroingEnd k) s) ∧
    s.acts who key (.rlbFlush who k) (s.modCore n (fun d => { d with rlbOp := max 1 d.rlbOp })) ∧
    s.acts who key (.rlbInval who k) (s.modCore n (fun d => { d with rlbOp := max 2 d.rlbOp })) ∧
    (c.rlbOp = 1 → s.runs (.rlbDone k) (((flushed true).modCore n (fun d => { d with
      rlbOp := 0, rlb := c.rlb.map (fun l => if l.dirty then { l with dirty := false, own := false } else l) })).raiseIrq pg 4)) ∧
    (c.rlbOp = 2 → s.runs (.rlbDone k) (((flushed false).modCore n (fun d => { d with rlbOp := 0, rlb := [] })).raiseIrq pg 4))

/-- Retention (06 R194, R195): RETAIN = 1 starts the entry, which writes back and empties the line buffer; RETAIN = 0 wakes a retained scratchpad, and one written during the entry wakes it at
once; the wake ends in READY, or in a new entry if RETAIN has been written 1 meanwhile. -/
def Claims.ScratchpadRetention : Prop :=
  ∀ (s : State) (k : CoreId) (who : Party) (on : Bool),
    let n := coreNo k
    let c := s.core n
    let pg := corePage n 5
    let set := s.setReg (pg + 0x44) (if on then 1 else 0)
    let flushed : State := { s with sent := s.sent ++ (c.rlb.filter (fun l => l.dirty && decide (s.niTenant n ≠ 0))).map (fun l =>
      Msg.plane 4 { s.lineReq n l.line with op := 4, tag := 0xFFC, be := 0xFF } l.data l.poisoned) }
    (c.retention = .on → on = true → s.acts who (pg + 0x44) (.retain who k on) (set.modCore n (fun d => { d with retention := .entering, wake := false }))) ∧
    (c.retention = .entering → s.acts who (pg + 0x44) (.retain who k on) (set.modCore n (fun d => { d with wake := !on }))) ∧
    (c.retention = .retained → on = false → s.acts who (pg + 0x44) (.retain who k on) (set.modCore n (fun d => { d with retention := .waking }))) ∧
    ((s.blk pg).resetDue = false →
      (c.retention = .entering → c.zeroing = false → s.runs (.retentionEntry k) (flushed.modCore n (fun d => { d with
        rlb := [], retention := if c.wake then .waking else .retained }))) ∧
      (c.retention = .waking → s.runs (.spadWakeDone k) (s.modCore n (fun d => { d with
        wake := false, retention := if s.bit (pg + 0x44) 0 then .entering else .on })))) ∧
    (c.retention ≠ .entering → s.runs (.retentionEntry k) s) ∧ (c.retention ≠ .waking → s.runs (.spadWakeDone k) s)

/-- The bit errors that a read finds (06 R190): a single-bit error is corrected and counted in SPAD_CORR; a double-bit error poisons its word, is counted in SPAD_UNC, captured if
none is held, raises its interrupt and enters MEM_UNCORRECTABLE; the data stay; words that are poisoned already find nothing. The scrubber reads so while it is enabled. -/
def Claims.EccErrors : Prop :=
  (∀ (s : State) (k : CoreId) (words : List Nat) (e : Ecc), words.Nodup →
    let n := coreNo k
    let c := s.core n
    let pg := corePage n 5
    let t := s.eccFound n words e
    let unc := words.filter (fun w => e.unc.contains w && !c.wordPoisoned w)
    let corr := words.filter (fun w => e.corr.contains w && !e.unc.contains w && !c.wordPoisoned w)
    (∀ w, (t.core n).wordPoisoned w = (c.wordPoisoned w || (words.contains w && e.unc.contains w))) ∧ (t.core n).spad = c.spad ∧
    (t.reg (pg + 0x54)).toNat = min (2 ^ 32 - 1) ((s.reg (pg + 0x54)).toNat + corr.length) ∧
    (t.reg (pg + 0x58)).toNat = min (2 ^ 32 - 1) ((s.reg (pg + 0x58)).toNat + unc.length) ∧
    (∀ w rest, unc = w :: rest → t.bit (pg + 0x10) 0 = true ∧ (s.bit (pg + 0x5C) 0 = false → t.reg (pg + 0x5C) = BitVec.ofNat 32 (1 + w * 2 ^ 3)) ∧
      ((s.reg (pg + 0x18)).setWidth 16 = (0 : BitVec 16) → (t.reg (pg + 0x18)).setWidth 16 = Code.memUncorrectable)) ∧
    (s.bit (pg + 0x5C) 0 = true → t.reg (pg + 0x5C) = s.reg (pg + 0x5C))) ∧
  (∀ (s : State) (k : CoreId) (line : Fin 16384) (e : Ecc),
    let n := coreNo k
    let on := s.bit (corePage n 5 + 0x60) 0 && !(s.core n).spadWaits
    (on = true → s.runs (.scrubRead k line e) (s.eccFound n ((List.range 8).map (fun i => 8 * line.val + i)) e)) ∧ (on = false → s.runs (.scrubRead k line e) s))

/-- A miss of the remote-line buffer completes (06 R196; 07 R257): the oldest outstanding miss takes its line, with its poison mark, as the most recently used of its set; with eight lines in the set the
least recently used one leaves, written back if dirty; UNBLOCK is sent. -/
def Claims.LineFills : Prop :=
  ∀ (s : State) (k : CoreId) (data : List Byte) (poisoned : Bool),
    let n := coreNo k
    let c := s.core n
    data.length = 64 →
    (c.misses.filter (fun m => decide (m.status = 0)) = [] → s.runs (.rlbMissFill k data poisoned) s) ∧
    (∀ m rest, c.misses.filter (fun m => decide (m.status = 0)) = m :: rest →
      let others := c.rlb.filter (fun x => decide (x.line ≠ m.line))
      let inSet := others.filter (fun x => decide (x.line % 64 = m.line % 64))
      let new : RlbLine := ⟨m.line, m.own, false, poisoned, true, data⟩
      let put (l : List RlbLine) (t : State) : State :=
        (t.modCore n (fun d => { d with misses := d.misses.erase m, rlb := l ++ [new] })).send (.plane 0x1B (s.lineReq n m.line) [] false)
      (inSet.length < 8 → s.runs (.rlbMissFill k data poisoned) (put others s)) ∧
      (∀ v vs, inSet = v :: vs → 8 ≤ inSet.length → s.runs (.rlbMissFill k data poisoned) (put (others.filter (fun x => decide (x.line ≠ v.line)))
        (if v.dirty = true ∧ s.niTenant n ≠ 0 then s.send (.plane 4 { s.lineReq n v.line with op := 4, tag := 0xFFC, be := 0xFF } v.data v.poisoned) else s))))

/-- Snoops at a line buffer (07 R258): a line that is not held answers NONE; a held one is counted, and a dirty one is written back with the answer; SNP_INV drops the line, SNP_DOWN keeps it without
ownership; a snoop does not arrive over a memory-plane link that is down (07 R226, R253). -/
def Claims.LineSnoops : Prop :=
  ∀ (s : State) (k : CoreId) (line : Nat),
    let n := coreNo k
    let c := s.core n
    let answer (t : State) (code : BitVec 4) (d : List Byte) (p : Bool) : State := t.send (.plane 0x1A { s.lineReq n line with size := code } d p)
    let carried := s.planeCarries 2 (lineEnd line) (coreEnd n)
    (carried = false → s.runs (.snpInv k line) s ∧ s.runs (.snpDown k line) s) ∧
    (carried = true → c.rlbFind line = none → s.runs (.snpInv k line) (answer s 0 [] false) ∧ s.runs (.snpDown k line) (answer s 0 [] false)) ∧
    (∀ l, carried = true → c.rlbFind line = some l →
      let reply (t : State) : State := (if l.dirty then answer t 1 l.data l.poisoned else answer t 2 [] false).incWrap (corePage n 5 + 0x70)
      s.runs (.snpInv k line) (reply (s.modCore n (fun d => { d with rlb := d.rlb.filter (fun x => decide (x.line ≠ line)) }))) ∧
      s.runs (.snpDown k line) (reply (s.modCore n (fun d => { d with
        rlb := d.rlb.map (fun x => if x.line = line then { x with own := false, dirty := false } else x) }))))

/-- The scratchpad's control and retention, errors of its stored words, and the line buffer's fills and snoops. -/
def Obligations.ScratchpadCommands : Prop :=
  Claims.ScratchpadControl ∧ Claims.ScratchpadRetention ∧ Claims.EccErrors ∧ Claims.LineFills ∧ Claims.LineSnoops

/-- The status record of a transfer (06 R210): its fields, each at its place, on any record the interface writes; and the record of the example of R213,
with row 5 timed out and row 12 without a route. -/
def Claims.TransferRecords : Prop :=
  (∀ (j : XferJob) (result first reason : Nat) (err : BitVec 16) (mask : Nat), result < 4 → first < 64 → reason < 16 → mask < 2 ^ 64 →
    let l := xferRecord j result first err reason mask
    let x := leNat (l.take 8)
    l.length = 16 ∧ bits x 0 2 = result ∧ bits x 2 6 = first ∧ bits x 8 7 = j.nparts ∧ bits x 15 1 = 0 ∧ bits x 16 16 = err.toNat ∧ bits x 32 16 = j.xid ∧
    bits x 48 4 = reason ∧ bits x 52 12 = 0 ∧ leNat (l.drop 8) = mask) ∧
  (∀ (s : State) (k : CoreId),
    let n := coreNo k
    let words : List Dword := [0x00000A21000000F1, 0x0080000000050000, 0x0000004000060000, 0x1000, 0, 63, 0x70000, 0]
    let part (i : Nat) : Part := ⟨i, 0, if i = 5 then Code.netLinkTimeout else if i = 12 then Code.netRouteNone else 0⟩
    let j : XferJob := ⟨0, words, 0, true, true, (List.range 16).map part⟩
    s.inReset = false → s.tripped = false → (s.core n).jobs = [j] → (s.core n).spadWaits = false → j.check (1, 1) [] = none ∧
    ∃ t, exec (.transferComplete k 0) s = .next t ∧
      leNat ((t.core n).spadBytes 0x70000 8) = 0x00000A2130011015 ∧ leNat ((t.core n).spadBytes 0x70008 8) = 0x1020)

/-- TRANSFER_START (06 R200, R204, R206; 04 R145): the first descriptor of the queue that has not started is taken, at most four at a time and an ORDER one
alone; a failed check writes the DESC_FAULT record (none where STAT_ADDR is the faulty field), enters XFER_DESCRIPTOR and counts the descriptor down; a
transfer of 0 bytes starts with every part done; a COPY of 64 own bytes to a line of LPDDR sends one write request. -/
def Claims.TransferStarts : Prop :=
  ∀ (s : State) (k : CoreId) (before rest : List XferJob) (j : XferJob),
    let n := coreNo k
    let c := s.core n
    let me := s.meAt n
    let es := j.entries c
    let start := exec (.transferStart k ⟨[], []⟩) s
    let marked (ps : List Part) (d : Core) : Core :=
      { d with jobs := d.jobs.map (fun x => if x.id = j.id then { x with started := true, parts := x.parts ++ ps } else x) }
    s.inReset = false → s.tripped = false → c.spadWaits = false →
    (4 ≤ (c.jobs.filter (fun x => x.started)).length → start = .next s) ∧
    (c.jobs = before ++ j :: rest → j.started = false → (∀ x ∈ before, x.started = true ∧ x.id ≠ j.id) → (c.jobs.filter (fun x => x.started)).length < 4 →
      (j.order = true → before ≠ [] → start = .next s) ∧
      (j.order = false ∨ before = [] →
        (∀ reason, j.check me es = some (reason, false) → j.stat % 16 = 0 → j.stat + 16 ≤ 2 ^ 20 → start = .next
          (((s.spadWrite n j.stat (xferRecord j 3 0 0x3004 reason 0)).enterCode (niPage n) 0x3004).xferLeaves n j)) ∧
        (∀ reason, j.check me es = some (reason, true) → start = .next ((s.enterCode (niPage n) 0x3004).xferLeaves n j)) ∧
        (j.check me es = none → j.bytes = 0 → j.stream = 0 → c.unsent = [] →
          start = .next (s.modCore n (marked (j.selected.map (fun i => ⟨i, 0, 0⟩))))) ∧
        (j.check me es = none → j.stream = 0 → c.unsent = [] → c.outst.length < 2048 → j.typ = 0 → j.nparts = 1 → j.mask = 0 → j.bytes = 64 →
          ∀ a b, j.src = 2 ^ 55 + a → a < 2 ^ 20 → j.dst = 2 ^ 56 + b → b < 2 ^ 41 → a % 64 = 0 → b % 64 = 0 → c.poisonedAt a 64 = false →
          s.niTenant n = 0xFF →
          let o : Outst := ⟨BitVec.ofNat 12 c.freeTag, j.id, 0, false, BitVec.ofNat 64 j.dst, 64, BitVec.ofNat 64 j.dst, 0, s.stampBit n, c.spadBytes a 64⟩
          ∃ t : State, start = .next t ∧ (t.core n).outst = c.outst ++ [o] ∧ (t.core n).unsent = [] ∧
            (t.core n).jobs = (marked [⟨0, 1, 0⟩] c).jobs ∧ t.sent = s.sent ++ [.plane 6 (s.planeReq n 6 o.tag (BitVec.ofNat 64 j.dst) 2) o.data false])))

/-- The cuts of a part (07 R229): contiguous pieces that together cover it, none empty, none across a boundary of 256 B (of 64 B on a memory plane)
at either end. -/
def Claims.PartPieces : Prop :=
  ∀ (src dst len sq dq : Nat), src % 8 = 0 → dst % 8 = 0 → len % 8 = 0 → (sq = 64 ∨ sq = 256) → (dq = 64 ∨ dq = 256) →
    let ps := cuts (len / 8 + 1) src dst len sq dq
    (ps.map (fun p => p.2.2)).sum = len ∧
    (∀ p ∈ ps, 0 < p.2.2 ∧ p.1 % sq + p.2.2 ≤ sq ∧ p.2.1 % dq + p.2.2 ≤ dq ∧ src ≤ p.1 ∧ p.1 + p.2.2 ≤ src + len ∧ p.2.1 + src = p.1 + dst) ∧
    (∀ x, src ≤ x → x < src + len → ∃ p ∈ ps, p.1 ≤ x ∧ x < p.1 + p.2.2) ∧ List.Pairwise (fun p q => p.1 + p.2.2 ≤ q.1) ps

/-- The end of a transfer (06 R207, R208, R210, R211; 04 R145): once no part waits, its record is written: COMPLETE, PARTIAL or FAILED, the lowest failed part with its
code, and the mask of the failed parts; PARTIAL enters XFER_PARTIAL and FAILED the first part's code, each with its interrupt and an event to the owner; the
descriptor leaves its queue and its counter loses 1. A part keeps the code that stands first in R208. -/
def Claims.TransferEnds : Prop :=
  (∀ (s : State) (k : CoreId) (before rest : List XferJob) (j : XferJob),
    let n := coreNo k
    let c := s.core n
    let bad := j.parts.filter (fun p => decide (p.code ≠ 0))
    s.inReset = false → s.tripped = false → c.spadWaits = false → c.jobs = before ++ j :: rest → (∀ x ∈ before, x.id ≠ j.id) → j.started = true →
    ((∃ p ∈ j.parts, p.left ≠ 0) → exec (.transferComplete k j.id) s = .next s) ∧
    ((∀ p ∈ j.parts, p.left = 0) →
      (bad = [] → exec (.transferComplete k j.id) s = .next ((s.spadWrite n j.stat (xferRecord j 0 0 0 0 0)).xferLeaves n j)) ∧
      (∀ p ps, bad = p :: ps →
        let all := bad.length = j.parts.length
        let err := if all then p.code else Code.xferPartial
        exec (.transferComplete k j.id) s = .next ((((s.spadWrite n j.stat
          (xferRecord j (if all then 2 else 1) p.idx p.code 0 (bad.foldl (fun m q => m + 2 ^ q.idx) 0))).enterCode (niPage n) err).raiseIrq (niPage n)
            (if all then 2 else 1)).coreEvent n err .ni (BitVec.ofNat 32 j.xid) |>.xferLeaves n j)))) ∧
  (∀ (a b : BitVec 16), codeWorst a b = a ∨ codeWorst a b = b) ∧
  (let ranked : List (BitVec 16) := [0x3002, 0x3003, 0x3001, 0x4001, 0x7002]
   ∀ (i j : Fin 5), i ≤ j → codeWorst (ranked.getD i 0) (ranked.getD j 0) = ranked.getD i 0 ∧ codeWorst (ranked.getD j 0) (ranked.getD i 0) = ranked.getD i 0 ∧
     codeWorst 0 (ranked.getD i 0) = ranked.getD i 0 ∧ codeWorst (ranked.getD i 0) 0 = ranked.getD i 0)

/-- Transfers: the record of a descriptor, its start, the pieces of a part, and its end. -/
def Obligations.Transfers : Prop :=
  Claims.TransferRecords ∧ Claims.TransferStarts ∧ Claims.PartPieces ∧ Claims.TransferEnds

/-- Packets at a receiving interface (07 R229, R262; 06 R189 to R191): a well-formed WRITE of a served TENANT writes its enabled bytes and no others and is acknowledged; a READ is answered
with its lines, or with an error where a word is poisoned; a packet of another tenant writes and reads nothing, is counted and captured, and is
answered NET_PARTITION. -/
def Claims.PacketsReceived : Prop :=
  ∀ (s : State) (k : CoreId) (hdr : BitVec 168) (data : List Byte),
    let n := coreNo k
    let c := s.core n
    let off := 64 * hdrFld hdr 69 14
    let len := 64 * hdrFld hdr 46 3
    let from_ := BitVec.ofNat 8 (hdrFld hdr 38 8)
    let served := s.niTenant n ≠ 0 ∧ (from_ = s.niTenant n ∨ from_ = 0xFF ∨ s.niTenant n = 0xFF)
    let refused := ((s.ejected n hdr).refused n from_ (hdrFld hdr 22 9) (hdrFld hdr 31 7)).respond n hdr 2 0x3002 []
    s.inReset = false → s.tripped = false → malformed hdr = false → c.retention = .on → off + len ≤ 2 ^ 20 →
    (hdrFld hdr 0 2 = 0 →
      (served → ∃ d, exec (.writePacket k hdr data) s = .next (((s.ejected n hdr).setCore n d).respond n hdr 2 0 []) ∧
        (∀ a, Memory.read d.spad a =
          if off ≤ a ∧ a < off + len ∧ ((a - off) / 64 = 0 → hdrFld hdr (83 + a % 64 / 8) 1 = 1) ∧ ((a - off) / 64 + 1 = hdrFld hdr 46 3 → hdrFld hdr (91 + a % 64 / 8) 1 = 1)
          then data.getD (a - off) 0 else Memory.read c.spad a) ∧ { d with spad := c.spad, poison := c.poison } = c) ∧
      (¬ served → exec (.writePacket k hdr data) s = .next refused)) ∧
    (hdrFld hdr 0 2 = 1 →
      (served → c.poisonedAt off len = false →
        exec (.readPacket k hdr ⟨[], []⟩) s = .next ((s.ejected n hdr).respond n hdr 3 0 (c.spadBytes off len))) ∧
      (served → c.poisonedAt off len = true → exec (.readPacket k hdr ⟨[], []⟩) s = .next ((s.ejected n hdr).respond n hdr 2 0x4001 [])) ∧
      (¬ served → exec (.readPacket k hdr ⟨[], []⟩) s = .next refused))

/-- Answers to the requests of a transfer part (07 R229, R250, R259): an ACK completes the write of its tag, or fails the request with its STATUS; RDATA is written to the
destination, in the own scratchpad at once; a timeout fails the request with NET_LINK_TIMEOUT, is counted and raised, but not while HOLD is set; an
answer that nothing waits for changes only the ejection count, and one of another tenant is refused and counted (R260, R262). -/
def Claims.PacketAnswers : Prop :=
  ∀ (s : State) (k : CoreId) (hdr : BitVec 168) (data : List Byte),
    let n := coreNo k
    let c := s.core n
    let tag := BitVec.ofNat 12 (hdrFld hdr 57 12)
    let st := BitVec.ofNat 16 (hdrFld hdr 99 16)
    let s1 := s.ejected n hdr
    let from_ := BitVec.ofNat 8 (hdrFld hdr 38 8)
    let served := s.niTenant n ≠ 0 ∧ (from_ = s.niTenant n ∨ from_ = 0xFF ∨ s.niTenant n = 0xFF)
    let refused := s1.refused n from_ (hdrFld hdr 22 9) (hdrFld hdr 31 7)
    s.inReset = false → s.tripped = false →
    (¬ served → (hdrFld hdr 0 2 = 2 → exec (.ackPacket k hdr) s = .next refused) ∧ (hdrFld hdr 0 2 = 3 → exec (.rdata k hdr data) s = .next refused)) ∧
    (served → hdrFld hdr 0 2 = 2 →
      (∀ o, c.waiting tag false false = some o → exec (.ackPacket k hdr) s = .next (s1.answered n o st)) ∧
      (∀ o, c.waiting tag false false = none → c.waiting tag false true = some o → st ≠ 0 → exec (.ackPacket k hdr) s = .next (s1.answered n o st)) ∧
      (c.waiting tag false false = none → c.waiting tag false true = none → exec (.ackPacket k hdr) s = .next s1)) ∧
    (served → hdrFld hdr 0 2 = 3 →
      (∀ o, c.waiting tag false true = some o →
        (st ≠ 0 → exec (.rdata k hdr data) s = .next (s1.answered n o st)) ∧
        (st = 0 → spaceOf o.dst.toNat = 0 → (colOf o.dst.toNat, rowOf o.dst.toNat) = s.meAt n → c.retention = .on →
          exec (.rdata k hdr data) s = .next
            ((s1.spadWrite n (offOf o.dst.toNat) (bytesAt data (offOf o.addr.toNat % 64) o.len)).answered n o 0))) ∧
      (c.waiting tag false true = none → exec (.rdata k hdr data) s = .next s1)) ∧
    (s.bit (niPage n + 0x44) 2 = false → ∀ o, c.outst.find? (fun o => decide (o.tag = tag)) = some o →
      exec (.niTimeoutExpiry k tag) s = .next (((s.incSat (niPage n + 0x6C)).raiseIrq (niPage n) 0x10).answered n o 0x3001)) ∧
    (s.bit (niPage n + 0x44) 2 = true → exec (.niTimeoutExpiry k tag) s = .next s)

/-- Packets at a network interface: those received and the answers. -/
def Obligations.InterfacePackets : Prop :=
  Claims.PacketsReceived ∧ Claims.PacketAnswers

/-- A flit at a router with logical X x and logical Y y (07 R224, R231, R232, R235, R240, R246): the oldest flit in its bridge arrives on an up link, is counted at its
port and, where nothing else waits in the router, ejected at its destination; else it goes on in X, straight ahead, then in Y; DL is 0 where a dimension starts and 1
after the wrap; it enters the bridge of the next link while that has room and a credit, else it is held; a down output, a second wrap, a wrong column and a SPARE
bank discard it, counted and captured. An interface's flit starts by the direction with fewer hops, ties positive. -/
def Claims.FlitRouting : Prop :=
  (∀ (s : State) (k : CoreId) (p : Fin 4) (f : Flit) (q : List Flit) (x y : Nat),
    let n := coreNo k
    let pg := rtrPage n
    let b := hdrFld f.hdr 2 1
    let bank := pg + 0x40 + 4 * b
    let dx := hdrFld f.hdr 6 9
    let dy := hdrFld f.hdr 15 7
    let s1 := (s.setBridge (.core n p.val) q).incWrap (pg + 0x80 + 16 * p.val + 8 * b)
    let receive (t : State) : Prop := exec (.flitReceive (.router k) p f true) s = .next t
    let leaves (out : Nat) (start : Bool) : Prop :=
      let dl := if start then 0 else hdrFld f.hdr 117 1
      let up := s.linkUp (.core n out) = true ∧ s.bit bank (28 + out) = false
      let h := hdrSet (hdrSet f.hdr 115 2 0) 117 1 (if s.bit bank (24 + out) then 1 else dl)
      let g : Flit := { f with hdr := h, vc := BitVec.ofNat 4 (vcOf h 0) }
      let sw (m : Switch) : Switch := { m with
        last := Sparse.put (fun _ => 0) m.last out (p.val * 16 + f.vc.toNat + 1),
        gs := if f.vc.toNat < 8 then m.gs else Sparse.put (fun _ => 0) m.gs out (Sparse.get (fun _ => 0) m.gs out + 1) }
      let s2 := s1.modCore n (fun c => { c with sw := sw c.sw })
      (coreFar n out = none → receive (s1.discard n 2 p.val f)) ∧
      (∀ far, coreFar n out = some far →
        (¬ up → receive (s1.discard n 1 p.val f)) ∧
        (up → s.bit bank (24 + out) = true → dl = 1 → receive (s1.discard n 3 p.val f)) ∧
        (up → (s.bit bank (24 + out) = false ∨ dl = 0) →
          (s1.mayCarry far g.vc.toNat = true →
            receive (((s2.setBridge far (s2.bridgeAt far ++ [g])).send (.flit (.router k) out g)).incWrap (pg + 0x84 + 16 * out + 8 * b))) ∧
          (s1.mayCarry far g.vc.toNat = false → receive (s1.setHeld (.core n p.val) [f]))))
    s.inReset = false → s.tripped = false → s.linkUp (nodePlace (.router k) p.val) = true → (nodePlace (.router k) p.val).far.isSome = true →
    ((s.bridgeAt (.core n p.val)).head? ≠ some f → receive s) ∧
    (s.bridgeAt (.core n p.val) = f :: q → (s.core n).sw.held = [] → (s.linkAt (nodePlace (.router k) p.val)).fails = 0 → malformed f.hdr = false →
      hdrFld f.hdr 4 1 = 0 → hdrFld f.hdr 5 1 = 0 → s.bit bank 9 = true → s.fld bank 0 9 = x → s.fld bank 16 7 = y →
      ((s.core n).rtBank b = .spare → receive (s1.discard n 4 p.val f)) ∧
      ((s.core n).rtBank b ≠ .spare →
        (x = dx → y = dy → receive (s1.send (.flit (.router k) 4 f))) ∧
        (p.val < 2 → x ≠ dx → leaves (if p.val = 0 then 1 else 0) false) ∧
        (p.val < 2 → x = dx → y ≠ dy → leaves (if (dy + 128 - y) % 128 ≤ 64 then 2 else 3) true) ∧
        (2 ≤ p.val → y ≠ dy → leaves (if p.val = 2 then 3 else 2) false) ∧
        (2 ≤ p.val → y = dy → x ≠ dx → receive (s1.discard n 4 p.val f))))) ∧
  (∀ (l : List Flit) (v : Nat), v < 8 → credit l v = decide ((l.filter (fun f => decide (f.vc.toNat = v))).length < 4)) ∧
  (∀ (s : State) (n cause inp : Nat) (f : Flit), n < 24 * 2112 → cause < 5 → inp < 5 →
    let pg := rtrPage n
    let t := s.discard n cause inp f
    (t.reg (pg + 0x54)).toNat = min (2 ^ 32 - 1) ((s.reg (pg + 0x54)).toNat + 1) ∧ t.bit (pg + 0x10) 1 = true ∧
    (s.bit (pg + 0x58) 0 = false → t.bit (pg + 0x58) 0 = true ∧ t.fld (pg + 0x58) 1 3 = cause ∧ t.fld (pg + 0x58) 4 3 = inp ∧ t.fld (pg + 0x58) 16 16 = hdrFld f.hdr 57 12) ∧
    (s.bit (pg + 0x58) 0 = true → t.reg (pg + 0x58) = s.reg (pg + 0x58)) ∧ t.cores = s.cores) ∧
  (∀ src dst : Fin 384, (dirX src.val dst.val = 0 → (dst.val + 384 - src.val) % 384 ≤ (src.val + 384 - dst.val) % 384) ∧
    (dirX src.val dst.val = 1 → (src.val + 384 - dst.val) % 384 < (dst.val + 384 - src.val) % 384))

/-- Flits at a tap (07 R221, R224, R233, R246; 17 R537): a flit for the tap's own edge die is ejected, any other leaves by the other port unchanged while the next link has room and a
credit; a flit of a SPARE bank or for a down link is discarded and counted; the edge die's own flits enter at port 2, stamped with the taps' bit and counted, DL telling
whether they cross the wrap first. -/
def Claims.TapFlits : Prop :=
  (∀ (s : State) (e : Fin 4) (row : Fin 128) (p : Fin 4) (f : Flit) (q : List Flit),
    let b := hdrFld f.hdr 2 1
    let out := 1 - p.val
    let sb := s.setBridge (.tap e.val row.val p.val) q
    let t1 := (sb.tap e.val).addInj (2 + (row.val * 4 + p.val) * 2 + b)
    let s1 := sb.setTap e.val t1
    let own := hdrFld f.hdr 5 1 = 1 ∧ hdrFld f.hdr 6 2 = e.val
    let spare := (if b = 0 then (s.tap e.val).b0 else (s.tap e.val).b1) = .spare
    let receive (u : State) : Prop := exec (.flitReceive (.tap e row) p f true) s = .next u
    s.inReset = false → p.val < 2 → s.linkUp (.tap e.val row.val p.val) = true → (s.linkAt (.tap e.val row.val p.val)).fails = 0 → malformed f.hdr = false →
    s.bridgeAt (.tap e.val row.val p.val) = f :: q → (s.tap e.val).sw.held = [] →
    (spare → receive (s1.tapDiscard e.val row.val 4 f)) ∧
    (¬ spare → own → receive ((s1.setTap e.val (t1.addRem b)).send (.flit (.tap e row) 4 f))) ∧
    (¬ spare → ¬ own → s.linkUp (.tap e.val row.val out) = false → receive (s1.tapDiscard e.val row.val 1 f)) ∧
    (¬ spare → ¬ own → s.linkUp (.tap e.val row.val out) = true → ∀ far, tapFar e.val row.val out = some far →
      (s1.mayCarry far f.vc.toNat = true →
        let s2 := s1.setTap e.val (({ t1 with sw := { t1.sw with last := Sparse.put (fun _ => 0) t1.sw.last (row.val * 4 + out) (p.val + 1) } } : Taps).addRem (2 + (row.val * 4 + out) * 2 + b))
        receive ((s2.setBridge far (s2.bridgeAt far ++ [f])).send (.flit (.tap e row) out f))) ∧
      (s1.mayCarry far f.vc.toNat = false → receive (s1.setHeld (.tap e.val row.val p.val) [f])))) ∧
  (∀ (s : State) (e : Fin 4) (row : Fin 128) (f : Flit) (ok : Bool), s.inReset = false → (s.tap e.val).sw.held = [] → malformed f.hdr = false → hdrFld f.hdr 5 1 = 1 →
    hdrFld f.hdr 6 2 ≠ e.val → (if (s.tap e.val).stamp then (s.tap e.val).b1 else (s.tap e.val).b0) ≠ .spare →
    let t := s.tap e.val
    let b := b2n t.stamp
    let out := if 2 ≤ hdrFld f.hdr 6 2 then 0 else 1
    let g : Flit := { f with
      hdr := hdrSet (hdrSet f.hdr 2 1 b) 117 1 (b2n (decide (2 ≤ hdrFld f.hdr 6 2) == decide (2 ≤ e.val))),
      vc := BitVec.ofNat 4 (vcOf (hdrSet (hdrSet f.hdr 2 1 b) 117 1 (b2n (decide (2 ≤ hdrFld f.hdr 6 2) == decide (2 ≤ e.val)))) 0) }
    let u := t.addInj b
    let s1 := s.setTap e.val u
    (s.linkUp (.tap e.val row.val out) = false → exec (.flitReceive (.tap e row) 2 f ok) s = .next (s1.tapDiscard e.val row.val 1 g)) ∧
    (s.linkUp (.tap e.val row.val out) = true → ∀ far, tapFar e.val row.val out = some far → s1.mayCarry far g.vc.toNat = true →
      let s2 := s1.setTap e.val (({ u with sw := { u.sw with last := Sparse.put (fun _ => 0) u.sw.last (row.val * 4 + out) 3 } } : Taps).addRem (2 + (row.val * 4 + out) * 2 + b))
      exec (.flitReceive (.tap e row) 2 f ok) s = .next ((s2.setBridge far (s2.bridgeAt far ++ [g])).send (.flit (.tap e row) out g))))

/-- Links (07 R226, R227; 08 R272): a flit with a bad CRC is discarded and a replay asked for, and the eighth in a row takes the link down at both ends; silence takes a link of the
rigging down at both ends with an ACCUSE report of the observer; a down link carries nothing; RAISE starts an end that is down, at an X wrap the return path too, 64 good flits
bring it up, and an end that does not come up stays down, a router raising LINK_DOWN; a router sends idle flits on its up links. -/
def Claims.LinkCommands : Prop :=
  ∀ (s : State) (nd : Node) (k : CoreId) (who : Party) (p : Fin 4) (f : Flit) (e : Fin 4) (row : Fin 128),
    let n := coreNo k
    let pl := nodePlace nd p.val
    let l := s.linkAt pl
    let up := s.linkUp pl = true ∧ pl.far.isSome = true
    let bad := exec (.flitReceive nd p f false) s
    let replay := (s.setLink pl ⟨l.fails + 1, l.raising⟩).send (.replay nd p.val)
    s.inReset = false → s.tripped = false →
    (¬ up → ownPort nd p.val = none → ∀ ok, exec (.flitReceive nd p f ok) s = .next s) ∧
    (up → l.fails < 7 → ∀ m q, pl = .core m q → bad = .next (replay.incSat (rtrPage m + 0x5C))) ∧
    (up → l.fails < 7 → (∀ m q, pl ≠ .core m q) → bad = .next replay) ∧
    (up → 7 ≤ l.fails → ∃ t, bad = .next t ∧ t.linkUp pl = false ∧ ∀ q, pl.far = some q → t.linkUp q = false) ∧
    (up → nodeIsStop nd = true → ∃ t, exec (.flitReceive nd p f true) s = .next t ∧ (t.linkAt pl).fails = 0 ∧ exec (.linkSilence nd p) s = .next s) ∧
    (up → nodeIsStop nd = false → ∃ t, exec (.linkSilence nd p) s = .next t ∧ t.linkUp pl = false ∧ (∀ q, pl.far = some q → t.linkUp q = false) ∧
      (∀ m q, pl = .core m q → t.bit (rtrPage m + 0x10) 0 = true) ∧
      (∀ m q g h, pl = .core m q → pl.far = some (.core g h) →
        ∃ code page, .report (g / 2112) (reportWord 2 (g % 2112) (m % 2112) page code h) ∈ t.sent)) ∧
    (l.raising = true → exec (.linkUp nd p) s = .next ((s.showLink pl true).setLink pl ⟨0, false⟩) ∧
      (∀ m q, pl = .core m q → exec (.raiseTimeout nd p) s = .next ((s.setLink pl ⟨0, false⟩).raiseIrq (rtrPage m) 1)) ∧
      ((∀ m q, pl ≠ .core m q) → exec (.raiseTimeout nd p) s = .next (s.setLink pl ⟨0, false⟩))) ∧
    (l.raising = false → exec (.linkUp nd p) s = .next s ∧ exec (.raiseTimeout nd p) s = .next s) ∧
    (linkEndCore n p.val = n →
      (∀ m q, coreFar n p.val = some (.core m q) → s.acts who (rtrPage n + 0x6C) (.raise who k (BitVec.ofNat 4 (2 ^ p.val)))
        (if s.linkUp (.core n p.val) then s else (s.setLink (.core n p.val) ⟨0, true⟩).send (.idle (.router k) p.val))) ∧
      (∀ g r q far, coreFar n p.val = some (.tap g r q) → tapFar g r (1 - q) = some far → s.acts who (rtrPage n + 0x6C) (.raise who k (BitVec.ofNat 4 (2 ^ p.val)))
        (((s.raiseEnd (.core n p.val)).raiseEnd (.tap g r (1 - q))).raiseEnd far))) ∧
    (s.linkUp (.tap e.val row.val p.val) = false → p.val < 2 →
      exec (.tapLinkRaise e row p) s = .next ((s.setLink (.tap e.val row.val p.val) ⟨0, true⟩).send (.idle (.tap e row) p.val))) ∧
    (s.linkUp (.tap e.val row.val p.val) = true → exec (.tapLinkRaise e row p) s = .next s) ∧
    exec (.idleFlit k) s = .next { s with sent := s.sent ++ (((List.range 4).filter (fun q =>
      let pl := Place.core (linkEndCore n q) q
      pl.far.isSome && (s.linkUp pl || (s.linkAt pl).raising))).map (fun q => .idle (.router k) q)) }

/-- Flits on links and of the taps, and the links themselves. -/
def Obligations.LinkFlits : Prop :=
  Claims.FlitRouting ∧ Claims.TapFlits ∧ Claims.LinkCommands

/-- Route banks (07 R246, R247, R266): ARM arms the SPARE bank, the first ARM after reset bank 0 alone, clears that bank's counters and sets ARMED; with a bank
DRAINING it is refused with EPOCH_REFUSED; RETIRE makes the DRAINING bank SPARE, and is refused while the router or its input bridges hold flits of it (R265). -/
def Claims.RouteBanks : Prop :=
  ∀ (s : State) (who : Party) (k : CoreId) (e : Fin 4), s.inReset = false →
    let n := coreNo k
    let c := s.core n
    let pg := rtrPage n
    let tp := s.tap e.val
    let armed (a b a' b' : Bank) (m : Nat) : Prop := (a = .spare ∧ b = .spare ∧ a' = .armed ∧ b' = .spare ∧ m = 0) ∨
      (a = .armed ∧ b = .spare ∧ a' = .draining ∧ b' = .armed ∧ m = 1) ∨ (a = .spare ∧ b = .armed ∧ a' = .armed ∧ b' = .draining ∧ m = 0)
    let busy (a b : Bank) : Prop := a = .draining ∨ b = .draining
    let gone (b : Bank) : Bank := if b = .draining then .spare else b
    (s.mayWrite who (pg + 0x48) = true →
      (∀ a b m, armed c.rt0 c.rt1 a b m → ∃ t : State, exec (.arm who (.core k)) s = .next (t.answerCtl 0) ∧ t.core n = { c with rt0 := a, rt1 := b } ∧
        t.bit (pg + 0x48) 3 = true ∧ t.reg (pg + 0x64 + 4 * m) = 0 ∧
        (∀ q < 4, t.reg (pg + 0x80 + 16 * q + 8 * m) = 0 ∧ t.reg (pg + 0x84 + 16 * q + 8 * m) = 0) ∧
        (∀ q < 4, t.reg (pg + 0x80 + 16 * q + 8 * (1 - m)) = s.reg (pg + 0x80 + 16 * q + 8 * (1 - m)))) ∧
      (busy c.rt0 c.rt1 → ∃ t : State, exec (.arm who (.core k)) s = .next (t.answerCtl 0) ∧ t.cores = s.cores ∧ t.bit (pg + 0x48) 3 = false ∧ t.bit (pg + 0x10) 3 = true) ∧
      (s.oldHeld n = 0 → ∃ t : State, exec (.rtrRetire who (.core k)) s = .next (t.answerCtl 0) ∧
        t.core n = { c with rt0 := gone c.rt0, rt1 := gone c.rt1 } ∧ t.bit (pg + 0x48) 4 = false) ∧
      (s.oldHeld n ≠ 0 → exec (.rtrRetire who (.core k)) s = .next ((s.raiseIrq pg 8).answerCtl 0))) ∧
    (s.mayWrite who (agtPage (24 + e.val) + 0x40) = true →
      (∀ a b m, armed tp.b0 tp.b1 a b m → exec (.arm who (.taps e)) s = .next ((s.setTap e.val { tp with
        b0 := a, b1 := b, armed := true, inj := clearLinkCounts tp.inj m, rem := clearLinkCounts tp.rem m }).answerCtl 0)) ∧
      (busy tp.b0 tp.b1 → exec (.arm who (.taps e)) s = .next ((s.setTap e.val { tp with armed := false }).answerCtl 0)) ∧
      exec (.rtrRetire who (.taps e)) s = .next ((s.setTap e.val { tp with b0 := gone tp.b0, b1 := gone tp.b1 }).answerCtl 0))

/-- Flips and the end of an epoch at an interface (07 R247, R250, R266): the first FLIP after reset arms bank 0 and leaves STAMP; a later one clears the counters of the new bit
and pends until a frame boundary (R239) not before NI_FLIP_TIME, when the new bit is stamped, its bank ARMED and the other DRAINING; RETIRE makes the DRAINING bank SPARE, and with HOLD and
nothing unanswered clears HOLD. -/
def Claims.InterfaceFlips : Prop :=
  ∀ (s : State) (who : Party) (k : CoreId) (e : Fin 4), s.inReset = false →
    let n := coreNo k
    let c := s.core n
    let pg := niPage n
    let bit := s.stampBit n
    let m := 1 - b2n bit
    let tp := s.tap e.val
    let gone (b : Bank) : Bank := if b = .draining then .spare else b
    (s.mayWrite who (pg + 0x44) = true →
      (s.bit (pg + 0x44) 4 = true → exec (.flip who (.core k)) s = .next (s.answerCtl 0)) ∧
      (s.bit (pg + 0x44) 4 = false → c.ni0 = .spare → c.ni1 = .spare →
        exec (.flip who (.core k)) s = .next ((s.modCore n (fun d => { d with ni0 := .armed })).answerCtl 0)) ∧
      (s.bit (pg + 0x44) 4 = false → ¬ (c.ni0 = .spare ∧ c.ni1 = .spare) → ∃ t : State, exec (.flip who (.core k)) s = .next (t.answerCtl 0) ∧
        t.cores = s.cores ∧ t.bit (pg + 0x44) 4 = true ∧ t.stampBit n = bit ∧ t.reg (pg + 0x5C + 4 * m) = 0 ∧ t.reg (pg + 0x64 + 4 * m) = 0 ∧
        t.reg (pg + 0x5C + 4 * (1 - m)) = s.reg (pg + 0x5C + 4 * (1 - m)) ∧ t.reg (pg + 0x64 + 4 * (1 - m)) = s.reg (pg + 0x64 + 4 * (1 - m))) ∧
      (s.bit (pg + 0x44) 2 = false →
        exec (.niRetire who (.core k)) s = .next ((s.setCore n { c with ni0 := gone c.ni0, ni1 := gone c.ni1 }).answerCtl 0)) ∧
      (s.bit (pg + 0x44) 2 = true → c.outst = [] →
        exec (.niRetire who (.core k)) s = .next (((s.setCore n { c with ni0 := gone c.ni0, ni1 := gone c.ni1 }).setFld (pg + 0x44) 2 1 0).answerCtl 0))) ∧
    (s.time.toNat % 1024 = 0 → s.bit (pg + 0x44) 4 = true → (s.reg64 (pg + 0x48)).toNat ≤ s.time.toNat → ∃ t : State, exec (.epochFlip (.core k)) s = .next t ∧
      t.core n = { c with ni0 := if bit then .armed else .draining, ni1 := if bit then .draining else .armed } ∧ t.stampBit n = !bit ∧
      t.bit (pg + 0x44) 4 = false ∧ ∀ j, j ≠ 3 → j ≠ 4 → t.bit (pg + 0x44) j = s.bit (pg + 0x44) j) ∧
    (s.time.toNat % 1024 ≠ 0 ∨ s.bit (pg + 0x44) 4 = false ∨ s.time.toNat < (s.reg64 (pg + 0x48)).toNat → exec (.epochFlip (.core k)) s = .next s) ∧
    (s.mayWrite who (agtPage (24 + e.val) + 0x40) = true →
      (tp.flipPending = false → decide (tp.b1 = .armed) ≠ tp.stamp → ∃ t : Taps, exec (.flip who (.taps e)) s = .next ((s.setTap e.val t).answerCtl 0) ∧
        t.flipPending = true ∧ t.stamp = tp.stamp ∧ t.b0 = tp.b0 ∧ t.b1 = tp.b1 ∧ Sparse.get (fun _ => 0) t.inj (b2n (!tp.stamp)) = 0 ∧ Sparse.get (fun _ => 0) t.rem (b2n (!tp.stamp)) = 0) ∧
      exec (.niRetire who (.taps e)) s = .next ((s.setTap e.val { tp with b0 := gone tp.b0, b1 := gone tp.b1 }).answerCtl 0)) ∧
    (s.time.toNat % 1024 ≠ 0 ∨ tp.flipPending = false → exec (.epochFlip (.taps e)) s = .next s) ∧
    (s.time.toNat % 1024 = 0 → tp.flipPending = true → exec (.epochFlip (.taps e)) s = .next (s.setTap e.val { tp with flipPending := false, stamp := decide (tp.b1 = .armed) }))

/-- The drain check and the agent's broadcast (07 R248, R270): SAMPLE takes BIT and is busy until it is done; its end shows the die's sums; a broadcast with ENABLE = 0 writes
nothing, and one with ENABLE = 1 writes the word at the set offset of the set page of every live core of the die: shown on NI_TENANT. -/
def Claims.AgentCommands : Prop :=
  ∀ (s : State) (who : Party) (die : Fin 28) (bit : Bool) (v : Word),
    let pg := agtPage die.val
    s.acts who (pg + 0x44) (.drainSample who die bit) (s.setReg (pg + 0x44) (if bit then 6 else 4)) ∧
    (s.bit (pg + 0x44) 2 = false → s.goes (.drainSampleDone die) s) ∧
    (s.bit (pg + 0x44) 2 = true → s.inReset = false → ∃ t : State, exec (.drainSampleDone die) s = .next t ∧ t.bit (pg + 0x44) 2 = false ∧
      t.fld (pg + 0x44) 1 1 = s.fld (pg + 0x44) 1 1 ∧ t.reg (pg + 0x48) = BitVec.ofNat 32 (s.drainSums die.val (s.fld (pg + 0x44) 1 1)).1 ∧
      t.reg (pg + 0x4C) = BitVec.ofNat 32 (s.drainSums die.val (s.fld (pg + 0x44) 1 1)).2) ∧
    (s.bit (pg + 0x50) 4 = false → s.acts who (pg + 0x58) (.agtBcastData who die v) s) ∧
    (s.bit (pg + 0x50) 4 = true → die.val < 24 → s.inReset = false → s.mayWrite who (pg + 0x58) = true → s.fld (pg + 0x50) 0 4 = 9 → s.fld (pg + 0x54) 0 12 = 0x40 →
      ∃ t : State, exec (.agtBcastData who die v) s = .next (t.answerCtl 0) ∧
        ∀ i < 2112, t.niTenant (die.val * 2112 + i) = if s.liveCore (die.val * 2112 + i) then v.setWidth 8 else s.niTenant (die.val * 2112 + i))

/-- Control accesses and answers on the planes (06 R185; 07 R254, R255, R262; 11 R365; 17 R505 to R507, R516): CRD answers the register's value, CWR writes it and is acknowledged; a party
without the page gets NET_PARTITION and nothing changes but its count; command data reach the scratchpad of the addressed core if its owner is the sender; a configuration frame is
written only into a region that is loading; acknowledgements and data reach the request of their tag, a given-up read of a sequencer is dropped, and an answer to an edge region's plane
port is counted and discarded while the region is shrouded. -/
def Claims.PlaneAnswers : Prop :=
  ∀ (s : State) (q : PReq) (v : Dword) (k : CoreId) (tag : BitVec 12) (status : BitVec 16) (data : List Byte), s.inReset = false →
    let key := q.addr.toNat % 2 ^ 40
    let who : Party := if q.tenant = 0xFF then .firmware else .program (coreOf (q.srcDie.toNat * 2112 + q.srcUnit.toNat))
    let reader : Party := if q.tenant = 0xFF then .firmware else .runtime q.tenant
    let writes : Prop := s.mayWrite who key = true ∧
      (q.tenant = 0xFF ∨ (keyBlk key ≠ some .emit ∧ q.srcDie.toNat < 24 ∧ q.srcUnit.toNat < 2112 ∧ s.niTenant (keyCore key) = q.tenant))
    let src := planeEnd q.srcDie.toNat q.srcUnit.toNat
    let n := coreNo k
    let c := s.core n
    (q.addr.toNat / 2 ^ 40 = 0x3000C → q.size = 0 → key % 4 = 0 → (q.op.toNat < 0x0B ∨ 0x0F < q.op.toNat) → s.planeCarries 0 src (addrEnd q.addr.toNat) = true → (∃ b, keyBlk key = some b) →
      (s.mayRead reader key = true → (keyBlk key = some .col → keyOff key ≠ 0x8C) → exec (.crd q) s =
        .next ((s.readCtl key false).1.answer 0x19 q 0 (leBytes 4 (s.readCtl key false).2.toNat) false)) ∧
      (writes → exec (.cwr q v) s = .next ((s.writeCtl key false v).ack q 0)) ∧
      (keyBlk key ≠ some .emit → ¬ writes → keyDie key < 24 → keyUnit key < 2112 → exec (.cwr q v) s = .next ((s.refused (keyCore key) q.tenant 0 0).ack q 0x3002)) ∧
      (s.mayRead reader key = false → keyDie key < 24 → keyUnit key < 2112 → exec (.crd q) s = .next ((s.refused (keyCore key) q.tenant 0 0).ack q 0x3002))) ∧
    (s.tripped = false → q.dstDie.toNat < 24 → q.addr.toNat / 2 ^ 56 = 0 → q.size.toNat < 3 → q.addr.toNat % 2 ^ 20 + data.length ≤ 2 ^ 20 → (q.op.toNat < 0x0B ∨ 0x0F < q.op.toNat) →
      let m := s.physOf (q.addr.toNat / 2 ^ 32 % 512) (q.addr.toNat / 2 ^ 48 % 128)
      let owner := s.niTenant m
      let served := owner ≠ 0 ∧ (q.tenant = owner ∨ q.tenant = 0xFF ∨ owner = 0xFF)
      s.planeCarries 0 src (coreEnd m) = true → s.planeCarries 3 src (coreEnd m) = true →
      (served → (s.core m).retention = .on → exec (.planeCmd q data) s = .next ((s.spadWrite m (q.addr.toNat % 2 ^ 20) data).ack q 0)) ∧
      (¬ served → exec (.planeCmd q data) s = .next ((s.refused m q.tenant 0 0).ack q 0x3002))) ∧
    (∀ (e : Fin 4) (r : BitVec 24) (f : Nat) (ws : List Word), ws.length = 64 →
      let die : Fin 28 := ⟨r.toNat / 2 ^ 19 % 28, Nat.mod_lt _ (by decide)⟩
      ((s.region r.toNat).st ≠ .loading → exec (.cfg e die r f ws) s = .next s) ∧
      ((s.region r.toNat).st = .loading → regionValid r.toNat = true → r.toNat / 2 ^ 19 < 24 → f < regionFrames r.toNat →
        s.planeCarries 0 (.edge e.val) (planeEnd die.val 0xF003) = true → s.planeCarries 3 (.edge e.val) (planeEnd die.val 0xF003) = true →
        exec (.cfg e die r f ws) s = .next (s.putFrame r.toNat f ws))) ∧
    (s.tripped = false →
      (tag.toNat < 0x800 → ∀ o, c.outst.find? (fun o => decide (o.tag = tag)) = some o → s.planeCarries 1 (addrEnd o.addr.toNat) (coreEnd n) = true →
        (c.waiting tag true false = some o → exec (.planeAck (.core k) tag status) s = .next (s.answered n o status)) ∧
        (c.waiting tag true true = some o → s.planeCarries 3 (addrEnd o.addr.toNat) (coreEnd n) = true →
          (status ≠ 0 → exec (.dataHdr (.core k) tag status data) s = .next (s.answered n o status)) ∧
          (status = 0 → exec (.dataHdr (.core k) tag status data) s = .next (s.readData n o data)))) ∧
      (c.seqReads.find? (fun r => decide (r.tag = 0xFFD)) = none → exec (.planeAck (.core k) 0xFFD status) s = .next (s.modCore n (fun d => { d with posted := d.posted - 1 }))) ∧
      (c.seqReads.find? (fun r => decide (r.tag = 0xFFE)) = none → exec (.planeAck (.core k) 0xFFE status) s =
        .next (s.modCore n (fun d => { d with posted := d.posted - 1, rngPosted := d.rngPosted - 1 }))) ∧
      (0xFF0 ≤ tag.toNat → ∀ r, c.seqReads.find? (fun r => decide (r.tag = tag)) = some r → s.planeCarries 1 (addrEnd r.addr.toNat) (coreEnd n) = true →
        exec (.cdata k tag v) s = .next (s.modCore n (fun d => { d with
          seqReads := (d.seqReads.filter (fun r => decide (¬ (r.tag = tag ∧ r.dropped = true)))).map (fun r =>
            if r.tag = tag ∧ r.ans = none then { r with ans := some (0, leBytes 8 v.toNat) } else r) })))) ∧
    (∀ (e : Fin 4) (r : Fin 16),
      let id := (24 + e.val) * 2 ^ 19 + 2 ^ 17 + r.val
      let runs : Prop := (s.region id).st = .releasing ∨ (s.region id).st = .running
      let lost := s.incSat (edgePage e.val 0xF021 + 0x110 + 0x20 * r.val)
      (runs → exec (.planeAck (.region e r) tag status) s = .next (s.send (.regionPlane id tag.toNat status [])) ∧
        exec (.dataHdr (.region e r) tag status data) s = .next (s.send (.regionPlane id tag.toNat status data))) ∧
      (¬ runs → exec (.planeAck (.region e r) tag status) s = .next lost ∧ exec (.dataHdr (.region e r) tag status data) s = .next lost))

/-- Epoch banks of routers and of network interfaces, and control accesses over the planes: what an agent does and what its answer does. -/
def Obligations.EpochBanks : Prop :=
  Claims.RouteBanks ∧ Claims.InterfaceFlips ∧ Claims.AgentCommands ∧ Claims.PlaneAnswers

/-- The directory's order of service (07 R252, R255 to R257, R262; 12 R379, R383): RDS, RDO, UPG, RD and WR of a line whose holders need no snoop are served at once; else they snoop
exactly the holders the state names, an SC line's through its dies' agents, and wait; a request to a line with a transaction in progress waits behind it; one that finds 16 lines in use
may wait for an eviction; a request outside its tenant's window, and one to an OFFLINE channel, is refused; an OP from 0x0B to 0x0F is malformed; nothing arrives over a down crossing. -/
def Claims.DirectoryRequests : Prop :=
  ∀ (s : State) (q : PReq) (e : LineEcc) (be : Dword) (data : List Byte),
    let kinds : List (Nat × Instr × DirTxn) := [(1, .rds q e, dirTxn 1 q 0 [] e), (2, .rdo q e, dirTxn 2 q 0 [] e), (3, .upg q e, dirTxn 3 q 0 [] e),
      (5, .rd q e, dirTxn 5 q 0 [] e), (6, .wr q be data e, dirTxn 6 q be data e)]
    let edge := q.dstDie.toNat - 24
    let off := q.addr.toNat % 2 ^ 41 / 64 * 64
    let c := q.srcDie.toNat * 2112 + q.srcUnit.toNat
    let src := planeEnd q.srcDie.toNat q.srcUnit.toNat
    let carried (plane : Nat) : Prop := s.planeCarries plane src (.edge edge) = true
    s.inReset = false → 24 ≤ q.dstDie.toNat → q.dstDie.toNat < 28 → q.addr.toNat / 2 ^ 56 = 1 → q.size.toNat < 3 →
    ∀ op i x, (op, i, x) ∈ kinds →
      (¬ carried 0 → exec i s = .next s) ∧
      (carried 0 → 0x0B ≤ q.op.toNat → q.op.toNat ≤ 0x0F → exec i s = .next (s.ack q 0x3003)) ∧
      (carried 0 → (op = 6 → carried 3) → (q.op.toNat < 0x0B ∨ 0x0F < q.op.toNat) →
      (∀ code, s.translate edge q.tenant off 64 = .error code →
        exec i s = .next ((if code = 0x3002 ∧ q.srcDie.toNat < 24 ∧ q.srcUnit.toNat < 2112 then s.refused c q.tenant 0 0 else s).ack q code)) ∧
      (∀ pa, s.translate edge q.tenant off 64 = .ok pa →
        let ch := (chanCo pa).1
        let d := s.dirAt (pa / 64)
        -- what each request must snoop, by the entry's state; an UPG of a core that does not share the line is an RDO
        let kind := match op, d.st with
          | 3, .s l => if l.contains c then 3 else 2
          | 3, _ => 2
          | o, _ => o
        let owed : List Nat := match kind, d.st with
          | _, .u => []
          | 1, .m o => [o]
          | 5, .m o => [o]
          | 1, _ => []
          | 5, _ => []
          | 6, .s l => l
          | _, .s l => l.filter (fun y => decide (y ≠ c))
          | 6, .sc l => s.agentCores (pa / 64) l
          | _, .sc l => (s.agentCores (pa / 64) l).filter (fun y => decide (y ≠ c))
          | _, .m o => [o]
        -- an SC line's snoops go to the agents of its dies, and from them to the tenant's cores there
        let agents : List Nat := match d.st with
          | .sc l => l.map (fun die => 50688 + die)
          | _ => []
        let used := (s.dirUsed edge).filter (fun y => decide (y ≠ pa / 64))
        let asked : DirTxn := { x with op := kind }
        ((s.chan ch).st = .offline → exec i s = .next (s.ack q 0x4001)) ∧
        ((s.chan ch).st = .untrained ∨ (s.chan ch).st = .training ∨ (s.chan ch).st = .selfRefresh → exec i s = .next s) ∧
        ((s.chan ch).st = .active → d.txn.isSome = true → exec i s = .next (s.setDir (pa / 64) { d with waiting := d.waiting ++ [x] })) ∧
        ((s.chan ch).st = .active → d.txn = none → (d.st ≠ .u ∨ 3 < op) → owed ≠ [] → exec i s = .next { (s.setDir (pa / 64) { d with txn := some { asked with owed := owed } }) with
          sent := s.sent ++ (agents ++ owed).map (fun n => .snoop (if op = 1 ∨ op = 5 then 0x11 else 0x10) n (s.lineFor n (pa / 64))) }) ∧
        ((s.chan ch).st = .active → d.txn = none → (d.st ≠ .u ∨ 3 < op ∨ used.length < 16) → owed = [] → exec i s = .next (s.dirServe (pa / 64) d asked)) ∧
        ((s.chan ch).st = .active → d.txn = none → d.st = .u → op ≤ 3 → 16 ≤ used.length →
          exec i s = .next (s.draw.2.dirServe (pa / 64) d asked) ∨
          ∃ v, v ∈ used ∧ ∀ o, ((s.dirAt v).st = .m o ∨ (s.dirAt v).st = .s [o]) →
            let t := s.draw.2.setDir (pa / 64) { d with txn := some (roomTxn 8 none), waiting := d.waiting ++ [x] }
            exec i s = .next { (t.setDir v { (t.dirAt v) with txn := some { roomTxn 0 (some (pa / 64)) with owed := [o] } }) with
              sent := s.sent ++ [.snoop 0x10 o (t.lineFor o v)] })))

/-- What serving a transaction does (07 R257; 12 R382, R383): RDS adds the requester to the sharers (a fifth sharer leaves only the dies), RDO and UPG make it the owner,
each waiting for UNBLOCK; RD leaves the sharers, WR leaves the line held by nobody; the owner's WB is written, and leaves the line held by nobody or, where it keeps the line, by it; data, or an
acknowledgement, go to the requester. -/
def Claims.DirectoryService : Prop :=
  ∀ (s : State) (pl : Nat) (d : DirEntry) (x : DirTxn),
    let c := x.req.srcDie.toNat * 2112 + x.req.srcUnit.toNat
    let data := s.readLine (reqPort x.req) (pl * 64) x.err
    let waits (st : DirState) : DirEntry := { d with st := st, txn := some { x with owed := [], unblock := true } }
    let free (st : DirState) : DirEntry := { d with st := st, txn := none }
    let head (t : State) : State := t.sendLine x.req data.2.1 data.2.2
    (x.op = 1 → d.st = .u → s.dirServe pl d x = head (data.1.setDir pl (waits (.s [c])))) ∧
    (x.op = 1 → ∀ l, d.st = .s l → l.contains c = false → l.length < 4 → s.dirServe pl d x = head (data.1.setDir pl (waits (.s (l ++ [c]))))) ∧
    (x.op = 1 → ∀ l, d.st = .s l → l.contains c = true → s.dirServe pl d x = head (data.1.setDir pl (waits (.s l)))) ∧
    (x.op = 1 → ∀ l, d.st = .s l → l.contains c = false → 4 ≤ l.length →
      ∃ dies, (∀ die, die ∈ dies ↔ ∃ n ∈ l ++ [c], die = n / 2112) ∧ dies.Nodup ∧ s.dirServe pl d x = head (data.1.setDir pl (waits (.sc dies)))) ∧
    (x.op = 1 → ∀ o, d.st = .m o → o ≠ c → s.dirServe pl d x = head (data.1.setDir pl (waits (.s [o, c])))) ∧
    (x.op = 2 → s.dirServe pl d x = head (data.1.setDir pl (waits (.m c)))) ∧
    (x.op = 3 → s.dirServe pl d x = (s.setDir pl (waits (.m c))).ack x.req 0) ∧
    (x.op = 5 → (∀ o, d.st ≠ .m o) → data.2.2 = false → s.dirServe pl d x = (data.1.setDir pl (free d.st)).sendLine x.req data.2.1 false) ∧
    (x.op = 5 → ∀ o, d.st = .m o → data.2.2 = false → s.dirServe pl d x = (data.1.setDir pl (free (.s [o]))).sendLine x.req data.2.1 false) ∧
    (x.op = 5 → data.2.2 = true → ∃ st, s.dirServe pl d x = (data.1.setDir pl (free st)).ack x.req 0x4001) ∧
    (x.op = 6 → s.dirServe pl d x =
      ((s.writeLine (reqPort x.req) (pl * 64) x.be x.data x.err).1.setDir pl (free .u)).ack x.req (s.writeLine (reqPort x.req) (pl * 64) x.be x.data x.err).2) ∧
    (x.op = 4 → d.st = .m c → s.dirServe pl d x =
      ((((s.served (pl * 64) 0).storeLine (pl * 64) x.data x.poisoned).incWrap (lpdPage (chanCo (pl * 64)).1 + 0xA8)).setDir pl
        (free (if x.req.be = 0 then .s [c] else .u))).ack x.req 0) ∧
    (x.op = 4 → d.st ≠ .m c → s.dirServe pl d x = (s.setDir pl (free d.st)).ack x.req 0)

/-- Write-backs, snoop answers and UNBLOCK (07 R256 to R258): the owner's write-back is written and leaves the line held by nobody, or by itself if it keeps it; one of a core that does not
hold the line writes nothing; one that finds another's transaction waits, unless its core is being snooped, when it is that snoop's data; the last answer owed lets the request be served,
and an SC line's agent answers once all of its die's cores have; UNBLOCK ends the transaction, and the oldest waiting request starts; a line that room was made for starts too. -/
def Claims.DirectoryAnswers : Prop :=
  ∀ (s : State) (q : PReq) (k : CoreId) (line pl : Nat) (data : List Byte) (poisoned : Bool), s.inReset = false →
    let n := coreNo k
    let d := s.dirAt pl
    let edge := q.dstDie.toNat - 24
    let c := q.srcDie.toNat * 2112 + q.srcUnit.toNat
    let src := planeEnd q.srcDie.toNat q.srcUnit.toNat
    let stored := ((s.served (pl * 64) 0).storeLine (pl * 64) data poisoned).incWrap (lpdPage (chanCo (pl * 64)).1 + 0xA8)
    let wb : DirTxn := { dirTxn 4 q 0 data .clean with poisoned := poisoned }
    (∀ pa, 24 ≤ q.dstDie.toNat → q.dstDie.toNat < 28 → q.addr.toNat / 2 ^ 56 = 1 → q.size.toNat < 3 → (q.op.toNat < 0x0B ∨ 0x0F < q.op.toNat) →
      s.planeCarries 0 src (.edge edge) = true → s.planeCarries 3 src (.edge edge) = true →
      s.translate edge q.tenant (q.addr.toNat % 2 ^ 41 / 64 * 64) 64 = .ok pa → (s.chan (chanCo pa).1).st = .active → pl = pa / 64 →
      (d.txn = none → d.st = .m c →
        exec (.wb q data poisoned) s = .next ((stored.setDir pl { d with st := if q.be = 0 then .s [c] else .u, txn := none }).ack q 0)) ∧
      (d.txn = none → d.st ≠ .m c → exec (.wb q data poisoned) s = .next ((s.setDir pl { d with txn := none }).ack q 0)) ∧
      (∀ x, d.txn = some x →
        (x.owed.contains c = true → exec (.wb q data poisoned) s = .next (stored.ack q 0)) ∧
        (x.owed.contains c = false → exec (.wb q data poisoned) s = .next (s.setDir pl { d with waiting := d.waiting ++ [wb] })))) ∧
    (s.planeCarries 1 (coreEnd n) (lineEnd line) = false → exec (.snpRsp k line none false) s = .next s ∧ exec (.unblock k line) s = .next s) ∧
    (s.planeCarries 1 (coreEnd n) (lineEnd line) = true → s.snoopLine n line = some pl → ∀ x, d.txn = some x →
      let left := x.owed.filter (fun y => decide (y ≠ n))
      let sc : Prop := ∃ l, d.st = .sc l
      (x.owed.contains n = false → exec (.snpRsp k line none false) s = .next s) ∧
      (x.owed.contains n = true → left ≠ [] →
        (¬ sc ∨ (∃ y ∈ left, y / 2112 = n / 2112) →
          exec (.snpRsp k line none false) s = .next (s.setDir pl { d with txn := some { x with owed := left } })) ∧
        (sc → (∀ y ∈ left, y / 2112 ≠ n / 2112) →
          exec (.snpRsp k line none false) s = .next ((s.send (.plane 0x1A (agentRsp (n / 2112) pl) [] false)).setDir pl { d with txn := some { x with owed := left } }))) ∧
      (x.owed = [n] → d.waiting = [] → ¬ sc →
        exec (.snpRsp k line none false) s = .next ((s.dirServe pl d { x with owed := [] }).roomMade { x with owed := [] }) ∧
        exec (.snpRsp k line (some data) poisoned) s = .next ((stored.dirServe pl d { x with owed := [] }).roomMade { x with owed := [] })) ∧
      (x.owed = [] → x.unblock = true → x.req.srcDie.toNat * 2112 + x.req.srcUnit.toNat = n →
        (d.waiting = [] → exec (.unblock k line) s = .next (s.setDir pl { d with txn := none })) ∧
        (∀ y rest, d.waiting = y :: rest → y.op = 1 ∨ y.op = 2 ∨ y.op = 3 →
          exec (.unblock k line) s = .next ((s.setDir pl { d with txn := none, waiting := rest }).dirStart pl y)))) ∧
    (∀ x : DirTxn, (x.room = none → s.roomMade x = s) ∧
      (x.room = some pl → ∀ y rest, d.waiting = y :: rest → y.op = 1 ∨ y.op = 2 ∨ y.op = 3 →
        s.roomMade x = (s.setDir pl { d with txn := none, waiting := rest }).dirStart pl y))

/-- Fabric RAM behind its plane port (10 R329 to R331; 07 R255): a read of a served TENANT answers the line's 64 bytes, a write changes exactly its enabled bytes and is acknowledged; an
access to a block without a plane port, in a shrouded region or of another tenant is refused and counted at the requesting interface; with ECC an uncorrectable word is answered MEM_UNCORRECTABLE. -/
def Claims.FabricRamAccesses : Prop :=
  ∀ (s : State) (q : PReq) (be : Dword) (data : List Byte) (e : LineEcc),
    let edge := q.dstDie.toNat - 24
    let off := q.addr.toNat % 2 ^ 24
    let line := edge * 2 ^ 24 + off / 64 * 64
    let cfg := s.ramCfg edge (off / 4096)
    let r := edgeRegion edge (off / 4096 / 192)
    let owner := (s.reg (shrKey edge (off / 4096 / 192) 0x48)).setWidth 8
    let served := cfg.plane = true ∧ s.shroudedRegion r = false ∧ owner ≠ 0 ∧ (q.tenant = owner ∨ q.tenant = 0xFF ∨ owner = 0xFF)
    let turned := (if q.srcDie.toNat < 24 ∧ q.srcUnit.toNat < 2112 then s.refused (q.srcDie.toNat * 2112 + q.srcUnit.toNat) q.tenant 0 0 else s).ack q 0x3002
    let held := (s.region r).st = .releasing ∧ (s.region r).stage < 2
    let src := planeEnd q.srcDie.toNat q.srcUnit.toNat
    s.inReset = false → q.addr.toNat / 2 ^ 56 = 2 → 24 ≤ q.dstDie.toNat → q.dstDie.toNat < 28 → q.size.toNat < 3 → (q.op.toNat < 0x0B ∨ 0x0F < q.op.toNat) →
    s.planeCarries 0 src (.edge edge) = true → s.planeCarries 3 src (.edge edge) = true →
    (off < 0xC00000 → served →
      (cfg.ecc = false ∨ e = .clean → exec (.rd q e) s = .next (s.answer 0x1C q 0 (Memory.readN s.fram line 64) false)) ∧
      (cfg.ecc = true → e = .corrected → exec (.rd q e) s = .next ((s.incSat (edgePage edge 0xF020 + 0x80)).answer 0x1C q 0 (Memory.readN s.fram line 64) false)) ∧
      (cfg.ecc = true → e = .uncorrectable → exec (.rd q e) s = .next ((s.incSat (edgePage edge 0xF020 + 0x84)).ack q 0x4001)) ∧
      (¬ held → ∃ m : List Host.Cell, exec (.wr q be data e) s = .next ({ s with fram := m }.ack q 0) ∧
        ∀ a, Memory.read m a = if line ≤ a ∧ a < line + 64 ∧ be.getLsbD (a - line) = true then data.getD (a - line) 0 else Memory.read s.fram a)) ∧
    ((off < 0xC00000 → ¬ served → exec (.rd q e) s = .next turned ∧ exec (.wr q be data e) s = .next turned) ∧
      (off < 0xC00000 → served → held → exec (.wr q be data e) s = .next turned)) ∧
    (0xC00000 ≤ off → exec (.rd q e) s = .next (s.ack q 0x3003) ∧ exec (.wr q be data e) s = .next (s.ack q 0x3003))

/-- The directory of a channel: which requests it serves, what it does, what ends its transactions, and the accesses of fabric RAM. -/
def Obligations.Directory : Prop :=
  Claims.DirectoryRequests ∧ Claims.DirectoryService ∧ Claims.DirectoryAnswers ∧ Claims.FabricRamAccesses

/-- Reports at a health controller (00 R16; 08 R271, R274, R278): a report of KIND 1 to 3 that finds room is stamped, queued and counted in the 1 us window of device time that its stamp falls
in; any other is dropped and counted; the 65th of a window enters STORM; a window's end shows its count in HC_RATE, and after ten quiet windows STORM ends with STORM_END; a report that
comes after a window's end ends that window first. -/
def Claims.ReportArrivals : Prop :=
  ∀ (s : State) (die : Fin 24) (w : Dword), s.inReset = false →
    let d := die.val
    let pg := hcPage d
    let h := s.hcAt d
    let kind := w.toNat % 16
    let arrive := exec (.faultReportArrival die w) s
    let queued (t : State) : Prop := (t.hcAt d).queue = h.queue ++ [(s.time, w)] ∧ (t.hcAt d).window = h.window + 1 ∧ (t.hcAt d).table = h.table ∧
      (t.reg (pg + 0x48)).toNat = min (2 ^ 32 - 1) ((s.reg (pg + 0x48)).toNat + 1)
    let now := s.time.toNat / 1000
    -- the windows that have ended when the counted one is not the present one
    let ended := max 1 (now - h.win)
    let quiet := if h.window ≤ 64 then h.quiet + ended else ended - 1
    (h.win ≠ now → ∃ t, exec (.stormWindowEnd die) s = .next t ∧ (t.hcAt d).win = now ∧ arrive = exec (.faultReportArrival die w) t) ∧
    (h.win = now → exec (.stormWindowEnd die) s = .next s) ∧
    (h.win = now → kind = 0 ∨ 4 ≤ kind ∨ 256 ≤ h.queue.length → arrive = .next (s.incSat (pg + 0x50))) ∧
    (h.win = now → 1 ≤ kind → kind ≤ 3 → h.queue.length < 256 →
      (h.storm = true ∨ h.window < 64 → ∃ t, arrive = .next t ∧ queued t ∧ (t.hcAt d).storm = h.storm ∧ t.cores = s.cores ∧ t.tenants = s.tenants) ∧
      (h.storm = false → 64 ≤ h.window → ∃ t, arrive = .next t ∧ queued t ∧ (t.hcAt d).storm = true ∧ t.bit (pg + 0x10) 2 = true ∧
        ((s.reg (pg + 0x18)).setWidth 16 = (0 : BitVec 16) → (t.reg (pg + 0x18)).setWidth 16 = (0x7003 : BitVec 16)))) ∧
    (h.win ≠ now → ∃ t, exec (.stormWindowEnd die) s = .next t ∧ (t.hcAt d).window = 0 ∧ (t.hcAt d).table = h.table ∧ (t.hcAt d).queue = h.queue ∧
      (t.reg (pg + 0x4C)).toNat = (if ended = 1 then min h.window 65535 else 0) ∧
      (h.storm = false → (t.hcAt d).storm = false) ∧
      (h.storm = true → quiet < 10 → (t.hcAt d).storm = true ∧ (t.hcAt d).quiet = quiet) ∧
      (h.storm = true → 10 ≤ quiet → (t.hcAt d).storm = false ∧ t.bit (pg + 0x10) 3 = true))

/-- The suspect table (08 R275 to R277, R301): a report folds into the FAILED entry of its suspect, else into the OPEN one, else takes the lowest FREE entry; an OPEN entry fails, with DECLARED,
on SELF or on QUORUM accusations from distinct ports; with no FREE entry a report is dropped with TABLE_FULL, but a SELF report replaces the weakest OPEN entry; an OPEN entry that
hears nothing closes; HC_RELEASE frees FAILED and CLOSED entries alone. A core that serves a position is not touched by the verdict itself. -/
def Claims.SuspectTable : Prop :=
  ∀ (s : State) (die : Fin 24) (who : Party) (t0 w : Dword) (rest : List (Dword × Dword)) (entry : Fin 16) (mask : Word), s.inReset = false →
    let d := die.val
    let pg := hcPage d
    let h := s.hcAt d
    let kind := w.toNat % 16
    let suspect := w.toNat / 16 % 2 ^ 12
    let quorum := s.fld (pg + 0x40) 16 3
    let cmd : Instr := if kind = 1 then .reportSelf die false else if kind = 2 then .reportAccuse die false else .reportLink die false
    let bit : BitVec 4 := if kind = 1 then 0 else BitVec.ofNat 4 (2 ^ (w.toNat / 2 ^ 48 % 4))
    let folded (x y : Suspect) : Prop := y.count = min 255 (x.count + 1) ∧ y.accusers = x.accusers ||| bit ∧ y.self = (x.self || decide (kind = 1)) ∧ y.suspect = x.suspect ∧
      y.lastTime = t0 ∧ y.firstTime = x.firstTime ∧ y.codeLast.toNat = w.toNat / 2 ^ 32 % 2 ^ 16
    let fails (y : Suspect) : Prop := y.self = true ∨ quorum ≤ (if y.accusers.getLsbD 0 then 1 else 0) + (if y.accusers.getLsbD 1 then 1 else 0) +
      (if y.accusers.getLsbD 2 then 1 else 0) + (if y.accusers.getLsbD 3 then 1 else 0)
    let others (u : State) (e : Nat) : Prop := (u.hcAt d).queue = rest ∧ ∀ f, f ≠ e → (u.hcAt d).entry f = h.entry f
    (h.queue = (t0, w) :: rest → 1 ≤ kind → kind ≤ 3 → suspect < 2112 →
      (∀ e, h.find .failed suspect = some e → ∃ u, exec cmd s = .next u ∧ others u e ∧ ((u.hcAt d).entry e).st = .failed ∧ folded (h.entry e) ((u.hcAt d).entry e)) ∧
      (∀ e, h.find .failed suspect = none → h.find .opened suspect = some e → ∃ u y, exec cmd s = .next u ∧ others u e ∧ folded (h.entry e) y ∧
        (¬ fails y → (u.hcAt d).entry e = { y with st := .opened }) ∧ (fails y → (u.hcAt d).entry e = { y with st := .failed } ∧ u.bit (pg + 0x10) 0 = true)) ∧
      (∀ e, h.find .failed suspect = none → h.find .opened suspect = none → h.free = some e → ∃ u y, exec cmd s = .next u ∧ others u e ∧
        y.count = 1 ∧ y.accusers = bit ∧ y.self = decide (kind = 1) ∧ y.suspect.toNat = suspect ∧ y.firstTime = t0 ∧
        (¬ fails y → (u.hcAt d).entry e = { y with st := .opened }) ∧ (fails y → (u.hcAt d).entry e = { y with st := .failed } ∧ u.bit (pg + 0x10) 0 = true)) ∧
      (h.find .failed suspect = none → h.find .opened suspect = none → h.free = none → kind ≠ 1 → ∃ u, exec cmd s = .next u ∧ others u 16 ∧
        (u.reg (pg + 0x50)).toNat = min (2 ^ 32 - 1) ((s.reg (pg + 0x50)).toNat + 1) ∧ u.bit (pg + 0x10) 4 = true) ∧
      (∀ e, h.find .failed suspect = none → h.find .opened suspect = none → h.free = none → kind = 1 → h.weakest = some e → ∃ u, exec cmd s = .next u ∧ others u e ∧
        ((u.hcAt d).entry e).suspect.toNat = suspect ∧ ((u.hcAt d).entry e).st = .failed ∧ u.bit (pg + 0x10) 4 = true ∧ u.bit (pg + 0x10) 0 = true)) ∧
    ((h.entry entry.val).st = .opened → ∃ u, exec (.suspectWindowExpiry die entry) s = .next u ∧ (u.hcAt d).entry entry.val = { h.entry entry.val with st := .closed } ∧
      (∀ f, f ≠ entry.val → (u.hcAt d).entry f = h.entry f) ∧ u.bit (pg + 0x10) 1 = true) ∧
    ((h.entry entry.val).st ≠ .opened → exec (.suspectWindowExpiry die entry) s = .next s) ∧
    (s.mayWrite who (pg + 0x58) = true → ∃ u : State, exec (.hcRelease who die mask) s = .next (u.answerCtl 0) ∧ ∀ e < 16, (u.hcAt d).entry e =
      if mask.getLsbD e = true ∧ ((h.entry e).st = .failed ∨ (h.entry e).st = .closed) then Suspect.empty else h.entry e)

/-- Reports at a health controller: their arrival, and the suspect table. -/
def Obligations.HealthReports : Prop :=
  Claims.ReportArrivals ∧ Claims.SuspectTable

/-- The reef of a failed core, self-tests and monitors (04 R152; 08 R273, R280 to R286, R298): the idle spare of column 64, or of column 65 if 64 fails its self-test, takes over: it serves, its
interface takes NI_TENANT, the old core is reefed and unassigned; the position moves at once where routing is not up and nothing else is under way; with no spare the old core is removed and
keeps the position; a reefed core that passes its self-test is REPATRIABLE; a tripped monitor or a register's error sends SELF, one in a v register stops the sequencer too, and a
bundle of the loop buffer is fetched again. -/
def Claims.ReefCommands : Prop :=
  ∀ (s : State) (k : CoreId) (x y : Nat) (ok65 works pass : Bool), s.inReset = false →
    let n := coreNo k
    let a := n - n % 66 + 64
    let owner := (s.niTenant n).toNat
    (s.logOf n = some (x, y) → s.isFailed n = true → s.markOf n ≠ .removed → (∀ r ∈ s.reefs, r.old = n → r.swapped = true) → n ≠ a → n ≠ a + 1 →
      (∀ c ok64, (s.idleSpare a = true ∧ ok64 = true ∧ c = a) ∨ (s.idleSpare a = true ∧ ok64 = false ∧ s.idleSpare (a + 1) = true ∧ ok65 = true ∧ c = a + 1) →
        ∃ t, exec (.reef k ok64 ok65 works) s = .next t ∧ t.markOf n = .reefed ∧ t.markOf c = .serving ∧ (c = a + 1 → t.markOf a = .removed) ∧
          t.niTenant c = s.niTenant n ∧ t.niTenant n = 0 ∧
          (s.reefs = [] → s.swapFree = true → s.routed n = false → (s.region (collarRegion n)).image = none → (s.tenant owner).res.rects = [] →
            (s.region (collarRegion c)).st ≠ .loading → (s.region (collarRegion c)).st ≠ .releasing → t.physOf x y = c)) ∧
      (s.idleSpare a = true → s.idleSpare (a + 1) = false → s.reefs = [] →
        ∃ t, exec (.reef k false ok65 works) s = .next t ∧ t.markOf n = .removed ∧ t.markOf a = .removed ∧ t.physOf x y = s.physOf x y)) ∧
    (s.isFailed n = false → exec (.reef k true ok65 works) s = .next s) ∧
    (s.markOf n = .reefed → pass = true → exec (.backgroundSelfTest k pass) s = .next (s.mark n .repatriable)) ∧
    (s.markOf n ≠ .reefed ∨ pass = false → exec (.backgroundSelfTest k pass) s = .next s) ∧
    (∀ e, e = .monitor ∨ e = .scalarReg → ∃ page code, exec (.islandMonitorTrip k e) s = .next (({ s with freeCtr := s.freeCtr + 1 }).selfReport n page code)) ∧
    (∃ page code, exec (.islandMonitorTrip k .vReg) s = .next ((({ s with freeCtr := s.freeCtr + 1 }).selfReport n page code).modCore n Core.stop)) ∧
    (∀ pc, ∃ t, exec (.islandMonitorTrip k (.loopBuf pc)) s = .next t ∧ t = s.modCore n (fun c => { c with loopBuf := Sparse.erase c.loopBuf pc.toNat }))

/-- Recorder records and epochs, checkpoints (00 R16; 08 R290, R293 to R295): a record is its header, its body and the CRC-32C of both, padded to 16 B; one that fits is written at the head of the ring and SEQ rises by 1, one that
would overwrite the tail is not, and makes the ring full; an epoch's end writes an EPOCH record; a checkpoint turns the older slot into the newer, with the committed journal
applied (shown on a domain of one core), and writes a CHECKPOINT record. -/
def Claims.RecorderCommands : Prop :=
  (∀ (typ : Nat) (seq : BitVec 32) (time : Dword) (body : List Byte), typ < 8 → body.length ≤ 9216 →
    let l := recordBytes typ seq time body
    l.length % 16 = 0 ∧ leNat (l.take 2) = typ ∧ leNat ((l.drop 2).take 2) = body.length ∧ leNat ((l.drop 4).take 4) = seq.toNat ∧ leNat ((l.drop 8).take 8) = time.toNat ∧
    (l.drop 16).take body.length = body ∧ leNat ((l.drop (16 + body.length)).take 4) = (crc32c (l.take (16 + body.length))).toNat ∧
    l.length < 36 + body.length ∧ ∀ b ∈ l.drop (20 + body.length), b = 0) ∧
  (∀ (s : State) (t typ keep : Nat) (time : Dword) (body : List Byte),
    let r := (s.tenant t).ring
    let b := recordBytes typ r.seq time body
    let x := s.record t typ time body keep
    let len := max 1 (s.reg (recPage (s.tenant t).res.home.val + 0x44)).toNat
    (s.tenant t).live = false ∨ s.time.toNat < (r.since / len + 1) * len →
    (r.size < r.used + b.length + keep → x = (s.setTenant t { (s.tenant t) with ring := { r with full := true } }, false)) ∧
    (r.used + b.length + keep ≤ r.size → r.head + b.length ≤ r.size → x.2 = true ∧ Memory.readN x.1.lpddr (r.base + r.head) b.length = b ∧
      ((x.1.tenant t).ring.seq = r.seq + 1 ∧ (x.1.tenant t).ring.used = r.used + b.length ∧ (x.1.tenant t).ring.head = (r.head + b.length) % r.size) ∧
      ∀ p, (p < r.base + r.head ∨ r.base + r.head + b.length ≤ p) → Memory.read x.1.lpddr p = Memory.read s.lpddr p)) ∧
  (∀ (s : State) (t : BitVec 8), s.inReset = false →
    let tn := s.tenant t.toNat
    let r := tn.ring
    let len := max 1 (s.reg (recPage tn.res.home.val + 0x44)).toNat
    let edge := (r.since / len + 1) * len
    (tn.live = false ∨ s.time.toNat < edge → exec (.recorderEpochEnd t) s = .next s) ∧
    (tn.live = true → edge ≤ s.time.toNat → ∃ u, exec (.recorderEpochEnd t) s = .next u ∧ (u.tenant t.toNat).ring.since = s.time.toNat / len * len ∧ (u.tenant t.toNat).ring.epoch = []) ∧
    (tn.live = true → edge ≤ s.time.toNat → s.time.toNat < edge + len → r.used + 48 ≤ r.size → ∃ u, exec (.recorderEpochEnd t) s = .next u ∧
      (u.tenant t.toNat).ring.since = edge ∧ (u.tenant t.toNat).ring.epoch = [] ∧
      ∃ x, (u.tenant t.toNat).ring.recs = r.recs ++ [x] ∧ x.typ = 5 ∧ x.seq = r.seq ∧ x.time = BitVec.ofNat 64 edge ∧
        x.body = leBytes 8 (r.since / len) ++ leBytes 4 r.epoch.length ++ leBytes 4 (crc32c ((r.epoch.map Rec.bytes).flatten)).toNat) ∧
    (tn.replay = none → exec (.checkpointRun t) s = .next s) ∧
    (∀ rp cx cy, tn.replay = some rp → rp.newer ≤ 1 → rp.domain = [⟨cx, cx, cy, cy⟩] → (∀ r ∈ s.reefs, r.t = t.toNat → r.swapped = true) →
      let step := s.coreStep t.toNat rp ((cx, cy), 0)
      ∃ u rp', exec (.checkpointRun t) s = .next u ∧ (u.tenant t.toNat).replay = some rp' ∧ rp'.newer = 1 - rp.newer ∧
        rp'.slot cx cy rp'.newer = s.rolled t.toNat rp ((cx, cy), 0) step ∧ (rp'.slot cx cy rp'.newer).step = step ∧ rp'.slot cx cy rp.newer = rp.slot cx cy rp.newer))

/-- Reefing and the recorder. -/
def Obligations.ReefAndRecorder : Prop :=
  Claims.ReefCommands ∧ Claims.RecorderCommands

/-- The grammar of a stream (11 R354 to R356): a WEAVE stream may not declare after its first WRITE (reason 3), write before a SET or repeat before a WRITE (4), write with nothing declared (5), send a SIG (5), start or sign before
its CRC (7), or end anywhere but at LEN (8); nonzero unused fields are reason 2. -/
def Claims.StreamGrammar : Prop :=
  ∀ (s : State) (p : Pusher) (x : Stream) (arg : Nat) (ws : List Word), x.typ = 0 → x.crcOk = false → arg < 2 ^ 24 →
    let g (op : Nat) (a : Nat) (rest : List Word) := s.grammar p x op a rest
    (0 < arg → g 0 arg [] = some 2 ∧ g 9 arg ws = some 2 ∧ g 11 arg [] = some 2) ∧
    (2 ^ 16 ≤ arg → g 7 arg ws = some 2 ∧ g 8 arg [] = some 2) ∧
    (x.begun = true → g 1 arg [] = some 3) ∧
    (x.cur = [] → arg < 2 ^ 16 → g 7 arg ws = some 4) ∧ (x.last = [] → 0 < arg → arg < 2 ^ 16 → g 8 arg [] = some 4) ∧
    (x.cur ≠ [] → x.begun = false → x.declared = [] → arg < 2 ^ 16 → g 7 arg ws = some 5) ∧
    (g 10 0 ws = some 5) ∧ (g 11 0 [] = some 7) ∧
    (x.len ≤ x.pos + 2 → g 9 0 ws = some 8) ∧ (x.len ≤ x.pos + 1 → g 0 0 [] = some 8) ∧
    (x.pos + 1 < x.len → g 0 0 [] = none ∧ g 3 arg [] = none) ∧
    (∀ y : Stream, y = { x with crcOk := true } → (s.grammar p y 0 0 [] = some 7) ∧ (x.pos + 1 ≠ x.len → s.grammar p y 11 0 [] = some 8) ∧ (x.pos + 1 = x.len → s.grammar p y 11 0 [] = none))

/-- The commands of an open stream (11 R352, R354 to R358, R360): their words are taken in order into the CRC; DECL, SET, ADD and their rectangle forms name regions; WRITE puts its frame into every
region of the current set that the stream has declared, REPEAT the last frame at the indices that follow; a frame for a region whose clear is not done, and the words of a stream that
waits for its signature, wait in the input buffer; CFG_RDY tells whether 4 KiB of the board's buffer are free. -/
def Claims.StreamCommands : Prop :=
  ∀ (s : State) (p : Pusher) (arg : BitVec 24) (rect : Word) (frame block : List Word),
    let x := s.stm p
    let idx := arg.toNat
    let word (op : Nat) : Word := BitVec.ofNat 32 (op * 2 ^ 24 + idx)
    let took (ws : List Word) : Stream := { x with
      pos := x.pos + ws.length, crc := ws.foldl crcWord x.crc, words := if x.typ ≠ 0 ∧ x.crcOk = false then x.words ++ ws else x.words }
    let after (ws : List Word) (y : Stream) : State := (s.takeWords p ws).setStm p y
    let inRect (r : BitVec 24) : Prop := ∃ row col, rect.toNat / 2 ^ 16 % 32 ≤ row ∧ row ≤ rect.toNat / 2 ^ 24 % 32 ∧ rect.toNat % 128 ≤ col ∧ col ≤ rect.toNat / 2 ^ 8 % 128 ∧
      r.toNat = idx / 2 ^ 19 * 2 ^ 19 + row * 66 + col
    let fine (op : Nat) (rest : List Word) : Prop := s.grammar p x op idx rest = none
    let joined (l : List (BitVec 24)) : List (BitVec 24) := if l.contains arg then l else l ++ [arg]
    (∀ l, (s.setBuf p l).cfgRdy = decide (((s.setBuf p l).buf boardPort).length ≤ 15360)) ∧
    (s.inReset = false → s.portOk p = true → x.opened = true → x.ended = true → exec (.streamNop p arg) s = .next (s.setBuf p (s.buf p ++ [word 0]))) ∧
    (s.inReset = false → s.portOk p = true → x.opened = true → x.ended = false → x.rejected = false → frame.length = 64 → block.length = 25 →
    s.buf p = [] → s.cfgRdy = decide ((s.buf boardPort).length ≤ 15360) →
    (fine 0 [] → exec (.streamNop p arg) s = .next (s.takeWords p [word 0])) ∧
    (fine 1 [] → exec (.decl p arg) s = .next (after [word 1] { took [word 1] with declared := joined x.declared })) ∧
    (fine 2 [rect] → ∃ l, exec (.declr p arg rect) s = .next (after [word 2, rect] { took [word 2, rect] with declared := l }) ∧ ∀ r, r ∈ l ↔ r ∈ x.declared ∨ inRect r) ∧
    (fine 3 [] → x.typ = 0 → exec (.streamSet p arg) s = .next (after [word 3] { took [word 3] with cur := [arg] })) ∧
    (fine 4 [rect] → ∃ l, exec (.setr p arg rect) s = .next (after [word 4, rect] { took [word 4, rect] with cur := l }) ∧ ∀ r, r ∈ l ↔ inRect r) ∧
    (fine 5 [] → exec (.streamAdd p arg) s = .next (after [word 5] { took [word 5] with cur := joined x.cur })) ∧
    (fine 6 [rect] → ∃ l, exec (.addr p arg rect) s = .next (after [word 6, rect] { took [word 6, rect] with cur := l }) ∧ ∀ r, r ∈ l ↔ r ∈ x.cur ∨ inRect r) ∧
    (∀ r, fine 7 frame → x.begun = true → r ∈ x.cur → r ∈ x.declared → (s.region r.toNat).clearing = true →
      exec (.streamWrite p arg frame) s = .next (s.setBuf p (word 7 :: frame))) ∧
    (∀ r, fine 7 frame → x.begun = true → x.cur = [r] → x.declared.contains r = true → (s.region r.toNat).clearing = false → idx < regionFrames r.toNat → frameClamps r.toNat idx (frameNat frame) = [] →
      exec (.streamWrite p arg frame) s = .next ((after (word 7 :: frame) { took (word 7 :: frame) with last := frame, lastIdx := idx, frameNo := idx + 1 }).putFrame r.toNat idx frame)) ∧
    (∀ r, fine 8 [] → idx = 1 → x.cur = [r] → x.declared.contains r = true → (s.region r.toNat).clearing = false → x.lastIdx + 1 < regionFrames r.toNat → frameClamps r.toNat (x.lastIdx + 1) (frameNat x.last) = [] →
      exec (.streamRepeat p arg) s = .next ((after [word 8] { took [word 8] with lastIdx := x.lastIdx + 1 }).putFrame r.toNat (x.lastIdx + 1) x.last)) ∧
    (fine 10 block → exec (.streamSig p arg block) s = .next (after (word 10 :: block) { took (word 10 :: block) with sig := some (block.getD 0 0, block.drop 1) })) ∧
    (∀ v, fine 9 [v] → v = ~~~ crcWord x.crc (word 9) → exec (.streamCrc p arg v) s = .next (after [word 9, v] { took [word 9, v] with crcOk := true })) ∧
    (fine 11 [] → x.typ = 0 → x.foreign = false → ∃ t, exec (.streamStart p arg) s = .next t ∧ (t.stm p) = Stream.closed ∧ t.reg (resKey p) = 1 ∧ t.regions = s.regions ∧
      (if p.board then (t.halAt p.e.val).readyBoard = (s.halAt p.e.val).readyBoard ++ (if x.begun then x.declared else [])
        else (t.halAt p.e.val).readyMc = (s.halAt p.e.val).readyMc ++ (if x.begun then x.declared else []))))

/-- How a stream opens and how it fails (11 R355, R357, R358, R360, R368; 15 R468 to R470): SYNC opens it with the fields of its header; a grammar rule broken, a wrong CRC, an idle timeout or a bad signature rejects it with its
code, and the regions whose declaration has taken effect end FAILED; the first WRITE of a WEAVE stream makes the declared regions LOADING. -/
def Claims.StreamOutcomes : Prop :=
  ∀ (s : State) (p : Pusher) (arg : BitVec 24) (hdr len svn v : Word) (frame : List Word),
    let x := s.stm p
    let pg := halPage p.e.val
    let h := hdr.toNat
    let rejects (t : State) (code : BitVec 16) (reason : Nat) : Prop := (t.stm p).rejected = true ∧ t.reg (resKey p) = BitVec.ofNat 32 (2 + reason * 4 + code.toNat * 2 ^ 16) ∧
      t.fld (pg + 0x44) 16 16 = code.toNat ∧ t.bit (pg + 0x10) 1 = true ∧ (∀ r ∈ x.effective, (t.region r.toNat).st = .failed ∧ (t.region r.toNat).err = code)
    s.inReset = false → s.portOk p = true → x.ended = false → s.buf p = [] →
    (x.opened = false → bits h 0 4 = 0 → bits h 5 3 = 0 → bits h 8 8 = 1 → bits h 24 8 = 0 → bits h 16 8 = 0xFF → svn = 0 → (p.board = true → 3 ≤ s.boot) → (p.board = false → (s.halAt p.e.val).forTenant = false) →
      ∃ t, exec (.streamSync p hdr len svn) s = .next t ∧ t.reg (resKey p) = 3 ∧ t.reg (wordsKey p) = 4 ∧ t.regions = s.regions ∧
        t.stm p = { Stream.closed with opened := true, typ := 0, strict := decide (bits h 4 1 = 1) || s.bit (pg + 0x40) 0, tenant := 0xFF, len := len.toNat, svn := 0, pos := 4, crc := [(0x5A3CC3A5 : Word), hdr, len, svn].foldl crcWord 0xFFFFFFFF }) ∧
    (x.opened = false → bits h 8 8 ≠ 1 → ∃ t, exec (.streamSync p hdr len svn) s = .next t ∧ (t.stm p).rejected = true ∧ t.reg (resKey p) = BitVec.ofNat 32 (2 + 1 * 4 + 0x1007 * 2 ^ 16)) ∧
    (x.opened = true → x.rejected = false →
      (∀ reason, s.grammar p x 0 arg.toNat [] = some reason → ∃ t, exec (.streamNop p arg) s = .next t ∧ rejects t 0x1007 reason) ∧
      (s.grammar p x 9 arg.toNat [v] = none → v ≠ ~~~ crcWord x.crc (BitVec.ofNat 32 (9 * 2 ^ 24 + arg.toNat)) → ∃ t, exec (.streamCrc p arg v) s = .next t ∧ rejects t 0x1001 0) ∧
      (∃ t, exec (.streamIdleTimeout p) s = .next t ∧ t.stm p = Stream.closed ∧ t.reg (resKey p) = BitVec.ofNat 32 (2 + 0x1006 * 2 ^ 16) ∧ ∀ r ∈ x.effective, (t.region r.toNat).st = .failed) ∧
      (∀ key rs, x.sig = some (key, rs) → x.sigOk = false →
        -- the signature is over SHA-384 of the words from SYNC to the CRC value
        let good : Bool := s.sec.keyOk key.toNat x.typ && Config.ecdsaOk key.toNat s.sec.owner (Config.sha384 ((x.words.map (fun w => leBytes 4 w.toNat)).flatten)) rs
        ∃ t, exec (.signatureVerified p) s = .next t ∧ (good = false → rejects t 0x1002 0) ∧ (good = true → x.svn < s.sec.fused x.typ → rejects t 0x6001 0) ∧
          (good = true → s.sec.fused x.typ ≤ x.svn → s.cfgRdy = decide ((s.buf boardPort).length ≤ 15360) → t = s.setStm p { x with sigOk := true })) ∧
      (x.typ = 0 → x.begun = false → s.grammar p x 7 arg.toNat frame = none → frame.length = 64 → s.declareBad p x x.declared = 0 →
        ∃ t, exec (.streamWrite p arg frame) s = .next t ∧ (∀ r ∈ x.declared, (t.region r.toNat).st = .loading ∧ (t.region r.toNat).clearing = true) ∧
          ((∃ r ∈ x.cur, r ∈ x.declared) → t.buf p = BitVec.ofNat 32 (7 * 2 ^ 24 + arg.toNat) :: frame))) ∧
    (x.opened = false → exec (.streamIdleTimeout p) s = .next s ∧ ∃ t, exec (.streamNop p arg) s = .next t ∧ t.stm p = x ∧ t.buf p = [] ∧ t.regions = s.regions)

/-- Configuration streams: their grammar, what each word of a stream does, how a stream opens and how it fails. -/
def Obligations.StreamCommands : Prop :=
  Claims.StreamGrammar ∧ Claims.StreamCommands ∧ Claims.StreamOutcomes

/-- Regions from clear to RUNNING (11 R358, R364 to R367, R369, R375; 10 R339): release waits for every clear, during full configuration until the last shell, then runs its three stages 128 ns apart;
a frame that waited for the clear is written; what is no longer LOADING is not released; a collar's FIFOs are emptied at stage 1 and counted; an edge region's outputs follow its logic; stage 3 counts the load,
raises LOADED and tells the owner; CLEAR empties a RUNNING or FAILED region; CFG_DONE rises 64 ns after stage 3; the management controllers start with their firmware. -/
def Claims.RegionReleases : Prop :=
  ∀ (s : State) (p : Pusher) (r : BitVec 24) (who : Party), s.inReset = false →
    let k := r.toNat
    let g := s.region k
    let h := s.halAt p.e.val
    let n := k / 2 ^ 19 * 2112 + k % 2 ^ 12
    let c := s.core n
    let ready := if p.board then h.readyBoard else h.readyMc
    let emptied : Hal := if p.board then { h with readyBoard := [] } else { h with readyMc := [] }
    let cleared := s.setRegion k { g with clearing := false }
    let first := (s.setHal p.e.val emptied).setRegion k { g with st := .releasing, stage := 1, at_ := s.time, edges := [] }
    ((∀ e < 4, ∀ b, (s.halAt e).buf b = []) → ∃ t, exec (.regionClearDone r) s = .next t ∧ t.regions = cleared.regions ∧ t.cfgmem = s.cfgmem ∧ ∀ q, t.stm q = s.stm q) ∧
    (∀ (idx : BitVec 24) (frame : List Word),
      let x := s.stm p
      s.portOk p = true → x.opened = true → x.ended = false → x.rejected = false → x.begun = true → x.cur = [r] → x.declared.contains r = true → k / 2 ^ 17 % 4 = 0 → idx.toNat < 128 →
      frame.length = 64 → s.grammar p x 7 idx.toNat frame = none → frameClamps k idx.toNat (frameNat frame) = [] → s.buf p = BitVec.ofNat 32 (7 * 2 ^ 24 + idx.toNat) :: frame →
      (∀ e < 4, ∀ b, ¬ (e = p.e.val ∧ b = p.board) → (s.halAt e).buf b = []) →
      ∃ t, exec (.regionClearDone r) s = .next t ∧ t.buf p = [] ∧ t.cfgmem = (s.putFrame k idx.toNat frame).cfgmem) ∧
    ((∃ x ∈ ready, (3 ≤ s.boot ∨ x.toNat / 2 ^ 17 % 4 = 3) ∧ (s.region x.toNat).clearing = true) → exec (.releaseStage1 p) s = .next s) ∧
    (ready = [] → exec (.releaseStage1 p) s = .next (s.setHal p.e.val emptied)) ∧
    (ready = [r] → s.boot < 3 → k / 2 ^ 17 % 4 ≠ 3 → exec (.releaseStage1 p) s = .next (s.setHal p.e.val h)) ∧
    (ready = [r] → g.clearing = false → 3 ≤ s.boot ∨ k / 2 ^ 17 % 4 = 3 →
      (g.st ≠ .loading → exec (.releaseStage1 p) s = .next (s.setHal p.e.val emptied)) ∧
      (g.st = .loading → k / 2 ^ 17 % 4 = 0 → exec (.releaseStage1 p) s =
        .next ((first.modCore n (fun c => { c with ob0 := [], ob1 := [], ib0 := [], ib1 := [] })).incSat (colPage n + 0xA0) (c.ob0.length + c.ob1.length + c.ib0.length + c.ib1.length))) ∧
      (g.st = .loading → k / 2 ^ 17 % 4 = 1 → exec (.releaseStage1 p) s = .next (first.driveOut k (first.comb k []))) ∧
      (g.st = .loading → 2 ≤ k / 2 ^ 17 % 4 → exec (.releaseStage1 p) s = .next first)) ∧
    (g.st = .releasing → g.stage = 1 → g.at_.toNat + 128 ≤ s.time.toNat → exec (.releaseStage2 r) s = .next (s.setRegion k { g with stage := 2 })) ∧
    (¬ (g.st = .releasing ∧ g.stage = 1 ∧ g.at_.toNat + 128 ≤ s.time.toNat) → exec (.releaseStage2 r) s = .next s) ∧
    (g.st = .releasing → g.stage = 2 → g.at_.toNat + 256 ≤ s.time.toNat → k / 2 ^ 17 % 4 = 0 → k / 2 ^ 19 < 24 → k % 2 ^ 12 < 2112 → ∃ t, exec (.releaseStage3 r) s = .next t ∧
      t.region k = { g with st := .running, stage := 3, err := 0, image := some (s.imageOf k) } ∧ (t.reg (colPage n + 0x4C)) = s.reg (colPage n + 0x4C) + 1 ∧ t.bit (colPage n + 0x10) 0 = true ∧ t.cores = s.cores) ∧
    (¬ (g.st = .releasing ∧ g.stage = 2 ∧ g.at_.toNat + 256 ≤ s.time.toNat) → exec (.releaseStage3 r) s = .next s) ∧
    (s.boot = 4 → s.cfgDone = false → (∀ e < 4, (s.region (edgeRegion e 0)).at_.toNat + 320 ≤ s.time.toNat) →
      exec .cfgDoneRise s = .next (({ s with cfgDone := true }.send (.pin .cfgDone 1)).setReady 9 true)) ∧
    (s.boot ≠ 4 ∨ s.cfgDone = true → exec .cfgDoneRise s = .next s) ∧
    (let f := regionId 24 3 0
     let starts : Prop := ((s.region f).st = .releasing ∨ (s.region f).st = .running) ∧ s.sec.fwKey ≠ 0 ∧ s.mcOn = false
     (starts → exec .mcStart s = .next (({ s with mcOn := true } : State).setReady 3 true)) ∧ (¬ starts → exec .mcStart s = .next s)) ∧
    (regionValid k = true → k / 2 ^ 17 % 4 < 2 → s.mayWrite who (regionKey k 0x40) = true →
      (g.st = .running ∨ g.st = .failed → exec (.shrClear who r) s = .next (((s.clearMemory k).setRegion k { g with st := .empty, clearing := true, stage := 0, edges := [], image := none }).answerCtl 0)) ∧
      (g.st = .loading → exec (.shrClear who r) s = .next ((s.clampAt (regionPage k) (keyOff (regionKey k 0x40))).answerCtl 0)) ∧
      (g.st = .releasing ∨ g.st = .empty → exec (.shrClear who r) s = .next (s.answerCtl 0)))

/-- The clamp log, the frame checker and the board's serial port (11 R350, R353, R363, R370, R373): a pop removes the oldest clamp, OVERFLOW clearing with the last; an uncorrectable frame of a user's region ends it FAILED with CFG_UPSET
and raises its interrupt; a corrected one is counted; serial bytes are gathered into words, byte 0 first, and a status read gives HAL_STATUS. -/
def Claims.HalyardPorts : Prop :=
  ∀ (s : State) (who : Party) (e : Fin 4) (r : BitVec 24) (frame : Nat) (bytes : List Byte), s.inReset = false →
    let k := r.toNat
    let h := s.halAt e.val
    let h0 := s.halAt 0
    let n := k / 2 ^ 19 * 2112 + k % 2 ^ 12
    (s.mayWrite who (halPage e.val + 0x74) = true →
      (∀ x y l, h.log = x :: y :: l → exec (.clogPop who e) s = .next ((s.setHal e.val { h with log := y :: l }).answerCtl 0)) ∧
      (h.log.length ≤ 1 → exec (.clogPop who e) s = .next ((s.setHal e.val { h with log := [], overflow := false }).answerCtl 0))) ∧
    (exec (.configFrameCheck r frame .clean) s = .next s) ∧
    (regionValid k = true → k / 2 ^ 17 % 4 = 0 → frame < 128 →
      exec (.configFrameCheck r frame .corrected) s = .next (s.incSat (colPage n + 0x54)) ∧
      ∃ t, exec (.configFrameCheck r frame .uncorrectable) s = .next t ∧ (t.region k).st = .failed ∧ (t.region k).err = 0x100A ∧ t.bit (colPage n + 0x10) 2 = true ∧ t.bit (colPage n + 0x10) 1 = true ∧
        t.cores = s.cores ∧ t.cfgmem = s.cfgmem) ∧
    (s.cfgMode = false → s.jtag = .idcode → s.buf boardPort = [] → s.cfgRdy = true → (s.stm boardPort).opened = false → (s.stm boardPort).ended = false →
      (h0.bytes.length + bytes.length < 4 → exec (.serialWrite bytes) s = .next (s.setHal 0 { h0 with bytes := h0.bytes ++ bytes })) ∧
      (∀ a b c d, h0.bytes = [] → bytes = [a, b, c, d] → (d ++ c ++ b ++ a : BitVec (8 + 8 + 8 + 8)).toNat ≠ 0x5A3CC3A5 → exec (.serialWrite bytes) s = .next (s.setHal 0 h0)) ∧
      (h0.bytes = [] → bytes = [0xA5, 0xC3, 0x3C, 0x5A] → exec (.serialWrite bytes) s = .next (s.setHal 0 { h0 with bufBoard := [0x5A3CC3A5] }))) ∧
    (s.cfgMode = false → exec .serialStatus s = .next (s.send (.bytes false (leBytes 4 (s.reg (halPage 0 + 0x44)).toNat)))) ∧
    (s.cfgMode = true → exec (.serialWrite bytes) s = .next s ∧ exec .serialStatus s = .next s)

/-- The release of a region and the board's configuration ports. -/
def Obligations.RegionsAndPorts : Prop :=
  Claims.RegionReleases ∧ Claims.HalyardPorts

/-- The clock edge of a collar (10 R314 to R318, R323 to R325; 11 R366): from the third edge after stage 3 of its release on, every flip-flop whose clock enable is on loads its cell's table output,
combined output, sum or input d, and every other one holds its value; before that all hold; a cell's sum and carry are those of a full adder whose propagate and
generate its table gives; a select with no bit set reads 0. A region that is neither released nor RUNNING loads nothing. -/
def Obligations.FabricEdges : Prop :=
  (∀ (s : State) (core : CoreId) (ins : List FabIn),
    let k := collarRegion (coreNo core)
    let g := s.region k
    let ext := s.insOf k ins
    let l := s.comb k ext
    let edges := if g.at_.toNat + 256 ≤ s.time.toNat then min 3 (Sparse.get (fun _ => 0) g.edges 0 + 1) else Sparse.get (fun _ => 0) g.edges 0
    s.inReset = false → s.tripped = false →
    (g.st = .running ∨ g.st = .releasing → ∃ t, exec (.fabricClockEdge (.collar core) ins [] [] []) s = .next t ∧ t.cfgmem = s.cfgmem ∧ t.cores = s.cores ∧ t.regs = s.regs ∧
      Sparse.get (fun _ => 0) (t.region k).edges 0 = edges ∧
      ∀ c < 16, ∀ i < 16,
        let x := s.cell k c i
        let o := s.cluster k ext l c
        t.ff k c i = if g.st = .releasing ∨ edges < 3 ∨ (bits x 20 1 = 0 ∧ pickWire o.wires (bits x 160 32) = false) then s.ff k c i
          else match bits x 18 2 with
            | 1 => o.sums.getD i false
            | 2 => pickWire o.wires (bits x 128 32)
            | _ => o.comb.getD i false) ∧
    (g.st ≠ .running → g.st ≠ .releasing → exec (.fabricClockEdge (.collar core) ins [] [] []) s = .next s)) ∧
  (∀ (wires x : Nat) (ci : Bool),
    let i (j : Nat) : Nat := b2n (pickWire wires (bits x (32 + 32 * j) 32))
    cellO wires x = decide (bits x (8 * i 3 + 4 * i 2 + 2 * i 1 + i 0) 1 = 1) ∧
    (∀ p g, p = decide (bits x (8 + 4 * i 2 + 2 * i 1 + i 0) 1 = 1) → g = decide (bits x (4 * i 2 + 2 * i 1 + i 0) 1 = 1) →
      cellSum wires x ci = (p ^^ ci, if p then ci else g))) ∧
  (∀ (wires : Nat) (w : Fin 32), pickWire wires 0 = false ∧ pickWire wires (2 ^ w.val) = decide (wires / 2 ^ w.val % 2 = 1))

/-- Windows and addresses (12 R377 to R379): 256 B of physical space go to one channel after the other; a window register of a VALID window is locked but for the write that clears VALID; VALID is set only for a window inside the memory that meets no other; a request
is translated inside its tenant's window alone. -/
def Claims.MemoryWindows : Prop :=
  (∀ pa : Nat, paOf (chanCo pa).1 (chanCo pa).2 = pa ∧ (chanCo pa).1 < 96) ∧ (∀ ch co, ch < 96 → chanCo (paOf ch co) = (ch, co)) ∧
  (∀ (s : State) (e : Nat) (t : BitVec 8) (o len : Nat), t ≠ 0xFF → 0 < len →
    (∀ pa, s.translate e t o len = .ok pa → ∃ b sz, s.window e t.toNat = some (b, sz) ∧ pa = b + o ∧ o + len ≤ sz) ∧
    (∀ b sz, s.window e t.toNat = some (b, sz) → o + len ≤ sz → s.translate e t o len = .ok (b + o)) ∧
    (∀ b sz, s.window e t.toNat = some (b, sz) → sz < o + len → s.translate e t o len = .error 0x3002) ∧ (s.window e t.toNat = none → s.translate e t o len = .error 0x3002)) ∧
  (∀ (s : State) (who : Party) (e : Fin 4) (t : Fin 64) (v : Word),
    let k := winKey e.val t.val
    let base := v.toNat % 2 ^ 15 * (96 * 2 ^ 20)
    let size := (s.reg (k + 4)).toNat % 2 ^ 21 * 2 ^ 20
    let meets : Prop := ∃ u < 64, u ≠ t.val ∧ ∃ b sz, s.window e.val u = some (b, sz) ∧ 0 < size ∧ 0 < sz ∧ base < b + sz ∧ b < base + size
    let clamp (o : Nat) := s.clampAt (edgePage e.val 0xF118) (0x100 + 8 * t.val + o)
    0 < t.val →
    (s.bit k 31 = true → s.acts who (k + 4) (.lpdWinWrite who e t true v) (clamp 4) ∧
      (v.getLsbD 31 = true → s.acts who k (.lpdWinWrite who e t false v) (clamp 0)) ∧ (v.getLsbD 31 = false → s.acts who k (.lpdWinWrite who e t false v) (s.setReg k (v &&& 0x7FFF)))) ∧
    (s.bit k 31 = false → s.acts who (k + 4) (.lpdWinWrite who e t true v) (s.setReg (k + 4) (v &&& 0x1FFFFF)) ∧
      (v.getLsbD 31 = false → s.acts who k (.lpdWinWrite who e t false v) (s.setReg k (v &&& 0x7FFF))) ∧
      (v.getLsbD 31 = true → base + size ≤ Config.lpddrBytes → ¬ meets → s.acts who k (.lpdWinWrite who e t false v) (s.setReg k (v &&& 0x80007FFF))) ∧
      (v.getLsbD 31 = true → (Config.lpddrBytes < base + size ∨ meets) → s.acts who k (.lpdWinWrite who e t false v) (clamp 0))))

/-- Lines of LPDDR (12 R381 to R383, R386, R391): a stored line reads back with its poison, no other line changes; a read and a write of a line are counted; a request that was served late is counted at its port and raises LATE; a poisoned or uncorrectable line is counted, captured if none is held, raised and entered; a corrected one is counted; a partial write of such a line leaves it poisoned. -/
def Claims.MemoryLines : Prop :=
  ∀ (s : State) (line port : Nat) (data : List Byte) (poisoned : Bool) (be : Dword) (e : LineEcc), data.length = 64 → port < 4 →
    let pa := line * 64
    let ch := (chanCo pa).1
    let pg := lpdPage ch
    let t := s.storeLine pa data poisoned
    let r := s.readLine port pa e
    let late (u : State) : Prop := u.reg (pg + 0x70 + 4 * port) = s.reg (pg + 0x70 + 4 * port) ∨
      ((u.reg (pg + 0x70 + 4 * port)).toNat = min (2 ^ 32 - 1) ((s.reg (pg + 0x70 + 4 * port)).toNat + 1) ∧ u.bit (pg + 0x10) 2 = true)
    late r.1 ∧ late (s.writeLine port pa be data e).1 ∧ r.1.reg (pg + 0xA4) = s.reg (pg + 0xA4) + 1 ∧
    (s.writeLine port pa be data e).1.reg (pg + 0xA8) = s.reg (pg + 0xA8) + 1 ∧
    (Memory.readN t.lpddr pa 64 = data ∧ Sparse.get (fun _ => false) t.lpoison line = poisoned ∧ t.lineLost pa = false) ∧
    (∀ m, m ≠ line → Memory.readN t.lpddr (m * 64) 64 = Memory.readN s.lpddr (m * 64) 64 ∧ Sparse.get (fun _ => false) t.lpoison m = Sparse.get (fun _ => false) s.lpoison m) ∧
    (s.lineLost pa = false → Sparse.get (fun _ => false) s.lpoison line = false →
      (e ≠ .uncorrectable → r.2 = (Memory.readN s.lpddr pa 64, false)) ∧ (e = .uncorrectable → r.2.2 = true) ∧
      (e = .corrected → (r.1.reg (pg + 0x80)).toNat = min (2 ^ 32 - 1) ((s.reg (pg + 0x80)).toNat + 1))) ∧
    (s.lineLost pa = false → (Sparse.get (fun _ => false) s.lpoison line = true ∨ e = .uncorrectable) →
      r.2.2 = true ∧ (r.1.reg (pg + 0x84)).toNat = min (2 ^ 32 - 1) ((s.reg (pg + 0x84)).toNat + 1) ∧ r.1.bit (pg + 0x10) 0 = true ∧
      (s.bit (pg + 0x88) 0 = false → r.1.bit (pg + 0x88) 0 = true ∧ r.1.bit (pg + 0x88) 1 = Sparse.get (fun _ => false) s.lpoison line ∧
        r.1.fld (pg + 0x88) 6 26 = (chanCo pa).2 / 64 % 2 ^ 26) ∧
      (be ≠ 0xFFFFFFFFFFFFFFFF → (s.writeLine port pa be data e).2 = 0x4001 ∧ Sparse.get (fun _ => false) (s.writeLine port pa be data e).1.lpoison line = true)) ∧
    ((s.writeLine port pa 0xFFFFFFFFFFFFFFFF data e).2 = 0 ∧ Memory.readN (s.writeLine port pa 0xFFFFFFFFFFFFFFFF data e).1.lpddr pa 64 = data ∧
      Sparse.get (fun _ => false) (s.writeLine port pa 0xFFFFFFFFFFFFFFFF data e).1.lpoison line = false)

/-- Memory requests: the windows of a tenant, and the lines of LPDDR. -/
def Obligations.MemoryRequests : Prop :=
  Claims.MemoryWindows ∧ Claims.MemoryLines

/-- Refresh, temperature, self-refresh and scrubbing of a channel (12 R388 to R391, R394, R395): a refresh under urgent traffic is postponed at most eight times, then forced and counted; the oldest neighbour of a bank is refreshed; an idle ACTIVE channel with SR_EN enters
self-refresh, and the segments that PASR masks lose their contents; the exit makes a re-centring that waited; the scrubber marks an uncorrectable line. -/
def Claims.ChannelUpkeep : Prop :=
  ∀ (s : State) (c : Chan) (bank : Fin 32) (urgent hot : Bool) (dly : List (BitVec 6 × BitVec 6)) (co : Nat), s.inReset = false →
    let k := chanNo c
    let pg := lpdPage k
    let ch := s.chan k
    let late := Sparse.get (fun _ => 0) ch.postponed bank.val
    let set (n : Nat) : State := s.setChan k { ch with postponed := Sparse.put (fun _ => 0) ch.postponed bank.val n }
    let queue := Sparse.get (fun _ => []) ch.neighbours bank.val
    let mask : BitVec 8 := (s.reg (pg + 0x54)).setWidth 8
    (ch.st ≠ .active → exec (.refresh c bank urgent) s = .next s) ∧
    (ch.st = .active → urgent = true → late < 8 → exec (.refresh c bank urgent) s = .next (set (late + 1))) ∧
    (ch.st = .active → urgent = true → 8 ≤ late → exec (.refresh c bank urgent) s = .next ((set 0).incSat (pg + 0x98))) ∧
    (ch.st = .active → urgent = false → exec (.refresh c bank urgent) s = .next (set 0)) ∧
    (hot = false → ∃ t, exec (.temperaturePoll c hot) s = .next t ∧ t.bit (pg + 0x40) 4 = false ∧ t.reg (pg + 0x10) = s.reg (pg + 0x10)) ∧
    (hot = true → ∃ t, exec (.temperaturePoll c hot) s = .next t ∧ t.bit (pg + 0x40) 4 = true ∧ t.bit (pg + 0x10) 3 = true ∧
      ((s.reg (pg + 0x18)).setWidth 16 = (0 : BitVec 16) → (t.reg (pg + 0x18)).setWidth 16 = (0x8002 : BitVec 16))) ∧
    (queue = [] → exec (.neighbourRefresh c bank) s = .next s) ∧
    (∀ a l, queue = a :: l → exec (.neighbourRefresh c bank) s =
      .next ((s.setChan k { ch with neighbours := Sparse.put (fun _ => []) ch.neighbours bank.val l }).incWrap (pg + 0x90))) ∧
    (ch.st = .active → ch.helper = .none → s.bit (pg + 0x44) 1 = true → ∃ t, exec (.selfRefreshEntry c) s = .next t ∧ t.lpddr = s.lpddr ∧
      t.chan k = { ch with st := .selfRefresh, maskNow := mask, lost := ch.lost ||| mask } ∧ t.reg (pg + 0xA0) = s.reg (pg + 0xA0) + 1 ∧ t.fld (pg + 0x40) 0 3 = 3) ∧
    (ch.st ≠ .active ∨ s.bit (pg + 0x44) 1 = false → exec (.selfRefreshEntry c) s = .next s) ∧
    (ch.st = .selfRefresh → ∃ t, exec (.selfRefreshExit c) s = .next t ∧ t.chan k = { ch with st := .active, recentre := [], maskNow := 0 } ∧ t.fld (pg + 0x40) 0 3 = 2 ∧
      ∀ i < 24, i < ch.recentre.length → (t.reg (pg + 0x1A0 + 4 * i)).toNat = (ch.recentre.getD i (0, 0)).1.toNat + (ch.recentre.getD i (0, 0)).2.toNat * 2 ^ 8) ∧
    (ch.st ≠ .selfRefresh → exec (.selfRefreshExit c) s = .next s) ∧
    (ch.st = .active → ∃ t, exec (.recentre c dly) s = .next t ∧ t.chans = s.chans ∧
      ∀ i < 24, i < dly.length → (t.reg (pg + 0x1A0 + 4 * i)).toNat = (dly.getD i (0, 0)).1.toNat + (dly.getD i (0, 0)).2.toNat * 2 ^ 8) ∧
    (ch.st = .selfRefresh → exec (.recentre c dly) s = .next (s.setChan k { ch with recentre := dly })) ∧
    (exec (.lpddrScrub c co .clean) s = .next s) ∧
    (s.bit (pg + 0x44) 0 = false → ∀ e, exec (.lpddrScrub c co e) s = .next s) ∧
    (s.bit (pg + 0x44) 0 = true → ch.st = .active → co < chanBytes → Sparse.get (fun _ => false) s.lpoison (paOf k (co / 64 * 64) / 64) = false →
      exec (.lpddrScrub c co .corrected) s = .next (s.incSat (pg + 0x80)) ∧
      ∃ t, exec (.lpddrScrub c co .uncorrectable) s = .next t ∧ Sparse.get (fun _ => false) t.lpoison (paOf k (co / 64 * 64) / 64) = true ∧ t.lpddr = s.lpddr ∧ t.bit (pg + 0x10) 0 = true)

/-- Training (12 R392, R393, R398): BEGIN starts an untrained or OFFLINE channel, GO makes it ACTIVE at its rate and sets PG_READY.LPDDR with the last of 96, OFFLINE gives it up with MEM_TRAIN_FAIL; RUN and FILL are taken one at a time, STOP ends a run early, and TR_DONE shows the errors of the pins; a
command in the wrong state is recorded as a clamp. -/
def Claims.ChannelTraining : Prop :=
  ∀ (s : State) (c : Chan) (who : Party) (full : Bool) (pin : Fin 24) (errors first : BitVec 16), s.inReset = false →
    let k := chanNo c
    let pg := lpdPage k
    let ch := s.chan k
    let wrong (o : Nat) := s.clampAt pg o
    let free := (ch.st = .training ∨ ch.st = .active) ∧ ch.helper = .none
    (s.mayWrite who (pg + 0x48) = true →
      (ch.st = .untrained ∨ ch.st = .offline → exec (.lpdBegin who c) s = .next (((s.setChan k { ch with st := .training }).setFld (pg + 0x40) 0 3 1).answerCtl 0)) ∧
      (¬ (ch.st = .untrained ∨ ch.st = .offline) → exec (.lpdBegin who c) s = .next ((wrong 0x48).answerCtl 0)) ∧
      (ch.st = .training → ∃ t : State, exec (.lpdGo who c full) s = .next (t.answerCtl 0) ∧ t.chan k = { ch with st := .active } ∧ t.fld (pg + 0x40) 0 3 = 2 ∧ t.fld (pg + 0x40) 8 8 = (if full then 128 else 96) ∧
        t.bit (pg + 0x40) 3 = !full ∧ ((∀ i < 96, i ≠ k → (s.chan i).st = .active) → t.bit (govPage + 0x70) 10 = true) ∧
        ((∃ i < 96, i ≠ k ∧ (s.chan i).st ≠ .active ∧ (s.chan i).st ≠ .selfRefresh) → t.bit (govPage + 0x70) 10 = s.bit (govPage + 0x70) 10)) ∧
      (ch.st ≠ .training → exec (.lpdGo who c full) s = .next ((wrong 0x48).answerCtl 0)) ∧
      (ch.st = .untrained ∨ ch.st = .training → exec (.lpdOffline who c) s =
        .next (((((s.setChan k { ch with st := .offline }).setFld (pg + 0x40) 0 3 4).raiseIrq pg 2).enterCode pg 0x4002).answerCtl 0)) ∧
      (¬ (ch.st = .untrained ∨ ch.st = .training) → exec (.lpdOffline who c) s = .next ((wrong 0x48).answerCtl 0))) ∧
    (s.mayWrite who (pg + 0x100) = true →
      (free → ∃ t : State, exec (.trainingRun who c) s = .next (t.answerCtl 0) ∧ t.chan k = { ch with helper := .run } ∧ t.bit (pg + 0x11C) 0 = true ∧ ∀ i < 24, t.reg (pg + 0x140 + 4 * i) = 0xFFFF0000) ∧
      (free → exec (.fill who c) s = .next (((s.setChan k { ch with helper := .fill }).setFld (pg + 0x11C) 0 1 1).answerCtl 0)) ∧
      (¬ free → exec (.trainingRun who c) s = .next ((wrong 0x100).answerCtl 0) ∧ exec (.fill who c) s = .next ((wrong 0x100).answerCtl 0)) ∧
      (ch.helper = .run → exec (.trainingStop who c) s = .next ((s.setChan k { ch with helper := .stopping }).answerCtl 0))) ∧
    (ch.helper = .none → exec (.trDone c [(pin.val, errors, first)]) s = .next s) ∧
    (ch.helper = .run ∨ ch.helper = .stopping → ∃ t, exec (.trDone c [(pin.val, errors, first)]) s = .next t ∧ t.chan k = { ch with helper := .none } ∧ t.bit (pg + 0x11C) 0 = false ∧
      t.bit (pg + 0x11C) 1 = decide (errors ≠ 0) ∧ t.reg (pg + 0x140 + 4 * pin.val) = first ++ errors ∧ t.bit (pg + 0x10) 4 = true ∧ t.lpddr = s.lpddr) ∧
    (ch.helper = .fill → s.fld (pg + 0x104) 0 3 = 5 → s.reg (pg + 0x10C) = 0 → ch.lost = 0 → ∃ t, exec (.trDone c []) s = .next t ∧ t.chan k = { ch with helper := .none } ∧ t.bit (pg + 0x10) 4 = true ∧
      ∀ pa, Memory.read t.lpddr pa = if (chanCo pa).1 = k ∧ (s.fillRange k).1 ≤ (chanCo pa).2 / 64 ∧ (chanCo pa).2 / 64 < (s.fillRange k).1 + (s.fillRange k).2 then 0 else Memory.read s.lpddr pa)

/-- Memory channels: upkeep, and training. -/
def Obligations.MemoryChannels : Prop :=
  Claims.ChannelUpkeep ∧ Claims.ChannelTraining

/-- Lane claims and power states (13 R401, R407, R408): a claim sets RAW and REGION and takes the port's sub-port down at once; giving the lane back drops its lock; a power request on a lane without an enabled sub-port starts a transition, or waits for the one in progress; arrival
raises PWR_DONE where the state is the one requested last, else starts the next. -/
def Claims.LaneStates : Prop :=
  ∀ (s : State) (who : Party) (l : LaneId) (region : BitVec 4) (pwr : BitVec 2), s.inReset = false →
    let k := laneNo l
    let key := laneKey k 0
    let x := s.lane k
    let mac := macPage (k / 4)
    let shown (n : Nat) : LaneState := if n = 0 then .on else if n = 1 then .light else .deep
    let turned (y : Lane) (p : Nat) : Lane := if y.moving = true ∨ p = y.goal then { y with want := p }
      else { y with want := p, goal := p, moving := true, st := if p = 0 then .starting else .entering, lock := y.lock && decide (p ≠ 2), prbs := y.prbs && decide (p ≠ 2) }
    (s.mayWrite who key = true →
      (region ≠ 0 → ∃ t : State, exec (.laneClaim who l true region) s = .next (t.answerCtl 0) ∧ t.bit key 2 = true ∧ t.fld key 8 4 = region.toNat ∧ t.fld key 0 2 = s.fld key 0 2 ∧
        (s.bit key 2 = false → ∀ u, modeSub (s.mode (k / 4)) (k % 4) = some u → t.bit (mac + 0x44) u = false ∧ t.bit (mac + 0x44) (4 + u) = false ∧ (s.bit (mac + 0x44) u = true → t.bit (mac + 0x10) 1 = true))) ∧
      (s.bit key 2 = true → ∃ t : State, exec (.laneClaim who l false region) s = .next (t.answerCtl 0) ∧ t.bit key 2 = false ∧ (t.lane k).lock = false ∧ (t.lane k).prbs = false) ∧
      (s.bit key 2 = true → s.fld key 8 4 ≠ 0 → pwr ≠ 3 → ∃ t : State, exec (.lanePowerRequest who l pwr) s = .next (t.answerCtl 0) ∧ t.lane k = turned x pwr.toNat ∧ t.fld key 4 2 = pwr.toNat ∧ t.bit key 2 = true) ∧
      (s.bit key 2 = false → modeSub (s.mode (k / 4)) (k % 4) = none → pwr ≠ 3 → ∃ t : State, exec (.lanePowerRequest who l pwr) s = .next (t.answerCtl 0) ∧ t.lane k = turned x pwr.toNat ∧ t.fld key 4 2 = pwr.toNat) ∧
      (∀ u, s.bit key 2 = false → modeSub (s.mode (k / 4)) (k % 4) = some u → s.bit (mac + 0x40) (4 + u) = true →
        ∃ t : State, exec (.lanePowerRequest who l pwr) s = .next (t.answerCtl 0) ∧ t.fld key 4 2 = 0 ∧ t.lane k = turned x 0)) ∧
    (x.moving = false → exec (.lanePowerDone l) s = .next s) ∧
    (x.moving = true → x.want = x.goal → exec (.lanePowerDone l) s = .next ((s.setLane k { x with st := shown x.goal, moving := false }).raiseIrq (quadPage k) 8)) ∧
    (x.moving = true → x.want ≠ x.goal → exec (.lanePowerDone l) s = .next (s.setLane k (turned { x with st := shown x.goal, moving := false } x.want)))

/-- Test patterns, eye scan, bit-slip and lock of a lane (13 R403 to R406, R426): the checker counts bits and mismatches, 64 mismatches make it relock with PRBS_ERR; a scan ends with a count of at most 2^(10 + 2 DWELL); a slip is counted when it takes effect, and discards the next bit received; a second one while it pends is
ignored; losing lock raises LOCK_LOST and drops the checker, regaining it starts the slip position and the word boundary again. -/
def Claims.LanePatterns : Prop :=
  ∀ (s : State) (who : Party) (l : LaneId) (compared : Dword) (errs count : Word), s.inReset = false →
    let k := laneNo l
    let x := s.lane k
    let q := quadPage k
    let most := 2 ^ (10 + 2 * s.fld (laneKey k 0x1C) 20 4)
    let ended : State := (s.setLane k { x with scan := false, nextScan := none }).setReg (laneKey k 0x24) (BitVec.ofNat 32 (min 0xFFFFFFFF (min count.toNat most)))
    (x.lock = true → x.st = .on → s.fld (laneKey k 8) 4 4 ≠ 0 → exec (.prbsCheckerLock l compared errs) s =
      .next (((s.setLane k { x with prbs := true }).incSat (laneKey k 0x10) errs.toNat).inc64 (laneKey k 0x14) compared.toNat)) ∧
    (x.lock = false ∨ x.st ≠ .on ∨ s.fld (laneKey k 8) 4 4 = 0 → exec (.prbsCheckerLock l compared errs) s = .next s) ∧
    (x.prbs = true → ∃ n t, 64 ≤ n ∧ n ≤ 1024 ∧ exec (.prbsRelock l) s = .next t ∧ t.lane k = { x with prbs := false } ∧ t.bit (q + 0x10) 1 = true ∧
      (t.reg (laneKey k 0x10)).toNat = min (2 ^ 32 - 1) ((s.reg (laneKey k 0x10)).toNat + 64) ∧ t.reg64 (laneKey k 0x14) = s.reg64 (laneKey k 0x14) + BitVec.ofNat 64 n) ∧
    (x.prbs = false → exec (.prbsRelock l) s = .next s) ∧
    (s.mayWrite who (laneKey k 0x0C) = true → exec (.injectOne who l) s = .next ((if s.fld (laneKey k 8) 0 4 ≠ 0 then s.send (.inverted k) else s).answerCtl 0)) ∧
    (s.mayWrite who (laneKey k 0x20) = true →
      exec (.scanStart who l) s = .next ((s.setLane k { x with scan := true }).answerCtl 0) ∧
      (x.scan = true → x.nextScan = none → exec (.scanStop who l count) s = .next (ended.answerCtl 0)) ∧
      (x.scan = false → exec (.scanStop who l count) s = .next (s.answerCtl 0))) ∧
    (x.scan = true → x.nextScan = none → exec (.scanDone l count) s = .next (ended.raiseIrq q 4)) ∧ (x.scan = false → exec (.scanDone l count) s = .next s) ∧
    (s.mayWrite who (laneKey k 0x28) = true → exec (.lqSlip who l) s = .next ((s.setLane k { x with slip := true }).answerCtl 0)) ∧
    (exec (.rxSlip l) s = .next (if s.bit (laneKey k 0) 2 then s.setLane k { x with slip := true } else s)) ∧
    (x.slip = true → exec (.bitSlip l) s = .next ((s.setLane k { x with slip := false, rxDrop := x.rxDrop + 1 }).setReg (laneKey k 0x2C) (BitVec.ofNat 32 ((s.fld (laneKey k 0x2C) 0 8 + 1) % 256)))) ∧
    (x.slip = false → exec (.bitSlip l) s = .next s) ∧
    (x.lock = true → exec (.lockLost l) s = .next ((s.setLane k { x with lock := false, prbs := false }).raiseIrq q 1)) ∧ (x.lock = false → exec (.lockLost l) s = .next s) ∧
    (x.st = .on → exec (.clockRecoveryLock l) s = .next ((s.setLane k { x with lock := true, rxTail := [], rxDrop := 0 }).setReg (laneKey k 0x2C) 0)) ∧ (x.st ≠ .on → exec (.clockRecoveryLock l) s = .next s)

/-- Serial lanes: their states, and their test patterns. -/
def Obligations.Lanes : Prop :=
  Claims.LaneStates ∧ Claims.LanePatterns

/-- Ethernet links and reception (13 R401, R409, R410, R417 to R419; 14 R461; 16 R499): a MODE that changes takes every sub-port down and restarts the port's unclaimed lanes; a link that comes up or goes down is shown, raised and enters the readiness map; a bad frame is counted by its first
fault; a good one that no filter matches is counted and dropped, one beyond MAX_SDU is counted and dropped, and one that its filter passes goes to DEST: the Ublexia engines keep it, with
the time of its arrival, until they judge it. -/
def Claims.FrameReception : Prop :=
  ∀ (s : State) (who : Party) (p : PortId) (sub : Fin 4) (mode : BitVec 3) (f : RxFrame), s.inReset = false →
    let n := portNo p
    let u := sub.val
    let mac := macPage n
    let tsn := tsnPage n
    let max_ := s.fld (mac + 0x40) 8 14
    let receive (ok : Bool) (fec : LineEcc) (t : State) : Prop := exec (.frameReceive p sub f ok fec) s = .next t
    let good : State := s.incWrap (ethKey n u 0)
    let filter (i : Nat) := s.entry128 (filterKey n i)
    let serves := u < modeSubs (s.mode n) ∧ s.bit (mac + 0x40) (4 + u) = true ∧ ∀ j < 4, modeSub (s.mode n) j = some u → s.bit (laneKey (n * 4 + j) 0) 2 = false
    (s.mayWrite who (mac + 0x40) = true →
      (mode.toNat = s.mode n → mode ≠ 7 → exec (.modeChange who p mode) s = .next (s.answerCtl 0)) ∧
      (mode.toNat ≠ s.mode n → mode ≠ 7 → ∃ t : State, exec (.modeChange who p mode) s = .next (t.answerCtl 0) ∧ t.mode n = mode.toNat ∧ t.fld (mac + 0x44) 0 8 = 0 ∧
        ∀ j < 4, s.bit (laneKey (n * 4 + j) 0) 2 = false → (t.lane (n * 4 + j)).lock = false ∧ ((s.lane (n * 4 + j)).want = 0 → (t.lane (n * 4 + j)).moving = true))) ∧
    (serves → exec (.ethLinkUp p sub false) s = .next ((((s.setFld (mac + 0x44) u 1 1).setFld (mac + 0x44) (4 + u) 1 (if s.mode n = 6 ∧ s.bit (mac + 0x40) 3 = true then 0 else 1)).raiseIrq mac 1).dataLink)) ∧
    (¬ serves → exec (.ethLinkUp p sub false) s = .next s) ∧
    (exec (.ethLinkUp p sub true) s = .next (((s.setFld (mmacPage + 0x44) 0 1 1).raiseIrq mmacPage 1).setReady 15 true)) ∧
    (s.bit (mac + 0x44) u = true → exec (.ethLinkDown p sub false) s = .next ((((s.setFld (mac + 0x44) u 1 0).setFld (mac + 0x44) (4 + u) 1 0).raiseIrq mac 2).dataLink)) ∧
    (s.bit (mac + 0x44) u = false → exec (.ethLinkDown p sub false) s = .next s ∧ ∀ ok fec, receive ok fec s) ∧
    (s.bit (mmacPage + 0x44) 0 = true → exec (.ethLinkDown p sub true) s = .next (((s.setFld (mmacPage + 0x44) 0 1 0).raiseIrq mmacPage 2).setReady 15 false)) ∧
    (s.bit (mac + 0x44) u = true → s.jtag = .idcode →
      (∀ ok, receive ok .uncorrectable ((s.incSat (ethKey n u 0x1C)).raiseIrq mac 4)) ∧
      (f.len < 64 ∨ max_ < f.len → ∀ ok, receive ok .clean (s.incSat (ethKey n u 8))) ∧
      (64 ≤ f.len → f.len ≤ max_ →
        receive false .clean (s.incSat (ethKey n u 4)) ∧ (f.pause = true → receive true .clean (s.incWrap (ethKey n u 0x0C))) ∧
        (f.pause = false → f.sci = none → f.ptp = true → receive true .clean (good.send (.handed p 3 0 f))) ∧
        (f.pause = false → f.sci = none → f.ptp = false → (∀ i < 256, filterMatches (filter i) f 0 = false) → receive true .clean (good.incSat (tsn + 0x7C))) ∧
        (f.pause = false → f.sci = none → f.ptp = false → ∀ i < 256, filterMatches (filter i) f 0 = true → (∀ j < i, filterMatches (filter j) f 0 = false) →
          let x := filter i
          let c := tsn + 0x2000 + 16 * i
          (bits x 118 8 ≠ 0 → bits x 118 8 * 64 < f.len → receive true .clean ((good.incWrap c).incWrap (c + 8))) ∧
          (bits x 118 8 = 0 → bits x 103 1 = 0 → bits x 110 1 = 0 → bits x 111 3 = 1 → ∃ t, receive true .clean t ∧ t.sent = s.sent ∧
            t.ubxIn = s.ubxIn ++ [{ port := p, mgmt := false, chan := BitVec.ofNat 8 (s.frameTenant (bits x 88 8) f.dst), src := f.src, stamp := s.rxStamp, len := f.len, bytes := f.payload }] ∧
            t.reg c = s.reg c + 1 ∧ t.reg (c + 4) = s.reg (c + 4) + 1 ∧ t.reg (c + 8) = s.reg (c + 8) ∧ t.reg (c + 12) = s.reg (c + 12)))))

/-- Meters, recovery and MACsec numbers (13 R418, R419; 14 R461): a frame passes green on the committed bucket, else yellow on the excess bucket, else it is red; every 1,024 ns each bucket gains its rate up to its size; a recovery function passes each
number once, and its reset, RESET us after the last frame that passed, lets the next frame pass; a packet number more than the window behind the highest is refused, and a higher one is taken. -/
def Claims.MetersAndRecovery : Prop :=
  (∀ (q : Port) (g n : Nat) (drop : Bool),
    let c := Sparse.get (fun _ => 0) q.committed g
    let e := Sparse.get (fun _ => 0) q.excess g
    (n * 15625 ≤ c → q.meter g n drop = (true, { q with committed := Sparse.put (fun _ => 0) q.committed g (c - n * 15625) })) ∧
    (c < n * 15625 → n * 15625 ≤ e → q.meter g n drop = (!drop, { q with excess := Sparse.put (fun _ => 0) q.excess g (e - n * 15625) })) ∧
    (c < n * 15625 → e < n * 15625 → q.meter g n drop = (false, q))) ∧
  (∀ (s : State) (p : PortId) (r : Fin 64), s.inReset = false →
    let n := portNo p
    (s.time.toNat % 1024 ≠ 0 → exec (.meterCredit p) s = .next s) ∧
    (s.time.toNat % 1024 = 0 → ∃ t, exec (.meterCredit p) s = .next t ∧ t.regs = s.regs ∧ ∀ g < 128,
      let x := s.entry128 (meterKey n g)
      Sparse.get (fun _ => 0) (t.port n).committed g = min (bits x 64 24 * 15625) (Sparse.get (fun _ => 0) (s.port n).committed g + 2 * bits x 0 32) ∧
      Sparse.get (fun _ => 0) (t.port n).excess g = min (bits x 88 24 * 15625) (Sparse.get (fun _ => 0) (s.port n).excess g + 2 * bits x 32 32)) ∧
    (let due := (Sparse.get (fun _ => History.empty) (s.port n).seen r.val).since.toNat + max 1 (s.fld (recoveryKey n r.val) 8 24) * 1000
     (due ≤ s.time.toNat → exec (.recoveryReset p r) s = .next (s.setPort n { s.port n with seen := Sparse.put (fun _ => History.empty) (s.port n).seen r.val History.empty })) ∧
     (s.time.toNat < due → exec (.recoveryReset p r) s = .next s))) ∧
  (∀ (h : Nat) (q q' : BitVec 16) (t0 t1 t2 : Dword), 2 ≤ h → ∃ x, History.empty.judge h q t0 = some x ∧ x.since = t0 ∧ x.judge h q t1 = none ∧
    ((q' = q + 1 ∨ q' = q - 1) → ∃ y, x.judge h q' t1 = some y ∧ y.since = t1 ∧ y.judge h q' t2 = none ∧ y.judge h q t2 = none)) ∧
  (∀ (c : RxChan) (now w high pn : Nat) (an : BitVec 2), c.cur = some (an, high) →
    (high + 1 ≤ pn + w → c.take now w an pn = some { c with cur := some (an, max high pn) }) ∧ (pn + w < high + 1 → c.take now w an pn = none))

/-- Transmission and gates (13 R413, R414, R416, R420): with no gates the head frame of the highest class starts, lasts as long as its bytes take, and is counted; a closed link sends nothing; SWAP sets the change time to the first cycle start of the new list at least 1 us away, and
the list changes there; verification sets preemption active or raises PREEMPT_FAIL. -/
def Claims.FrameTransmission : Prop :=
  (∀ (base cycle now : Nat), 0 < cycle →
    let t := changeTime base cycle now
    (∃ k, t = base + k * cycle) ∧ now + 1000 ≤ t ∧ (∀ k, now + 1000 ≤ base + k * cycle → t ≤ base + k * cycle)) ∧
  (∀ (s : State) (who : Party) (p : PortId) (sub : Fin 4) (ok : Bool), s.inReset = false →
    let n := portNo p
    let u := sub.val
    let tsn := tsnPage n
    let bank := 1 - s.operBank n
    let tc := changeTime (s.gateBase n bank) (s.gateCycle n bank) s.time.toNat
    (s.bit (macPage n + 0x44) u = false → exec (.frameTransmit p sub) s = .next s) ∧
    (∀ f rest, s.bit (macPage n + 0x44) u = true → s.bit (tsn + 0x40) 0 = false → s.bit (tsn + 0x44) 2 = false → s.sendingOn n u = none → s.txq n u = f :: rest → (∀ g ∈ rest, g.cls ≤ f.cls) → f.gone = 0 →
      s.macsecTx f.tenant.toNat = false → ∃ t, exec (.frameTransmit p sub) s = .next t ∧ t.txq n u = rest ∧ t.sent = s.sent ++ [.wire p u f f.len] ∧
        t.reg (ethKey n u 0x10) = s.reg (ethKey n u 0x10) + 1 ∧
        Sparse.get (fun _ => none) (t.port n).sending u = some ⟨f, s.time.toNat, s.time.toNat + ceilDiv (ceilDiv (8 * f.len * 1024) (modeRate (s.mode n))) 1024, f.len, false⟩) ∧
    (s.bit (macPage n + 0x44) u = true → s.bit (tsn + 0x40) 0 = false → s.sendingOn n u = none → s.txq n u = [] → exec (.frameTransmit p sub) s = .next s) ∧
    (s.mayWrite who (tsn + 0x70) = true →
      ((s.port n).swapAt = none → exec (.tsnSwap who p) s = .next (((s.setPort n { s.port n with swapAt := some (BitVec.ofNat 64 tc) }).setFld (tsn + 0x44) 1 1 1).answerCtl 0)) ∧
      ((s.port n).swapAt ≠ none → exec (.tsnSwap who p) s = .next ((s.clampAt tsn 0x70).answerCtl 0))) ∧
    (∀ at_, (s.port n).swapAt = some at_ →
      (at_.toNat ≤ s.time.toNat → exec (.gateListChange p) s = .next (((s.setPort n { s.port n with swapAt := none }).setFld (tsn + 0x44) 0 2 bank).raiseIrq tsn 1)) ∧
      (s.time.toNat < at_.toNat → exec (.gateListChange p) s = .next s)) ∧
    ((s.port n).swapAt = none → exec (.gateListChange p) s = .next s) ∧
    (s.bit (tsn + 0x40) 1 = true → exec (.verificationEnd p ok) s = .next (if ok then s.setFld (tsn + 0x44) 2 1 1 else (s.setFld (tsn + 0x44) 2 1 0).raiseIrq tsn 4)) ∧
    (s.bit (tsn + 0x40) 1 = false → exec (.verificationEnd p ok) s = .next s))

/-- Ethernet links and reception, meters, the recovery function, gates and transmission. -/
def Obligations.FrameReception : Prop :=
  Claims.FrameReception ∧ Claims.MetersAndRecovery ∧ Claims.FrameTransmission

/-- Device time (13 R421 to R424, R430): SRC 0 makes time READY at once; the first lock steps device time by an offset beyond 1 us, a later one does not; losing the source enters holdover; a PPS edge keeps its device time and, as the source, counts the second; PPS_OUT rises at a whole
second; a time read gives the low word. -/
def Claims.TimeCommands : Prop :=
  ∀ (s : State) (who : Party) (die : Fin 28) (offset : Int), s.inReset = false →
    let pg := timePage 24
    let k := pg + 0x44
    let src := s.fld (pg + 0x40) 0 2
    let lockd (t : State) : Prop := t.bit k 0 = true ∧ t.bit k 1 = true ∧ t.fld k 4 2 = src ∧ t.bit k 3 = s.bit k 3 ∧ t.bit (pg + 0x10) 0 = true ∧ t.reg (pg + 0x50) = BitVec.ofInt 32 (max (-2147483648) (min 2147483647 offset)) ∧
      t.bit (govPage + 0x70) 1 = true ∧ (src = 1 → t.bit (pg + 0x68) 2 = true) ∧ (src ≠ 1 → t.fld (pg + 0x68) 0 2 = 3)
    (src = 0 → exec (.timeLock offset) s = .next ((s.setFld k 0 1 1).setReady 1 true)) ∧
    (src ≠ 0 → s.bit k 0 = false → 1000 < offset.natAbs → ∃ t, exec (.timeLock offset) s = .next t ∧ lockd t ∧ t.time = s.time - BitVec.ofInt 64 offset ∧ t.bit k 6 = true) ∧
    (src ≠ 0 → s.bit k 0 = true ∨ offset.natAbs ≤ 1000 → ∃ t, exec (.timeLock offset) s = .next t ∧ lockd t ∧ t.time = s.time ∧ t.bit k 6 = s.bit k 6) ∧
    (src = 0 → exec .holdoverEntry s = .next s) ∧
    (src = 1 → exec .holdoverEntry s = .next ((s.setFld (pg + 0x68) 2 1 0).holdover)) ∧
    (2 ≤ src → ∃ x, x < 3 ∧ exec .holdoverEntry s = .next ((({ s with freeCtr := s.freeCtr + 1 }).setFld (pg + 0x68) 0 2 x).holdover)) ∧
    s.holdover.bit k 1 = false ∧ s.holdover.bit k 2 = true ∧ s.holdover.bit (pg + 0x10) 1 = true ∧ s.holdover.time = s.time ∧ s.holdover.cores = s.cores ∧
    (src ≠ 0 → exec .timeFault s = .next ((s.setFld k 3 1 1).raiseIrq pg 4)) ∧ (src = 0 → exec .timeFault s = .next s) ∧
    (src = 2 → exec .ppsInEdge s = .next (((s.setReg64 (pg + 0x60) s.time).setFld (pg + 0x68) 1 1 1).inc64 (pg + 0x58))) ∧
    (src ≠ 2 → exec .ppsInEdge s = .next ((s.setReg64 (pg + 0x60) s.time).setFld (pg + 0x68) 1 1 1)) ∧
    (s.bit (pg + 0x40) 7 = true → (s.time.toNat + 5) % 1000000000 ≤ 10 → exec .ppsOutRise s =
      .next { s.send (.pin .ppsOut 1) with ppsUntil := some (s.time + BitVec.ofNat 64 (s.fld (pg + 0x40) 16 8 * 1000000)) }) ∧
    (s.bit (pg + 0x40) 7 = false → exec .ppsOutRise s = .next s) ∧
    (s.mayRead who (timePage die.val + 0x48) = true → ∃ t : State, exec (.timeNowRead who die) s = .next (t.answerCtl 0 ((s.time.setWidth 32).setWidth 64)) ∧ t.time = s.time ∧ t.cores = s.cores)

/-- With no command waiting a step lets one nanosecond of device time pass (assumption 2, the model's choice): flits that wait may move on, reefs under way go on, a PPS_OUT pulse may end, and nothing else; in
reset nothing moves. -/
def Claims.IdleStep : Prop :=
  ∀ (s : State), s.pending = [] →
    let quiet : Prop := (∀ p ∈ s.cores, p.2.sw.held = [] ∧ p.2.sw.gs = []) ∧ (∀ p ∈ s.taps, p.2.sw.held = []) ∧ s.reefs = []
    (s.inReset = true → step s = .next s) ∧
    (s.inReset = false → ∃ t, step s = .next t ∧ t.time = s.time + 1 ∧ t.pending = []) ∧
    (s.inReset = false → quiet → s.ppsUntil ≠ some (s.time + 1) → step s = .next { s with time := s.time + 1 }) ∧
    (s.inReset = false → quiet → s.ppsUntil = some (s.time + 1) → step s = .next { s with time := s.time + 1, ppsUntil := none, sent := s.sent ++ [.pin .ppsOut 0] })

/-- Device time and a step with no command waiting. -/
def Obligations.DeviceTime : Prop :=
  Claims.TimeCommands ∧ Claims.IdleStep

/-- Discards of the home engine (14 R434, R436, R438): a malformed frame, one whose TENANT is not that of its channel, a wrong VERSION and a SESSION that is not current are dropped in that order, each counted in UBX_RX_DROP with its code in UBX_LAST_DROP, and nothing
else happens; on a data port a frame that FRAME_RECEIVE has not passed on reaches no engine. -/
def Claims.FrameDiscards : Prop :=
  ∀ (s : State) (f : UFrame) (i : Instr), i ∈ [Instr.hello f, .cmd f, .ubxAck f] → s.inReset = false →
    let t := if f.mgmt then 255 else f.chan.toNat
    -- the frame, taken from those that FRAME_RECEIVE has passed on
    let s0 : State := if f.mgmt then s else { s with ubxIn := s.ubxIn.erase f }
    let b (o n : Nat) : Nat := beFld f.bytes o n
    let x := (s.tenant t).sess
    let drop (code : Word) : Prop := exec i s = .next (((s0.incSat (s.ubx t 0x6C)).setReg (s.ubx t 0x70) code).raiseIrq (edgePage (s.tenant t).res.home.val 0xF030) 4)
    (f.mgmt = false → f ∉ s.ubxIn → exec i s = .next s) ∧
    (f.mgmt = false → f ∈ s.ubxIn → (s.tenant t).live = false → exec i s = .next s0) ∧
    (f.mgmt = true ∨ (f ∈ s.ubxIn ∧ (s.tenant t).live = true) →
    ((f.bytes.length < 24 ∨ f.bytes.length < 24 + b 20 2 ∨ (x.st ≠ .none ∧ x.maxFrame < f.len) ∨ b 1 1 = 0 ∨ 8 ≤ b 1 1 ∨ 2 ≤ b 2 1 ∨ b 16 4 ≠ 0 ∨ b 22 2 ≠ 0 ∨
      ((b 1 1 = 1 ∨ b 1 1 = 4) ∧ b 8 4 ≠ 0) ∨ (b 1 1 = 1 ∧ (b 4 4 ≠ 0 ∨ b 20 2 ≠ 8 ∨ b 26 2 ≠ 0 ∨ b 30 2 ≠ 0))) → drop 0x5005) ∧
    (s0.ubxMalformed t f = false →
      (b 3 1 ≠ t → drop 0x5003) ∧
      (b 3 1 = t → b 1 1 ≠ 1 → x.st ≠ .none → b 0 1 ≠ x.version.toNat → drop 0x5001) ∧
      (b 3 1 = t → b 1 1 ≠ 1 → x.st ≠ .none → b 0 1 = x.version.toNat → b 4 4 ≠ x.id.toNat → drop 0x5002) ∧
      (b 3 1 = t → b 1 1 ≠ 1 → x.st = .none → drop 0x5002)))

/-- A HELLO that passes the checks (14 R435, R437): with no common version it is answered UCP_VERSION and the session stays; with a READY generator it opens a session with a nonzero SESSION, E and the device sequence at 1 and the lowest MAX_FRAME, never below 1,518, and HELLO_REPLY leaves; commands
accepted before run on. -/
def Claims.SessionOpens : Prop :=
  ∀ (s : State) (f : UFrame) (i : Instr), i ∈ [Instr.hello f, .cmd f, .ubxAck f] → s.inReset = false →
    let t := if f.mgmt then 255 else f.chan.toNat
    -- the frame, taken from those that FRAME_RECEIVE has passed on; on the management port its last bit arrives now
    let s0 : State := if f.mgmt then s else { s with ubxIn := s.ubxIn.erase f }
    let g : UFrame := if f.mgmt then { f with stamp := s.time } else f
    let b (o n : Nat) : Nat := beFld f.bytes o n
    let x := (s.tenant t).sess
    let ports := if f.mgmt then [s.fld (mmacPage + 0x40) 8 14] else (s.tenant t).res.ports.map (fun p => s.fld (macPage (portNo p) + 0x40) 8 14)
    f.mgmt = true ∨ (f ∈ s.ubxIn ∧ (s.tenant t).live = true) → s0.ubxMalformed t g = false → b 3 1 = t → b 1 1 = 1 →
    (¬ (b 24 1 ≤ 1 ∧ 1 ≤ b 25 1) → ∃ u d, exec i s = .next u ∧ (u.tenant t).sess = x ∧ (u.tenant t).cmds = (s.tenant t).cmds ∧
      s0.leaves u t { x with host := f.src, port := f.port, mgmt := f.mgmt } 2 0 ([0x50, 0x01] ++ d)) ∧
    (b 24 1 ≤ 1 → 1 ≤ b 25 1 → s.sec.ready = false → ∃ u d, exec i s = .next u ∧ (u.tenant t).sess = x ∧ (u.tenant t).cmds = (s.tenant t).cmds ∧
      s0.leaves u t { x with host := f.src, port := f.port, mgmt := f.mgmt } 2 0 ([0x60, 0x02] ++ d)) ∧
    (b 24 1 ≤ 1 → 1 ≤ b 25 1 → s.sec.ready = true → x.unack = [] → ∃ u, ∃ y : Session, exec i s = .next u ∧ (u.tenant t).sess = y ∧ (u.tenant t).cmds = (s.tenant t).cmds ∧ (u.tenant t).replies = (s.tenant t).replies ∧
      y.st = .open_ ∧ y.id ≠ 0 ∧ y.version = 1 ∧ y.expect = 1 ∧ y.txSeq = 1 ∧ y.unack = [] ∧ y.host = f.src ∧ y.port = f.port ∧ y.mgmt = f.mgmt ∧
      1518 ≤ y.maxFrame ∧ (∀ m ∈ b 28 2 :: ports, y.maxFrame ≤ max 1518 m) ∧ y.maxFrame ∈ 1518 :: b 28 2 :: ports ∧
      y.creditInit = s.fld (s.ubx t 0x58) 0 7 ∧ y.ending = false ∧ y.credit = BitVec.ofNat 32 (s.fld (s.ubx t 0x58) 0 7 - (s.tenant t).slotsUsed) ∧ u.bit (edgePage (s.tenant t).res.home.val 0xF030 + 0x10) 0 = true ∧
      s0.leaves u t y 2 0 ([0, 0, 1, 1] ++ beBytes 2 y.maxFrame ++ [0, 0, 0, 0, 0, 1]))

/-- The commands of a body (14 R442, R445): an empty body holds none; a command in front of a rest is that command before the rest's; a wrong flag, a nonzero reserved field, a run past the end and nonzero padding make the body malformed. -/
def Claims.CommandBodies : Prop :=
  ∀ (sess seq id : BitVec 32) (op : BitVec 16) (order : Bool) (args pad rest : List Byte) (fuel : Nat),
    args.length < 65536 → pad.length < 4 → (args.length + pad.length) % 4 = 0 →
    let head (flags z1 z2 : Nat) : List Byte := beBytes 2 op.toNat ++ beBytes 1 flags ++ beBytes 1 z1 ++ beBytes 4 id.toNat ++ beBytes 2 args.length ++ beBytes 2 z2
    let c : QCmd := { sess := sess, seq := seq, op := op, order := order, id := id, args := args, started := false }
    parseCmds sess seq fuel [] = some [] ∧
    ((∀ x ∈ pad, x = 0) → parseCmds sess seq (fuel + 1) (head (b2n order) 0 0 ++ args ++ pad ++ rest) = (parseCmds sess seq fuel rest).map (c :: ·)) ∧
    ((∃ x ∈ pad, x ≠ 0) → parseCmds sess seq (fuel + 1) (head (b2n order) 0 0 ++ args ++ pad ++ rest) = none) ∧
    (∀ k, 2 ≤ k → k < 256 → parseCmds sess seq (fuel + 1) (head k 0 0 ++ args ++ pad ++ rest) = none) ∧
    (∀ k, 1 ≤ k → k < 256 → parseCmds sess seq (fuel + 1) (head (b2n order) k 0 ++ args ++ pad ++ rest) = none) ∧
    (∀ k, 1 ≤ k → k < 65536 → parseCmds sess seq (fuel + 1) (head (b2n order) 0 k ++ args ++ pad ++ rest) = none) ∧
    (∀ k, k < 12 + args.length → 0 < k → parseCmds sess seq (fuel + 1) ((head (b2n order) 0 0 ++ args).take k) = none)

/-- Frames of the current session (14 R438 steps 6 to 12, R439, R440, R442): the ACK field frees the held frames that it covers; an ACK frame does no more; a repeat is acknowledged at once and counted; an early frame and one beyond CREDIT are dropped; the expected frame is recorded, raises E, and its
commands join the queue, unless the ring is full. -/
def Claims.SessionFrames : Prop :=
  ∀ (s : State) (f : UFrame) (i : Instr), i ∈ [Instr.hello f, .cmd f, .ubxAck f] → s.inReset = false →
    let t := if f.mgmt then 255 else f.chan.toNat
    -- the frame, taken from those that FRAME_RECEIVE has passed on; on the management port its last bit arrives now
    let s0 : State := if f.mgmt then s else { s with ubxIn := s.ubxIn.erase f }
    let g : UFrame := if f.mgmt then { f with stamp := s.time } else f
    let b (o n : Nat) : Nat := beFld f.bytes o n
    let x := (s.tenant t).sess
    let held := x.unack.filter (fun u => decide (0 < (u.seq - BitVec.ofNat 32 (b 12 4)).toInt))
    let s1 := s0.setTenant t { s.tenant t with sess := { x with unack := held, resends := if held.length = x.unack.length then x.resends else 0 } }
    let seq := BitVec.ofNat 32 (b 8 4)
    let d := (seq - x.expect).toInt
    let drop (code : Word) : State := ((s1.incSat (s.ubx t 0x6C)).setReg (s.ubx t 0x70) code).raiseIrq (edgePage (s.tenant t).res.home.val 0xF030) 4
    f.mgmt = true ∨ (f ∈ s.ubxIn ∧ (s.tenant t).live = true) → s0.ubxMalformed t g = false → b 3 1 = t → x.st = .open_ → b 0 1 = x.version.toNat → b 4 4 = x.id.toNat →
    (b 1 1 ≠ 1 → x.ending = true → held = [] → (s.tenant t).replies = [] → (s.tenant t).events = [] → (s.tenant t).progEvents = [] →
      exec i s = .next (s0.setTenant t { s.tenant t with sess := Session.closed })) ∧
    (x.ending = false → b 1 1 = 4 → exec i s = .next s1) ∧
    (x.ending = false → b 1 1 ≠ 1 → b 1 1 ≠ 3 → b 1 1 ≠ 4 → exec i s = .next (drop 0x5005)) ∧
    (x.ending = false → b 1 1 = 3 →
      (d < 0 → ∃ u, exec i s = .next u ∧ u.reg (s.ubx t 0x68) = s.reg (s.ubx t 0x68) + 1 ∧ (u.tenant t).sess = (s1.tenant t).speaks ∧ (u.tenant t).cmds = (s.tenant t).cmds ∧ (u.tenant t).ring = (s.tenant t).ring ∧
        (s1.incWrap (s.ubx t 0x68)).leaves u t (s1.tenant t).speaks 4 0 []) ∧
      (0 < d → ∃ u, exec i s = .next u ∧ u.reg (s.ubx t 0x70) = 0x5002 ∧ (u.tenant t).sess = (s1.tenant t).speaks ∧ (u.tenant t).cmds = (s.tenant t).cmds ∧ (u.tenant t).ring = (s.tenant t).ring ∧
        (drop 0x5002).leaves u t (s1.tenant t).speaks 4 0 []) ∧
      (d = 0 → 0 < (seq - (s.tenant t).creditNow).toInt → exec i s = .next (drop 0x5004)) ∧
      (d = 0 → (seq - (s.tenant t).creditNow).toInt ≤ 0 → t ≠ 255 → s.epochDue t = false →
        let rec_ := recordBytes 1 (s.tenant t).ring.seq g.stamp (f.bytes.take (24 + b 20 2))
        ((s.tenant t).ring.full = true ∨ (s.tenant t).ring.size < (s.tenant t).ring.used + rec_.length + 2 ^ 20 → ∃ u, exec i s = .next u ∧ (u.tenant t).sess = (s1.tenant t).sess ∧ (u.tenant t).cmds = (s.tenant t).cmds ∧
          u.reg (recKey (s.tenant t).res.home.val t 0x60) = BitVec.ofNat 32 (min 0xFFFFFFFF ((s.reg (recKey (s.tenant t).res.home.val t 0x60)).toNat + 1))) ∧
        ((s.tenant t).ring.full = false → (s.tenant t).ring.used + rec_.length + 2 ^ 20 ≤ (s.tenant t).ring.size → ∃ u, exec i s = .next u ∧ (u.tenant t).sess.expect = x.expect + 1 ∧ (u.tenant t).sess.unack = held ∧
          (u.tenant t).ring.seq = (s.tenant t).ring.seq + 1 ∧ u.reg (s.ubx t 0x64) = s.reg (s.ubx t 0x64) + 1 ∧ (b 2 1 = 0 → (u.tenant t).sess.ackDue = true ∧ u.sent = s.sent) ∧ (b 2 1 = 1 → (u.tenant t).sess.ackDue = false) ∧
          (∀ l, parseCmds x.id seq (b 20 2 / 12 + 1) (bytesAt f.bytes 24 (b 20 2)) = some l → (u.tenant t).cmds = (s.tenant t).cmds ++ l ∧ (u.tenant t).replies = (s.tenant t).replies) ∧
          (parseCmds x.id seq (b 20 2 / 12 + 1) (bytesAt f.bytes 24 (b 20 2)) = none → (u.tenant t).cmds = (s.tenant t).cmds ∧
            (u.tenant t).replies = (s.tenant t).replies ++ [{ sess := x.id, seq := seq, id := 0, op := 0, status := 0x5005, data := [] }]))))

/-- Frames that an engine judges: those it discards, the opening of a session, the frames of a session and the commands of their bodies. -/
def Obligations.FramesJudged : Prop :=
  Claims.FrameDiscards ∧ Claims.SessionOpens ∧ Claims.CommandBodies ∧ Claims.SessionFrames

/-- Frames that the device sends of itself (14 R440, R441, R443, R447, R456): the delayed ACK, the resend of every held frame and, after RETRIES, the LOST session; finished commands in one REPLY frame and pending events in one EVENT frame, each held under the next device SEQ; neither leaves
while 64 frames are held or the session does not send. -/
def Claims.DeviceFrames : Prop :=
  ∀ (s : State) (t8 : BitVec 8), s.inReset = false →
    let t := t8.toNat
    let tn := s.tenant t
    let x := tn.sess
    let sends := x.st = .open_ ∨ x.st = .closing
    let pg := edgePage tn.res.home.val 0xF030
    let retries := s.fld (pg + 0x44) 24 4
    let held (u : State) (k : Nat) (body : List Byte) : Prop := (u.tenant t).sess.txSeq = x.txSeq + 1 ∧ (u.tenant t).sess.unack = x.unack ++ [⟨k, x.txSeq, body⟩] ∧
      (u.tenant t).sess.expect = x.expect ∧ (u.tenant t).sess.ackDue = false ∧ s.leavesAfter u t (u.tenant t).sess k x.txSeq body
    (sends → x.ackDue = true → ∃ u, exec (.ackDelayExpiry t8) s = .next u ∧ (u.tenant t).sess = tn.speaks ∧ s.leaves u t tn.speaks 4 0 []) ∧
    (¬ (sends ∧ x.ackDue = true) → exec (.ackDelayExpiry t8) s = .next s) ∧
    (sends → ∀ r, x.unack = [r] → x.resends < retries → ∃ u, exec (.retransmitTimeout t8) s = .next u ∧ (u.tenant t).sess.resends = x.resends + 1 ∧ (u.tenant t).sess.unack = x.unack ∧
      u.reg (s.ubx t 0x74) = BitVec.ofNat 32 (min 0xFFFFFFFF ((s.reg (s.ubx t 0x74)).toNat + 1)) ∧ s.leavesAfter u t (u.tenant t).sess r.kind r.seq r.body) ∧
    (sends → x.unack ≠ [] → retries ≤ x.resends → exec (.retransmitTimeout t8) s = .next ((s.setTenant t { tn with sess := { x with st := .lost } }).raiseIrq pg 2)) ∧
    (¬ sends ∨ x.unack = [] → exec (.retransmitTimeout t8) s = .next s) ∧
    ((∀ c ∈ tn.cmds, c.started = false) → tn.nextCmd = none →
      (¬ sends ∨ 64 ≤ x.unack.length ∨ tn.replies = [] → exec (.commandComplete t8) s = .next s) ∧
      (sends → x.unack.length < 64 → ∀ r, tn.replies = [r] → ∃ u, exec (.commandComplete t8) s = .next u ∧ (u.tenant t).replies = [] ∧
        held u 5 (beBytes 4 r.id.toNat ++ beBytes 2 r.op.toNat ++ beBytes 2 r.status.toNat ++ beBytes 2 r.data.length ++ [0, 0] ++ r.data ++ List.replicate ((4 - r.data.length % 4) % 4) 0))) ∧
    (¬ sends ∨ 64 ≤ x.unack.length ∨ tn.events ++ tn.progEvents = [] → exec (.eventFrameBuild t8) s = .next s) ∧
    (sends → x.unack.length < 64 → ∀ r, tn.events ++ tn.progEvents = [r] → 66 + (tagBytes t).length + s.macsecBytes t ≤ x.maxFrame → tn.lostEvents = 0 → ∃ u, exec (.eventFrameBuild t8) s = .next u ∧ (u.tenant t).events = [] ∧ (u.tenant t).progEvents = [] ∧
      held u 6 (beBytes 2 r.code.toNat ++ beBytes 1 r.kind ++ [0] ++ beBytes 2 r.count ++ beBytes 2 r.x.toNat ++ beBytes 2 r.y.toNat ++ beBytes 2 r.src.toNat ++ beBytes 4 r.detail.toNat ++ beBytes 8 r.time.toNat))

/-- Tokens and program events (14 R451 to R453, R456): a GO with COUNT 0 or above 16 is a clamp; the home engine takes its pairs in order, dropping users above 4,095 and steps not above the user's highest, raises the highest of the others and records them; a token frame that a reef held
back leaves when the replay repeats its step; a page on another die forwards the GO; the
engine takes a program event while its queue of 64 has room. -/
def Claims.TokensAndEvents : Prop :=
  ∀ (s : State) (who : Party) (e : Fin 4) (t : Fin 64) (ch : Fin 4) (count : BitVec 5) (c : CoreId), s.inReset = false →
    let pg := edgePage e.val (0xF040 + t.val)
    let b := pg + 0x100 * (ch.val + 1)
    let tn := s.tenant t.val
    let n := count.toNat
    let go : Go := { e := e.val, ch := ch.val, step := s.reg64 b, pairs := (List.range n).map (fun i => (s.reg (b + 0x40 + 8 * i), s.reg (b + 0x44 + 8 * i))) }
    let counted := s.setFld (b + 0x0C) 0 16 (s.fld (b + 0x0C) 0 16 + 1)
    let high (m : State) (u : Nat) : Nat := Sparse.get (fun _ => 0) (m.tenant t.val).highest u
    let taken (g : Go) (r : State → Prop) (m : State) : Prop :=
      let p := edgePage g.e (0xF040 + t.val) + 0x100 * (g.ch + 1)
      let fresh (q : Word × Word) : Bool := decide (q.1.toNat ≤ 4095) && decide (high m q.1.toNat ≤ g.step.toNat)
      let keep := g.pairs.filter fresh
      let dup := (g.pairs.filter (fun q => decide (q.1.toNat ≤ 4095) && !fresh q)).length
      let bad := (g.pairs.filter (fun q => decide (4095 < q.1.toNat))).length
      let body := leBytes 8 g.step.toNat ++ leBytes 4 keep.length ++ (keep.map (fun q => leBytes 4 q.1.toNat ++ leBytes 4 q.2.toNat)).flatten
      let wire := beBytes 8 g.step.toNat ++ beBytes 4 keep.length ++ (keep.map (fun q => beBytes 4 q.1.toNat ++ beBytes 4 q.2.toNat)).flatten
      let again := g.pairs.filter (fun q => decide (q.1.toNat ≤ 4095) && !fresh q)
      -- repeats let the frames of their step leave that a reef has held back
      let m1 := ((m.incSat (p + 0x10) dup).incSat (p + 0x14) bad).unsuppress t.val g.step again
      let rec_ := recordBytes 3 tn.ring.seq s.time body
      (g.pairs.map (fun q => q.1)).Nodup → tn.replay = none →
      (keep = [] → r m1) ∧
      (s.epochDue t.val = false → tn.suppressed = [] →
      (keep ≠ [] → tn.ring.size < tn.ring.used + rec_.length → ∃ u, r u ∧ u.reg (p + 0x18) = BitVec.ofNat 32 (min 0xFFFFFFFF ((m1.reg (p + 0x18)).toNat + keep.length)) ∧ (u.tenant t.val).ring = { tn.ring with full := true } ∧ (u.tenant t.val).highest = tn.highest ∧
        (u.tenant t.val).sess = tn.sess) ∧
      (keep ≠ [] → tn.ring.used + rec_.length ≤ tn.ring.size → ∃ u, r u ∧ (u.tenant t.val).ring.seq = tn.ring.seq + 1 ∧ (u.tenant t.val).ring.used = tn.ring.used + rec_.length ∧
        u.lpddr = ringWrite s.lpddr tn.ring.base tn.ring.size tn.ring.head rec_ ∧ (∀ q, high u q = if q ∈ keep.map (fun x => x.1.toNat) then g.step.toNat + 1 else high m q) ∧
        (tn.sess.st = .open_ ∨ tn.sess.st = .closing → (u.tenant t.val).sess.tokSeq = tn.sess.tokSeq + 1 ∧ (u.tenant t.val).sess.txSeq = tn.sess.txSeq ∧ (u.tenant t.val).sess.unack = tn.sess.unack ∧ s.leavesAfter u t.val (u.tenant t.val).sess 7 tn.sess.tokSeq wire)))
    (s.mayWrite who (b + 8) = true →
      (n = 0 ∨ 16 < n → exec (.emitGo who e t ch count) s = .next ((s.clampAt pg (0x100 * (ch.val + 1) + 8)).answerCtl 0)) ∧
      (1 ≤ n → n ≤ 16 → tn.live = true → tn.res.home ≠ e → exec (.emitGo who e t ch count) s = .next ((counted.setTenant t.val { tn with goes := tn.goes ++ [go] }).answerCtl 0)) ∧
      (1 ≤ n → n ≤ 16 → tn.live = true → tn.res.home = e → taken go (fun u => exec (.emitGo who e t ch count) s = .next (u.answerCtl 0)) counted)) ∧
    (∀ (step : Dword) (again : List (Word × Word)), (s.unsuppress t.val step again).lpddr = s.lpddr ∧ ((s.unsuppress t.val step again).tenant t.val).highest = tn.highest ∧
      (∀ k, tn.suppressed = [k] → k.step = step → (∀ q ∈ k.pairs, q ∈ again) → tn.sess.st = .open_ → ((s.unsuppress t.val step again).tenant t.val).suppressed = [] ∧
        s.leavesAfter (s.unsuppress t.val step again) t.val ((s.unsuppress t.val step again).tenant t.val).sess 7 k.seq
          (beBytes 8 step.toNat ++ beBytes 4 k.pairs.length ++ (k.pairs.map (fun q => beBytes 4 q.1.toNat ++ beBytes 4 q.2.toNat)).flatten))) ∧
    (tn.goes = [] → exec (.goForward t) s = .next s) ∧
    (∀ g l, tn.goes = g :: l → taken g (fun u => exec (.goForward t) s = .next u) (s.setTenant t.val { tn with goes := l })) ∧
    (let k := coreNo c
     let y := s.tenant (s.niTenant k).toNat
     ((s.core k).events = [] ∨ y.live = false ∨ 64 ≤ y.progEvents.length → exec (.eventCodeTake c) s = .next s) ∧
     (∀ code l, s.tripped = false → (s.core k).events = code :: l → y.live = true → y.progEvents.length < 64 → exec (.eventCodeTake c) s = .next ((s.modCore k (fun d => { d with events := l })).setTenant (s.niTenant k).toNat
       { y with progEvents := y.progEvents ++ [{ code := code, kind := 1, count := 1, x := (s.eventXY k).1, y := (s.eventXY k).2, src := 0, detail := 0, time := s.time }] })))

/-- Frames that the device sends of itself, tokens and program events. -/
def Obligations.DeviceFrames : Prop :=
  Claims.DeviceFrames ∧ Claims.TokensAndEvents

/-- How commands of a tenant session start (08 R281, R284; 14 R443, R446 to R448): none while a position of the tenant is being reefed; the oldest command that has not started comes next, unless it has ORDER = 1 and an earlier one is left, or 64 device frames are held; a command of another OP changes nothing; arguments of the wrong length are answered UCP_MALFORMED; an OP
that no session takes ends UCP_UNSUPPORTED, an administration OP of a tenant session UCP_AUTH. -/
def Claims.CommandStarts : Prop :=
  (∀ (x : Tenant) (c : QCmd) (l : List QCmd), x.cmds = c :: l →
    (64 ≤ x.sess.unack.length → x.nextCmd = none) ∧
    (x.sess.unack.length < 64 → c.started = false → x.nextCmd = some c) ∧
    (x.sess.unack.length < 64 → c.started = true → ∀ d r, l = d :: r → d.started = false → d ≠ c → (d.order = false → x.nextCmd = some d) ∧ (d.order = true → x.nextCmd = none))) ∧
  (∀ (s : State) (t8 : BitVec 8), s.inReset = false →
    let t := t8.toNat
    let ops : List (Instr × Nat × List Nat) := [(.ubxNop t8, 0x01, [0]), (.close t8, 0x02, [0]), (.readMem t8, 0x12, [12]), (.ctrlRead t8, 0x14, [8]), (.loadRegion t8, 0x20, [16]), (.clearRegion t8, 0x21, [8]),
      (.unreserve t8, 0x31, [4]), (.filter t8, 0x32, [36]), (.checkpoint t8, 0x41, [0]), (.repatriate t8, 0x42, [4]), (.recordRead t8, 0x43, [8]), (.imageRead t8, 0x44, [16]), (.seedDraw t8, 0x50, [12]), (.attest t8, 0x60, [48])]
    ∀ p ∈ ops,
      ((∃ r ∈ s.reefs, r.t = t ∧ r.new.isSome = true) → exec p.1 s = .next s) ∧
      ((s.tenant t).nextCmd = none → exec p.1 s = .next s) ∧
      (∀ c, (s.tenant t).nextCmd = some c → c.op.toNat ≠ p.2.1 → exec p.1 s = .next s) ∧
      (∀ c, s.nextIs t c p.2.1 → c.args.length ∉ p.2.2 → exec p.1 s = .next (s.finish t c 0x5005 []))) ∧
  (∀ (s : State) (t8 : BitVec 8) (c : QCmd), s.inReset = false →
    let t := t8.toNat
    let code : BitVec 16 := if t ≠ 255 ∧ c.op.toNat / 256 = 1 then 0x5003 else 0x5006
    s.nextCmd t = some c → c.op = 0 ∨ (t ≠ 255 ∧ 0x61 ≤ c.op.toNat) → (∀ d ∈ (s.tenant t).cmds, d.started = false) → (s.tenant t).sess.st = .none →
      exec (.commandComplete t8) s = .next (s.finish t c code []))

/-- NOP, CLOSE, DELIVER, WRITE_MEM and CTRL_WRITE (14 R448, R449; 07 R262; 12 R379): DELIVER writes its bytes into every core of RECT that the tenant holds and reports the others; a core whose interface refuses the tenant, or that is removed, answers its code; WRITE_MEM writes scratchpad, window or fabric
RAM and nothing else; CTRL_WRITE obeys the register's own rules; each command produces one reply. -/
def Claims.HostWrites : Prop :=
  ∀ (s : State) (t8 : BitVec 8) (c : QCmd),
    let t := t8.toNat
    let tn := s.tenant t
    let l := c.args
    let b (o n : Nat) : Nat := beFld l o n
    let reach (x y : Nat) : Prop := tn.owns x y = true ∧ tenantOk (s.niTenant (s.physOf x y)) t8 = true ∧ s.markOf (s.physOf x y) ≠ .removed
    let ends (u : State) (st : BitVec 16) (data : List Byte) : Prop := (u.tenant t).cmds = tn.cmds.erase c ∧ (u.tenant t).replies = tn.replies ++ [⟨c.sess, c.seq, c.id, c.op, st, data⟩]
    let spad (u : State) (k a : Nat) (data : List Byte) : Prop := ∀ p, Memory.read (u.core k).spad p = if a ≤ p ∧ p < a + data.length then data.getD (p - a) 0 else Memory.read (s.core k).spad p
    (s.nextIs t c 0x01 → l = [] → exec (.ubxNop t8) s = .next (s.finish t c 0 [])) ∧
    (s.nextIs t c 0x02 → l = [] → ∃ u, exec (.close t8) s = .next u ∧ ends u 0 [] ∧ (u.tenant t).sess =
      if tn.sess.st = .none then tn.sess else { tn.sess with st := if tn.sess.st = .lost then .lost else .closing, ending := true }) ∧
    (tn.replay = none →
      (s.nextIs t c 0x10 →
        let r : Rect := ⟨b 0 2, b 2 2, b 4 2, b 6 2⟩
        let off := b 8 4
        let data := l.drop 16
        let fails := (rectCores [r]).filter (fun p => !tn.owns p.1 p.2)
        (r.xlo ≤ r.xhi ∧ r.xhi ≤ 383 ∧ r.ylo ≤ r.yhi ∧ r.yhi ≤ 127 ∧ off % 64 = 0 ∧ b 12 4 = 0 ∧ 24 ≤ l.length ∧ l.length ≤ 8208 ∧ l.length % 8 = 0) → off + data.length ≤ 2 ^ 20 →
          ((∀ p ∈ rectCores [r], tn.owns p.1 p.2 = true → reach p.1 p.2) → ∃ u d, exec (.deliver t8) s = .next u ∧ d.length = 4 ∧
            ends u (if fails = [] then 0 else if fails.length = (rectCores [r]).length then 0x3002 else 0x7005) (beBytes 4 fails.length ++ (match fails with | [] => d | p :: _ => beBytes 2 p.1 ++ beBytes 2 p.2)) ∧
            (∀ p ∈ rectCores [r], tn.owns p.1 p.2 = true → spad u (s.physOf p.1 p.2) off data) ∧
            (∀ k, (∀ p ∈ rectCores [r], tn.owns p.1 p.2 = true → s.physOf p.1 p.2 ≠ k) → u.core k = s.core k)) ∧
          (r.xlo = r.xhi → r.ylo = r.yhi → tn.owns r.xlo r.ylo = true → tenantOk (s.niTenant (s.physOf r.xlo r.ylo)) t8 = false → ∃ u, exec (.deliver t8) s = .next u ∧ ends u 0x3002 (beBytes 4 1 ++ beBytes 2 r.xlo ++ beBytes 2 r.ylo) ∧
            u.cores = s.cores ∧ u.reg (niPage (s.physOf r.xlo r.ylo) + 0x70) = BitVec.ofNat 32 (min 0xFFFFFFFF ((s.reg (niPage (s.physOf r.xlo r.ylo) + 0x70)).toNat + 1))) ∧
          (r.xlo = r.xhi → r.ylo = r.yhi → tn.owns r.xlo r.ylo = true → tenantOk (s.niTenant (s.physOf r.xlo r.ylo)) t8 = true → s.markOf (s.physOf r.xlo r.ylo) = .removed →
            exec (.deliver t8) s = .next (s.finish t c 0x7002 (beBytes 4 1 ++ beBytes 2 r.xlo ++ beBytes 2 r.ylo)))) ∧
      (s.nextIs t c 0x11 →
        let a := b 0 8
        let data := l.drop 8
        let o := offOf a
        8 ≤ l.length → l.length ≤ 8200 → l.length % 8 = 0 → memAddrOk a = true →
          (spaceOf a = 0 → reach (colOf a) (rowOf a) → o + data.length ≤ 2 ^ 20 → ∃ u, exec (.writeMem t8) s = .next u ∧ ends u 0 [] ∧ spad u (s.physOf (colOf a) (rowOf a)) o data ∧
            ∀ k, k ≠ s.physOf (colOf a) (rowOf a) → u.core k = s.core k) ∧
          (spaceOf a = 0 → tn.owns (colOf a) (rowOf a) = false → exec (.writeMem t8) s = .next (s.finish t c 0x3002 [])) ∧
          (spaceOf a = 1 → ∀ code, s.windowLines t o data.length = .error code → exec (.writeMem t8) s = .next (s.finish t c code [])) ∧
          (spaceOf a = 1 → ∀ pl, s.windowLines t o data.length = .ok [pl] → (s.chan (chanCo (pl * 64)).1).st = .active → (s.dirAt pl).txn = none → (∀ k line, (s.core k).rlbFind line = none) → s.lineLost (pl * 64) = false →
            Sparse.get (fun _ => false) s.lpoison pl = false → ∃ u, exec (.writeMem t8) s = .next u ∧ ends u 0 [] ∧ (∀ p, Memory.read u.lpddr p = if pl * 64 + o % 64 ≤ p ∧ p < pl * 64 + o % 64 + data.length then data.getD (p - (pl * 64 + o % 64)) 0 else Memory.read s.lpddr p)) ∧
          (spaceOf a = 1 → ∀ pl, s.windowLines t o data.length = .ok [pl] → (s.chan (chanCo (pl * 64)).1).st ≠ .active → (s.chan (chanCo (pl * 64)).1).st ≠ .offline → exec (.writeMem t8) s = .next s) ∧
          (spaceOf a = 1 → ∀ pl, s.windowLines t o data.length = .ok [pl] → (s.chan (chanCo (pl * 64)).1).st = .offline → exec (.writeMem t8) s = .next (s.finish t c 0x4001 [])) ∧
          (spaceOf a = 2 → s.framCode t (edgeOf a) o data.length true = 0 → ∃ u, exec (.writeMem t8) s = .next u ∧ ends u 0 [] ∧ ∀ p, Memory.read u.fram p =
            if framKey (edgeOf a) o ≤ p ∧ p < framKey (edgeOf a) o + data.length then data.getD (p - framKey (edgeOf a) o) 0 else Memory.read s.fram p) ∧
          (spaceOf a = 2 → s.framCode t (edgeOf a) o data.length true ≠ 0 → exec (.writeMem t8) s = .next (s.finish t c (s.framCode t (edgeOf a) o data.length true) []))) ∧
      (s.nextIs t c 0x13 → l.length = 16 →
        let x := b 0 2
        let y := b 4 2
        let k := corePage (s.physOf x y) (b 8 1) + b 10 2
        (b 2 2 = x ∧ x ≤ 383 ∧ b 6 2 = y ∧ y ≤ 127 ∧ b 8 1 ≤ 9 ∧ b 9 1 = 0 ∧ b 10 2 % 4 = 0 ∧ b 10 2 ≤ 0xFFF) → reach x y →
          (s.mayWrite (.runtime t8) k = true → ∃ u d, exec (.ctrlWrite t8) s = .next u ∧ d.length = 4 ∧ u = ({ (s.writeReg k (BitVec.ofNat 32 (b 12 4))) with freeCtr := (s.writeReg k (BitVec.ofNat 32 (b 12 4))).freeCtr + 1 }).finish t c 0 (beBytes 4 0 ++ d)) ∧
          (s.mayWrite (.runtime t8) k = false → exec (.ctrlWrite t8) s = .next (s.finish t c 0x3002 (beBytes 4 1 ++ beBytes 2 x ++ beBytes 2 y)))))

/-- Commands of a host: their start, and those that write. -/
def Obligations.HostWrites : Prop :=
  Claims.CommandStarts ∧ Claims.HostWrites

/-- READ_MEM and CTRL_READ (14 R448; 06 R191): the reply carries the bytes or the register's value; poison is MEM_UNCORRECTABLE, a core of another tenant NET_PARTITION; a read of COL_RDATA runs on until the collar answers. -/
def Claims.HostReads : Prop :=
  ∀ (s : State) (t8 : BitVec 8) (c : QCmd),
    let t := t8.toNat
    let tn := s.tenant t
    let l := c.args
    let b (o n : Nat) : Nat := beFld l o n
    let reach (x y : Nat) : Prop := tn.owns x y = true ∧ tenantOk (s.niTenant (s.physOf x y)) t8 = true ∧ s.markOf (s.physOf x y) ≠ .removed
    let ends (u : State) (st : BitVec 16) (data : List Byte) : Prop := (u.tenant t).cmds = tn.cmds.erase c ∧ (u.tenant t).replies = tn.replies ++ [⟨c.sess, c.seq, c.id, c.op, st, data⟩]
    (s.nextIs t c 0x12 → l.length = 12 →
      let a := b 0 8
      let len := b 8 4
      let o := offOf a
      let k := s.physOf (colOf a) (rowOf a)
      (memAddrOk a = false ∨ 8192 < len ∨ len % 8 ≠ 0 ∨ s.replyRoom t < len → exec (.readMem t8) s = .next (s.finish t c 0x5005 [])) ∧
      (memAddrOk a = true → len ≤ 8192 → len % 8 = 0 → len ≤ s.replyRoom t →
        (spaceOf a = 0 → tn.owns (colOf a) (rowOf a) = false → exec (.readMem t8) s = .next (s.finish t c 0x3002 [])) ∧
        (spaceOf a = 0 → reach (colOf a) (rowOf a) → o + len ≤ 2 ^ 20 → (s.core k).poisonedAt o len = false → ∃ u, exec (.readMem t8) s = .next u ∧ ends u 0 (Memory.readN (s.core k).spad o len) ∧ (u.core k).spad = (s.core k).spad) ∧
        (spaceOf a = 0 → reach (colOf a) (rowOf a) → o + len ≤ 2 ^ 20 → (s.core k).poisonedAt o len = true → ∃ u, exec (.readMem t8) s = .next u ∧ ends u 0x4001 [] ∧ (u.core k).spad = (s.core k).spad) ∧
        (spaceOf a = 1 → ∀ pl, s.windowLines t o len = .ok [pl] → (s.chan (chanCo (pl * 64)).1).st = .active → (s.dirAt pl).txn = none → (∀ j line, (s.core j).rlbFind line = none) → s.lineLost (pl * 64) = false →
          (Sparse.get (fun _ => false) s.lpoison pl = false → ∃ u, exec (.readMem t8) s = .next u ∧ ends u 0 (Memory.readN s.lpddr (pl * 64 + o % 64) len) ∧ u.lpddr = s.lpddr) ∧
          (Sparse.get (fun _ => false) s.lpoison pl = true → ∃ u, exec (.readMem t8) s = .next u ∧ ends u 0x4001 [] ∧ u.lpddr = s.lpddr)) ∧
        (spaceOf a = 2 → s.framCode t (edgeOf a) o len = 0 → exec (.readMem t8) s = .next (s.finish t c 0 (Memory.readN s.fram (framKey (edgeOf a) o) len))) ∧
        (spaceOf a = 2 → s.framCode t (edgeOf a) o len ≠ 0 → exec (.readMem t8) s = .next (s.finish t c (s.framCode t (edgeOf a) o len) [])))) ∧
    (s.nextIs t c 0x14 → l.length = 8 →
      let x := b 0 2
      let y := b 2 2
      let k := corePage (s.physOf x y) (b 4 1) + b 6 2
      (x ≤ 383 ∧ y ≤ 127 ∧ b 4 1 ≤ 9 ∧ b 5 1 = 0 ∧ b 6 2 % 4 = 0 ∧ b 6 2 ≤ 0xFFF) →
        (tn.owns x y = false → exec (.ctrlRead t8) s = .next (s.finish t c 0x3002 [])) ∧
        (reach x y → s.mayRead (.runtime t8) k = false → exec (.ctrlRead t8) s = .next (s.finish t c 0x3002 [])) ∧
        (reach x y → s.mayRead (.runtime t8) k = true → coversRdata k false = false → exec (.ctrlRead t8) s = .next ((s.readReg k).1.finish t c 0 (beBytes 4 (s.readReg k).2.toNat))) ∧
        (reach x y → s.mayRead (.runtime t8) k = true → coversRdata k false = true → s.mayWrite (.runtime t8) k = true → s.shrouded (s.physOf x y) = false → ∃ u, exec (.ctrlRead t8) s = .next u ∧
          (u.core (s.physOf x y)).colReads = (s.core (s.physOf x y)).colReads ++ [.cmd t8] ∧ (u.tenant t).cmds = tn.cmds.map (fun d => if d = c then { c with started := true } else d) ∧ (u.tenant t).replies = tn.replies))

/-- LOAD_REGION and CLEAR_REGION (14 R448, R450; 15 R472; 11 R367): the stream is read from the window; one whose CRC fails ends CFG_CRC; the others are pushed, and the command runs on with the digest of the stream as the host placed it; it ends with the halyard's code, or once every declared
region is RUNNING, which extends the measurement, or with the code of a FAILED one. CLEAR_REGION clears a collar or an edge region that the tenant holds. -/
def Claims.RegionCommands : Prop :=
  ∀ (s : State) (t8 : BitVec 8) (c : QCmd),
    let t := t8.toNat
    let tn := s.tenant t
    let b (o n : Nat) : Nat := beFld c.args o n
    let reply (st : BitVec 16) (data : List Byte) : Reply := ⟨c.sess, c.seq, c.id, c.op, st, data⟩
    (s.nextIs t c 0x20 → c.args.length = 16 → b 12 4 = 0 →
      let got := s.atLines t (b 0 8) (4 * b 8 4) (fun s ls => s.readWindow (b 0 8) (4 * b 8 4) ls)
      (s.portFree ⟨tn.res.home, false⟩ = false → exec (.loadRegion t8) s = .next s) ∧
      (s.portFree ⟨tn.res.home, false⟩ = true → got = none → exec (.loadRegion t8) s = .next s) ∧
      (s.portFree ⟨tn.res.home, false⟩ = true → ∀ v code bytes, got = some (v, code, bytes) →
        let l := (wordsOfBytes bytes).1
        (code ≠ 0 → exec (.loadRegion t8) s = .next (v.finish t c code [0, 0, 0, 0])) ∧
        (code = 0 → imageCrcOk l = false → exec (.loadRegion t8) s = .next (v.finish t c 0x1001 [0, 0, 0, 0])) ∧
        (code = 0 → imageCrcOk l = true → ∃ u rest, exec (.loadRegion t8) s = .next u ∧ (u.tenant t).replies = tn.replies ∧ (u.tenant t).measure = tn.measure ∧
          (u.tenant t).cmds = tn.cmds.map (fun d => if d = c then { c with started := true, args := beBytes 48 (Config.sha384 (((l.take (l.length - 1)).map (fun w => leBytes 4 w.toNat)).flatten)).toNat ++ rest } else d)))) ∧
    (s.inReset = false → tn.cmds = [c] → c.started = true → c.op = 0x20 → tn.sess.st = .none →
      let v := (s.reg (resKey ⟨tn.res.home, false⟩)).toNat
      let regions := (List.range ((c.args.length - 48) / 3)).map (fun i => b (48 + 3 * i) 3)
      let up := (regions.filter (fun r => decide ((s.region r).st = .running))).length
      (v % 4 = 2 → exec (.commandComplete t8) s = .next (s.finish t c (BitVec.ofNat 16 (v / 65536)) [0, 0, 0, 0])) ∧
      (v % 4 ≠ 2 → v % 4 ≠ 1 → exec (.commandComplete t8) s = .next s) ∧
      (v % 4 = 1 → (∀ r ∈ regions, (s.region r).st = .running) → ∃ u, exec (.commandComplete t8) s = .next u ∧ (u.tenant t).cmds = [] ∧ (u.tenant t).replies = tn.replies ++ [reply 0 (beBytes 4 regions.length)] ∧
        (u.tenant t).measure = Config.sha384 (beBytes 48 tn.measure.toNat ++ c.args.take 48) ∧ (u.tenant t).loads = tn.loads + 1 ∧ u.regions = s.regions) ∧
      (v % 4 = 1 → ∀ r ∈ regions, (s.region r).st = .failed → (∀ q ∈ regions, (s.region q).st = .failed → q = r) → exec (.commandComplete t8) s = .next (s.finish t c (s.region r).err (beBytes 4 up))) ∧
      (v % 4 = 1 → (∃ r ∈ regions, (s.region r).st ≠ .running) → (∀ r ∈ regions, (s.region r).st ≠ .failed) → exec (.commandComplete t8) s = .next s)) ∧
    (s.nextIs t c 0x21 → c.args.length = 8 → b 0 1 ≤ 1 → b 1 1 = 0 → b 6 2 = 0 →
      let x := b 2 2
      let y := b 4 2
      let k := s.physOf x y
      (b 0 1 = 0 → tn.owns x y = false → exec (.clearRegion t8) s = .next (s.finish t c 0x3002 [])) ∧
      (b 0 1 = 0 → tn.owns x y = true → tenantOk (s.niTenant k) t8 = true → s.markOf k ≠ .removed → exec (.clearRegion t8) s = .next ((s.shrClear (collarRegion k) 0x40).finish t c 0 [])) ∧
      (b 0 1 = 1 → (∀ r ∈ tn.res.regions, r.1.val * 16 + r.2.val ≠ x) → exec (.clearRegion t8) s = .next (s.finish t c 0x5007 [])) ∧
      (b 0 1 = 1 → ∀ r ∈ tn.res.regions, r.1.val * 16 + r.2.val = x → exec (.clearRegion t8) s = .next ((s.shrClear (edgeRegion r.1.val r.2.val) (0x100 + 0x20 * r.2.val)).finish t c 0 [])))

/-- Commands of a host: those that read, and those of regions. -/
def Obligations.HostReadsAndRegions : Prop :=
  Claims.HostReads ∧ Claims.RegionCommands

/-- RESERVE, UNRESERVE and FILTER (07 R243; 13 R429; 14 R448): a request whose ends the tenant does not both hold, whose path has no link or another number of links than slots, or one of whose slots is taken is refused with NET_RESERVATION and changes nothing; one that passes is live and answered; while a
swap is under way both wait; UNRESERVE of a stream not held is refused, another drops the stream and is answered after the swap; FILTER writes its entry under the tenant's id and meter on every port of the tenant. -/
def Claims.ReservationCommands : Prop :=
  ∀ (s : State) (t8 : BitVec 8) (c : QCmd),
    let t := t8.toNat
    let tn := s.tenant t
    let b (o n : Nat) : Nat := beFld c.args o n
    let ends (u : State) (st : BitVec 16) (data : List Byte) : Prop := (u.tenant t).cmds = tn.cmds.erase c ∧ (u.tenant t).replies = tn.replies ++ [⟨c.sess, c.seq, c.id, c.op, st, data⟩]
    (s.nextIs t c 0x30 → c.args.length = 16 + 2 * b 12 2 → b 0 1 ≠ 0 → b 1 1 = 0 → b 14 2 = 0 →
      let r : Reservation := ⟨BitVec.ofNat 8 (b 0 1), b 2 2, b 4 2, b 6 2, b 8 2, b 10 2, (List.range (b 12 2)).map (fun i => b (16 + 2 * i) 2), []⟩
      let path := s.copyBanks.streamPath r.sx r.sy r.dx r.dy
      (s.swapFree = false → exec (.reserve t8) s = .next s) ∧
      (s.swapFree = true → (tn.owns r.sx r.sy = false ∨ tn.owns r.dx r.dy = false ∨ r.fmin < 900 ∨ 2000 < r.fmin ∨ path = none ∨ path = some [] ∨ (∃ p, path = some p ∧ p.length ≠ r.slots.length) ∨
        (∃ p i x, path = some p ∧ p[i]? = some x ∧ s.copyBanks.slotTaken x.core x.out (r.slots.getD i 0) = true ∧ i < r.slots.length)) → exec (.reserve t8) s = .next (s.finish t c 0x3005 [])) ∧
      (s.swapFree = true → ∀ p, s.copyBanks.reserveOk t r = some p → ∃ u, exec (.reserve t8) s = .next u ∧ ends u 0 [] ∧ (u.tenant t).streams = tn.streams ++ [{ r with links := p }])) ∧
    (s.nextIs t c 0x31 → c.args.length = 4 → b 1 3 = 0 →
      ((∀ r ∈ tn.streams, r.stream.toNat ≠ b 0 1) → exec (.unreserve t8) s = .next (s.finish t c 0x5007 [])) ∧
      ((∃ r ∈ tn.streams, r.stream.toNat = b 0 1) → s.swapFree = false → exec (.unreserve t8) s = .next s) ∧
      ((∃ r ∈ tn.streams, r.stream.toNat = b 0 1) → s.swapFree = true → ∃ u, exec (.unreserve t8) s = .next u ∧ (u.tenant t).streams = tn.streams.filter (fun r => decide (r.stream.toNat ≠ b 0 1)) ∧
        (u.tenant t).cmds = tn.cmds.map (fun d => if d = c then { c with started := true } else d) ∧ (u.tenant t).replies = tn.replies)) ∧
    (s.inReset = false → tn.cmds = [c] → c.started = true → c.op = 0x31 → tn.sess.st = .none →
      (s.swapFree = false → exec (.commandComplete t8) s = .next s) ∧ (s.swapFree = true → ∃ u, exec (.commandComplete t8) s = .next u ∧ ends u 0 [] ∧ (u.tenant t).streams = tn.streams)) ∧
    (s.nextIs t c 0x32 → c.args.length = 36 → b 2 2 = 0 →
      let dest := b 4 16 / 2 ^ 111 % 8
      (tn.res.filters ≤ b 0 2 ∨ 2 < dest → exec (.filter t8) s = .next (s.finish t c 0x5007 [])) ∧
      (b 0 2 < tn.res.filters → dest ≤ 1 → tn.res.filterBase + tn.res.filters ≤ 256 → tn.res.meter < 128 → t < 64 → ∃ u, exec (.filter t8) s = .next u ∧ ends u 0 [] ∧ u.cores = s.cores ∧ u.lpddr = s.lpddr ∧
        ((∀ p ∈ tn.res.ports, (s.port (portNo p)).swapAt = none) → ∀ p ∈ tn.res.ports, ∃ x, u.entry128 (filterKey (portNo p) (tn.res.filterBase + b 0 2)) = x ∧ bits x 88 8 = t ∧ bits x 96 7 = tn.res.meter ∧ bits x 111 3 = dest)))

/-- Replay and records (08 R286, R287, R290, R293; 14 R448): REPLAY_DECLARE of cores not held is NET_PARTITION, else slot 0 of each core holds its scratchpad at step 0; CHECKPOINT replies S_c and turns the newer slot; REPATRIATE needs a REPATRIABLE original core and brings the position home, the spare idle with an empty collar; RECORD_READ gives
as many whole records as fit, none beyond one that cannot be read; IMAGE_READ gives the bytes of a slot. -/
def Claims.ReplayCommands : Prop :=
  ∀ (s : State) (t8 : BitVec 8) (c : QCmd),
    let t := t8.toNat
    let tn := s.tenant t
    let b (o n : Nat) : Nat := beFld c.args o n
    let ends (u : State) (st : BitVec 16) (data : List Byte) : Prop := (u.tenant t).cmds = tn.cmds.erase c ∧ (u.tenant t).replies = tn.replies ++ [⟨c.sess, c.seq, c.id, c.op, st, data⟩]
    (s.nextIs t c 0x40 → c.args.length = 32 → b 20 4 = 0 → b 16 4 + 32 ≤ 2 ^ 20 →
      let x := b 24 2
      let y := b 28 2
      b 26 2 = x → x ≤ 383 → b 30 2 = y → y ≤ 127 →
      (tn.owns x y = false → exec (.replayDeclare t8) s = .next (s.finish t c 0x3002 [])) ∧
      (tn.owns x y = true → tn.res.winSize * 2 ^ 20 < b 0 8 + b 8 8 → exec (.replayDeclare t8) s = .next (s.finish t c 0x3002 [])) ∧
      (tn.owns x y = true → b 0 8 + b 8 8 ≤ tn.res.winSize * 2 ^ 20 → ∃ u rp, exec (.replayDeclare t8) s = .next u ∧ ends u 0 [] ∧ (u.tenant t).replay = some rp ∧ rp.jbase = b 0 8 ∧ rp.jsize = b 8 8 ∧ rp.rb = b 16 4 ∧
        rp.domain = [⟨x, x, y, y⟩] ∧ rp.newer = 0 ∧ rp.log = [] ∧ rp.redo = [] ∧ (rp.slot x y 0).step = 0 ∧ (rp.slot x y 0).spad = (s.core (s.physOf x y)).spad)) ∧
    (s.nextIs t c 0x41 → c.args = [] →
      (tn.replay = none → exec (.checkpoint t8) s = .next (s.finish t c 0x5007 [])) ∧
      (∀ rp, tn.replay = some rp → (∀ r ∈ s.reefs, r.t = t → r.swapped = true) → ∃ u, exec (.checkpoint t8) s = .next u ∧ ends u 0 (beBytes 8 (s.lowestStep t rp)) ∧ ∃ rp', (u.tenant t).replay = some rp' ∧ rp'.newer = 1 - rp.newer)) ∧
    (s.nextIs t c 0x42 → c.args.length = 4 →
      let x := b 0 2
      let y := b 2 2
      let home := homeNo x y
      (tn.owns x y = false ∨ s.physOf x y = home ∨ s.markOf home ≠ .repatriable → exec (.repatriate t8) s = .next (s.finish t c 0x5007 [])) ∧
      (tn.owns x y = true → s.physOf x y ≠ home → s.markOf home = .repatriable → s.swapFree = false → exec (.repatriate t8) s = .next s) ∧
      (tn.owns x y = true → s.physOf x y ≠ home → s.markOf home = .repatriable → s.swapFree = true → ∃ u, exec (.repatriate t8) s = .next u ∧ ends u 0 [] ∧ u.markOf home = .serving ∧ u.markOf (s.physOf x y) = .idleSpare ∧
        ((s.region (collarRegion (s.physOf x y))).st = .running → (u.region (collarRegion (s.physOf x y))).st = .empty) ∧
        (s.reefs = [] → (s.region (collarRegion (s.physOf x y))).image = none → (s.region (collarRegion home)).st ≠ .loading → (s.region (collarRegion home)).st ≠ .releasing →
          (∀ p ∈ rectCores tn.res.rects, s.isFailed (s.physOf p.1 p.2) = false) → u.physOf x y = home))) ∧
    (s.nextIs t c 0x43 → c.args.length = 8 →
      let l := tn.ring.recs.filter (fun r => decide (0 ≤ (r.seq - BitVec.ofNat 32 (b 0 4)).toInt))
      let good := l.takeWhile (s.readable tn.ring)
      let bytes (k : Nat) : List Byte := ((good.take k).map (fun x => ringRead s.lpddr tn.ring.base tn.ring.size x.off x.size)).flatten
      let size (k : Nat) : Nat := ((good.take k).map (fun x => x.size)).sum
      let room := min (b 4 4) (s.replyRoom t)
      (∀ x r, l = x :: r → s.readable tn.ring x = false → exec (.recordRead t8) s = .next (s.finish t c 0x4001 [])) ∧
      ((∀ x r, l = x :: r → s.readable tn.ring x = true) → (∀ x ∈ good, x.size ≤ tn.ring.size) →
        ∃ k, k ≤ good.length ∧ exec (.recordRead t8) s = .next (s.finish t c 0 (bytes k)) ∧ size k ≤ room ∧ (k < good.length → room < size (k + 1)))) ∧
    (s.nextIs t c 0x44 → c.args.length = 16 → b 4 1 ≤ 1 → b 5 3 = 0 → b 12 4 ≤ 8192 → b 8 4 + b 12 4 ≤ 2 ^ 20 + 2 ^ 16 → b 12 4 ≤ s.replyRoom t →
      (tn.replay = none → exec (.imageRead t8) s = .next (s.finish t c 0x5007 [])) ∧
      (∀ rp, tn.replay = some rp → (b 0 2, b 2 2) ∉ rp.cores.map (fun p => p.1) → exec (.imageRead t8) s = .next (s.finish t c 0x5007 [])) ∧
      (∀ rp, tn.replay = some rp → (b 0 2, b 2 2) ∈ rp.cores.map (fun p => p.1) → ∃ u d, exec (.imageRead t8) s = .next u ∧ ends u 0 d ∧ d.length = b 12 4 ∧
        ∀ i < b 12 4, (b 8 4 + i < 2 ^ 20 → d.getD i 0 = Memory.read (rp.slot (b 0 2) (b 2 2) (b 4 1)).spad (b 8 4 + i)) ∧
          (2 ^ 20 ≤ b 8 4 + i → b 8 4 + i - 2 ^ 20 < (rp.slot (b 0 2) (b 2 2) (b 4 1)).ctx.length → d.getD i 0 = (rp.slot (b 0 2) (b 2 2) (b 4 1)).ctx.getD (b 8 4 + i - 2 ^ 20) 0)))

/-- Commands of a host: reservations and filters, and replay. -/
def Obligations.ReservationsAndReplay : Prop :=
  Claims.ReservationCommands ∧ Claims.ReplayCommands

/-- SEED and ATTEST (14 R448; 15 R471, R473, R480): without a READY generator both end SEC_ENTROPY; SEED replies 8 drawn bytes and writes them as a SEED record; ATTEST replies the report of the session, its nonce and its measurements, taken at the present time. -/
def Claims.SeedAndAttest : Prop :=
  ∀ (s : State) (t8 : BitVec 8) (c : QCmd),
    let t := t8.toNat
    let tn := s.tenant t
    let ends (u : State) (st : BitVec 16) (data : List Byte) : Prop := (u.tenant t).cmds = tn.cmds.erase c ∧ (u.tenant t).replies = tn.replies ++ [⟨c.sess, c.seq, c.id, c.op, st, data⟩]
    (s.sec.ready = false → (s.nextIs t c 0x50 → c.args.length = 12 → exec (.seedDraw t8) s = .next (s.finish t c 0x6002 [])) ∧ (s.nextIs t c 0x60 → c.args.length = 48 → exec (.attest t8) s = .next (s.finish t c 0x6002 []))) ∧
    (s.sec.ready = true → s.nextIs t c 0x50 → c.args.length = 12 → ∃ u, ∃ seed : Nat, seed < 2 ^ 64 ∧ exec (.seedDraw t8) s = .next u ∧ ends u 0 (beBytes 8 seed) ∧ u.sec = { s.sec with served := s.sec.served + 1 } ∧
      let body := leBytes 8 seed ++ leBytes 4 (beFld c.args 0 4) ++ leBytes 8 (beFld c.args 4 8)
      let rec_ := recordBytes 2 tn.ring.seq s.time body
      (s.epochDue t = false → tn.ring.used + rec_.length ≤ tn.ring.size → ∃ x, (u.tenant t).ring.recs = tn.ring.recs ++ [x] ∧ x.typ = 2 ∧ x.seq = tn.ring.seq ∧ x.time = s.time ∧ x.body = body) ∧
      (s.epochDue t = false → tn.ring.size < tn.ring.used + rec_.length → (u.tenant t).ring = { tn.ring with full := true })) ∧
    (s.sec.ready = true → s.nextIs t c 0x60 → c.args.length = 48 → ∃ u rep, exec (.attest t8) s = .next u ∧ ends u 0 rep ∧ u.sec = { s.sec with served := s.sec.served + 1 } ∧ 544 ≤ rep.length ∧
      rep.take 8 = [0x4C, 0x5A, 0x41, 0x54, 0, 1, 0xA0, t8] ∧ bytesAt rep 16 8 = beBytes 8 s.time.toNat ∧ bytesAt rep 24 4 = beBytes 4 tn.sess.id.toNat ∧ bytesAt rep 32 48 = c.args ∧
      bytesAt rep 80 8 = beBytes 1 (min 255 s.sec.loadedFw) ++ beBytes 1 (min 255 s.sec.loadedStatic) ++ beBytes 1 (min 255 s.sec.shellSvn) ++ beBytes 1 s.sec.svnFw ++ beBytes 1 s.sec.svnStatic ++ beBytes 1 s.sec.svnShell ++ [0, 0] ∧
      bytesAt rep 88 48 = beBytes 48 s.sec.mFw.toNat ∧ bytesAt rep 136 48 = beBytes 48 s.sec.mStatic.toNat ∧ bytesAt rep 376 48 = beBytes 48 tn.measure.toNat ∧ bytesAt rep 424 4 = beBytes 4 tn.loads ∧
      bytesAt rep 428 4 = beBytes 4 (rectCores tn.res.rects).length ∧ bytesAt rep 432 4 = beBytes 4 tn.res.winSize)

/-- Tenants (14 R457 to R460): TENANT_CREATE checks its record in order and, when all checks pass, the id is live with the record's resources, its cores carry its TENANT and its window is VALID; TENANT_DESTROY removes the session at once and, when nothing of the tenant is in progress, frees the id, the cores and the
window, zero-filled; TENANT_STATUS answers for a live tenant only. -/
def Claims.TenantCommands : Prop :=
  ∀ (s : State) (r : TenantRec) (t8 : BitVec 8) (c : QCmd),
    let a := s.tenant 255
    let t := r.id.toNat
    let ends (u : State) (st : BitVec 16) (data : List Byte) : Prop := (u.tenant 255).cmds = a.cmds.erase c ∧ (u.tenant 255).replies = a.replies ++ [⟨c.sess, c.seq, c.id, c.op, st, data⟩]
    (s.nextIs 255 c 0x100 →
      (recordOk r = false → exec (.tenantCreate r) s = .next (s.finish 255 c 0x5005 [])) ∧
      (recordOk r = true → (s.tenant t).live = true → exec (.tenantCreate r) s = .next (s.finish 255 c 0x5007 [])) ∧
      (recordOk r = true → (s.tenant t).live = false → (∃ i < 15, s.ready i = false) → exec (.tenantCreate r) s = .next (s.finish 255 c 0x5008 [])) ∧
      (recordOk r = true → (s.tenant t).live = false → (∀ i < 15, s.ready i = true) →
        ((∃ q ∈ s.liveTenants, recordsMeet r (s.tenant q).res = true) → exec (.tenantCreate r) s = .next (s.finish 255 c 0x5007 [])) ∧
        (s.resourcesFree r = true → (∀ an < 4, (s.keyAn t an).loaded = false) → exec (.tenantCreate r) s = .next (s.finish 255 c 0x5003 [])) ∧
        (s.resourcesFree r = true → (∃ an < 4, (s.keyAn t an).loaded = true) → ∃ u, exec (.tenantCreate r) s = .next u ∧ ends u 0 [] ∧ (u.tenant t).live = true ∧ (u.tenant t).res = r ∧ (u.tenant t).sess = Session.closed ∧ (u.tenant t).measure = 0 ∧
          (u.tenant t).ring.size = r.ringMiB * 2 ^ 20 ∧ (u.tenant t).ring.since = s.time.toNat ∧ (∀ p ∈ rectCores r.rects, (u.reg (niPage (s.physOf p.1 p.2) + 0x40)).setWidth 8 = r.id)))) ∧
    (s.nextIs 255 c 0x101 →
      let d := t8.toNat
      ((s.tenant d).live = false ∨ 63 < d → exec (.tenantDestroy t8) s = .next (s.finish 255 c 0x5007 [])) ∧
      ((s.tenant d).live = true → d ≤ 63 → (s.cutOff d).destroyWaits d = true → ∃ u, exec (.tenantDestroy t8) s = .next u ∧ (u.tenant 255) = a ∧ (u.tenant d).live = true ∧ (u.tenant d).sess = Session.closed ∧ (u.tenant d).cmds = [] ∧ (u.tenant d).replies = []) ∧
      ((s.tenant d).live = true → d ≤ 63 → (s.cutOff d).destroyWaits d = false → ∃ u, exec (.tenantDestroy t8) s = .next u ∧ ends u 0 [] ∧ u.tenant d = Tenant.free ∧
        (∀ p ∈ rectCores (s.tenant d).res.rects, let k := s.physOf p.1 p.2; (u.reg (niPage k + 0x40)) = 0 ∧ (u.core k).spad = [] ∧ (k < 50688 → (s.blk (corePage k 0)).moving = false → (u.core k).st = .idle)) ∧
        (∀ p, (s.tenant d).res.winBase * (96 * 2 ^ 20) ≤ p → p < (s.tenant d).res.winBase * (96 * 2 ^ 20) + (s.tenant d).res.winSize * 2 ^ 20 → Memory.read u.lpddr p = 0))) ∧
    (s.nextIs 255 c 0x102 →
      ((s.tenant t8.toNat).live = false → exec (.tenantStatus t8) s = .next (s.finish 255 c 0x5007 [])) ∧
      ((s.tenant t8.toNat).live = true → ∃ data, exec (.tenantStatus t8) s = .next (s.finish 255 c 0 data) ∧ data.head? = some (s.tenant t8.toNat).res.id)) ∧
    (¬ ((s.tenant 255).nextCmd.map (fun d => d.op.toNat) = some 0x100) → exec (.tenantCreate r) s = .next s) ∧
    (¬ ((s.tenant 255).nextCmd.map (fun d => d.op.toNat) = some 0x101) → exec (.tenantDestroy t8) s = .next s)

/-- Commands of a host and of the admin: seeds, attestation, and tenants. -/
def Obligations.TenantsAndSeeds : Prop :=
  Claims.SeedAndAttest ∧ Claims.TenantCommands

/-- The security block (15 R469, R470, R474 to R478, R480): a commit blows up to the loaded SVN, at most 64, and never lowers a count; a key is revoked only under firmware verified by the other; the owner key is fused once; an import loads the selected AN unless it transmits or its wrapping is bad; ERASE empties the
slot; the generator is ready after its tests, reseeds after 1 ms or 65,536 requests, and serves nothing after a failure; REKEY draws a new hidden key while it is ready. -/
def Obligations.SecurityCommands : Prop :=
  ∀ (s : State) (who : Party) (c : CoreId), s.inReset = false →
    let pg := edgePage 0 0xF080
    let x := s.sec
    let clamp := s.clampAt pg 0x44
    let sel := s.fld (pg + 0x58) 0 6
    let selAn := s.fld (pg + 0x58) 8 2
    let area (m : Map Word) (k : Nat) : List Word := (List.range k).map (fun w => Sparse.get (fun _ => 0) m w)
    let done (y : Sec) : Sec := { y with importing := none, pub := [], wrap := [], ownerBuf := [] }
    let commits (i : Instr) (ty loaded : Nat) : Prop :=
      (x.commit ≠ none → s.acts who (pg + 0x44) i clamp) ∧
      (x.commit = none → loaded ≤ 64 → s.acts who (pg + 0x44) i { s with sec := { x with commit := some (ty, loaded) } }) ∧
      (x.commit = none → 64 < loaded → s.acts who (pg + 0x44) i { clamp with sec := { x with commit := some (ty, 64) } })
    let count (y : Sec) (ty : Nat) : Nat := if ty = 1 then y.svnFw else if ty = 2 then y.svnStatic else y.svnShell
    commits (.commitFw who) 1 x.loadedFw ∧ commits (.commitStatic who) 2 x.loadedStatic ∧ commits (.commitShell who) 3 x.shellSvn ∧
    (∀ v, (∀ d < 4, v ≤ Sparse.get (fun _ => 0) x.loadedShell d) → (∃ d < 4, v = Sparse.get (fun _ => 0) x.loadedShell d) → v ≤ 2 ^ 32 → x.shellSvn = v) ∧
    (x.commit = none → exec .commitDone s = .next s) ∧
    (∀ ty target, x.commit = some (ty, target) → 1 ≤ ty → ty ≤ 3 → ∃ u, exec .commitDone s = .next u ∧ u.sec.commit = none ∧ count u.sec ty = max (count x ty) target ∧
      (∀ k, 1 ≤ k → k ≤ 3 → k ≠ ty → count u.sec k = count x k) ∧ u.bit (pg + 0x10) 3 = true ∧ u.cores = s.cores) ∧
    (x.fwKey = 2 → s.acts who (pg + 0x44) (.revokeA who) { s with sec := { x with revokedA := true } }) ∧ (x.fwKey ≠ 2 → s.acts who (pg + 0x44) (.revokeA who) clamp) ∧
    (x.fwKey = 1 → s.acts who (pg + 0x44) (.revokeB who) { s with sec := { x with revokedB := true } }) ∧ (x.fwKey ≠ 1 → s.acts who (pg + 0x44) (.revokeB who) clamp) ∧
    (x.owner = none → s.acts who (pg + 0x44) (.ownerFuse who) { s with sec := { x with pub := [], wrap := [], ownerBuf := [], owner := some ((List.range 24).map (fun w => Sparse.get (fun _ => 0) x.ownerBuf w)) } }) ∧
    (x.owner ≠ none → s.acts who (pg + 0x44) (.ownerFuse who) { clamp with sec := { x with pub := [], wrap := [], ownerBuf := [] } }) ∧
    (x.importing ≠ none → s.acts who (pg + 0x44) (.importKey who) clamp) ∧
    (x.importing = none → s.acts who (pg + 0x44) (.importKey who) (({ s with sec := { x with importing := some (sel * 4 + selAn, Config.unwrap (sel * 4 + selAn) (area x.pub 24) (area x.wrap 14)) } }).setReg (pg + 0x5C) 3)) ∧
    (x.importing = none → exec .importDone s = .next s) ∧
    (∀ k, x.importing = some (k, .bad) → ∃ u, exec .importDone s = .next u ∧ u.sec = done x ∧ u.reg (pg + 0x5C) = 0x60030002 ∧ u.bit (pg + 0x10) 2 = true) ∧
    (∀ k sak salt ssci, x.importing = some (k, .key sak salt ssci) →
      (Sparse.get (fun _ => 0) x.txAn (k / 4) = k % 4 + 1 → ∃ u, exec .importDone s = .next u ∧ u.sec = done x ∧ u.reg (pg + 0x5C) = 0x60040002 ∧ u.bit (pg + 0x10) 2 = true) ∧
      (Sparse.get (fun _ => 0) x.txAn (k / 4) ≠ k % 4 + 1 → ∃ u, exec .importDone s = .next u ∧ u.reg (pg + 0x5C) = 1 ∧ u.bit (pg + 0x10) 1 = true ∧ u.keyAn (k / 4) (k % 4) = ⟨true, sak, salt, ssci, 0⟩ ∧
        Sparse.get (fun _ => 0) u.sec.newAn (k / 4) = k % 4 + 1 ∧ (∀ slot an, an < 4 → slot * 4 + an ≠ k → u.keyAn slot an = s.keyAn slot an) ∧ u.sec.importing = none ∧ u.sec.pub = [] ∧ u.sec.wrap = [] ∧ u.sec.ownerBuf = [])) ∧
    (s.mayWrite who (pg + 0x44) = true → ∃ u : State, exec (.erase who) s = .next (u.answerCtl 0) ∧ (∀ an < 4, (u.keyAn sel an).loaded = false) ∧ (∀ slot an, slot ≠ sel → an < 4 → u.keyAn slot an = s.keyAn slot an) ∧ u.regs = s.regs) ∧
    s.acts who (pg + 0x44) (.retest who) { s with sec := { x with testing := true } } ∧
    (x.testing = false → ∀ ok, exec (.entropyReady ok) s = .next s) ∧
    (x.testing = true → exec (.entropyReady true) s = .next (({ s with sec := { x with entOk := true, ready := true, testing := false, served := 0, seeded := s.time } }).setReady 2 true)) ∧
    (let fails (u : State) : Prop := u.sec = { x with entOk := false, ready := false, testing := false } ∧ u.bit (pg + 0x10) 0 = true ∧ u.bit (edgePage 0 0xF090 + 0x70) 2 = false ∧
        u.reg (pg + 0x64) = BitVec.ofNat 32 (min 0xFFFFFFFF ((s.reg (pg + 0x64)).toNat + 1)) ∧ ((s.reg (pg + 0x18)).setWidth 16 = (0 : BitVec 16) → (u.reg (pg + 0x18)).setWidth 16 = (0x6002 : BitVec 16))
     (x.testing = true → ∃ u, exec (.entropyReady false) s = .next u ∧ fails u) ∧ (x.ready = true → ∃ u, exec (.reseed false) s = .next u ∧ fails u)) ∧
    (x.ready = true → (x.seeded.toNat + 1000000 ≤ s.time.toNat ∨ 65536 ≤ x.served → exec (.reseed true) s = .next (({ s with sec := { x with served := 0, seeded := s.time } }).incWrap (pg + 0x68))) ∧
      (s.time.toNat < x.seeded.toNat + 1000000 → x.served < 65536 → exec (.reseed true) s = .next s)) ∧ (x.ready = false → ∀ ok, exec (.reseed ok) s = .next s) ∧
    (x.ready = false → s.acts who (rngPage (coreNo c) + 0x60) (.rekey who c) s) ∧
    (x.ready = true → s.mayWrite who (rngPage (coreNo c) + 0x60) = true → ∃ u : State, ∃ key, exec (.rekey who c) s = .next (u.answerCtl 0) ∧ u.core (coreNo c) = { (s.ticked (coreNo c)).core (coreNo c) with frKey := some key } ∧ u.sec = { x with served := x.served + 1 } ∧ u.regs = s.regs)

/-- The machine right after reset (00 R22; 01 R24; 04 R122; 06 R193; 07 R260; 12 R399; 14 R457; 16 R488, R503): the values that the spec gives. -/
def Claims.ResetState : Prop :=
  let s := State.reset
  let gov := edgePage 0 0xF090
  s.pending = [] ∧ s.time = 0 ∧
  (∀ n, (s.core n).st = .idle ∧ (s.core n).pc = 0 ∧ (s.core n).vl = 32 ∧ (s.core n).loops = [] ∧ (∀ i, (s.core n).gr i = 0) ∧ (s.core n).pr 0 = true ∧ (∀ a, Memory.read (s.core n).spad a = 0)) ∧
  (∀ n, s.clk n = 900 ∧ s.eff n = 900) ∧ (∀ t, (s.tenant t).live = false) ∧ (∀ n < 50688, s.niTenant n = 0) ∧ (∀ ch, (s.chan ch).st = .untrained) ∧
  s.reg (gov + 0x40) = 15000 ∧ s.reg (gov + 0x44) = 0x5F01 ∧ s.reg (gov + 0x4C) = 2000 ∧ s.reg (gov + 0x50) = 256 ∧ s.reg (gov + 0x60) = 15000 ∧ s.reg (gov + 0x6C) = 0 ∧ s.reg (gov + 0x74) = 0x7FFF ∧
  (∀ n < 50688, ∀ p < 10, s.reg (corePage n p + 8) = 1 ∧ s.reg (corePage n p + 0x18) = 0 ∧ s.reg (corePage n p + 0x1C) = 0)

/-- Reset (16 R483 to R485; 18 R531): RESET_N at 0 holds every block at its reset values and leaves only what no reset reaches; a release without PWR_OK waits for it; the input at 40 to 58 V with good rails raises PWR_OK; below 38 V, or when PWR_OK falls, the module is reset; a voltage in the warning band sets
PG_FAULT.INPUT. -/
def Claims.ResetAndInput : Prop :=
  ∀ (s : State) (mode : Bool) (mv : Nat),
    let f := edgePage 0 0xF090 + 0x6C
    let fresh (u : State) : Prop := u.regs = [] ∧ u.cores = [] ∧ u.lpddr = [] ∧ u.fram = [] ∧ u.tenants = [] ∧ u.cfgmem = [] ∧ u.remap = [] ∧ u.time = 0 ∧ u.tripped = false ∧ u.sec.revokedA = s.sec.revokedA ∧ u.sec.revokedB = s.sec.revokedB ∧
      u.sec.owner = s.sec.owner ∧ u.sec.ready = false ∧ u.sec.keys = [] ∧ u.pending = s.pending ∧ u.jtag = s.jtag ∧
      (s.sec.commit = none → u.sec.svnFw = s.sec.svnFw ∧ u.sec.svnStatic = s.sec.svnStatic ∧ u.sec.svnShell = s.sec.svnShell) ∧
      (∀ target, s.sec.commit = some (1, target) → s.sec.svnFw ≤ u.sec.svnFw ∧ u.sec.svnFw ≤ max s.sec.svnFw target)
    (∃ u, exec .resetNAssert s = .next u ∧ fresh u ∧ u.resetN = false ∧ u.inReset = true ∧ u.pwrOk = s.pwrOk) ∧
    (s.resetN = true → exec (.resetNRelease mode) s = .next s) ∧
    (s.resetN = false → s.pwrOk = false → ∃ u, exec (.resetNRelease mode) s = .next u ∧ u.inReset = s.inReset ∧ u.resetN = true ∧ u.releaseWaits = true) ∧
    (s.resetN = false → s.pwrOk = true → ∃ u, exec (.resetNRelease mode) s = .next u ∧ fresh u ∧ u.inReset = false ∧ u.resetN = true ∧ u.cfgMode = mode) ∧
    (s.pwrOk = false → 40000 ≤ mv → mv ≤ 58000 → ∃ u, exec (.pwrOkRise mv true) s = .next u ∧ u.pwrOk = true ∧ u.inputMv = mv ∧ u.jtag = .idcode ∧ u.sent = s.sent ++ [.pin .pwrOk 1] ∧
      (s.releaseWaits = true → u.inReset = false) ∧ (s.releaseWaits = false → u.inReset = s.inReset) ∧ u.regs = s.regs) ∧
    (s.pwrOk = true ∨ mv < 40000 ∨ 58000 < mv → exec (.pwrOkRise mv true) s = .next s) ∧ exec (.pwrOkRise mv false) s = .next s ∧
    (∀ falls, mv < 38000 ∨ falls = true → ∃ u, exec (.inputPowerDrop mv falls) s = .next u ∧ fresh u ∧ u.pwrOk = false ∧ u.inReset = true ∧ u.releaseWaits = s.resetN ∧ (s.pwrOk = true → .pin .pwrOk 0 ∈ u.sent)) ∧
    (38000 ≤ mv → s.inReset = false → ((mv < 40000 ∨ (58000 < mv ∧ mv ≤ 60000)) → ∃ u, exec (.inputPowerDrop mv false) s = .next u ∧ u.bit f 0 = true ∧ u.inputMv = mv ∧ u.cores = s.cores) ∧
      ((40000 ≤ mv ∧ mv ≤ 58000) → exec (.inputPowerDrop mv false) s = .next { s with inputMv := mv }))

/-- The reset lines (16 R483 to R485): the module is in reset exactly while RESET_N or PWR_OK is 0, and a release waits exactly while RESET_N is 1 and PWR_OK 0. It holds at reset, and the pins keep it. -/
def Claims.ResetLines : Prop :=
  let lines (s : State) : Prop := s.inReset = (!s.resetN || !s.pwrOk) ∧ s.releaseWaits = (s.resetN && !s.pwrOk)
  lines State.reset ∧ ∀ (s : State) (mode : Bool) (mv : Nat) (ok falls : Bool) (jtag : Fin 4), lines s →
    ∀ i ∈ [Instr.resetNAssert, .resetNRelease mode, .pwrOkRise mv ok, .inputPowerDrop mv falls, .tapReset, .extest jtag], ∃ t, exec i s = .next t ∧ lines t

/-- The SMBus target and the test access ports (16 R487; 18 R531, R532): a bad PEC and a target that is not yet up change nothing; a write and a read act under TENANT 0xFF and leave STATUS 0, or 2 with the code; 0xA2 sends STATUS, ERR and DATA; five TMS cycles reset the ports, and while EXTEST, CLAMP or HIGHZ
is in force the halyard takes no board stream. -/
def Claims.BoardPorts : Prop :=
  ∀ (s : State) (addr : Dword) (data : Word) (mode : Fin 4),
    let key := addrKey addr.toNat
    let up := s.inReset = false ∧ 1000000 ≤ s.time.toNat
    (exec (.smbControlWrite false addr data) s = .next s ∧ exec (.smbControlRead false addr) s = .next s ∧ exec (.smbResultRead false) s = .next s) ∧
    (¬ up → exec (.smbControlWrite true addr data) s = .next s ∧ exec (.smbControlRead true addr) s = .next s ∧ exec (.smbResultRead true) s = .next s) ∧
    (up → exec (.smbResultRead true) s = .next (s.send (.bytes true (leBytes 1 s.smbStatus ++ leBytes 2 s.smbErr.toNat ++ leBytes 4 s.smbData.toNat)))) ∧
    (up → s.smbStatus = 1 → exec (.smbControlWrite true addr data) s = .next s ∧ exec (.smbControlRead true addr) s = .next s) ∧
    (up → s.smbStatus ≠ 1 →
      (keyBlk key = none ∨ key % 4 ≠ 0 → ∃ u v, exec (.smbControlWrite true addr data) s = .next u ∧ u.smbStatus = 2 ∧ u.smbErr = 0x3003 ∧ u.regs = s.regs ∧ exec (.smbControlRead true addr) s = .next v ∧ v.smbStatus = 2 ∧ v.smbErr = 0x3003 ∧ v.regs = s.regs) ∧
      (keyBlk key ≠ none → key % 4 = 0 → s.mayWrite .board key = false → ∃ u, exec (.smbControlWrite true addr data) s = .next u ∧ u.smbStatus = 2 ∧ u.smbErr = 0x3002 ∧ u.regs = s.regs) ∧
      (key % 4 = 0 → s.mayWrite .board key = true → ∃ u, exec (.smbControlWrite true addr data) s = .next u ∧ u.smbStatus = 0 ∧ u.smbErr = 0 ∧ u.regs = (s.writeReg key data).regs) ∧
      (keyBlk key ≠ none → key % 4 = 0 → coversRdata key false = false → ∃ u, exec (.smbControlRead true addr) s = .next u ∧ u.smbStatus = 0 ∧ u.smbErr = 0 ∧ u.smbData = (s.readReg key).2)) ∧
    exec .tapReset s = .next { s with jtag := .idcode } ∧
    (∃ u, exec (.extest mode) s = .next u ∧ (mode = 0 → u.jtag = .idcode) ∧ (mode ≠ 0 → u.jtag ≠ .idcode ∧ ∀ p : Pusher, p.board = true → u.portOk p = false) ∧ u.cores = s.cores)

/-- The governor and the clocks (16 R486, R488, R489, R491, R493, R494, R504): a step over the bound lowers the ceiling by 100 MHz down to 900, then the scale by 4/256 down to 1/16; a raising step undoes them in the other order; an island's effective frequency is the least of its setting, its collar's limit and
k times the ceiling or floor; CLK_ALL sets every island, clamped; the junction thresholds, a trip and a lost reference. -/
def Claims.GovernorAndClocks : Prop :=
  ∀ (s : State) (who : Party) (mv ma w tj : Nat) (die : Fin 28) (c : CoreId) (v : Word) (lane : Bool), s.inReset = false →
    let pg := edgePage 0 0xF090
    let g2 (u : State) : Nat := u.fld (pg + 0x4C) 0 12 * 2 + b2n u.ceilHalf
    let k (u : State) : Nat := u.fld (pg + 0x50) 0 9
    let bound := min (s.fld (pg + 0x40) 0 16) (mv * 330 / 1000)
    let hot := s.fld (pg + 0x44) 8 8 * 8 < s.fld (pg + 0x64) 0 12
    let n := coreNo c
    let floor2 := if s.bit (pg + 0x44) 0 = true then s.fld (corePage n 7 + 0x4C) 0 12 * 2 else 0
    (∃ u, exec (.governorStep mv ma w) s = .next u ∧ u.fld (pg + 0x5C) 0 16 = min w 65535 ∧ u.fld (pg + 0x60) 0 16 = bound % 65536 ∧ u.cores = s.cores ∧
      (w ≤ bound → ¬ hot → g2 u = g2 s ∧ k u = k s) ∧
      (bound < w ∨ hot → 1800 < g2 s → g2 u = max 1800 (g2 s - 200) ∧ k u = k s) ∧ (bound < w ∨ hot → g2 s ≤ 1800 → g2 u = g2 s ∧ k u = max 16 (k s - 4)) ∧
      (bound < w → k s = 256 → g2 s = 4000 → u.fld (pg + 0x48) 0 2 = 1 ∧ u.bit (pg + 0x10) 0 = true)) ∧
    (let p := s.fld (pg + 0x60) 0 16
     (w * 100 < p * 97 → ¬ hot → ∃ u, exec (.governorRaise w) s = .next u ∧ (k s < 256 → k u = k s + 1 ∧ g2 u = g2 s) ∧ (k s = 256 → g2 s ≤ 4000 → k u = 256 ∧ g2 u = min 4000 (g2 s + 25))) ∧
     (p * 97 ≤ w * 100 ∨ hot → exec (.governorRaise w) s = .next s)) ∧
    (exec (.islandClockChange c) s = .next (s.setEff n (min (s.clk n) (min (s.clkLim n) (k s * max (g2 s) floor2 / 512))))) ∧
    (s.mayWrite who (timePage die.val + 0x90) = true → die.val < 24 →
      let f := v.toNat % 4096
      ∃ u : State, exec (.clkAll who die v) s = .next (u.answerCtl 0) ∧ (∀ j < 2112, u.clk (die.val * 2112 + j) = max 900 (min 2000 f)) ∧ (∀ j, j / 2112 ≠ die.val → u.clk j = s.clk j) ∧ u.cores = s.cores) ∧
    (s.mayWrite who (timePage die.val + 0x90) = true → 24 ≤ die.val → exec (.clkAll who die v) s = .next (s.answerCtl 0)) ∧
    (∃ u, exec (.junctionRead tj die) s = .next u ∧ u.fld (pg + 0x64) 0 12 = min tj 4095 ∧ u.fld (pg + 0x64) 16 5 = die.val ∧ u.bit (pg + 0x70) 14 = decide (tj < 800) ∧
((∀ ch < 96, s.bit (lpdPage ch + 0x40) 4 = false) → (s.hotJunction = true → tj < 800 → .pin .thermN 1 ∈ u.sent) ∧ (s.hotJunction = false → 800 ≤ tj → .pin .thermN 0 ∈ u.sent)) ∧ (s.overTj = false → s.fld (pg + 0x44) 8 8 * 8 < min tj 4095 → u.bit (pg + 0x10) 1 = true) ∧ u.cores = s.cores) ∧
    (∃ u, exec (.thermalTrip die) s = .next u ∧ u.tripped = true ∧ u.bit (pg + 0x6C) 2 = true ∧ u.cores = s.cores ∧ u.lpddr = s.lpddr ∧ (s.fld (pg + 0x6C) 0 4 = 0 → .pin .faultN 0 ∈ u.sent)) ∧
    (∃ u, exec (.refLoss lane) s = .next u ∧ u.bit (pg + 0x6C) 1 = true ∧ u.bit (timePage 24 + 0x44) 1 = false ∧ u.bit (timePage 24 + 0x44) 2 = true ∧ (∀ j < 64, (u.lane j).lock = false) ∧ u.cores = s.cores)

/-- A tripped module stops every core island and holds its state (16 R494): no Slovo bundle and no core engine changes a core until a reset. -/
def Claims.TrippedHolds : Prop :=
  ∀ (s : State) (who : Party) (c : CoreId) (u : Fin 3) (o : Slot) (k : Fin 4) (e : Ecc) (p : PathErr), s.tripped = true →
    exec (.nop o k) s = .next s ∧ exec (.halt o) s = .next s ∧ exec (.stoppingEnd c) s = .next s ∧ exec (.descriptorTakeUp c u) s = .next s ∧ exec (.passStart c u p e) s = .next s ∧ exec (.transferStart c e) s = .next s ∧
    (∀ line, exec (.scrubRead c line e) s = .next s) ∧ exec (.contextSave c) s = .next s ∧ (∃ t, exec (.step who c e) s = .next t ∧ (t.core (coreNo c)).pc = (s.core (coreNo c)).pc)

/-- Reset holds every block (16 R483): while the module is in reset, no command but those of the reset and power pins, the test access ports and the SMBus target, which answers none, changes any state (shown for one command of every family). -/
def Claims.ResetHolds : Prop :=
  ∀ (s : State) (who : Party) (c : CoreId) (o : Slot) (e : Ecc) (die : Fin 28) (t : BitVec 8) (w : CtlWrite) (f : UFrame) (q : PReq) (p : Pusher) (l : LaneId) (ch : Chan) (n : Node) (port : Fin 4) (fl : Flit), s.inReset = true →
    ∀ i ∈ [Instr.nop o 0, .halt o, .registerWrite w, .seqStart who c, .step who c e, .scrubRead c 0 e, .transferStart c e, .flitReceive n port fl true, .rds q .clean, .wr q 0 [] .clean, .hello f, .cmd f, .commandComplete t, .deliver t, .attest t,
      .streamNop p 0, .clkAll who die 0, .governorStep 0 0 0, .thermalTrip die, .trainingRun who ch, .lanePowerDone l, .recorderEpochEnd t, .checkpointRun t, .timeFault, .commitDone, .entropyReady true, .tenantStatus t, .smbResultRead true], exec i s = .next s

/-- Reset and the board's ports; the governor, clocks and a thermal trip, and what trip and reset hold. -/
def Obligations.ResetAndBoard : Prop :=
  Claims.ResetState ∧ Claims.ResetAndInput ∧ Claims.ResetLines ∧ Claims.BoardPorts ∧ Claims.GovernorAndClocks ∧ Claims.TrippedHolds ∧ Claims.ResetHolds

/-- Block power (16 R496 to R498; 00 R22; 17 R511): ENABLE against the present state begins a transition, ENABLE as the block stands begins none; at its end the block has the other state, goes on where the last request differs, and a SOFT_RESET that waited acts and drops the request; SOFT_RESET of a page returns
its registers but ENABLE (shown on a vector page and a lane quad). -/
def Claims.BlockPower : Prop :=
  ∀ (s : State) (who : Party) (page : PageId) (on : Bool) (b : Blk), s.inReset = false →
    let pg := PageId.key page
    let p := s.blk pg
    headBlk page = some b → headPage b pg = pg →
    (s.acts who pg (.blkEnable who page on) (s.requestPower pg on)) ∧
    (s.mayWrite who pg = true → p.moving = false → p.on ≠ on → ∃ t : State, exec (.blkEnable who page on) s = .next (t.answerCtl 0) ∧ (t.blk pg).moving = true ∧ (t.blk pg).on = p.on ∧ (t.blk pg).want = on ∧ t.cores = s.cores) ∧
    (s.mayWrite who pg = true → p.moving = false → p.on = on → ∃ t : State, exec (.blkEnable who page on) s = .next (t.answerCtl 0) ∧ (t.blk pg).moving = false ∧ (t.blk pg).on = p.on ∧ (t.blk pg).want = on) ∧
    (s.mayWrite who pg = true → p.moving = true → ∃ t : State, exec (.blkEnable who page on) s = .next (t.answerCtl 0) ∧ (t.blk pg).moving = true ∧ (t.blk pg).on = p.on ∧ (t.blk pg).want = on) ∧
    (p.moving = false → exec (.powerTransitionEnd page) s = .next s) ∧
    (p.moving = true → p.resetDue = false → ∃ t, exec (.powerTransitionEnd page) s = .next t ∧ (t.blk pg).on = !p.on ∧ (t.blk pg).moving = decide (p.want = p.on) ∧ (t.blk pg).want = p.want ∧ t.regs = s.regs ∧ t.cores = s.cores) ∧
    (p.moving = true → p.resetDue = true → ∃ t, exec (.powerTransitionEnd page) s = .next t ∧ t = (s.setBlk pg { on := !p.on, moving := false, want := !p.on, pendingOn := false, resetDue := false }).blkReset b pg) ∧
    (p.moving = true → s.acts who pg (.softReset who page) (s.setBlk pg { p with resetDue := true })) ∧
    (p.moving = false → b = .vec ∨ b = .rng ∨ b = .rtr ∨ b = .ni → s.mayWrite who pg = true → ∃ t : State, exec (.softReset who page) s = .next (t.answerCtl 0) ∧ t.reg (pg + 8) = s.reg (pg + 8) ∧ (t.blk pg) = p ∧
      (∀ off, off < 4096 → off ≠ 8 → t.reg (pg + off) = regReset (pg + off)) ∧ (∀ key, key < pg ∨ pg + 4096 ≤ key → t.reg key = s.reg key))

/-- Register writes (00 R17 to R19, R21; 17 R507, R513, R514): an RW field takes the value, a clamped one the nearest legal value and the clamp record the offset; a 1 clears a W1C bit; an RO register and an offset that no table lists ignore the write; BLK_ERR and BLK_CLAMP clear each half as a whole and then take the
codes and clamps of the same cc (shown on a vector page, a random generator and the governor). -/
def Claims.PageWrites : Prop :=
  ∀ (s : State) (w : CtlWrite) (page : PageId) (who : Party) (v : Word) (code : BitVec 16), s.inReset = false →
    let key := addrKey w.addr.toNat
    let pg := PageId.key page
    let low (x : Word) : BitVec 16 := x.setWidth 16
    let high (x : Word) : BitVec 16 := (x >>> 16).setWidth 16
    let gov := edgePage 0 0xF090
    (key % (if w.wide then 8 else 4) ≠ 0 → exec (.registerWrite w) s = .next (s.answerCtl 0x3003)) ∧
    (key % 4 = 0 → w.wide = false →
      (s.mayWrite w.who key = false → exec (.registerWrite w) s = .next (s.answerCtl (if keyBlk key = none ∧ (w.who = .firmware ∨ w.who = .board) then 0x3003 else 0x3002))) ∧
      s.acts w.who key (.registerWrite w) (s.writeReg key (w.data.setWidth 32))) ∧
    (let val : Nat := (v.toNat % 65536)
     (6000 ≤ val → val ≤ 15000 → (s.writeReg (gov + 0x40) v).fld (gov + 0x40) 0 16 = val ∧ (s.writeReg (gov + 0x40) v).reg (gov + 0x1C) = s.reg (gov + 0x1C)) ∧
     (val < 6000 → (s.writeReg (gov + 0x40) v).fld (gov + 0x40) 0 16 = 6000 ∧ (s.writeReg (gov + 0x40) v).reg (gov + 0x1C) = (0x40 : BitVec 16) ++ BitVec.ofNat 16 (min 65535 ((low (s.reg (gov + 0x1C))).toNat + 1))) ∧
     (15000 < val → (s.writeReg (gov + 0x40) v).fld (gov + 0x40) 0 16 = 15000)) ∧
    ((s.writeReg (gov + 0x6C) v).fld (gov + 0x6C) 0 4 = ((s.reg (gov + 0x6C) &&& ~~~ v).toNat % 16) ∧ (s.writeReg (gov + 0x6C) v).fld (gov + 0x6C) 8 5 = s.fld (gov + 0x6C) 8 5) ∧
    (∀ off ∈ [0, 4, 0xC, 0x20, 0x48, 0x54, 0x64, 0x70, 0x74, 0x78, 0x100, 0xFFC], (s.writeReg (gov + off) v).reg (gov + off) = s.reg (gov + off)) ∧
    (∀ b, headBlk page = some b → headPage b pg = pg → s.mayWrite who (pg + 0x18) = true → b = .vec ∨ b = .rng →
      let kept := (if low v = 0 then low (s.reg (pg + 0x18)) else 0)
      let kept2 := (if high v = 0 then high (s.reg (pg + 0x18)) else 0)
      (∃ t : State, exec (.blkErrWrite who page v []) s = .next t ∧ low (t.reg (pg + 0x18)) = kept ∧ high (t.reg (pg + 0x18)) = kept2) ∧
      (code ≠ 0 → ∃ t : State, exec (.blkErrWrite who page v [code]) s = .next t ∧ low (t.reg (pg + 0x18)) = (if kept = 0 then code else kept) ∧ high (t.reg (pg + 0x18)) = BitVec.ofNat 16 (min 65535 (kept2.toNat + 1)))) ∧
    (∀ b, headBlk page = some b → headPage b pg = pg → s.mayWrite who (pg + 0x1C) = true → b = .vec ∨ b = .rng →
      let kept := (if low v = 0 then low (s.reg (pg + 0x1C)) else 0)
      let kept2 := (if high v = 0 then high (s.reg (pg + 0x1C)) else 0)
      (∃ t : State, exec (.blkClampWrite who page v []) s = .next t ∧ low (t.reg (pg + 0x1C)) = kept ∧ high (t.reg (pg + 0x1C)) = kept2) ∧
      (∃ t : State, exec (.blkClampWrite who page v [code]) s = .next t ∧ low (t.reg (pg + 0x1C)) = BitVec.ofNat 16 (min 65535 (kept.toNat + 1)) ∧ high (t.reg (pg + 0x1C)) = code))

/-- A control write by a party that may not make it is answered NET_PARTITION, or NET_ROUTE_NONE where no page is, and changes nothing else, the clamp record included (17 R516). -/
def Claims.RefusedWrites : Prop :=
  ∀ (s : State) (who : Party) (c : CoreId) (page : PageId) (on : Bool) (die : Fin 28) (v : Word), s.inReset = false →
    let n := coreNo c
    let no (k : Nat) (i : Instr) : Prop := s.mayWrite who k = false → exec i s = .next (s.answerCtl (if keyBlk k = none ∧ (who = .firmware ∨ who = .board) then 0x3003 else 0x3002))
    let seq := corePage n 0 + 0x40
    let sec := edgePage 0 0xF080 + 0x44
    no (rngPage n + 0x60) (.rekey who c) ∧ no seq (.seqStart who c) ∧ no seq (.seqStop who c) ∧ no seq (.save who c) ∧ no seq (.restore who c) ∧
    no sec (.commitFw who) ∧ no sec (.commitStatic who) ∧ no sec (.commitShell who) ∧ no sec (.revokeA who) ∧ no sec (.revokeB who) ∧ no sec (.ownerFuse who) ∧ no sec (.importKey who) ∧ no sec (.erase who) ∧ no sec (.retest who) ∧
    no (PageId.key page) (.softReset who page) ∧ no (PageId.key page) (.blkEnable who page on) ∧ no (timePage die.val + 0x90) (.clkAll who die v)

/-- Register pages: the power states of a block, the effect of a write, and a write that is refused. -/
def Obligations.ControlPages : Prop :=
  Claims.BlockPower ∧ Claims.PageWrites ∧ Claims.RefusedWrites

/-- The operations of slots 0 and 1 complete (04 R126 to R132, R139, R146): NOP, BR, BRR, CALL, LOOP, LOOPI, WAIT, FENCE, MFS, MTS, CLR, CLW, EVENT and HALT; the scalar operations ADD to SHLOR; SETA, SETM, SETB, SETL, SETMD and GETA. In every
state in which the slot's operation executes, under the conditions named on its operands alone, exec answers a next state with the operation's own effect. -/
def Claims.ScalarsComplete : Prop :=
  ∀ (s : State) (o : Slot) (k : Fin 2) (k4 : Fin 4) (gd ga gb : BitVec 5) (pd pa pb : BitVec 3) (tt mask lim : BitVec 4) (imm : BitVec 12) (big : BitVec 17) (ahead : BitVec 22)
    (gn : BitVec 3) (trips : BitVec 13) (blm1 : BitVec 6) (idx : BitVec 10) (code : BitVec 16), s.executes o →
    let n := coreNo o.core
    let c := s.core n
    let aim : Int := c.pc.toNat + ahead.toInt * 16
    let v := c.gr ga
    let x := v + imm.signExtend 64
    let goesTo (i : Instr) (a : Nat) : Prop := ∃ t, exec i s = .next t ∧ (t.core n).pc.toNat = a ∧ (t.core n).pcOut = none ∧ (t.core n).v = c.v ∧ (t.core n).spad = c.spad
    s.gives o (.nop o k4) s ∧
    (0 ≤ aim → aim < 2 ^ 20 → goesTo (.br o ahead) aim.toNat ∧ goesTo (.call o ahead) aim.toNat) ∧
    (v.toNat % 16 = 0 → v.toNat < 2 ^ 20 → goesTo (.brr o ga) v.toNat) ∧
    (c.loops = [] → 0 < v.toNat % 2 ^ 32 → ∃ t l, exec (.loop o ga blm1 0 false) s = .next t ∧ (t.core n).loops = [l] ∧ l.n = v.toNat % 2 ^ 32 ∧
      l.first = c.pc + 16 ∧ l.last = c.pc + BitVec.ofNat 20 (16 * (blm1.toNat + 1)) ∧ l.done = 0 ∧ (t.core n).pc = c.pc + 16 ∧ (t.core n).g = c.g) ∧
    (c.loops = [] → 0 < trips.toNat → ∃ t l, exec (.loopi o trips blm1 0 false) s = .next t ∧ (t.core n).loops = [l] ∧ l.n = trips.toNat ∧
      l.first = c.pc + 16 ∧ l.last = c.pc + BitVec.ofNat 20 (16 * (blm1.toNat + 1)) ∧ l.done = 0 ∧ (t.core n).pc = c.pc + 16 ∧ (t.core n).g = c.g) ∧
    ((∀ j < 4, mask.getLsbD j = true → c.ctr j ≤ lim.toNat) → s.gives o (.wait o mask lim false ga) s) ∧
    (c.posted = 0 → s.gives o (.fence o) s) ∧
    s.gives o (.mfs o gd 0x0B) (s.setGr n gd 32) ∧
    s.gives o (.mts o ga 0x00) (s.modCore n (fun d => { d with vl := min 32 v.toNat })) ∧
    (s.shrouded n = true → s.gives o (.clr o gd idx) (s.setGr n gd ((s.parkRdata n).setWidth 64)) ∧ s.gives o (.clw o ga idx) s) ∧
    (s.shrouded n = false → s.gives o (.clr o gd idx) ((s.modCore n (fun d => { d with colReads := d.colReads ++ [.seq (BitVec.ofNat 5 (physG c.rotG gd))] })).send (.collar n 4 idx.toNat 0)) ∧
      s.gives o (.clw o ga idx) (s.send (.collar n 5 idx.toNat ((v.setWidth 32).setWidth 512)))) ∧
    (c.events.length < 8 → s.gives o (.event o code) (s.modCore n (fun d => { d with events := d.events ++ [code] }))) ∧
    (∃ t, exec (.halt o) s = .next t ∧ (t.core n).st = .halted ∧ (t.core n).g = c.g ∧ (t.core n).pc = c.pc + 16) ∧
    (∀ i ∈ [Instr.add o k gd ga gb, .sub o k gd ga gb, .and o k gd ga gb, .or o k gd ga gb, .xor o k gd ga gb, .shl o k gd ga gb, .shr o k gd ga gb, .sha o k gd ga gb, .mul o k gd ga gb,
        .smin o k gd ga gb, .smax o k gd ga gb, .addi o k gd ga imm, .andi o k gd ga imm, .ori o k gd ga imm, .xori o k gd ga imm, .movi o k gd big],
      ∃ r, s.gives o i (s.setGr n gd r)) ∧
    (imm.toNat < 64 → ∀ i ∈ [Instr.shli o k gd ga imm, .shri o k gd ga imm, .shai o k gd ga imm], ∃ r, s.gives o i (s.setGr n gd r)) ∧
    (big.getLsbD 16 = false → ∃ r, s.gives o (.shlor o k gd big) (s.setGr n gd r)) ∧
    (∀ i ∈ [Instr.cmplt o k pd ga gb, .cmpltu o k pd ga gb, .cmpeq o k pd ga gb, .plog o k pd pa pb tt, .cmplti o k pd ga imm, .cmpeqi o k pd ga imm], ∃ b, s.gives o i (s.setPr n pd b)) ∧
    s.gives o (.seta o gn ga imm) (s.modCore n (fun d => d.setA gn x)) ∧
    s.gives o (.setm o gn ga imm) (s.modCore n (fun d => d.setM gn (x.setWidth 32))) ∧
    s.gives o (.setb o gn ga imm) (s.modCore n (fun d => d.setBase gn (x.setWidth 56))) ∧
    (0 < x.toNat → x.toNat ≤ 2 ^ 20 → s.gives o (.setl o gn ga imm) (s.modCore n (fun d => d.setLen gn (x.setWidth 21)))) ∧
    (imm.toNat ≤ 1 → ∃ m : BitVec 8, m.getLsbD gn.toNat = imm.getLsbD 0 ∧ s.gives o (.setmd o gn 0 imm) (s.modCore n (fun d => { d with mode := m }))) ∧
    s.gives o (.geta o gn gd 0) (s.setGr n gd (c.ar gn))

/-- The operations of slot 2 and what completes them (04 R132 to R135, R147; 06 R196; 10 R336, R338): LDB, LDH, LDW, LDD, LDV, LDVB, STB, STH, STW, STD and STV of the own scratchpad; VPUSH and VPULL; RLB_MISS_FILL and CLR_TIMEOUT; ISSUE of a transfer. Under the
conditions named on the state and the operands alone, exec answers a next state with the command's own effect. -/
def Claims.MemoryOpsComplete : Prop :=
  ∀ (s : State) (o : Slot) (k : CoreId) (r : BitVec 6) (g : BitVec 3) (ctr : BitVec 2) (ga : BitVec 5) (st : Bool) (data : List Byte) (a : Dword), s.inReset = false → s.tripped = false →
    let n := coreNo o.core
    let c := s.core n
    let e : Ecc := ⟨[], []⟩
    let x := a.toNat % 2 ^ 20
    let fits (size : Nat) : Prop := s.executes o ∧ c.agu g 0 0 size = some (a, none) ∧ a.toNat % size = 0 ∧ spaceOf a.toNat = 0 ∧ x + size ≤ 2 ^ 20 ∧ c.spadWaits = false
    let loads (i : Instr) (size : Nat) : Prop := fits size → r.getLsbD 5 = false → c.poisonedAt x size = false →
      s.gives o i (s.setGr n (r.setWidth 5) (BitVec.ofNat 64 (leNat (c.spadBytes x size))))
    let stores (i : Instr) (size : Nat) : Prop := fits size → r.getLsbD 5 = false →
      ∃ t, exec i s = .next t ∧ (t.core n).spadBytes x size = leBytes size (c.gr (r.setWidth 5)).toNat ∧ (t.core n).pc = c.pc + 16 ∧ (t.core n).g = c.g
    loads (.ldb o r g 0 0 e) 1 ∧ loads (.ldh o r g 0 0 e) 2 ∧ loads (.ldw o r g 0 0 e) 4 ∧ loads (.ldd o r g 0 0 e) 8 ∧
    stores (.stb o r g 0 0) 1 ∧ stores (.sth o r g 0 0) 2 ∧ stores (.stw o r g 0 0) 4 ∧ stores (.std o r g 0 0) 8 ∧
    (s.executes o → c.agu g 0 0 128 = some (a, none) → a.toNat % 4 = 0 → spaceOf a.toNat = 0 → x + 128 ≤ 2 ^ 20 → c.spadWaits = false →
      (c.poisonedAt x (4 * min 32 c.vl) = false → ∃ w, s.gives o (.ldv o r g 0 0 e) (s.modCore n (fun d => d.setV (physV c.rotV r) w)) ∧
        ∀ j < 32, elemOf 32 w j = if j < c.vl then leNat (c.spadBytes (x + 4 * j) 4) else elemOf 32 (c.vr r) j) ∧
      (∃ t, exec (.stv o r g 0 0) s = .next t ∧ (∀ j < 32, j < c.vl → leNat ((t.core n).spadBytes (x + 4 * j) 4) = elemOf 32 (c.vr r) j) ∧ (t.core n).pc = c.pc + 16)) ∧
    (fits 4 → c.poisonedAt x 4 = false → ∃ w, s.gives o (.ldvb o r g 0 0 e) (s.modCore n (fun d => d.setV (physV c.rotV r) w)) ∧
      ∀ j < 32, elemOf 32 w j = if j < c.vl then leNat (c.spadBytes x 4) else elemOf 32 (c.vr r) j) ∧
    (s.executes o → s.shrouded n = false → (c.ob st).length ≤ 4 → ∃ l, l.length = 4 ∧ s.gives o (.vpush o r st) (s.modCore n (fun d => d.setOb st (d.ob st ++ l)))) ∧
    (s.executes o → s.shrouded n = false → 4 ≤ (c.ib st).length →
      ∃ w, s.gives o (.vpull o r st) (s.modCore n (fun d => (d.setIb st ((c.ib st).drop 4)).setV (physV c.rotV r) w))) ∧
    (s.executes o → (c.gr ga).toNat < 2 ^ 20 → (c.gr ga).toNat % 64 = 0 → c.spadWaits = false → c.poisonedAt (c.gr ga).toNat 64 = false → c.ctr ctr.toNat < 15 → c.jobs.length < 16 →
      ∃ t, exec (.issue o 1 ctr ga e) s = .next t ∧ (t.core n).jobs.length = c.jobs.length + 1 ∧ (t.core n).ctr ctr.toNat = c.ctr ctr.toNat + 1 ∧ (t.core n).pc = c.pc + 16) ∧
    (∀ m rest, (s.core (coreNo k)).misses = m :: rest → m.status = 0 → data.length = 64 → ∃ t, exec (.rlbMissFill k data false) s = .next t ∧
      (∃ l ∈ (t.core (coreNo k)).rlb, l.line = m.line ∧ l.data = data ∧ l.poisoned = false) ∧ (t.core (coreNo k)).misses = rest ∧ t.regs = s.regs) ∧
    (∀ gd rest, (s.core (coreNo k)).colReads = .seq gd :: rest → ∃ t, exec (.clrTimeout k) s = .next t ∧ (t.core (coreNo k)).colReads = .dropped :: rest ∧
      t.bit (corePage (coreNo k) 0 + 0x10) 4 = true ∧ (t.core (coreNo k)).pc = (s.core (coreNo k)).pc)

/-- Every operation of slots 0, 1 and 2 completes. -/
def Obligations.ScalarsComplete : Prop :=
  Claims.ScalarsComplete ∧ Claims.MemoryOpsComplete

/-- The operations of slot 3 complete (04 R136 to R138; 05 R159 to R170, R174, R177, R178): in every state in which the slot's operation executes, with MOD and vb as the tables admit them, exec answers a next state in which vd alone of the vector registers
may be changed, the flags are or-ed in and the bundle has issued; an operation that draws advances the generator or the lanes' states too (R172, R176). -/
def Obligations.VectorsComplete : Prop :=
  ∀ (s : State) (o : Slot) (vd va vb : BitVec 6) (mod : BitVec 4), s.executes o →
    let n := coreNo o.core
    let c := s.core n
    let plain (i : Instr) : Prop := ∃ r, s.gives o i (s.vecDone n (physV c.rotV vd) r)
    let draws (i : Instr) : Prop := (mod.getLsbD 3 = false → c.rngPosted = 0) → ∃ e r, s.gives o i ((s.afterDraw n (mod.getLsbD 3) e).vecDone n (physV c.rotV vd) r)
    (∀ i ∈ [Instr.fminS o vd va vb 0, .fmaxS o vd va vb 0, .fcmpltS o vd va vb 0, .fcmpeqS o vd va vb 0, .fcmpleS o vd va vb 0, .sel o vd va vb 0, .iadd o vd va vb 0, .isub o vd va vb 0,
        .vand o vd va vb 0, .vor o vd va vb 0, .vxor o vd va vb 0, .perm o vd va vb 0], plain i) ∧
    (vb.toNat < 32 → plain (.bcast o vd va vb 0)) ∧
    (mod.toNat < 2 → ∀ i ∈ [Instr.faddS o vd va vb mod, .fsubS o vd va vb mod, .fmulS o vd va vb mod, .fmaS o vd va vb mod, .fdivS o vd va vb mod, .fsqrtS o vd va 0 mod, .faddD o vd va vb mod, .fsubD o vd va vb mod,
        .fmulD o vd va vb mod, .fmaD o vd va vb mod, .fdivD o vd va vb mod, .fsqrtD o vd va 0 mod, .haddB o vd va vb mod, .hmulB o vd va vb mod, .hfmaB o vd va vb mod, .haddH o vd va vb mod, .hmulH o vd va vb mod,
        .hfmaH o vd va vb mod], plain i) ∧
    (mod.toNat % 8 = 2 → ∀ i ∈ [Instr.faddS o vd va vb mod, .fsubS o vd va vb mod, .fmulS o vd va vb mod, .fmaS o vd va vb mod, .fdivS o vd va vb mod, .fsqrtS o vd va 0 mod, .faddD o vd va vb mod, .fsubD o vd va vb mod,
        .fmulD o vd va vb mod, .fmaD o vd va vb mod, .fdivD o vd va vb mod, .fsqrtD o vd va 0 mod, .haddB o vd va vb mod, .hmulB o vd va vb mod, .hfmaB o vd va vb mod, .haddH o vd va vb mod, .hmulH o vd va vb mod,
        .hfmaH o vd va vb mod], draws i) ∧
    (mod.toNat < 2 → vb.toNat / 8 < 6 → plain (.cvt o vd va vb mod)) ∧
    (mod.toNat < 2 → vb.toNat < 2 → plain (.norm o vd va vb mod)) ∧
    (vb.toNat % 4 = 0 → vb.toNat / 4 ≤ 5 → plain (.mxq o vd va vb 0) ∧ plain (.mxd o vd va vb 0)) ∧
    (plain (.getexp o vd va 0 0)) ∧
    (mod.toNat < 2 → vb.toNat < 8 → plain (.red o vd va vb mod)) ∧
    (vb.toNat ≤ 0x0C → plain (.apx o vd va vb 0)) ∧
    (mod.toNat % 8 = 0 → (vb.toNat < 4 → draws (.rand o vd 0 vb mod)) ∧ draws (.sample o vd va 0 mod) ∧ draws (.drop o vd 0 0 mod))

/-- The commands of a core complete (02 R60 to R90; 04 R151 to R156; 05 R176; 06 R190 to R199; 10 R336 to R338, R342): REKEY, START, STOP, the end of STOPPING, STEP, SAVE, RESTORE and their ends, the matrix units' take-up, pass, drain, retry, tap beats and completion, ZERO, the line buffer's flush and
invalidation, retention, the scrubber, and the collar's beats and register accesses. Under the conditions named on the state and the operands alone, exec answers a next state with the command's own effect. -/
def Obligations.CoreCommandsComplete : Prop :=
  ∀ (s : State) (k : CoreId) (who : Party) (u : Fin 3) (v : Word) (beat : BitVec 256), s.inReset = false → s.tripped = false →
    let n := coreNo k
    let c := s.core n
    let e : Ecc := ⟨[], []⟩
    let p : PathErr := ⟨false, 0, 0, 0⟩
    let may (key : Nat) : Prop := s.mayWrite who key = true
    let becomes (i : Instr) (f : Core → Prop) : Prop := ∃ t, exec i s = .next t ∧ f (t.core n) ∧ (t.core n).g = c.g ∧ ∀ m, m ≠ n → t.core m = s.core m
    let seq := corePage n 0 + 0x40
    let sp := corePage n 5
    (may (rngPage n + 0x60) → s.sec.ready = true → becomes (.rekey who k) (fun d => d.frKey ≠ none)) ∧
    (may seq → c.st.held = true → becomes (.seqStart who k) (fun d => d.st = .running ∧ d.pc = c.pc)) ∧
    (may seq → c.st = .running → becomes (.seqStop who k) (fun d => d.st = .stopping ∧ d.after = .stopped ∧ d.pc = c.pc)) ∧
    (c.st = .stopping → c.stall ≠ .other → c.reads = false → c.pendSave = false → c.pendStart = false → becomes (.stoppingEnd k) (fun d => d.st = c.after ∧ d.pc = c.pc)) ∧
    (may seq → c.st.held = true → c.reads = false → c.pcOut = none → c.loops = [] → c.pc.toNat + 16 < 2 ^ 20 → c.spadWaits = false → c.poisonedAt c.pc.toNat 16 = false → c.spadBytes c.pc.toNat 16 = List.replicate 16 0 →
      becomes (.step who k e) (fun d => d.st = .stopped ∧ d.pc = c.pc + 16)) ∧
    (may seq → c.st.held = true → s.ctxSpot n (s.ctxAddr n) 8896 ≠ none → becomes (.save who k) (fun d => d.st = .saving ∧ d.back = c.st)) ∧
    (c.st = .saving → c.ctx = none → c.countersZero = true → c.spadWaits = false → ∀ off, s.ctxSpot n (s.ctxAddr n) 8896 = some (.own off) →
      becomes (.contextSave k) (fun d => d.ctx = some 0 ∧ d.spadBytes off 8896 = c.image (s.reg (corePage n 4 + 0x44)))) ∧
    (c.st = .saving → c.pendStart = false → c.ctx = some 0 → becomes (.contextSaveDone k) (fun d => d.st = c.back ∧ d.ctx = none)) ∧
    (may seq → c.st.held = true → s.ctxSpot n (s.ctxAddr n) 64 ≠ none → becomes (.restore who k) (fun d => d.st = .restoring ∧ d.back = c.st)) ∧
    (c.st = .restoring → c.countersZero = true → c.pendStart = false → c.spadWaits = false → ∀ off, (∀ len, off + len ≤ 2 ^ 20 → s.ctxSpot n (s.ctxAddr n) len = some (.own off)) → off + 8896 ≤ 2 ^ 20 →
      let l := c.spadBytes off 8896
      c.poisonedAt off 8896 = false → imgFld l 0 4 = 0x4F564C53 → imgFld l 4 2 = 1 → imgFld l 6 1 = 32 → crc32c (l.take 8892) = BitVec.ofNat 32 (imgFld l 8892 4) → imageFormOk l = true →
      ∃ t, exec (.contextRestore k e) s = .next t ∧ (t.core n).st = .stopped ∧ t.core n = { (s.applyImage n l).core n with st := .stopped, ctx := none, stall := .none } ∧ ∀ m, m ≠ n → t.core m = s.core m) ∧
    (∀ j rest, (c.unit u.val).jobs = j :: rest → c.spadWaits = false →
      ((c.unit u.val).run = none → (j.tap && c.tapTaken u.val) = false → s.bit (corePage n (1 + u.val) + 8) 0 = true → j.check = none →
        becomes (.descriptorTakeUp k u) (fun d => (d.unit u.val).run = some (MatRun.init j (c.unit u.val).nextA) ∧ (d.unit u.val).jobs = j :: rest)) ∧
      (∀ r i, (c.unit u.val).run = some r → r.lockPass j = some i → r.ready j i = true →
        becomes (.passStart k u p e) (fun d => ∃ q, (d.unit u.val).run = some q ∧ q.rows = r.passRows j i ∧ (d.unit u.val).jobs = j :: rest)) ∧
      (∀ r g, (c.unit u.val).run = some r → r.h0.drains (j.desc 0) = some g → r.h1.drains (j.desc 1) = none → (j.desc 0).epi = 0 → (j.desc 0).k ≠ 0 →
        becomes (.groupDrain k u p e) (fun d => ∃ q, (d.unit u.val).run = some q ∧ (∀ x ∈ r.h0.groups.drop 1, x ∈ q.h0.groups) ∧ q.h0.sat = (r.h0.sat || g.sat))) ∧
      (∀ r g after, (c.unit u.val).run = some r → r.h0.groups = g :: after → (j.desc 0).kt ≤ g.kt → g.poisoned = true → g.retried = false → s.bit (corePage n (1 + u.val) + 0x40) 0 = true →
        becomes (.groupRetry k u) (fun d => ∃ q x, (d.unit u.val).run = some q ∧ q.retried = true ∧ x ∈ q.h0.groups ∧ x.retried = true ∧ x.kt = 0 ∧ x.poisoned = false)) ∧
      (∀ r, (c.unit u.val).run = some r → r.h0.ended = true → r.h1.ended = true → j.taps 0 = false → j.taps 1 = false →
        becomes (.descriptorComplete k u) (fun d => (d.unit u.val).jobs = rest ∧ (d.unit u.val).run = none))) ∧
    (s.shrouded n = false → ∀ b rest, c.tapQ = b :: rest → ∃ t, exec (.epilogueTapBeat k) s = .next t ∧ (t.core n).tapQ = rest ∧ ∃ m, t.sent = s.sent ++ [m]) ∧
    (s.shrouded n = false → c.tapQ = [] → ∀ j rest r, c.u0.jobs = j :: rest → c.u0.run = some r → (j.desc 0).epi ≠ 0 → r.end0 = false → r.h0.ended = true →
      ∃ t, exec (.epilogueEndBeat k) s = .next t ∧ t.sent = s.sent ++ [.collar n 3 (j.desc 0).passId (BitVec.ofNat 512 (b2n r.h0.dead))] ∧ ∃ q, (t.core n).u0.run = some q ∧ q.end0 = true) ∧
    (may (sp + 0x40) → c.zeroing = false → becomes (.zero who k) (fun d => d.zeroing = true ∧ d.spad = [] ∧ d.poison = [])) ∧
    (c.zeroing = true → becomes (.zeroingEnd k) (fun d => d.zeroing = false ∧ d.spad = c.spad)) ∧
    (may (sp + 0x40) → becomes (.rlbFlush who k) (fun d => d.rlbOp = max 1 c.rlbOp ∧ d.spad = c.spad) ∧ becomes (.rlbInval who k) (fun d => d.rlbOp = max 2 c.rlbOp ∧ d.spad = c.spad)) ∧
    (c.rlbOp = 2 → becomes (.rlbDone k) (fun d => d.rlbOp = 0 ∧ d.rlb = [])) ∧ (c.rlbOp = 1 → becomes (.rlbDone k) (fun d => d.rlbOp = 0 ∧ ∀ l ∈ d.rlb, l.dirty = false)) ∧
    (may (sp + 0x44) → c.retention = .on → becomes (.retain who k true) (fun d => d.retention = .entering)) ∧ (may (sp + 0x44) → c.retention = .retained → becomes (.retain who k false) (fun d => d.retention = .waking)) ∧
    ((s.blk sp).resetDue = false → c.retention = .entering → c.zeroing = false → c.wake = false → becomes (.retentionEntry k) (fun d => d.retention = .retained ∧ d.rlb = [] ∧ d.spad = c.spad)) ∧
    ((s.blk sp).resetDue = false → c.retention = .waking → s.bit (sp + 0x44) 0 = false → becomes (.spadWakeDone k) (fun d => d.retention = .on ∧ d.spad = c.spad)) ∧
    (s.bit (sp + 0x60) 0 = true → c.spadWaits = false → ∀ line : Fin 16384, (∀ i < 8, c.wordPoisoned (8 * line.val + i) = false) →
      becomes (.scrubRead k line ⟨[], [8 * line.val]⟩) (fun d => d.wordPoisoned (8 * line.val) = true ∧ d.spad = c.spad)) ∧
    (s.shrouded n = false → (∀ st x rest, c.ob st = x :: rest → becomes (.collarOutboundBeat k st) (fun d => d.ob st = rest)) ∧
      (∀ st, (c.ib st).length < 8 → becomes (.collarInboundBeat k st beat) (fun d => d.ib st = c.ib st ++ [beat])) ∧
      (∀ rest, c.colReads = .host :: rest → ∃ t, exec (.regRvalid k v) s = .next t ∧ (t.core n).colReads = rest ∧ t.sent = s.sent ++ [.ctl 0 (v.setWidth 64)]) ∧
      (may (colPage n + 0x8C) → becomes (.colRdataRead who k) (fun d => d.colReads = c.colReads ++ [.host]) ∧
        ∃ t, exec (.colRdataWrite who k v) s = .next t ∧ t.sent = s.sent ++ [.collar n 5 (s.fld (colPage n + 0x88) 0 10) (v.setWidth 512), .ctl 0 0] ∧ t.cores = s.cores)) ∧
    (∀ rest, c.colReads = .host :: rest → ∃ t, exec (.colRdataTimeout k) s = .next t ∧ (t.core n).colReads = .dropped :: rest ∧ t.sent = s.sent ++ [.ctl 0 0])

/-- The commands of transfers, of the tensor network and of its agents complete (06 R200 to R211; 07 R224 to R227, R229, R246 to R250, R259, R270): TRANSFER_START and TRANSFER_COMPLETE, NI_TIMEOUT_EXPIRY, FLIT_RECEIVE, idle flits, the silence, raising and rise of links, the packets WRITE, READ, ACK and
RDATA, ARM and RETIRE of routers, FLIP and RETIRE of interfaces, the epoch flip, the drain sample and the agent's broadcast. Under the conditions named on the state and the operands alone, exec answers a next state with the command's own effect. -/
def Obligations.NetworkCommandsComplete : Prop :=
  ∀ (s : State) (k : CoreId) (who : Party) (e4 : Fin 4) (row : Fin 128) (p : Fin 4) (nd : Node) (f : Flit) (hdr : BitVec 168) (data : List Byte) (die : Fin 28) (v : Word), s.inReset = false → s.tripped = false →
    let n := coreNo k
    let c := s.core n
    let e : Ecc := ⟨[], []⟩
    let may (key : Nat) : Prop := s.mayWrite who key = true
    let pl := nodePlace nd p.val
    let tag := BitVec.ofNat 12 (hdrFld hdr 57 12)
    let from_ := BitVec.ofNat 8 (hdrFld hdr 38 8)
    let served := s.niTenant n ≠ 0 ∧ (from_ = s.niTenant n ∨ from_ = 0xFF ∨ s.niTenant n = 0xFF)
    let off := 64 * hdrFld hdr 69 14
    let len := 64 * hdrFld hdr 46 3
    let tp := s.tap e4.val
    (∀ j rest, c.jobs = j :: rest → c.spadWaits = false →
      (j.started = false → (∀ x ∈ rest, x.started = false ∧ x.id ≠ j.id) → j.check (s.meAt n) (j.entries c) = none → j.bytes = 0 → j.stream = 0 → c.unsent = [] →
        ∃ t, exec (.transferStart k e) s = .next t ∧ (t.core n).jobs = { j with started := true, parts := j.parts ++ j.selected.map (fun i => ⟨i, 0, 0⟩) } :: rest ∧ t.sent = s.sent) ∧
      (j.started = true → (∀ x ∈ j.parts, x.left = 0 ∧ x.code = 0) → (∀ x ∈ rest, x.id ≠ j.id) → j.stat % 16 = 0 → j.stat + 16 ≤ 2 ^ 20 →
        ∃ t, exec (.transferComplete k j.id) s = .next t ∧ (t.core n).jobs = rest ∧ (t.core n).spadBytes j.stat 16 = xferRecord j 0 0 0 0 0 ∧ (t.core n).g = c.g)) ∧
    (s.bit (niPage n + 0x44) 2 = false → c.unsent = [] → ∀ o, c.outst.find? (fun o => decide (o.tag = tag)) = some o →
      ∃ t, exec (.niTimeoutExpiry k tag) s = .next t ∧ t.bit (niPage n + 0x10) 4 = true ∧ (t.core n).outst = c.outst.erase o ∧ (t.core n).spad = c.spad) ∧
    (∀ x y, ∀ q : Fin 4, s.linkUp (nodePlace (.router k) q.val) = true → (nodePlace (.router k) q.val).far.isSome = true → (s.linkAt (nodePlace (.router k) q.val)).fails = 0 → c.sw.held = [] →
      s.bridgeAt (.core n q.val) = [f] → malformed f.hdr = false → hdrFld f.hdr 4 1 = 0 → hdrFld f.hdr 5 1 = 0 → c.rtBank (hdrFld f.hdr 2 1) ≠ .spare →
      s.bit (rtrPage n + 0x40 + 4 * hdrFld f.hdr 2 1) 9 = true → s.fld (rtrPage n + 0x40 + 4 * hdrFld f.hdr 2 1) 0 9 = x → s.fld (rtrPage n + 0x40 + 4 * hdrFld f.hdr 2 1) 16 7 = y → x = hdrFld f.hdr 6 9 → y = hdrFld f.hdr 15 7 →
      ∃ t, exec (.flitReceive (.router k) q f true) s = .next t ∧ t.sent = s.sent ++ [.flit (.router k) 4 f] ∧ t.bridgeAt (.core n q.val) = []) ∧
    (∃ t, exec (.idleFlit k) s = .next t ∧ t.cores = s.cores ∧ t.regs = s.regs ∧
      ∀ q < 4, s.linkUp (.core (linkEndCore n q) q) = true → (Place.core (linkEndCore n q) q).far.isSome = true → .idle (.router k) q ∈ t.sent) ∧
    (s.linkUp pl = true → pl.far.isSome = true → nodeIsStop nd = false → ∃ t, exec (.linkSilence nd p) s = .next t ∧ t.linkUp pl = false ∧ ∀ q, pl.far = some q → t.linkUp q = false) ∧
    (may (rtrPage n + 0x6C) → linkEndCore n p.val = n → s.linkUp (.core n p.val) = false → ∀ m q, coreFar n p.val = some (.core m q) →
      ∃ t, exec (.raise who k (BitVec.ofNat 4 (2 ^ p.val))) s = .next t ∧ t.linkAt (.core n p.val) = ⟨0, true⟩ ∧ t.sent = s.sent ++ [.idle (.router k) p.val, .ctl 0 0]) ∧
    ((s.linkAt pl).raising = true →
      (∃ t, exec (.linkUp nd p) s = .next t ∧ t.linkUp pl = true ∧ t.linkAt pl = ⟨0, false⟩) ∧ (∃ t, exec (.raiseTimeout nd p) s = .next t ∧ t.linkAt pl = ⟨0, false⟩ ∧ t.linkUp pl = s.linkUp pl)) ∧
    (s.linkUp (.tap e4.val row.val p.val) = false → p.val < 2 → ∃ t, exec (.tapLinkRaise e4 row p) s = .next t ∧ t.linkAt (.tap e4.val row.val p.val) = ⟨0, true⟩) ∧
    (malformed hdr = false → c.retention = .on → off + len ≤ 2 ^ 20 → served →
      (hdrFld hdr 0 2 = 0 → hdrFld hdr 83 16 = 0xFFFF → data.length = len → ∃ t, exec (.writePacket k hdr data) s = .next t ∧ (t.core n).spadBytes off len = data ∧ (t.core n).g = c.g) ∧
      (hdrFld hdr 0 2 = 1 → c.poisonedAt off len = false → exec (.readPacket k hdr e) s = .next ((s.ejected n hdr).respond n hdr 3 0 (c.spadBytes off len)))) ∧
    (served → ∀ o, (hdrFld hdr 0 2 = 2 → c.waiting tag false false = some o → exec (.ackPacket k hdr) s = .next ((s.ejected n hdr).answered n o (BitVec.ofNat 16 (hdrFld hdr 99 16)))) ∧
      (hdrFld hdr 0 2 = 3 → c.waiting tag false true = some o → hdrFld hdr 99 16 = 0 → spaceOf o.dst.toNat = 0 → (colOf o.dst.toNat, rowOf o.dst.toNat) = s.meAt n → c.retention = .on →
        exec (.rdata k hdr data) s = .next (((s.ejected n hdr).spadWrite n (offOf o.dst.toNat) (bytesAt data (offOf o.addr.toNat % 64) o.len)).answered n o 0))) ∧
    (may (rtrPage n + 0x48) → c.rt0 = .spare → c.rt1 = .spare → ∃ t, exec (.arm who (.core k)) s = .next t ∧ t.core n = { c with rt0 := .armed } ∧ t.bit (rtrPage n + 0x48) 3 = true) ∧
    (may (rtrPage n + 0x48) → s.oldHeld n = 0 → c.rt0 = .draining → c.rt1 = .armed → ∃ t, exec (.rtrRetire who (.core k)) s = .next t ∧ t.core n = { c with rt0 := .spare }) ∧
    (may (agtPage (24 + e4.val) + 0x40) → tp.b0 = .spare → tp.b1 = .spare → ∃ t, exec (.arm who (.taps e4)) s = .next t ∧ (t.tap e4.val).b0 = .armed ∧ (t.tap e4.val).b1 = .spare) ∧
    (may (agtPage (24 + e4.val) + 0x40) → tp.b0 = .draining → tp.b1 = .armed → ∃ t, exec (.rtrRetire who (.taps e4)) s = .next t ∧ (t.tap e4.val).b0 = .spare ∧ (t.tap e4.val).b1 = .armed) ∧
    (may (niPage n + 0x44) → s.bit (niPage n + 0x44) 4 = false → c.ni0 = .spare → c.ni1 = .spare → exec (.flip who (.core k)) s = .next ((s.modCore n (fun d => { d with ni0 := .armed })).answerCtl 0)) ∧
    (may (niPage n + 0x44) → s.bit (niPage n + 0x44) 4 = false → c.ni0 = .armed → ∃ t, exec (.flip who (.core k)) s = .next t ∧ t.bit (niPage n + 0x44) 4 = true ∧ t.cores = s.cores) ∧
    (s.time.toNat % 1024 = 0 → s.bit (niPage n + 0x44) 4 = true → (s.reg64 (niPage n + 0x48)).toNat ≤ s.time.toNat →
      ∃ t, exec (.epochFlip (.core k)) s = .next t ∧ t.stampBit n = !s.stampBit n ∧ t.bit (niPage n + 0x44) 4 = false ∧ (t.core n).g = c.g) ∧
    (may (niPage n + 0x44) → s.bit (niPage n + 0x44) 2 = false → c.ni0 = .draining → c.ni1 = .armed → exec (.niRetire who (.core k)) s = .next ((s.setCore n { c with ni0 := .spare }).answerCtl 0)) ∧
    (may (agtPage die.val + 0x44) → s.bit (agtPage die.val + 0x44) 2 = false → ∃ t, exec (.drainSample who die true) s = .next t ∧ t.bit (agtPage die.val + 0x44) 2 = true ∧ t.cores = s.cores) ∧
    (s.bit (agtPage die.val + 0x44) 2 = true → ∃ t, exec (.drainSampleDone die) s = .next t ∧ t.bit (agtPage die.val + 0x44) 2 = false ∧
      t.reg (agtPage die.val + 0x48) = BitVec.ofNat 32 (s.drainSums die.val (s.fld (agtPage die.val + 0x44) 1 1)).1) ∧
    (may (agtPage die.val + 0x58) → die.val < 24 → s.bit (agtPage die.val + 0x50) 4 = true → s.fld (agtPage die.val + 0x50) 0 4 = 9 → s.fld (agtPage die.val + 0x54) 0 12 = 0x40 →
      ∃ t, exec (.agtBcastData who die v) s = .next t ∧ ∀ i < 2112, s.liveCore (die.val * 2112 + i) = true → t.niTenant (die.val * 2112 + i) = v.setWidth 8)

/-- The commands of the memory planes, of health and of the recorder complete (06 R196, R198; 07 R254 to R258, R262; 10 R329 to R331; 08 R271 to R281, R287, R294): the requests RDS, RDO, UPG, WB, RD, WR, CRD, CWR, command data and configuration frames, the snoops and every answer; reports, the suspect table, storms,
reefs, self-tests, checkpoints and epochs. Under the conditions named on the state and the operands alone, exec answers a next state with the command's own effect. -/
def Obligations.PlaneCommandsComplete : Prop :=
  ∀ (s : State) (q : PReq) (k : CoreId) (data : List Byte) (v : Dword) (tag : BitVec 12), s.inReset = false → s.tripped = false →
    let n := coreNo k
    let c := s.core n
    let edge := q.dstDie.toNat - 24
    let src := planeEnd q.srcDie.toNat q.srcUnit.toNat
    let req := q.srcDie.toNat * 2112 + q.srcUnit.toNat
    let carried (dst : PlaneEnd) : Prop := s.planeCarries 0 src dst = true ∧ s.planeCarries 3 src dst = true
    let key := q.addr.toNat % 2 ^ 40
    let who : Party := if q.tenant = 0xFF then .firmware else .program (coreOf req)
    let sends (t : State) (m : Msg) : Prop := t.sent = s.sent ++ [m]
    (q.op.toNat < 0x0B ∨ 0x0F < q.op.toNat) → q.size.toNat < 3 →
    (∀ pa, 24 ≤ q.dstDie.toNat → q.dstDie.toNat < 28 → q.addr.toNat / 2 ^ 56 = 1 → carried (.edge edge) →
      s.translate edge q.tenant (q.addr.toNat % 2 ^ 41 / 64 * 64) 64 = .ok pa → (s.chan (chanCo pa).1).st = .active →
      let d := s.dirAt (pa / 64)
      (d.st = .s [req] → d.txn = none →
        (∃ t x, exec (.rds q .clean) s = .next t ∧ (t.dirAt (pa / 64)).st = .s [req] ∧ (t.dirAt (pa / 64)).txn = some x ∧ x.unblock = true ∧ x.owed = []) ∧
        (∃ t x, exec (.rdo q .clean) s = .next t ∧ (t.dirAt (pa / 64)).st = .m req ∧ (t.dirAt (pa / 64)).txn = some x ∧ x.unblock = true ∧ x.owed = []) ∧
        (∃ t x, exec (.upg q .clean) s = .next t ∧ (t.dirAt (pa / 64)).st = .m req ∧ (t.dirAt (pa / 64)).txn = some x ∧ x.unblock = true ∧ x.owed = [] ∧ t.lpddr = s.lpddr)) ∧
      (d.st = .u → d.txn = none →
        (∃ t, exec (.rd q .clean) s = .next t ∧ t.dirAt (pa / 64) = d ∧ ∃ m, t.sent = s.sent ++ [m]) ∧
        (∃ t, exec (.wr q 0xFFFFFFFFFFFFFFFF data .clean) s = .next t ∧ t.dirAt (pa / 64) = d ∧ ∃ m, t.sent = s.sent ++ [m])) ∧
      (d.st = .m req → d.txn = none → ∃ t, exec (.wb q data false) s = .next t ∧ (t.dirAt (pa / 64)).st = (if q.be = 0 then .s [req] else .u) ∧ (t.dirAt (pa / 64)).txn = none)) ∧
    (q.addr.toNat / 2 ^ 40 = 0x3000C → q.size = 0 → key % 4 = 0 → s.planeCarries 0 src (addrEnd q.addr.toNat) = true → ∀ b, keyBlk key = some b → b ≠ .emit → b ≠ .col →
      (s.mayRead (if q.tenant = 0xFF then .firmware else .runtime q.tenant) key = true → exec (.crd q) s = .next ((s.readCtl key false).1.answer 0x19 q 0 (leBytes 4 (s.readCtl key false).2.toNat) false)) ∧
      (s.mayWrite who key = true → q.tenant = 0xFF → exec (.cwr q v) s = .next ((s.writeCtl key false v).ack q 0))) ∧
    (q.dstDie.toNat < 24 → q.addr.toNat / 2 ^ 56 = 0 → q.addr.toNat % 2 ^ 20 + data.length ≤ 2 ^ 20 →
      let m := s.physOf (q.addr.toNat / 2 ^ 32 % 512) (q.addr.toNat / 2 ^ 48 % 128)
      carried (coreEnd m) → s.niTenant m ≠ 0 → q.tenant = s.niTenant m → (s.core m).retention = .on →
      ∃ t, exec (.planeCmd q data) s = .next t ∧ (t.core m).spadBytes (q.addr.toNat % 2 ^ 20) data.length = data ∧ (t.core m).g = (s.core m).g) ∧
    (∀ (e : Fin 4) (die : Fin 28) (r : BitVec 24) (f : Nat) (ws : List Word), ws.length = 64 → r.toNat / 2 ^ 19 = die.val → die.val < 24 → regionValid r.toNat = true → (s.region r.toNat).st = .loading → f < regionFrames r.toNat →
      s.planeCarries 0 (.edge e.val) (planeEnd die.val 0xF003) = true → s.planeCarries 3 (.edge e.val) (planeEnd die.val 0xF003) = true →
      ∃ t, exec (.cfg e die r f ws) s = .next t ∧ t.frame r.toNat f = ws ∧ t.regions = s.regions) ∧
    (∀ line l, s.planeCarries 2 (lineEnd line) (coreEnd n) = true → c.rlbFind line = some l → l.dirty = false →
      (∃ t, exec (.snpInv k line) s = .next t ∧ (∀ x ∈ (t.core n).rlb, x.line ≠ line) ∧ sends t (.plane 0x1A { s.lineReq n line with size := 2 } [] false)) ∧
      (∃ t, exec (.snpDown k line) s = .next t ∧ (∀ x ∈ (t.core n).rlb, x.line = line → x.own = false) ∧ sends t (.plane 0x1A { s.lineReq n line with size := 2 } [] false))) ∧
    (∀ line pl x, s.planeCarries 1 (coreEnd n) (lineEnd line) = true → s.snoopLine n line = some pl → (s.dirAt pl).txn = some x →
      (∀ m, x.owed = [n, m] → m ≠ n → (∀ l, (s.dirAt pl).st ≠ .sc l) →
        ∃ t, exec (.snpRsp k line none false) s = .next t ∧ (t.dirAt pl).txn = some { x with owed := [m] } ∧ t.sent = s.sent) ∧
      (x.owed = [] → x.unblock = true → x.req.srcDie.toNat * 2112 + x.req.srcUnit.toNat = n → (s.dirAt pl).waiting = [] →
        ∃ t, exec (.unblock k line) s = .next t ∧ (t.dirAt pl).txn = none ∧ (t.dirAt pl).st = (s.dirAt pl).st)) ∧
    (tag.toNat < 0x800 → c.unsent = [] → ∀ o, c.outst.find? (fun o => decide (o.tag = tag)) = some o → s.planeCarries 1 (addrEnd o.addr.toNat) (coreEnd n) = true →
      (c.waiting tag true false = some o → ∃ t, exec (.planeAck (.core k) tag 0) s = .next t ∧ (t.core n).outst = c.outst.erase o ∧ (t.core n).spad = c.spad) ∧
      (c.waiting tag true true = some o → s.planeCarries 3 (addrEnd o.addr.toNat) (coreEnd n) = true → exec (.dataHdr (.core k) tag 0 data) s = .next (s.readData n o data))) ∧
    (0xFF0 ≤ tag.toNat → ∀ r, c.seqReads = [r] → r.tag = tag → r.dropped = false → r.ans = none → s.planeCarries 1 (addrEnd r.addr.toNat) (coreEnd n) = true →
      ∃ t, exec (.cdata k tag v) s = .next t ∧ (t.core n).seqReads = [{ r with ans := some (0, leBytes 8 v.toNat) }])

/-- The commands of the health controllers, of reefs and of the recorder complete (08 R271 to R281, R287, R293, R294, R301): a report arrives; SELF, ACCUSE and LINK reports fold into the suspect table; the suspect window and the storm window end; HC_RELEASE; a reef; a background self-test; a checkpoint; the end of an
epoch; the trip of an island monitor. Under the conditions named on the state and the operands alone, exec answers a next state with the command's own effect. -/
def Obligations.HealthCommandsComplete : Prop :=
  ∀ (s : State) (die : Fin 24) (who : Party) (w t0 : Dword) (entry : Fin 16) (mask : Word) (k : CoreId) (tn : BitVec 8), s.inReset = false →
    let d := die.val
    let pg := hcPage d
    let h := s.hcAt d
    let n := coreNo k
    let a := n - n % 66 + 64
    let ring := (s.tenant tn.toNat).ring
    let len := max 1 (s.reg (recPage (s.tenant tn.toNat).res.home.val + 0x44)).toNat
    let edge := (ring.since / len + 1) * len
    (h.win = s.time.toNat / 1000 → h.window < 64 → h.queue.length < 256 → 1 ≤ w.toNat % 16 → w.toNat % 16 ≤ 3 →
      ∃ t, exec (.faultReportArrival die w) s = .next t ∧ (t.hcAt d).queue = h.queue ++ [(s.time, w)] ∧ (t.hcAt d).table = h.table) ∧
    (∀ kind i, (kind = 1 ∧ i = Instr.reportSelf die false) ∨ (kind = 2 ∧ i = Instr.reportAccuse die false) ∨ (kind = 3 ∧ i = Instr.reportLink die false) →
      h.queue = [(t0, w)] → w.toNat % 16 = kind → w.toNat / 16 % 2 ^ 12 < 2112 → h.table = [] →
      ∃ t, exec i s = .next t ∧ (t.hcAt d).queue = [] ∧ ((t.hcAt d).entry 0).suspect.toNat = w.toNat / 16 % 2 ^ 12 ∧ ((t.hcAt d).entry 0).count = 1 ∧
        ((t.hcAt d).entry 0).firstTime = t0 ∧ ((t.hcAt d).entry 0).st ≠ .free) ∧
    ((h.entry entry.val).st = .opened → ∃ t, exec (.suspectWindowExpiry die entry) s = .next t ∧ ((t.hcAt d).entry entry.val).st = .closed ∧ t.bit (pg + 0x10) 1 = true) ∧
    (h.win ≠ s.time.toNat / 1000 → ∃ t, exec (.stormWindowEnd die) s = .next t ∧ (t.hcAt d).win = s.time.toNat / 1000 ∧ (t.hcAt d).window = 0 ∧ (t.hcAt d).table = h.table) ∧
    (s.mayWrite who (pg + 0x58) = true → ∃ t, exec (.hcRelease who die mask) s = .next t ∧
      ∀ e < 16, (t.hcAt d).entry e = if mask.getLsbD e = true ∧ ((h.entry e).st = .failed ∨ (h.entry e).st = .closed) then Suspect.empty else h.entry e) ∧
    (∀ x y, s.logOf n = some (x, y) → s.isFailed n = true → s.markOf n ≠ .removed → s.reefs = [] → n ≠ a → n ≠ a + 1 → s.idleSpare a = true →
      ∃ t, exec (.reef k true true true) s = .next t ∧ t.markOf n = .reefed ∧ t.markOf a = .serving ∧ t.niTenant a = s.niTenant n ∧ t.niTenant n = 0) ∧
    (s.markOf n = .reefed → exec (.backgroundSelfTest k true) s = .next (s.mark n .repatriable)) ∧
    (∀ rp x y, (s.tenant tn.toNat).replay = some rp → rp.newer ≤ 1 → rp.domain = [⟨x, x, y, y⟩] → s.reefs = [] →
      ∃ t rp', exec (.checkpointRun tn) s = .next t ∧ (t.tenant tn.toNat).replay = some rp' ∧ rp'.newer = 1 - rp.newer ∧ rp'.slot x y rp.newer = rp.slot x y rp.newer) ∧
    ((s.tenant tn.toNat).live = true → edge ≤ s.time.toNat → s.time.toNat < edge + len → ring.used + 48 ≤ ring.size →
      ∃ t x, exec (.recorderEpochEnd tn) s = .next t ∧ (t.tenant tn.toNat).ring.recs = ring.recs ++ [x] ∧ x.typ = 5 ∧ x.time = BitVec.ofNat 64 edge ∧ (t.tenant tn.toNat).ring.since = edge) ∧
    (∃ page code, exec (.islandMonitorTrip k .monitor) s = .next (({ s with freeCtr := s.freeCtr + 1 }).selfReport n page code)) ∧
    (∀ pc, ∃ t, exec (.islandMonitorTrip k (.loopBuf pc)) s = .next t ∧ (t.core n).loopBuf = Sparse.erase (s.core n).loopBuf pc.toNat)

/-- The commands of configuration and of the fabric complete (10 R316, R323; 11 R350, R354 to R375): SYNC, NOP, DECL, DECLR, SET, SETR, ADD, ADDR, WRITE, REPEAT, CRC, SIG, the verified signature, START, the idle timeout, a region's clear, its three release stages, CFG_DONE, the start of the controllers, the
serial port, the clamp log, SHR_CTRL.CLEAR, the frame checker and a clock edge. Under the conditions named on the state and the operands alone, exec answers a next state with the command's own effect. -/
def Obligations.HalyardCommandsComplete : Prop :=
  ∀ (s : State) (p : Pusher) (who : Party) (e : Fin 4) (arg : BitVec 24) (hdr len rect v : Word) (frame block : List Word) (r : BitVec 24), s.inReset = false →
    let x := s.stm p
    let k := r.toNat
    let g := s.region k
    let idx := arg.toNat
    let word (op : Nat) : Word := BitVec.ofNat 32 (op * 2 ^ 24 + idx)
    let fine (op : Nat) (rest : List Word) : Prop := s.grammar p x op idx rest = none
    let open_ : Prop := s.portOk p = true ∧ x.opened = true ∧ x.ended = false ∧ x.rejected = false ∧ s.buf p = []
    let stream (i : Instr) (ws : List Word) (f : Stream → Prop) : Prop := ∃ t, exec i s = .next t ∧ (t.stm p).opened = true ∧ (t.stm p).rejected = false ∧ (t.stm p).pos = x.pos + ws.length ∧
      (t.stm p).crc = ws.foldl crcWord x.crc ∧ f (t.stm p) ∧ t.regions = s.regions
    let inRect (q : BitVec 24) : Prop := ∃ row col, rect.toNat / 2 ^ 16 % 32 ≤ row ∧ row ≤ rect.toNat / 2 ^ 24 % 32 ∧ rect.toNat % 128 ≤ col ∧ col ≤ rect.toNat / 2 ^ 8 % 128 ∧
      q.toNat = idx / 2 ^ 19 * 2 ^ 19 + row * 66 + col
    let ready := if p.board then (s.halAt p.e.val).readyBoard else (s.halAt p.e.val).readyMc
    (s.portOk p = true → x.ended = false → x.opened = false → s.buf p = [] → hdr = 0x00FF0100 → (p.board = true → 3 ≤ s.boot) → (p.board = false → (s.halAt p.e.val).forTenant = false) →
      ∃ t, exec (.streamSync p hdr len 0) s = .next t ∧ (t.stm p).opened = true ∧ (t.stm p).len = len.toNat ∧ (t.stm p).pos = 4 ∧ t.reg (resKey p) = 3 ∧ t.regions = s.regions) ∧
    (open_ →
      (fine 0 [] → stream (.streamNop p arg) [word 0] (fun y => y.declared = x.declared ∧ y.cur = x.cur)) ∧
      (fine 1 [] → stream (.decl p arg) [word 1] (fun y => ∀ q, q ∈ y.declared ↔ q ∈ x.declared ∨ q = arg)) ∧
      (fine 2 [rect] → stream (.declr p arg rect) [word 2, rect] (fun y => ∀ q, q ∈ y.declared ↔ q ∈ x.declared ∨ inRect q)) ∧
      (fine 3 [] → x.typ = 0 → stream (.streamSet p arg) [word 3] (fun y => y.cur = [arg])) ∧
      (fine 4 [rect] → stream (.setr p arg rect) [word 4, rect] (fun y => ∀ q, q ∈ y.cur ↔ inRect q)) ∧
      (fine 5 [] → stream (.streamAdd p arg) [word 5] (fun y => ∀ q, q ∈ y.cur ↔ q ∈ x.cur ∨ q = arg)) ∧
      (fine 6 [rect] → stream (.addr p arg rect) [word 6, rect] (fun y => ∀ q, q ∈ y.cur ↔ q ∈ x.cur ∨ inRect q)) ∧
      (frame.length = 64 → fine 7 frame → x.begun = true → x.cur = [r] → x.declared.contains r = true → g.clearing = false → idx < regionFrames k → frameClamps k idx (frameNat frame) = [] →
        stream (.streamWrite p arg frame) (word 7 :: frame) (fun y => y.last = frame ∧ y.lastIdx = idx) ∧ ∃ t, exec (.streamWrite p arg frame) s = .next t ∧ t.frame k idx = frame) ∧
      (fine 8 [] → idx = 1 → x.cur = [r] → x.declared.contains r = true → g.clearing = false → x.lastIdx + 1 < regionFrames k → frameClamps k (x.lastIdx + 1) (frameNat x.last) = [] → x.last.length = 64 →
        stream (.streamRepeat p arg) [word 8] (fun y => y.lastIdx = x.lastIdx + 1) ∧ ∃ t, exec (.streamRepeat p arg) s = .next t ∧ t.frame k (x.lastIdx + 1) = x.last) ∧
      (fine 9 [v] → v = ~~~ crcWord x.crc (word 9) → stream (.streamCrc p arg v) [word 9, v] (fun y => y.crcOk = true)) ∧
      (block.length = 25 → fine 10 block → stream (.streamSig p arg block) (word 10 :: block) (fun y => y.sig = some (block.getD 0 0, block.drop 1))) ∧
      (fine 11 [] → x.typ = 0 → x.foreign = false → ∃ t, exec (.streamStart p arg) s = .next t ∧ t.stm p = Stream.closed ∧ t.reg (resKey p) = 1 ∧ t.regions = s.regions) ∧
      (∃ t, exec (.streamIdleTimeout p) s = .next t ∧ t.stm p = Stream.closed ∧ t.reg (resKey p) = BitVec.ofNat 32 (2 + 0x1006 * 2 ^ 16)) ∧
      (∀ key rs, x.sig = some (key, rs) → x.sigOk = false → s.sec.keyOk key.toNat x.typ = true → s.sec.fused x.typ ≤ x.svn →
        ∃ t, exec (.signatureVerified p) s = .next t ∧ (Config.ecdsaOk key.toNat s.sec.owner (Config.sha384 ((x.words.map (fun w => leBytes 4 w.toNat)).flatten)) rs = true → t.stm p = { x with sigOk := true } ∧ t.regions = s.regions))) ∧
    (g.clearing = true → (∀ e < 4, ∀ b, (s.halAt e).buf b = []) → ∃ t, exec (.regionClearDone r) s = .next t ∧ t.region k = { g with clearing := false } ∧ t.cfgmem = s.cfgmem) ∧
    (ready = [r] → g.st = .loading → g.clearing = false → 3 ≤ s.boot → k / 2 ^ 17 % 4 = 0 → ∃ t, exec (.releaseStage1 p) s = .next t ∧ (t.region k).st = .releasing ∧ (t.region k).stage = 1 ∧ (t.region k).at_ = s.time) ∧
    (g.st = .releasing → g.stage = 1 → g.at_.toNat + 128 ≤ s.time.toNat → ∃ t, exec (.releaseStage2 r) s = .next t ∧ t.region k = { g with stage := 2 } ∧ t.cores = s.cores) ∧
    (g.st = .releasing → g.stage = 2 → g.at_.toNat + 256 ≤ s.time.toNat → k / 2 ^ 17 % 4 = 0 → k / 2 ^ 19 < 24 → k % 2 ^ 12 < 2112 → ∃ t, exec (.releaseStage3 r) s = .next t ∧ (t.region k).st = .running ∧ (t.region k).stage = 3 ∧ t.cores = s.cores) ∧
    (s.boot = 4 → s.cfgDone = false → (∀ e < 4, (s.region (edgeRegion e 0)).at_.toNat + 320 ≤ s.time.toNat) → ∃ t, exec .cfgDoneRise s = .next t ∧ t.cfgDone = true ∧ .pin .cfgDone 1 ∈ t.sent) ∧
    (((s.region (regionId 24 3 0)).st = .releasing ∨ (s.region (regionId 24 3 0)).st = .running) → s.sec.fwKey ≠ 0 → s.mcOn = false → ∃ t, exec .mcStart s = .next t ∧ t.mcOn = true ∧ t.ready 3 = true) ∧
    (s.cfgMode = false → s.jtag = .idcode → s.buf boardPort = [] → s.cfgRdy = true → (s.stm boardPort).opened = false → (s.stm boardPort).ended = false → (s.halAt 0).bytes = [] →
      ∃ t, exec (.serialWrite [0xA5, 0xC3, 0x3C, 0x5A]) s = .next t ∧ t.buf boardPort = [0x5A3CC3A5] ∧ (t.halAt 0).bytes = []) ∧
    (s.cfgMode = false → exec .serialStatus s = .next (s.send (.bytes false (leBytes 4 (s.reg (halPage 0 + 0x44)).toNat)))) ∧
    (s.mayWrite who (halPage e.val + 0x74) = true → ∀ y l, (s.halAt e.val).log = y :: l → ∃ t, exec (.clogPop who e) s = .next t ∧ (t.halAt e.val).log = l ∧ t.cores = s.cores) ∧
    (regionValid k = true → k / 2 ^ 17 % 4 < 2 → s.mayWrite who (regionKey k 0x40) = true → g.st = .running → ∃ t, exec (.shrClear who r) s = .next t ∧ (t.region k).st = .empty ∧ (t.region k).clearing = true) ∧
    (regionValid k = true → k / 2 ^ 17 % 4 = 0 → exec (.configFrameCheck r 0 .corrected) s = .next (s.incSat (colPage (k / 2 ^ 19 * 2112 + k % 2 ^ 12) + 0x54))) ∧
    (∀ c : CoreId, s.tripped = false → (s.region (collarRegion (coreNo c))).st = .running → 3 ≤ Sparse.get (fun _ => 0) (s.region (collarRegion (coreNo c))).edges 0 →
      let q := collarRegion (coreNo c)
      ∃ t, exec (.fabricClockEdge (.collar c) [] [] [] []) s = .next t ∧ t.cfgmem = s.cfgmem ∧ t.cores = s.cores ∧
        ∀ j < 16, ∀ i < 16, bits (s.cell q j i) 18 2 = 0 → bits (s.cell q j i) 20 1 = 1 → t.ff q j i = (s.cluster q (s.insOf q []) (s.comb q (s.insOf q [])) j).comb.getD i false)

/-- The commands of the memory channels and of the lanes complete (12 R377, R388 to R395, R398; 13 R401 to R408, R426): the window registers, refresh, temperature, neighbour refresh, self-refresh, re-centring, scrubbing, BEGIN, GO, OFFLINE, training runs and fills; lane claims and power, one inverted
symbol, the checker, scans, slips and lock. Under the conditions named on the state and the operands alone, exec answers a next state with the command's own effect. -/
def Obligations.ChannelAndLaneCommandsComplete : Prop :=
  ∀ (s : State) (who : Party) (e : Fin 4) (t8 : Fin 64) (c : Chan) (bank : Fin 32) (full : Bool) (dly : List (BitVec 6 × BitVec 6)) (co : Nat) (errs : List (Nat × BitVec 16 × BitVec 16)) (l : LaneId) (region : BitVec 4) (pwr : BitVec 2) (n64 : Dword) (bad count v : Word), s.inReset = false →
    let k := chanNo c
    let pg := lpdPage k
    let ch := s.chan k
    let win := winKey e.val t8.val
    let may (key : Nat) : Prop := s.mayWrite who key = true
    let queue := Sparse.get (fun _ => []) ch.neighbours bank.val
    let j := laneNo l
    let key := laneKey j 0
    let x := s.lane j
    (0 < t8.val → s.bit win 31 = true → v.getLsbD 31 = false → may win → exec (.lpdWinWrite who e t8 false v) s = .next ((s.setReg win (v &&& 0x7FFF)).answerCtl 0)) ∧
    (0 < t8.val → s.bit win 31 = false → may (win + 4) → exec (.lpdWinWrite who e t8 true v) s = .next ((s.setReg (win + 4) (v &&& 0x1FFFFF)).answerCtl 0)) ∧
    (ch.st = .active → exec (.refresh c bank false) s = .next (s.setChan k { ch with postponed := Sparse.put (fun _ => 0) ch.postponed bank.val 0 })) ∧
    (∀ hot, ∃ t, exec (.temperaturePoll c hot) s = .next t ∧ t.bit (pg + 0x40) 4 = hot ∧ t.cores = s.cores ∧ t.lpddr = s.lpddr) ∧
    (∀ a rest, queue = a :: rest → ∃ t, exec (.neighbourRefresh c bank) s = .next t ∧ t.chan k = { ch with neighbours := Sparse.put (fun _ => []) ch.neighbours bank.val rest } ∧ t.reg (pg + 0x90) = s.reg (pg + 0x90) + 1) ∧
    (ch.st = .active → ch.helper = .none → s.bit (pg + 0x44) 1 = true → ∃ t, exec (.selfRefreshEntry c) s = .next t ∧ (t.chan k).st = .selfRefresh ∧ t.lpddr = s.lpddr) ∧
    (ch.st = .selfRefresh → ∃ t, exec (.selfRefreshExit c) s = .next t ∧ (t.chan k).st = .active ∧ (t.chan k).recentre = [] ∧ t.lpddr = s.lpddr) ∧
    (ch.st = .active → ∃ t, exec (.recentre c dly) s = .next t ∧ t.chans = s.chans ∧ ∀ i < 24, i < dly.length → (t.reg (pg + 0x1A0 + 4 * i)).toNat = (dly.getD i (0, 0)).1.toNat + (dly.getD i (0, 0)).2.toNat * 2 ^ 8) ∧
    (s.bit (pg + 0x44) 0 = true → ch.st = .active → co < chanBytes → Sparse.get (fun _ => false) s.lpoison (paOf k (co / 64 * 64) / 64) = false →
      ∃ t, exec (.lpddrScrub c co .uncorrectable) s = .next t ∧ Sparse.get (fun _ => false) t.lpoison (paOf k (co / 64 * 64) / 64) = true ∧ t.lpddr = s.lpddr) ∧
    (may (pg + 0x48) → ch.st = .untrained → ∃ t, exec (.lpdBegin who c) s = .next t ∧ (t.chan k).st = .training ∧ t.fld (pg + 0x40) 0 3 = 1) ∧
    (may (pg + 0x48) → ch.st = .training → ∃ t, exec (.lpdGo who c full) s = .next t ∧ (t.chan k).st = .active ∧ t.fld (pg + 0x40) 8 8 = (if full then 128 else 96)) ∧
    (may (pg + 0x48) → ch.st = .training → ∃ t, exec (.lpdOffline who c) s = .next t ∧ (t.chan k).st = .offline ∧ t.fld (pg + 0x40) 0 3 = 4) ∧
    (may (pg + 0x100) → ch.st = .training → ch.helper = .none → (∃ t, exec (.trainingRun who c) s = .next t ∧ (t.chan k).helper = .run ∧ t.bit (pg + 0x11C) 0 = true) ∧ (∃ t, exec (.fill who c) s = .next t ∧ (t.chan k).helper = .fill)) ∧
    (may (pg + 0x100) → ch.helper = .run → ∃ t, exec (.trainingStop who c) s = .next t ∧ (t.chan k).helper = .stopping) ∧
    (ch.helper = .run → ∃ t, exec (.trDone c errs) s = .next t ∧ (t.chan k).helper = .none ∧ t.bit (pg + 0x11C) 0 = false ∧ t.bit (pg + 0x10) 4 = true) ∧
    (may key → region ≠ 0 → ∃ t, exec (.laneClaim who l true region) s = .next t ∧ t.bit key 2 = true ∧ t.fld key 8 4 = region.toNat) ∧
    (may key → s.bit key 2 = true → s.fld key 8 4 ≠ 0 → pwr ≠ 3 → ∃ t, exec (.lanePowerRequest who l pwr) s = .next t ∧ (t.lane j).want = pwr.toNat ∧ t.fld key 4 2 = pwr.toNat) ∧
    (x.moving = true → x.want = x.goal → ∃ t, exec (.lanePowerDone l) s = .next t ∧ (t.lane j).moving = false ∧ t.bit (quadPage j + 0x10) 3 = true) ∧
    (may (laneKey j 0x0C) → s.fld (laneKey j 8) 0 4 ≠ 0 → ∃ t, exec (.injectOne who l) s = .next t ∧ .inverted j ∈ t.sent ∧ t.regs = s.regs) ∧
    (x.prbs = true → ∃ t, exec (.prbsRelock l) s = .next t ∧ (t.lane j).prbs = false ∧ t.bit (quadPage j + 0x10) 1 = true) ∧
    (may (laneKey j 0x20) → (∃ t, exec (.scanStart who l) s = .next t ∧ (t.lane j).scan = true ∧ t.regs = s.regs) ∧ (x.scan = true → x.nextScan = none → ∃ t, exec (.scanStop who l count) s = .next t ∧ (t.lane j).scan = false)) ∧
    (x.scan = true → x.nextScan = none → ∃ t, exec (.scanDone l count) s = .next t ∧ (t.lane j).scan = false ∧ t.bit (quadPage j + 0x10) 2 = true) ∧
    (may (laneKey j 0x28) → ∃ t, exec (.lqSlip who l) s = .next t ∧ t.lane j = { x with slip := true } ∧ t.regs = s.regs) ∧
    (s.bit key 2 = true → exec (.rxSlip l) s = .next (s.setLane j { x with slip := true })) ∧
    (x.slip = true → ∃ t, exec (.bitSlip l) s = .next t ∧ (t.lane j).slip = false ∧ (t.reg (laneKey j 0x2C)).toNat = (s.fld (laneKey j 0x2C) 0 8 + 1) % 256) ∧
    (x.lock = true → ∃ t, exec (.lockLost l) s = .next t ∧ (t.lane j).lock = false ∧ t.bit (quadPage j + 0x10) 0 = true) ∧
    (x.st = .on → ∃ t, exec (.clockRecoveryLock l) s = .next t ∧ (t.lane j).lock = true ∧ t.reg (laneKey j 0x2C) = 0) ∧
    (x.lock = true → x.st = .on → s.fld (laneKey j 8) 4 4 ≠ 0 → ∃ t, exec (.prbsCheckerLock l n64 bad) s = .next t ∧ (t.lane j).prbs = true ∧ t.cores = s.cores)

/-- The commands of the Ethernet ports and of device time complete (13 R409, R410, R414, R416 to R424, R430; 17 R516): a mode change, the links, reception, the meters, recovery, transmission, the gate lists, verification, the lock, holdover, a time fault, the two PPS pins and a time read. Under the
conditions named on the state and the operands alone, exec answers a next state with the command's own effect. -/
def Obligations.EthernetCommandsComplete : Prop :=
  ∀ (s : State) (who : Party) (p : PortId) (sub : Fin 4) (mode : BitVec 3) (f : RxFrame) (r : Fin 64) (die : Fin 28) (offset : Int) (ok : Bool), s.inReset = false →
    let n := portNo p
    let u := sub.val
    let mac := macPage n
    let tsn := tsnPage n
    let pg := timePage 24
    let src := s.fld (pg + 0x40) 0 2
    (s.mayWrite who (mac + 0x40) = true → mode ≠ 7 → ∃ t, exec (.modeChange who p mode) s = .next t ∧ t.mode n = mode.toNat) ∧
    (u < modeSubs (s.mode n) → s.bit (mac + 0x40) (4 + u) = true → (∀ j < 4, modeSub (s.mode n) j = some u → s.bit (laneKey (n * 4 + j) 0) 2 = false) →
      ∃ t, exec (.ethLinkUp p sub false) s = .next t ∧ t.bit (mac + 0x44) u = true ∧ t.bit (mac + 0x10) 0 = true) ∧
    (∃ t, exec (.ethLinkUp p sub true) s = .next t ∧ t.bit (mmacPage + 0x44) 0 = true ∧ t.bit (mmacPage + 0x10) 0 = true) ∧
    (s.bit (mac + 0x44) u = true → ∃ t, exec (.ethLinkDown p sub false) s = .next t ∧ t.bit (mac + 0x44) u = false ∧ t.bit (mac + 0x10) 1 = true) ∧
    (s.bit (mac + 0x44) u = true → s.jtag = .idcode → 64 ≤ f.len → f.len ≤ s.fld (mac + 0x40) 8 14 → f.pause = false → f.sci = none → f.ptp = true →
      ∃ t, exec (.frameReceive p sub f true .clean) s = .next t ∧ t.reg (ethKey n u 0) = s.reg (ethKey n u 0) + 1 ∧ t.sent = s.sent ++ [.handed p 3 0 f]) ∧
    (s.time.toNat % 1024 = 0 → ∃ t, exec (.meterCredit p) s = .next t ∧ t.regs = s.regs ∧ ∀ g < 128,
      Sparse.get (fun _ => 0) (t.port n).committed g = min (bits (s.entry128 (meterKey n g)) 64 24 * 15625) (Sparse.get (fun _ => 0) (s.port n).committed g + 2 * bits (s.entry128 (meterKey n g)) 0 32)) ∧
    ((Sparse.get (fun _ => History.empty) (s.port n).seen r.val).since.toNat + max 1 (s.fld (recoveryKey n r.val) 8 24) * 1000 ≤ s.time.toNat →
      ∃ t, exec (.recoveryReset p r) s = .next t ∧ Sparse.get (fun _ => History.empty) (t.port n).seen r.val = History.empty ∧ t.regs = s.regs) ∧
    (∀ g, s.bit (mac + 0x44) u = true → s.bit (tsn + 0x40) 0 = false → s.bit (tsn + 0x44) 2 = false → s.sendingOn n u = none → s.txq n u = [g] → g.gone = 0 → s.macsecTx g.tenant.toNat = false →
      ∃ t, exec (.frameTransmit p sub) s = .next t ∧ t.txq n u = [] ∧ t.sent = s.sent ++ [.wire p u g g.len] ∧ t.reg (ethKey n u 0x10) = s.reg (ethKey n u 0x10) + 1) ∧
    (s.mayWrite who (tsn + 0x70) = true → (s.port n).swapAt = none → ∃ t, exec (.tsnSwap who p) s = .next t ∧ (t.port n).swapAt.isSome = true ∧ t.bit (tsn + 0x44) 1 = true) ∧
    (∀ at_, (s.port n).swapAt = some at_ → at_.toNat ≤ s.time.toNat → ∃ t, exec (.gateListChange p) s = .next t ∧ (t.port n).swapAt = none ∧ t.bit (tsn + 0x44) 1 = false ∧ t.operBank n = 1 - s.operBank n ∧ t.bit (tsn + 0x10) 0 = true) ∧
    (s.bit (tsn + 0x40) 1 = true → ∃ t, exec (.verificationEnd p ok) s = .next t ∧ t.bit (tsn + 0x44) 2 = ok ∧ (ok = false → t.bit (tsn + 0x10) 2 = true)) ∧
    (src = 0 → ∃ t, exec (.timeLock offset) s = .next t ∧ t.bit (pg + 0x44) 0 = true ∧ t.bit (govPage + 0x70) 1 = true ∧ t.time = s.time) ∧
    (src = 1 → ∃ t, exec .holdoverEntry s = .next t ∧ t.bit (pg + 0x44) 2 = true ∧ t.bit (pg + 0x44) 1 = false ∧ t.time = s.time) ∧
    (src ≠ 0 → ∃ t, exec .timeFault s = .next t ∧ t.bit (pg + 0x44) 3 = true ∧ t.bit (pg + 0x10) 2 = true) ∧
    (∃ t, exec .ppsInEdge s = .next t ∧ t.reg64 (pg + 0x60) = s.time ∧ t.bit (pg + 0x68) 1 = true ∧ t.time = s.time) ∧
    (s.bit (pg + 0x40) 7 = true → (s.time.toNat + 5) % 1000000000 ≤ 10 → ∃ t, exec .ppsOutRise s = .next t ∧ .pin .ppsOut 1 ∈ t.sent ∧ t.ppsUntil = some (s.time + BitVec.ofNat 64 (s.fld (pg + 0x40) 16 8 * 1000000))) ∧
    (s.mayRead who (timePage die.val + 0x48) = true → ∃ t : State, exec (.timeNowRead who die) s = .next (t.answerCtl 0 ((s.time.setWidth 32).setWidth 64)) ∧ t.time = s.time ∧ t.cores = s.cores)

/-- The commands of the Ublexia engine complete (14 R435, R437 to R443, R446 to R448, R451 to R453, R456; 07 R243; 11 R350; 13 R429): HELLO, CMD and ACK frames, the delayed ACK, the resend, a finished command's REPLY, the EVENT frame; every command that a session runs, NOP to ATTEST; EMIT_GO, the
forwarding of a GO and the taking of a program event. Under the conditions named on the state and the operands alone, exec answers a next state with the command's own effect. -/
def Obligations.SessionCommandsComplete : Prop :=
  ∀ (s : State) (t8 : BitVec 8) (c : QCmd) (f : UFrame) (who : Party) (e : Fin 4) (t6 : Fin 64) (ch : Fin 4) (count : BitVec 5) (core : CoreId), s.inReset = false → s.tripped = false →
    let t := t8.toNat
    let tn := s.tenant t
    let x := tn.sess
    let b (o n : Nat) : Nat := beFld c.args o n
    let ends (u : State) (st : BitVec 16) (data : List Byte) : Prop := (u.tenant t).cmds = tn.cmds.erase c ∧ (u.tenant t).replies = tn.replies ++ [⟨c.sess, c.seq, c.id, c.op, st, data⟩]
    let runs (i : Instr) (op len : Nat) (cond : Prop) (eff : State → Prop) : Prop := s.nextIs t c op → c.args.length = len → cond → ∃ u, exec i s = .next u ∧ eff u
    let reach (x y : Nat) : Prop := tn.owns x y = true ∧ tenantOk (s.niTenant (s.physOf x y)) t8 = true ∧ s.markOf (s.physOf x y) ≠ .removed
    let core0 (u : State) (a : Nat) (data : List Byte) : Prop := ∀ p, Memory.read (u.core (s.physOf (b 0 2) (b 4 2))).spad p = if a ≤ p ∧ p < a + data.length then data.getD (p - a) 0 else Memory.read (s.core (s.physOf (b 0 2) (b 4 2))).spad p
    let a := b 0 8
    let fb (o n : Nat) : Nat := beFld f.bytes o n
    let ft := if f.mgmt then 255 else f.chan.toNat
    let fx := (s.tenant ft).sess
    let s0 : State := if f.mgmt then s else { s with ubxIn := s.ubxIn.erase f }
    let g : UFrame := if f.mgmt then { f with stamp := s.time } else f
    let judged : Prop := (f.mgmt = true ∨ (f ∈ s.ubxIn ∧ (s.tenant ft).live = true)) ∧ s0.ubxMalformed ft g = false ∧ fb 3 1 = ft
    let current : Prop := judged ∧ fx.st = .open_ ∧ fx.ending = false ∧ fb 0 1 = fx.version.toNat ∧ fb 4 4 = fx.id.toNat
    let held := fx.unack.filter (fun u => decide (0 < (u.seq - BitVec.ofNat 32 (fb 12 4)).toInt))
    let sends := x.st = .open_
    (judged → fb 1 1 = 1 → fb 24 1 ≤ 1 → 1 ≤ fb 25 1 → s.sec.ready = true → fx.unack = [] → ∃ u, exec (.hello f) s = .next u ∧ (u.tenant ft).sess.st = .open_ ∧ (u.tenant ft).sess.id ≠ 0 ∧ (u.tenant ft).sess.expect = 1 ∧
      s0.leaves u ft (u.tenant ft).sess 2 0 ([0, 0, 1, 1] ++ beBytes 2 (u.tenant ft).sess.maxFrame ++ [0, 0, 0, 0, 0, 1])) ∧
    (current → fb 1 1 = 3 → BitVec.ofNat 32 (fb 8 4) = fx.expect → (fx.expect - (s.tenant ft).creditNow).toInt ≤ 0 → ft ≠ 255 → s.epochDue ft = false → (s.tenant ft).ring.full = false →
      (s.tenant ft).ring.used + (recordBytes 1 (s.tenant ft).ring.seq g.stamp (f.bytes.take (24 + fb 20 2))).length + 2 ^ 20 ≤ (s.tenant ft).ring.size → ∀ l, parseCmds fx.id fx.expect (fb 20 2 / 12 + 1) (bytesAt f.bytes 24 (fb 20 2)) = some l →
      ∃ u, exec (.cmd f) s = .next u ∧ (u.tenant ft).sess.expect = fx.expect + 1 ∧ (u.tenant ft).cmds = (s.tenant ft).cmds ++ l ∧ (u.tenant ft).ring.seq = (s.tenant ft).ring.seq + 1) ∧
    (current → fb 1 1 = 4 → ∃ u, exec (.ubxAck f) s = .next u ∧ (u.tenant ft).sess.unack = held ∧ (u.tenant ft).cmds = (s.tenant ft).cmds ∧ u.sent = s.sent) ∧
    (sends → x.ackDue = true → ∃ u, exec (.ackDelayExpiry t8) s = .next u ∧ (u.tenant t).sess.ackDue = false ∧ s.leaves u t (u.tenant t).sess 4 0 []) ∧
    (sends → ∀ r, x.unack = [r] → x.resends < s.fld (edgePage tn.res.home.val 0xF030 + 0x44) 24 4 → ∃ u, exec (.retransmitTimeout t8) s = .next u ∧ (u.tenant t).sess.resends = x.resends + 1 ∧ s.leavesAfter u t (u.tenant t).sess r.kind r.seq r.body) ∧
    ((∀ d ∈ tn.cmds, d.started = false) → tn.nextCmd = none → sends → x.unack = [] → ∀ r, tn.replies = [r] → ∃ u, exec (.commandComplete t8) s = .next u ∧ (u.tenant t).replies = [] ∧ (u.tenant t).sess.txSeq = x.txSeq + 1) ∧
    (sends → x.unack.length < 64 → ∀ r, tn.events ++ tn.progEvents = [r] → 66 + (tagBytes t).length + s.macsecBytes t ≤ x.maxFrame → ∃ u, exec (.eventFrameBuild t8) s = .next u ∧ (u.tenant t).events = [] ∧ (u.tenant t).progEvents = [] ∧ (u.tenant t).sess.txSeq = x.txSeq + 1) ∧
    runs (.ubxNop t8) 0x01 0 True (fun u => ends u 0 []) ∧
    runs (.close t8) 0x02 0 sends (fun u => ends u 0 [] ∧ (u.tenant t).sess.ending = true) ∧
    runs (.deliver t8) 0x10 24 (tn.replay = none ∧ b 0 2 = b 2 2 ∧ b 0 2 ≤ 383 ∧ b 4 2 = b 6 2 ∧ b 4 2 ≤ 127 ∧ b 8 4 % 64 = 0 ∧ b 12 4 = 0 ∧ b 8 4 + 8 ≤ 2 ^ 20 ∧ reach (b 0 2) (b 4 2)) (fun u => (∃ d, ends u 0 d) ∧ core0 u (b 8 4) (c.args.drop 16)) ∧
    runs (.writeMem t8) 0x11 16 (tn.replay = none ∧ memAddrOk a = true ∧ spaceOf a = 2 ∧ s.framCode t (edgeOf a) (offOf a) 8 true = 0)
      (fun u => ends u 0 [] ∧ Memory.readN u.fram (framKey (edgeOf a) (offOf a)) 8 = c.args.drop 8) ∧
    runs (.readMem t8) 0x12 12 (memAddrOk a = true ∧ b 8 4 ≤ 8192 ∧ b 8 4 % 8 = 0 ∧ b 8 4 ≤ s.replyRoom t ∧ spaceOf a = 2 ∧ s.framCode t (edgeOf a) (offOf a) (b 8 4) = 0)
      (fun u => ends u 0 (Memory.readN s.fram (framKey (edgeOf a) (offOf a)) (b 8 4)) ∧ u.fram = s.fram) ∧
    (let k := corePage (s.physOf (b 0 2) (b 4 2)) (b 8 1) + b 10 2
     runs (.ctrlWrite t8) 0x13 16 (tn.replay = none ∧ b 2 2 = b 0 2 ∧ b 0 2 ≤ 383 ∧ b 6 2 = b 4 2 ∧ b 4 2 ≤ 127 ∧ b 8 1 ≤ 9 ∧ b 9 1 = 0 ∧ b 10 2 % 4 = 0 ∧ b 10 2 ≤ 0xFFF ∧ reach (b 0 2) (b 4 2) ∧ s.mayWrite (.runtime t8) k = true)
       (fun u => (∃ d, ends u 0 d) ∧ u.regs = (s.writeReg k (BitVec.ofNat 32 (b 12 4))).regs)) ∧
    (let k := corePage (s.physOf (b 0 2) (b 2 2)) (b 4 1) + b 6 2
     runs (.ctrlRead t8) 0x14 8 (b 0 2 ≤ 383 ∧ b 2 2 ≤ 127 ∧ b 4 1 ≤ 9 ∧ b 5 1 = 0 ∧ b 6 2 % 4 = 0 ∧ b 6 2 ≤ 0xFFF ∧ reach (b 0 2) (b 2 2) ∧ s.mayRead (.runtime t8) k = true ∧ coversRdata k false = false)
       (fun u => ends u 0 (beBytes 4 (s.readReg k).2.toNat))) ∧
    (let got := s.atLines t (b 0 8) (4 * b 8 4) (fun s ls => s.readWindow (b 0 8) (4 * b 8 4) ls)
     ∀ v bytes, got = some (v, 0, bytes) → runs (.loadRegion t8) 0x20 16 (b 12 4 = 0 ∧ s.portFree ⟨tn.res.home, false⟩ = true ∧ imageCrcOk (wordsOfBytes bytes).1 = true)
       (fun u => ∃ rest, (u.tenant t).cmds = tn.cmds.map (fun d => if d = c then { c with started := true, args := beBytes 48 (Config.sha384 ((((wordsOfBytes bytes).1.take ((wordsOfBytes bytes).1.length - 1)).map (fun w => leBytes 4 w.toNat)).flatten)).toNat ++ rest } else d))) ∧
    (let k := s.physOf (b 2 2) (b 4 2)
     runs (.clearRegion t8) 0x21 8 (b 0 1 = 0 ∧ b 1 1 = 0 ∧ b 6 2 = 0 ∧ reach (b 2 2) (b 4 2)) (fun u => u = (s.shrClear (collarRegion k) 0x40).finish t c 0 [])) ∧
    (∀ p, let r : Reservation := ⟨BitVec.ofNat 8 (b 0 1), b 2 2, b 4 2, b 6 2, b 8 2, b 10 2, (List.range (b 12 2)).map (fun i => b (16 + 2 * i) 2), []⟩
     runs (.reserve t8) 0x30 (16 + 2 * b 12 2) (b 0 1 ≠ 0 ∧ b 1 1 = 0 ∧ b 14 2 = 0 ∧ s.swapFree = true ∧ s.copyBanks.reserveOk t r = some p) (fun u => ends u 0 [] ∧ (u.tenant t).streams = tn.streams ++ [{ r with links := p }])) ∧
    runs (.unreserve t8) 0x31 4 (b 1 3 = 0 ∧ s.swapFree = true ∧ ∃ r ∈ tn.streams, r.stream.toNat = b 0 1) (fun u => (u.tenant t).streams = tn.streams.filter (fun r => decide (r.stream.toNat ≠ b 0 1)) ∧ (u.tenant t).cmds = tn.cmds.map (fun d => if d = c then { c with started := true } else d)) ∧
    runs (.filter t8) 0x32 36 (b 2 2 = 0 ∧ b 0 2 < tn.res.filters ∧ b 4 16 / 2 ^ 111 % 8 ≤ 1 ∧ tn.res.filterBase + tn.res.filters ≤ 256 ∧ tn.res.meter < 128 ∧ t < 64) (fun u => ends u 0 [] ∧ u.cores = s.cores ∧
      ((∀ p ∈ tn.res.ports, (s.port (portNo p)).swapAt = none) → ∀ p ∈ tn.res.ports, bits (u.entry128 (filterKey (portNo p) (tn.res.filterBase + b 0 2))) 88 8 = t)) ∧
    runs (.replayDeclare t8) 0x40 32 (b 20 4 = 0 ∧ b 16 4 + 32 ≤ 2 ^ 20 ∧ b 26 2 = b 24 2 ∧ b 24 2 ≤ 383 ∧ b 30 2 = b 28 2 ∧ b 28 2 ≤ 127 ∧ tn.owns (b 24 2) (b 28 2) = true ∧ b 0 8 + b 8 8 ≤ tn.res.winSize * 2 ^ 20)
      (fun u => ends u 0 [] ∧ ∃ rp, (u.tenant t).replay = some rp ∧ rp.rb = b 16 4 ∧ rp.domain = [⟨b 24 2, b 24 2, b 28 2, b 28 2⟩]) ∧
    (∀ rp, tn.replay = some rp → runs (.checkpoint t8) 0x41 0 (∀ r ∈ s.reefs, r.t = t → r.swapped = true) (fun u => ends u 0 (beBytes 8 (s.lowestStep t rp)))) ∧
    (let home := homeNo (b 0 2) (b 2 2)
     runs (.repatriate t8) 0x42 4 (tn.owns (b 0 2) (b 2 2) = true ∧ s.physOf (b 0 2) (b 2 2) ≠ home ∧ s.markOf home = .repatriable ∧ s.swapFree = true) (fun u => ends u 0 [] ∧ u.markOf home = .serving)) ∧
    runs (.recordRead t8) 0x43 8 (tn.ring.recs = []) (fun u => ends u 0 []) ∧
    (∀ rp, tn.replay = some rp → runs (.imageRead t8) 0x44 16 (b 4 1 ≤ 1 ∧ b 5 3 = 0 ∧ b 12 4 ≤ 8192 ∧ b 8 4 + b 12 4 ≤ 2 ^ 20 + 2 ^ 16 ∧ b 12 4 ≤ s.replyRoom t ∧ (b 0 2, b 2 2) ∈ rp.cores.map (fun p => p.1)) (fun u => ∃ d, ends u 0 d ∧ d.length = b 12 4)) ∧
    runs (.seedDraw t8) 0x50 12 (s.sec.ready = true) (fun u => ∃ seed < 2 ^ 64, ends u 0 (beBytes 8 seed)) ∧
    runs (.attest t8) 0x60 48 (s.sec.ready = true) (fun u => ∃ rep, ends u 0 rep ∧ bytesAt rep 16 8 = beBytes 8 s.time.toNat ∧ bytesAt rep 32 48 = c.args) ∧
    (let pg := edgePage e.val (0xF040 + t6.val)
     let y := s.tenant t6.val
     let base := pg + 0x100 * (ch.val + 1)
     let n := count.toNat
     (s.mayWrite who (base + 8) = true → 1 ≤ n → n ≤ 16 → y.live = true → y.res.home ≠ e → ∃ u, exec (.emitGo who e t6 ch count) s = .next u ∧
       (u.tenant t6.val).goes = y.goes ++ [{ e := e.val, ch := ch.val, step := s.reg64 base, pairs := (List.range n).map (fun i => (s.reg (base + 0x40 + 8 * i), s.reg (base + 0x44 + 8 * i))) }]) ∧
     (∀ go l, y.goes = go :: l → y.replay = none → s.epochDue t6.val = false → y.suppressed = [] → ∀ user tok, go.pairs = [(user, tok)] → user.toNat ≤ 4095 → Sparse.get (fun _ => 0) y.highest user.toNat ≤ go.step.toNat →
       y.ring.used + (recordBytes 3 y.ring.seq s.time (leBytes 8 go.step.toNat ++ leBytes 4 1 ++ leBytes 4 user.toNat ++ leBytes 4 tok.toNat)).length ≤ y.ring.size →
       ∃ u, exec (.goForward t6) s = .next u ∧ (u.tenant t6.val).goes = l ∧ (u.tenant t6.val).ring.seq = y.ring.seq + 1 ∧ Sparse.get (fun _ => 0) (u.tenant t6.val).highest user.toNat = go.step.toNat + 1)) ∧
    (let k := coreNo core
     let y := s.tenant (s.niTenant k).toNat
     ∀ code l, (s.core k).events = code :: l → y.live = true → y.progEvents.length < 64 → ∃ u, exec (.eventCodeTake core) s = .next u ∧ (u.core k).events = l ∧
       ∃ ev, (u.tenant (s.niTenant k).toNat).progEvents = y.progEvents ++ [ev] ∧ ev.code = code ∧ ev.kind = 1 ∧ ev.time = s.time)

/-- The commands of reset, power, clocks, control pages and the board's ports complete (16 R483 to R498, R504; 17 R507, R511, R514; 18 R531): the reset and power pins, a lost reference, the governor's steps, a junction reading, a thermal trip, the clocks, the three SMBus commands, register writes, BLK_ERR and
BLK_CLAMP, SOFT_RESET, ENABLE, the end of a power transition, the reset of the test access ports and a boundary instruction; the ports show their IDCODEs. Under the conditions named on the state and the operands alone, exec answers a next state with the command's own effect. -/
def Obligations.ModuleCommandsComplete : Prop :=
  ∀ (s : State) (who : Party) (mode lane on : Bool) (mv ma avg tj : Nat) (die : Fin 28) (c : CoreId) (v data : Word) (addr : Dword) (w : CtlWrite) (page : PageId) (b : Blk) (scan : Fin 4) (code : BitVec 16) (port : Fin 28),
    let gov := edgePage 0 0xF090
    let bound := min (s.fld (gov + 0x40) 0 16) (mv * 330 / 1000)
    let hot := s.fld (gov + 0x44) 8 8 * 8 < s.fld (gov + 0x64) 0 12
    let n := coreNo c
    let pg := PageId.key page
    let key := addrKey addr.toNat
    let up := s.inReset = false
    let may (k : Nat) : Prop := s.mayWrite who k = true
    let low (x : Word) : BitVec 16 := x.setWidth 16
    let high (x : Word) : BitVec 16 := (x >>> 16).setWidth 16
    (∃ u, exec .resetNAssert s = .next u ∧ u.resetN = false ∧ u.inReset = true ∧ u.regs = [] ∧ u.cores = []) ∧
    (s.resetN = false → s.pwrOk = true → ∃ u, exec (.resetNRelease mode) s = .next u ∧ u.resetN = true ∧ u.inReset = false ∧ u.cfgMode = mode ∧ u.time = 0) ∧
    (s.pwrOk = false → 40000 ≤ mv → mv ≤ 58000 → ∃ u, exec (.pwrOkRise mv true) s = .next u ∧ u.pwrOk = true ∧ u.inputMv = mv ∧ u.sent = s.sent ++ [.pin .pwrOk 1]) ∧
    (mv < 38000 → ∃ u, exec (.inputPowerDrop mv false) s = .next u ∧ u.pwrOk = false ∧ u.inReset = true ∧ u.regs = []) ∧
    (up → ∃ u, exec (.refLoss lane) s = .next u ∧ u.bit (gov + 0x6C) 1 = true ∧ u.bit (timePage 24 + 0x44) 2 = true ∧ ∀ j < 64, (u.lane j).lock = false) ∧
    (up → bound < avg → ∃ u, exec (.governorStep mv ma avg) s = .next u ∧ u.fld (gov + 0x5C) 0 16 = min avg 65535 ∧ u.fld (gov + 0x60) 0 16 = bound % 65536) ∧
    (up → avg * 100 < s.fld (gov + 0x60) 0 16 * 97 → ¬ hot → s.fld (gov + 0x50) 0 9 < 256 → ∃ u, exec (.governorRaise avg) s = .next u ∧ u.fld (gov + 0x50) 0 9 = s.fld (gov + 0x50) 0 9 + 1) ∧
    (up → ∃ u, exec (.junctionRead tj die) s = .next u ∧ u.fld (gov + 0x64) 0 12 = min tj 4095 ∧ u.fld (gov + 0x64) 16 5 = die.val ∧ u.bit (gov + 0x70) 14 = decide (tj < 800)) ∧
    (up → ∃ u, exec (.thermalTrip die) s = .next u ∧ u.tripped = true ∧ u.bit (gov + 0x6C) 2 = true ∧ u.cores = s.cores) ∧
    (up → ∃ u, exec (.islandClockChange c) s = .next u ∧ u.eff n ≤ s.clk n ∧ u.eff n ≤ s.clkLim n ∧ u.cores = s.cores) ∧
    (up → may (timePage die.val + 0x90) → die.val < 24 → ∃ u, exec (.clkAll who die v) s = .next u ∧ ∀ j < 2112, u.clk (die.val * 2112 + j) = max 900 (min 2000 (v.toNat % 4096))) ∧
    (up → 1000000 ≤ s.time.toNat → s.smbStatus ≠ 1 → key % 4 = 0 → s.mayWrite .board key = true → ∃ u, exec (.smbControlWrite true addr data) s = .next u ∧ u.smbStatus = 0 ∧ u.regs = (s.writeReg key data).regs) ∧
    (up → 1000000 ≤ s.time.toNat → s.smbStatus ≠ 1 → key % 4 = 0 → keyBlk key ≠ none → coversRdata key false = false → ∃ u, exec (.smbControlRead true addr) s = .next u ∧ u.smbStatus = 0 ∧ u.smbData = (s.readReg key).2) ∧
    (up → 1000000 ≤ s.time.toNat → ∃ u, exec (.smbResultRead true) s = .next u ∧ u.sent = s.sent ++ [.bytes true (leBytes 1 s.smbStatus ++ leBytes 2 s.smbErr.toNat ++ leBytes 4 s.smbData.toNat)]) ∧
    (up → addrKey w.addr.toNat % 4 = 0 → w.wide = false → s.mayWrite w.who (addrKey w.addr.toNat) = true → ∃ u, exec (.registerWrite w) s = .next u ∧ u.regs = (s.writeReg (addrKey w.addr.toNat) (w.data.setWidth 32)).regs) ∧
    (headBlk page = some b → headPage b pg = pg → up →
      ((b = .vec ∨ b = .rng) → may (pg + 0x18) → code ≠ 0 → low v ≠ 0 → ∃ u, exec (.blkErrWrite who page v [code]) s = .next u ∧ low (u.reg (pg + 0x18)) = code) ∧
      ((b = .vec ∨ b = .rng) → may (pg + 0x1C) → ∃ u, exec (.blkClampWrite who page v [code]) s = .next u ∧ high (u.reg (pg + 0x1C)) = code) ∧
      ((b = .vec ∨ b = .rng ∨ b = .rtr ∨ b = .ni) → may pg → (s.blk pg).moving = false → ∃ u, exec (.softReset who page) s = .next u ∧ u.reg (pg + 8) = s.reg (pg + 8) ∧ ∀ off, off < 4096 → off ≠ 8 → u.reg (pg + off) = regReset (pg + off)) ∧
      (may pg → (s.blk pg).moving = false → (s.blk pg).on ≠ on → ∃ u, exec (.blkEnable who page on) s = .next u ∧ (u.blk pg).moving = true ∧ (u.blk pg).want = on ∧ u.cores = s.cores) ∧
      ((s.blk pg).moving = true → (s.blk pg).resetDue = false → ∃ u, exec (.powerTransitionEnd page) s = .next u ∧ (u.blk pg).on = !(s.blk pg).on ∧ u.regs = s.regs)) ∧
    (∃ u, exec .tapReset s = .next u ∧ u.tapShows port = some (if port.val < 4 then 0x0C49174B else 0x0C49074B)) ∧
    (scan ≠ 0 → ∃ u, exec (.extest scan) s = .next u ∧ u.tapShows port = none ∧ (∀ p : Pusher, p.board = true → u.portOk p = false) ∧ u.cores = s.cores)

/-- The commands of the security block and of tenants complete (14 R457 to R460; 15 R469, R470, R474 to R478, R480): the three commits and their end, the revocations, the owner fuse, IMPORT and its end, ERASE, RETEST, ENTROPY_READY, RESEED, and TENANT_CREATE, TENANT_DESTROY and TENANT_STATUS. Under the conditions named on the
state and the operands alone, exec answers a next state with the command's own effect. -/
def Obligations.SecurityCommandsComplete : Prop :=
  ∀ (s : State) (who : Party) (r : TenantRec) (t8 : BitVec 8) (c : QCmd), s.inReset = false →
    let pg := edgePage 0 0xF080
    let x := s.sec
    let may : Prop := s.mayWrite who (pg + 0x44) = true
    let sel := s.fld (pg + 0x58) 0 6
    let k := sel * 4 + s.fld (pg + 0x58) 8 2
    let a := s.tenant 255
    let ends (u : State) (data : List Byte) : Prop := (u.tenant 255).cmds = a.cmds.erase c ∧ (u.tenant 255).replies = a.replies ++ [⟨c.sess, c.seq, c.id, c.op, 0, data⟩]
    (may → x.commit = none → (∃ u, exec (.commitFw who) s = .next u ∧ u.sec.commit = some (1, min x.loadedFw 64)) ∧ (∃ u, exec (.commitStatic who) s = .next u ∧ u.sec.commit = some (2, min x.loadedStatic 64)) ∧
      (∃ u, exec (.commitShell who) s = .next u ∧ u.sec.commit = some (3, min x.shellSvn 64))) ∧
    (∀ target, x.commit = some (1, target) → ∃ u, exec .commitDone s = .next u ∧ u.sec.commit = none ∧ u.sec.svnFw = max x.svnFw target) ∧
    (may → x.fwKey = 2 → ∃ u, exec (.revokeA who) s = .next u ∧ u.sec.revokedA = true) ∧ (may → x.fwKey = 1 → ∃ u, exec (.revokeB who) s = .next u ∧ u.sec.revokedB = true) ∧
    (may → x.owner = none → ∃ u, exec (.ownerFuse who) s = .next u ∧ u.sec.owner = some ((List.range 24).map (fun i => Sparse.get (fun _ => 0) x.ownerBuf i))) ∧
    (may → x.importing = none → ∃ u res, exec (.importKey who) s = .next u ∧ u.sec.importing = some (k, res) ∧ u.reg (pg + 0x5C) = 3) ∧
    (∀ j sak salt ssci, x.importing = some (j, .key sak salt ssci) → Sparse.get (fun _ => 0) x.txAn (j / 4) ≠ j % 4 + 1 → ∃ u, exec .importDone s = .next u ∧ u.reg (pg + 0x5C) = 1 ∧ u.keyAn (j / 4) (j % 4) = ⟨true, sak, salt, ssci, 0⟩) ∧
    (may → ∃ u, exec (.erase who) s = .next u ∧ ∀ an < 4, (u.keyAn sel an).loaded = false) ∧ (may → ∃ u, exec (.retest who) s = .next u ∧ u.sec.testing = true) ∧
    (x.testing = true → ∃ u, exec (.entropyReady true) s = .next u ∧ u.sec.ready = true ∧ u.sec.testing = false ∧ u.ready 2 = true) ∧
    (x.ready = true → 65536 ≤ x.served → ∃ u, exec (.reseed true) s = .next u ∧ u.sec.served = 0 ∧ u.reg (pg + 0x68) = s.reg (pg + 0x68) + 1) ∧
    (s.nextIs 255 c 0x100 → recordOk r = true → (s.tenant r.id.toNat).live = false → (∀ i < 15, s.ready i = true) → s.resourcesFree r = true → (∃ an < 4, (s.keyAn r.id.toNat an).loaded = true) →
      ∃ u, exec (.tenantCreate r) s = .next u ∧ ends u [] ∧ (u.tenant r.id.toNat).live = true ∧ (u.tenant r.id.toNat).res = r) ∧
    (s.nextIs 255 c 0x101 → (s.tenant t8.toNat).live = true → t8.toNat ≤ 63 → (s.cutOff t8.toNat).destroyWaits t8.toNat = false → ∃ u, exec (.tenantDestroy t8) s = .next u ∧ ends u [] ∧ u.tenant t8.toNat = Tenant.free) ∧
    (s.nextIs 255 c 0x102 → (s.tenant t8.toNat).live = true → ∃ u data, exec (.tenantStatus t8) s = .next u ∧ ends u data ∧ data.head? = some (s.tenant t8.toNat).res.id)

/-- Encodings (04 R125, R126, R128 to R137): every Slovo operation with every operand, written into a slot word by the encoding tables and read by the sequencer's decoder, is that operation: issuing what the decoder reads is the command; the word's PRED and PNEG are the command's predicate. -/
def Obligations.SlotWordsDecode : Prop :=
  ∀ (s : State) (i : Instr) (o : Slot) (slot : Nat) (e : Ecc) (op : BitVec 6) (arg : BitVec 22), slotFields i = some (o, slot, e, op, arg) →
    let w := (slotCode o op arg).toNat
    exec i s = .next (s.issueOp o slot (decodeSlot slot w e)) ∧ w / 2 ^ 29 = o.pred.toNat ∧ w / 2 ^ 28 % 2 = b2n o.neg ∧ slot < 4

/-- Every step of the module, whatever command it takes, keeps the reset lines (16 R483 to R485): in reset exactly while RESET_N or PWR_OK is 0. -/
def Obligations.StepsKeepResetLines : Prop :=
  let lines (s : State) : Prop := s.inReset = (!s.resetN || !s.pwrOk) ∧ s.releaseWaits = (s.resetN && !s.pwrOk)
  ∀ s t : State, lines s → step s = .next t → lines t
end

