-- ==== Sys2Proof/Laws/Sparse.lean ====
section
/-! SUPPORT. The sparse stores: a read after a write, writes that meet, and the canonical form, which every write keeps. -/
namespace Sys2Proof.Machine

variable {α : Type}

@[simp] theorem Sparse.get_nil (d : Nat → α) (k : Nat) : Sparse.get d [] k = d k := rfl

theorem Sparse.get_erase_same (d : Nat → α) (m : Map α) (k : Nat) : Sparse.get d (Sparse.erase m k) k = d k := by
  induction m with
  | nil => rfl
  | cons p r ih => by_cases h : p.1 = k <;> simp [Sparse.erase, Sparse.get, h, ih]

theorem Sparse.get_erase_other (d : Nat → α) (m : Map α) {k j : Nat} (h : j ≠ k) :
    Sparse.get d (Sparse.erase m k) j = Sparse.get d m j := by
  induction m with
  | nil => rfl
  | cons p r ih =>
    by_cases hk : p.1 = k
    · have : ¬ k = j := fun e => h e.symm
      simp [Sparse.erase, Sparse.get, hk, ih, this]
    · simp [Sparse.erase, Sparse.get, hk, ih]

theorem Sparse.get_insert_same (d : Nat → α) (m : Map α) (k : Nat) (v : α) (hn : ∀ p ∈ m, p.1 ≠ k) :
    Sparse.get d (Sparse.insert m k v) k = v := by
  induction m with
  | nil => simp [Sparse.insert, Sparse.get]
  | cons p r ih =>
    by_cases h : k < p.1
    · simp [Sparse.insert, Sparse.get, h]
    · have hp : p.1 ≠ k := hn p (by simp)
      simp [Sparse.insert, Sparse.get, h, hp, ih (fun q hq => hn q (by simp [hq]))]

theorem Sparse.get_insert_other (d : Nat → α) (m : Map α) {k j : Nat} (v : α) (h : j ≠ k) :
    Sparse.get d (Sparse.insert m k v) j = Sparse.get d m j := by
  have hk : ¬ k = j := fun e => h e.symm
  induction m with
  | nil => simp [Sparse.insert, Sparse.get, hk]
  | cons p r ih => by_cases hl : k < p.1 <;> simp [Sparse.insert, Sparse.get, hl, hk, ih]

theorem Sparse.erase_ne (m : Map α) (k : Nat) : ∀ p ∈ Sparse.erase m k, p.1 ≠ k := by
  induction m with
  | nil => intro p hp; cases hp
  | cons q r ih =>
    by_cases h : q.1 = k
    · simpa [Sparse.erase, h] using ih
    · intro p hp
      simp only [Sparse.erase, h, ↓reduceIte, List.mem_cons] at hp
      rcases hp with rfl | hp
      · exact h
      · exact ih p hp

theorem Sparse.erase_of_ne (m : Map α) (k : Nat) (hn : ∀ p ∈ m, p.1 ≠ k) : Sparse.erase m k = m := by
  induction m with
  | nil => rfl
  | cons q r ih => simp [Sparse.erase, hn q (by simp), ih (fun p hp => hn p (by simp [hp]))]

theorem Sparse.erase_insert (m : Map α) (k : Nat) (v : α) (hn : ∀ p ∈ m, p.1 ≠ k) :
    Sparse.erase (Sparse.insert m k v) k = m := by
  induction m with
  | nil => simp [Sparse.insert, Sparse.erase]
  | cons q r ih =>
    have hr : ∀ p ∈ r, p.1 ≠ k := fun p hp => hn p (by simp [hp])
    by_cases h : k < q.1
    · simp [Sparse.insert, Sparse.erase, h, hn q (by simp), Sparse.erase_of_ne r k hr]
    · simp [Sparse.insert, Sparse.erase, h, hn q (by simp), ih hr]

/-- A key reads what was written to it. -/
@[simp] theorem Sparse.get_put_same [DecidableEq α] (d : Nat → α) (m : Map α) (k : Nat) (v : α) :
    Sparse.get d (Sparse.put d m k v) k = v := by
  unfold Sparse.put
  split
  · rename_i h; rw [h]; exact Sparse.get_erase_same d m k
  · exact Sparse.get_insert_same d _ k v (Sparse.erase_ne m k)

/-- A write leaves every other key. -/
theorem Sparse.get_put_other [DecidableEq α] (d : Nat → α) (m : Map α) {k j : Nat} (v : α) (h : j ≠ k) :
    Sparse.get d (Sparse.put d m k v) j = Sparse.get d m j := by
  unfold Sparse.put
  split
  · exact Sparse.get_erase_other d m h
  · rw [Sparse.get_insert_other d _ v h, Sparse.get_erase_other d m h]

/-- What a key reads after a write to a key. -/
theorem Sparse.get_put [DecidableEq α] (d : Nat → α) (m : Map α) (k j : Nat) (v : α) :
    Sparse.get d (Sparse.put d m k v) j = if j = k then v else Sparse.get d m j := by
  by_cases h : j = k
  · subst h; simp
  · simp [h, Sparse.get_put_other d m v h]

/-- Of two writes to one key the later stands. -/
@[simp] theorem Sparse.put_put [DecidableEq α] (d : Nat → α) (m : Map α) (k : Nat) (v w : α) :
    Sparse.put d (Sparse.put d m k v) k w = Sparse.put d m k w := by
  have h : Sparse.erase (Sparse.put d m k v) k = Sparse.erase m k := by
    unfold Sparse.put
    split
    · exact Sparse.erase_of_ne _ k (Sparse.erase_ne m k)
    · exact Sparse.erase_insert _ k v (Sparse.erase_ne m k)
  unfold Sparse.put
  unfold Sparse.put at h
  rw [h]

/-! The canonical form -/

/-- `rising` spelt out: the keys lie above the bound and rise. -/
theorem Sparse.rising_iff (b : Option Nat) (m : Map α) :
    Sparse.rising b m = true ↔ (∀ p ∈ m, ∀ x, b = some x → x < p.1) ∧ m.Pairwise (fun p q => p.1 < q.1) := by
  induction m generalizing b with
  | nil => cases b <;> simp [Sparse.rising]
  | cons p r ih =>
    cases b with
    | none => simp [Sparse.rising, ih (some p.1)]
    | some x =>
      simp only [Sparse.rising, Bool.and_eq_true, decide_eq_true_eq, ih (some p.1), Option.some.injEq, forall_eq', List.mem_cons,
        forall_eq_or_imp, List.pairwise_cons]
      constructor
      · rintro ⟨h1, h2, h3⟩; exact ⟨⟨h1, fun q hq => Nat.lt_trans h1 (h2 q hq)⟩, h2, h3⟩
      · rintro ⟨⟨h1, _⟩, h2, h3⟩; exact ⟨h1, h2, h3⟩

theorem Sparse.wf_iff [DecidableEq α] (d : Nat → α) (m : Map α) :
    Sparse.wf d m = true ↔ m.Pairwise (fun p q => p.1 < q.1) ∧ ∀ p ∈ m, p.2 ≠ d p.1 := by
  simp [Sparse.wf, Sparse.rising_iff]

theorem Sparse.erase_sub (m : Map α) (k : Nat) : (Sparse.erase m k).Sublist m := by
  induction m with
  | nil => exact List.Sublist.slnil
  | cons q r ih =>
    by_cases h : q.1 = k
    · simpa [Sparse.erase, h] using ih.cons q
    · simpa [Sparse.erase, h] using ih.cons_cons q

theorem Sparse.mem_insert (m : Map α) (k : Nat) (v : α) (p : Nat × α) :
    p ∈ Sparse.insert m k v ↔ p = (k, v) ∨ p ∈ m := by
  induction m with
  | nil => simp [Sparse.insert]
  | cons q r ih =>
    by_cases h : k < q.1
    · simp [Sparse.insert, h]
    · simp only [Sparse.insert, h, ↓reduceIte, List.mem_cons, ih]; tauto

theorem Sparse.insert_rising (m : Map α) (k : Nat) (v : α) (h : m.Pairwise (fun p q => p.1 < q.1)) (hn : ∀ p ∈ m, p.1 ≠ k) :
    (Sparse.insert m k v).Pairwise (fun p q => p.1 < q.1) := by
  induction m with
  | nil => simp [Sparse.insert]
  | cons q r ih =>
    rw [List.pairwise_cons] at h
    have hq := hn q (by simp)
    by_cases hl : k < q.1
    · rw [Sparse.insert, if_pos hl, List.pairwise_cons, List.pairwise_cons]
      refine ⟨fun p hp => ?_, h.1, h.2⟩
      rcases List.mem_cons.1 hp with rfl | hp
      · exact hl
      · exact Nat.lt_trans hl (h.1 p hp)
    · simp only [Sparse.insert, hl, ↓reduceIte, List.pairwise_cons, Sparse.mem_insert, forall_eq_or_imp]
      exact ⟨⟨by omega, h.1⟩, ih h.2 (fun p hp => hn p (by simp [hp]))⟩

/-- Every write keeps the canonical form. -/
theorem Sparse.wf_put [DecidableEq α] (d : Nat → α) (m : Map α) (k : Nat) (v : α) (h : Sparse.wf d m = true) :
    Sparse.wf d (Sparse.put d m k v) = true := by
  rw [Sparse.wf_iff] at *
  have he := h.1.sublist (Sparse.erase_sub m k)
  have hd : ∀ p ∈ Sparse.erase m k, p.2 ≠ d p.1 := fun p hp => h.2 p ((Sparse.erase_sub m k).subset hp)
  unfold Sparse.put
  split
  · exact ⟨he, hd⟩
  · rename_i hv
    refine ⟨Sparse.insert_rising _ k v he (Sparse.erase_ne m k), ?_⟩
    intro p hp
    rcases (Sparse.mem_insert _ k v p).1 hp with rfl | hp
    · exact hv
    · exact hd p hp

/-- Two stores in canonical form that read the same at every key are the same list. -/
theorem Sparse.mem_iff_get [DecidableEq α] (d : Nat → α) (m : Map α) (h : Sparse.wf d m = true) (p : Nat × α) :
    p ∈ m ↔ Sparse.get d m p.1 = p.2 ∧ p.2 ≠ d p.1 := by
  rw [Sparse.wf_iff] at h
  obtain ⟨h1, h2⟩ := h
  induction m with
  | nil => simp [eq_comm]
  | cons q r ih =>
    rw [List.pairwise_cons] at h1
    have ih' := ih h1.2 (fun x hx => h2 x (by simp [hx]))
    by_cases hk : q.1 = p.1
    · simp only [Sparse.get, hk, ↓reduceIte, List.mem_cons]
      constructor
      · rintro (rfl | hp)
        · exact ⟨rfl, h2 _ (by simp)⟩
        · exact absurd hk (Nat.ne_of_lt (h1.1 p hp))
      · rintro ⟨h3, _⟩; exact .inl (Prod.ext hk.symm h3.symm)
    · simp only [Sparse.get, hk, ↓reduceIte, List.mem_cons, ih']
      constructor
      · rintro (rfl | hp)
        · exact absurd rfl hk
        · exact hp
      · exact .inr

/-! Byte stores -/

theorem Memory.wf_write (m : List Host.Cell) (a : Nat) (b : Byte) (h : Memory.wf m = true) : Memory.wf (Memory.write m a b) = true :=
  Sparse.wf_put _ m a b h

theorem Memory.wf_writeN (m : List Host.Cell) (a : Nat) (l : List Byte) (h : Memory.wf m = true) :
    Memory.wf (Memory.writeN m a l) = true := by
  induction l generalizing m a with
  | nil => exact h
  | cons b r ih => exact ih _ _ (Memory.wf_write m a b h)

theorem Memory.wf_writeBE (m : List Host.Cell) (a : Nat) (l : List (Bool × Byte)) (h : Memory.wf m = true) :
    Memory.wf (Memory.writeBE m a l) = true := by
  induction l generalizing m a with
  | nil => exact h
  | cons b r ih =>
    obtain ⟨e, b⟩ := b
    cases e
    · exact ih _ _ h
    · exact ih _ _ (Memory.wf_write m a b h)

theorem Memory.read_write (m : List Host.Cell) (a x : Nat) (b : Byte) :
    Memory.read (Memory.write m a b) x = if x = a then b else Memory.read m x := Sparse.get_put _ m a x b

/-- A byte of a store after a run of bytes was written. -/
theorem Memory.read_writeN (m : List Host.Cell) (a x : Nat) (l : List Byte) :
    Memory.read (Memory.writeN m a l) x = if a ≤ x ∧ x < a + l.length then l.getD (x - a) 0 else Memory.read m x := by
  induction l generalizing m a with
  | nil => simp [Memory.writeN]
  | cons b r ih =>
    rw [Memory.writeN, ih, Memory.read_write]
    by_cases h0 : x = a
    · subst h0
      simp
    · by_cases h1 : a + 1 ≤ x ∧ x < a + 1 + r.length
      · have h2 : a ≤ x ∧ x < a + (b :: r).length := by simp only [List.length_cons]; omega
        have h3 : x - a = (x - (a + 1)) + 1 := by omega
        rw [if_pos h1, if_pos h2, h3, List.getD_cons_succ]
      · have h2 : ¬ (a ≤ x ∧ x < a + (b :: r).length) := by simp only [List.length_cons]; omega
        rw [if_neg h1, if_neg h2, if_neg h0]

end Sys2Proof.Machine
end

