-- ==== Sys2Proof/Laws/Bytes.lean ====
section
/-! SUPPORT. Bytes: lengths, values written and read back, and the length and check of a context image. -/

namespace Sys2Proof.Machine

@[simp] theorem leBytes_length (n x : Nat) : (leBytes n x).length = n := by
  induction n generalizing x <;> simp_all [leBytes]

@[simp] theorem beBytes_length (n x : Nat) : (beBytes n x).length = n := by simp [beBytes]

theorem leNat_leBytes (n x : Nat) : leNat (leBytes n x) = x % 256 ^ n := by
  induction n generalizing x with
  | zero => simp [leBytes, leNat, Nat.mod_one]
  | succ n ih =>
    have e : x % 256 ^ (n + 1) = x % 256 + 256 * (x / 256 % 256 ^ n) := by rw [pow_succ', Nat.mod_mul]
    rw [e]
    simp only [leBytes, leNat, ih, BitVec.toNat_ofNat]

@[simp] theorem Memory.readN_length (m : List Host.Cell) (a n : Nat) : (Memory.readN m a n).length = n := by
  induction n generalizing a <;> simp_all [Memory.readN]

theorem Memory.readN_getElem? (m : List Host.Cell) (a n i : Nat) (h : i < n) : (Memory.readN m a n)[i]? = some (Memory.read m (a + i)) := by
  induction n generalizing a i with
  | zero => omega
  | succ n ih =>
    cases i with
    | zero => simp [Memory.readN]
    | succ i =>
      simp only [Memory.readN, List.getElem?_cons_succ]
      rw [ih (a + 1) i (by omega)]
      congr 2
      omega

theorem Memory.readN_writeN (m : List Host.Cell) (a : Nat) (l : List Byte) : Memory.readN (Memory.writeN m a l) a l.length = l := by
  apply List.ext_getElem?
  intro i
  by_cases h : i < l.length
  · rw [Memory.readN_getElem? _ _ _ _ h, Memory.read_writeN]
    simp [h]
  · rw [List.getElem?_eq_none (by simp; omega), List.getElem?_eq_none (by omega)]

@[simp] theorem fileBytes_length (n size : Nat) (f : Nat → Nat) : (fileBytes n size f).length = n * size := by
  unfold fileBytes
  rw [List.length_flatten, List.map_map]
  simp [Function.comp_def]

/-- An image is 8,892 bytes and their CRC, which reads back. -/
theorem Core.imageHead_length (c : Core) (v : Word) (h : c.loopBytes.length = 64) : (c.imageHead v).length = 8892 := by
  unfold Core.imageHead
  simp only [List.length_append, leBytes_length, fileBytes_length, List.length_replicate]
  rw [h]

theorem Core.image_length (c : Core) (v : Word) (h : c.loopBytes.length = 64) : (c.image v).length = 8896 := by
  simp only [Core.image, List.length_append, leBytes_length, c.imageHead_length v h]

theorem Core.image_crc (c : Core) (v : Word) (h : c.loopBytes.length = 64) :
    crc32c ((c.image v).take 8892) = BitVec.ofNat 32 (imgFld (c.image v) 8892 4) := by
  have e := c.imageHead_length v h
  have b (l : List Byte) (x : Nat) (hx : l.length = 8892) : imgFld (l ++ leBytes 4 x) 8892 4 = x % 256 ^ 4 := by
    unfold imgFld bytesAt
    simp only []
    rw [List.drop_left' hx, List.take_of_length_le (by simp), leBytes_length]
    simpa using leNat_leBytes 4 x
  unfold Core.image
  simp only []
  rw [List.take_left' e, b _ _ e]
  generalize crc32c (c.imageHead v) = y
  apply BitVec.eq_of_toNat_eq
  have := y.isLt
  simp
  omega

end Sys2Proof.Machine
end

