-- ==== Sys2Proof/Laws/Issue.lean ====
section
/-! SUPPORT. The issue of a command's bundle, said once: what issueOp answers for an operation that neither faults nor
stalls nor jumps nor halts, and for one whose predicate keeps it from executing. -/
namespace Sys2Proof.Machine

@[simp] theorem State.core_setCore_same (s : State) (n : Nat) (c : Core) : (s.setCore n c).core n = c :=
  Sparse.get_put_same _ _ _ _

theorem State.core_setCore (s : State) (n k : Nat) (c : Core) : (s.setCore n c).core k = if k = n then c else s.core k :=
  Sparse.get_put _ _ _ _ _

@[simp] theorem State.core_modCore_same (s : State) (n : Nat) (f : Core → Core) : (s.modCore n f).core n = f (s.core n) :=
  State.core_setCore_same s n _

@[simp] theorem State.setCore_setCore (s : State) (n : Nat) (c d : Core) : (s.setCore n c).setCore n d = s.setCore n d := by
  simp [State.setCore]

@[simp] theorem State.modCore_modCore (s : State) (n : Nat) (f g : Core → Core) :
    (s.modCore n f).modCore n g = s.modCore n (fun c => g (f c)) := by
  simp [State.modCore]

@[simp] theorem State.core_setReg (s : State) (k n : Nat) (v : Word) : (s.setReg k v).core n = s.core n := rfl

@[simp] theorem State.core_inc64 (s : State) (k m n : Nat) : (s.inc64 k m).core n = s.core n := rfl

theorem State.inc64_modCore (s : State) (k m n : Nat) (f : Core → Core) :
    (s.inc64 k m).modCore n f = (s.modCore n f).inc64 k m := rfl

/-- The trip ends at a bundle that ends no loop. -/
theorem tripEnds_none (fuel : Nat) (b : BitVec 20) (c : Core) (h : ∀ l ∈ c.loops, l.last ≠ b) : tripEnds fuel b c = (c, none) := by
  cases fuel with
  | zero => rfl
  | succ n =>
    unfold tripEnds
    cases hl : c.loops.reverse with
    | nil => rfl
    | cons l below =>
      have hm : l ∈ c.loops := by rw [← List.mem_reverse, hl]; simp
      simp [h l hm]

theorem Core.advance_plain (c : Core) (hl : ∀ l ∈ c.loops, l.last ≠ c.pc) (hp : c.pc.toNat + 16 < 2 ^ 20) :
    c.advance .none = { c with pc := c.pc + 16, pcOut := none } := by
  have e : BitVec.ofInt 20 ((c.pc.toNat : Int) + 16) = c.pc + 16 := by
    apply BitVec.eq_of_toNat_eq
    rw [BitVec.toNat_add, BitVec.toNat_ofInt]
    simp
    omega
  have h1 : (0 : Int) ≤ (c.pc.toNat : Int) + 16 ∧ (c.pc.toNat : Int) + 16 < 2 ^ 20 := by omega
  simp only [Core.advance, tripEnds_none 4 c.pc c hl, Core.goto, if_pos h1, e]

/-- What a sequencer needs for the issue: it is untouched by the effects of a plain operation. -/
structure SameIssue (c d : Core) : Prop where
  st : d.st = c.st
  pc : d.pc = c.pc
  loops : d.loops = c.loops
  stepping : d.stepping = c.stepping

theorem SameIssue.refl (c : Core) : SameIssue c c := ⟨rfl, rfl, rfl, rfl⟩

theorem canIssue_of_atBundle {s : State} {n : Nat} (h : s.atBundle n) : s.canIssue n = true := by
  obtain ⟨h1, h2, h3, _, h5, _⟩ := h
  simp [State.canIssue, h1, h2, h3, h5]

/-- The loop buffer is kept where the loop stack is. -/
theorem Core.bufferKept_same (c d : Core) (h : d.loops = c.loops) : c.bufferKept d = d := by simp [Core.bufferKept, h]

theorem Core.next_of_plain (d : Core) (e1 : d.st = .running) (e2 : d.stepping = false) (hl : ∀ l ∈ d.loops, l.last ≠ d.pc)
    (hp : d.pc.toNat + 16 < 2 ^ 20) : (Core.readsUsed (Core.afterBundle .none d)).goesOn = d.next := by
  have e4 : d.st.issuing = true := by rw [e1]; rfl
  rw [Core.afterBundle, if_pos e4, Core.advance_plain d hl hp, Core.bufferKept_same d { d with pc := d.pc + 16, pcOut := none } rfl]
  simp [Core.readsUsed, Core.goesOn, Core.next, Core.dropReads, e1, e2]

/-- The state after a bundle whose effects have been made and which neither jumps nor halts. -/
theorem advance_issued {s t : State} {n : Nat} (h : s.issues n) (hs : SameIssue (s.core n) (t.core n)) :
    (((t.modCore n (Core.afterBundle .none)).modCore n Core.readsUsed).inc64 (corePage n 0 + 0x68)).settle n false = t.issued n := by
  obtain ⟨⟨_, _, h3, h4, _, _⟩, h7, h8⟩ := h
  have e : (Core.readsUsed (Core.afterBundle .none (t.core n))).goesOn = (t.core n).next :=
    Core.next_of_plain _ (hs.st.trans h3) (hs.stepping.trans h4) (by rw [hs.loops, hs.pc]; exact h8) (by rw [hs.pc]; exact h7)
  rw [State.settle, if_neg (by simp), State.inc64_modCore, State.modCore_modCore, State.modCore_modCore, State.issued]
  unfold State.modCore
  beta_reduce
  rw [e]

/-- A command's operation that neither faults nor stalls nor jumps nor halts is issued: its effects are made and the
sequencer goes on to the next bundle. -/
theorem issueOp_plain {s : State} {o : Slot} {slot : Nat} {f : State → Nat → SlotOp} (h : s.executes o)
    (hi : (f s (coreNo o.core)).illegal = false) (hf : (f s (coreNo o.core)).fault = none)
    (hst : (f s (coreNo o.core)).stall = .none) (hj : (f s (coreNo o.core)).jump = .none)
    (hh : (f s (coreNo o.core)).halt = false)
    (hs : SameIssue (s.core (coreNo o.core)) (((f s (coreNo o.core)).act ((f s (coreNo o.core)).pre s)).core (coreNo o.core))) :
    s.issueOp o slot f = ((f s (coreNo o.core)).act ((f s (coreNo o.core)).pre s)).issued (coreNo o.core) := by
  have hp : (s.core (coreNo o.core)).pcOut = none := h.1.1.2.2.2.2.2
  have key := advance_issued h.1 hs
  have e : s.issueOp o slot f = s.runBundle (coreNo o.core) [⟨slot, true, f s (coreNo o.core)⟩] := by
    simp [State.issueOp, canIssue_of_atBundle h.1.1, hp, h.2]
  rw [e]
  simp [State.runBundle, bundleFault, bundleStall, bundleJump, bundleActs, hi, hf, hst, hj, hh, -State.modCore_modCore, key]

/-- An operation that a predicate keeps from executing is issued without an effect of its own. -/
theorem issueOp_off {s : State} {o : Slot} {slot : Nat} {f : State → Nat → SlotOp} (h : s.issues (coreNo o.core))
    (hp : (s.core (coreNo o.core)).pred o = false) (hi : (f s (coreNo o.core)).illegal = false) :
    s.issueOp o slot f = s.issued (coreNo o.core) := by
  have hp' : (s.core (coreNo o.core)).pcOut = none := h.1.2.2.2.2.2
  have key := advance_issued h (SameIssue.refl (s.core (coreNo o.core)))
  have e : s.issueOp o slot f = s.runBundle (coreNo o.core) [⟨slot, false, f s (coreNo o.core)⟩] := by
    simp [State.issueOp, canIssue_of_atBundle h.1, hp', hp]
  rw [e]
  simp [State.runBundle, bundleFault, bundleStall, bundleJump, bundleActs, hi, -State.modCore_modCore, key]

end Sys2Proof.Machine
end

