-- ==== Sys2Proof/Laws/State.lean ====
section
/-! SUPPORT. Small lemmas of the state: what each update leaves as it was, and what it writes. -/
namespace Sys2Proof.Machine

/-! What each update keeps: every field it does not write, and every part of the state read from such a field -/

@[simp] theorem State.send_keeps (s : State) (m : Msg) :
    (s.send m).pending = s.pending ∧ (s.send m).freeCtr = s.freeCtr ∧ (s.send m).keyGen = s.keyGen ∧ (s.send m).resetN = s.resetN ∧
    (s.send m).pwrOk = s.pwrOk ∧ (s.send m).inReset = s.inReset ∧ (s.send m).releaseWaits = s.releaseWaits ∧ (s.send m).inputMv = s.inputMv ∧
    (s.send m).cfgMode = s.cfgMode ∧ (s.send m).ceilHalf = s.ceilHalf ∧ (s.send m).tripped = s.tripped ∧ (s.send m).hotJunction = s.hotJunction ∧
    (s.send m).time = s.time ∧ (s.send m).regs = s.regs ∧ (s.send m).cores = s.cores ∧ (s.send m).taps = s.taps ∧
    (s.send m).planeEnds = s.planeEnds ∧ (s.send m).planeDown = s.planeDown ∧ (s.send m).remap = s.remap ∧ (s.send m).marks = s.marks ∧
    (s.send m).reefs = s.reefs ∧ (s.send m).clkSet = s.clkSet ∧ (s.send m).clkEff = s.clkEff ∧ (s.send m).power = s.power ∧ (s.send m).dir = s.dir ∧
    (s.send m).lpddr = s.lpddr ∧ (s.send m).lpoison = s.lpoison ∧ (s.send m).lfresh = s.lfresh ∧ (s.send m).fram = s.fram ∧
    (s.send m).ramOut = s.ramOut ∧ (s.send m).ffs = s.ffs ∧ (s.send m).cross = s.cross ∧ (s.send m).ioPins = s.ioPins ∧
    (s.send m).ioRegs = s.ioRegs ∧ (s.send m).cfgmem = s.cfgmem ∧ (s.send m).regions = s.regions ∧ (s.send m).hal = s.hal ∧
    (s.send m).boot = s.boot ∧ (s.send m).shells = s.shells ∧ (s.send m).cfgDone = s.cfgDone ∧ (s.send m).cfgRdy = s.cfgRdy ∧
    (s.send m).mcOn = s.mcOn ∧ (s.send m).hc = s.hc ∧ (s.send m).chans = s.chans ∧ (s.send m).lanes = s.lanes ∧ (s.send m).ports = s.ports ∧
    (s.send m).tenants = s.tenants ∧ (s.send m).ubxIn = s.ubxIn ∧ (s.send m).rxChans = s.rxChans ∧ (s.send m).sec = s.sec ∧
    (s.send m).smbStatus = s.smbStatus ∧ (s.send m).smbErr = s.smbErr ∧ (s.send m).smbData = s.smbData ∧ (s.send m).ppsUntil = s.ppsUntil ∧
    (s.send m).jtag = s.jtag ∧ (∀ i, (s.send m).core i = s.core i) ∧ (∀ i, (s.send m).tap i = s.tap i) ∧ (∀ i, (s.send m).dirAt i = s.dirAt i) ∧
    (∀ i, (s.send m).hcAt i = s.hcAt i) ∧ (∀ i, (s.send m).halAt i = s.halAt i) ∧ (∀ i, (s.send m).region i = s.region i) ∧
    (∀ i, (s.send m).chan i = s.chan i) ∧ (∀ i, (s.send m).lane i = s.lane i) ∧ (∀ i, (s.send m).port i = s.port i) ∧
    (∀ i, (s.send m).tenant i = s.tenant i) ∧ (∀ i, (s.send m).blk i = s.blk i) ∧ (∀ i, (s.send m).clk i = s.clk i) ∧
    (∀ i, (s.send m).eff i = s.eff i) ∧ (∀ i, (s.send m).reg i = s.reg i) ∧ (∀ i, (s.send m).reg64 i = s.reg64 i) ∧
    (∀ i b, (s.send m).bit i b = s.bit i b) ∧ (∀ i lo w, (s.send m).fld i lo w = s.fld i lo w) := by
  refine ⟨?_, ?_, ?_, ?_, ?_, ?_, ?_, ?_, ?_, ?_, ?_, ?_, ?_, ?_, ?_, ?_, ?_, ?_, ?_, ?_, ?_, ?_, ?_, ?_, ?_, ?_, ?_, ?_, ?_, ?_, ?_, ?_, ?_, ?_, ?_, ?_, ?_, ?_, ?_, ?_, ?_, ?_, ?_, ?_, ?_, ?_, ?_, ?_, ?_, ?_, ?_, ?_, ?_, ?_, ?_, ?_, ?_, ?_, ?_, ?_, ?_, ?_, ?_, ?_, ?_, ?_, ?_, ?_, ?_, ?_, ?_, ?_⟩ <;> intros <;> rfl

@[simp] theorem State.setReg_keeps (s : State) (k : Nat) (v : Word) :
    (s.setReg k v).pending = s.pending ∧ (s.setReg k v).sent = s.sent ∧ (s.setReg k v).freeCtr = s.freeCtr ∧ (s.setReg k v).keyGen = s.keyGen ∧
    (s.setReg k v).resetN = s.resetN ∧ (s.setReg k v).pwrOk = s.pwrOk ∧ (s.setReg k v).inReset = s.inReset ∧
    (s.setReg k v).releaseWaits = s.releaseWaits ∧ (s.setReg k v).inputMv = s.inputMv ∧ (s.setReg k v).cfgMode = s.cfgMode ∧
    (s.setReg k v).ceilHalf = s.ceilHalf ∧ (s.setReg k v).tripped = s.tripped ∧ (s.setReg k v).hotJunction = s.hotJunction ∧
    (s.setReg k v).time = s.time ∧ (s.setReg k v).cores = s.cores ∧ (s.setReg k v).taps = s.taps ∧ (s.setReg k v).planeEnds = s.planeEnds ∧
    (s.setReg k v).planeDown = s.planeDown ∧ (s.setReg k v).remap = s.remap ∧ (s.setReg k v).marks = s.marks ∧ (s.setReg k v).reefs = s.reefs ∧
    (s.setReg k v).clkSet = s.clkSet ∧ (s.setReg k v).clkEff = s.clkEff ∧ (s.setReg k v).power = s.power ∧ (s.setReg k v).dir = s.dir ∧
    (s.setReg k v).lpddr = s.lpddr ∧ (s.setReg k v).lpoison = s.lpoison ∧ (s.setReg k v).lfresh = s.lfresh ∧ (s.setReg k v).fram = s.fram ∧
    (s.setReg k v).ramOut = s.ramOut ∧ (s.setReg k v).ffs = s.ffs ∧ (s.setReg k v).cross = s.cross ∧ (s.setReg k v).ioPins = s.ioPins ∧
    (s.setReg k v).ioRegs = s.ioRegs ∧ (s.setReg k v).cfgmem = s.cfgmem ∧ (s.setReg k v).regions = s.regions ∧ (s.setReg k v).hal = s.hal ∧
    (s.setReg k v).boot = s.boot ∧ (s.setReg k v).shells = s.shells ∧ (s.setReg k v).cfgDone = s.cfgDone ∧ (s.setReg k v).cfgRdy = s.cfgRdy ∧
    (s.setReg k v).mcOn = s.mcOn ∧ (s.setReg k v).hc = s.hc ∧ (s.setReg k v).chans = s.chans ∧ (s.setReg k v).lanes = s.lanes ∧
    (s.setReg k v).ports = s.ports ∧ (s.setReg k v).tenants = s.tenants ∧ (s.setReg k v).ubxIn = s.ubxIn ∧ (s.setReg k v).rxChans = s.rxChans ∧
    (s.setReg k v).sec = s.sec ∧ (s.setReg k v).smbStatus = s.smbStatus ∧ (s.setReg k v).smbErr = s.smbErr ∧ (s.setReg k v).smbData = s.smbData ∧
    (s.setReg k v).ppsUntil = s.ppsUntil ∧ (s.setReg k v).jtag = s.jtag ∧ (∀ i, (s.setReg k v).core i = s.core i) ∧
    (∀ i, (s.setReg k v).tap i = s.tap i) ∧ (∀ i, (s.setReg k v).dirAt i = s.dirAt i) ∧ (∀ i, (s.setReg k v).hcAt i = s.hcAt i) ∧
    (∀ i, (s.setReg k v).halAt i = s.halAt i) ∧ (∀ i, (s.setReg k v).region i = s.region i) ∧ (∀ i, (s.setReg k v).chan i = s.chan i) ∧
    (∀ i, (s.setReg k v).lane i = s.lane i) ∧ (∀ i, (s.setReg k v).port i = s.port i) ∧ (∀ i, (s.setReg k v).tenant i = s.tenant i) ∧
    (∀ i, (s.setReg k v).blk i = s.blk i) ∧ (∀ i, (s.setReg k v).clk i = s.clk i) ∧ (∀ i, (s.setReg k v).eff i = s.eff i) := by
  refine ⟨?_, ?_, ?_, ?_, ?_, ?_, ?_, ?_, ?_, ?_, ?_, ?_, ?_, ?_, ?_, ?_, ?_, ?_, ?_, ?_, ?_, ?_, ?_, ?_, ?_, ?_, ?_, ?_, ?_, ?_, ?_, ?_, ?_, ?_, ?_, ?_, ?_, ?_, ?_, ?_, ?_, ?_, ?_, ?_, ?_, ?_, ?_, ?_, ?_, ?_, ?_, ?_, ?_, ?_, ?_, ?_, ?_, ?_, ?_, ?_, ?_, ?_, ?_, ?_, ?_, ?_, ?_, ?_⟩ <;> intros <;> rfl

@[simp] theorem State.setFld_keeps (s : State) (k lo w v : Nat) :
    (s.setFld k lo w v).pending = s.pending ∧ (s.setFld k lo w v).sent = s.sent ∧ (s.setFld k lo w v).freeCtr = s.freeCtr ∧
    (s.setFld k lo w v).keyGen = s.keyGen ∧ (s.setFld k lo w v).resetN = s.resetN ∧ (s.setFld k lo w v).pwrOk = s.pwrOk ∧
    (s.setFld k lo w v).inReset = s.inReset ∧ (s.setFld k lo w v).releaseWaits = s.releaseWaits ∧ (s.setFld k lo w v).inputMv = s.inputMv ∧
    (s.setFld k lo w v).cfgMode = s.cfgMode ∧ (s.setFld k lo w v).ceilHalf = s.ceilHalf ∧ (s.setFld k lo w v).tripped = s.tripped ∧
    (s.setFld k lo w v).hotJunction = s.hotJunction ∧ (s.setFld k lo w v).time = s.time ∧ (s.setFld k lo w v).cores = s.cores ∧
    (s.setFld k lo w v).taps = s.taps ∧ (s.setFld k lo w v).planeEnds = s.planeEnds ∧ (s.setFld k lo w v).planeDown = s.planeDown ∧
    (s.setFld k lo w v).remap = s.remap ∧ (s.setFld k lo w v).marks = s.marks ∧ (s.setFld k lo w v).reefs = s.reefs ∧
    (s.setFld k lo w v).clkSet = s.clkSet ∧ (s.setFld k lo w v).clkEff = s.clkEff ∧ (s.setFld k lo w v).power = s.power ∧
    (s.setFld k lo w v).dir = s.dir ∧ (s.setFld k lo w v).lpddr = s.lpddr ∧ (s.setFld k lo w v).lpoison = s.lpoison ∧
    (s.setFld k lo w v).lfresh = s.lfresh ∧ (s.setFld k lo w v).fram = s.fram ∧ (s.setFld k lo w v).ramOut = s.ramOut ∧
    (s.setFld k lo w v).ffs = s.ffs ∧ (s.setFld k lo w v).cross = s.cross ∧ (s.setFld k lo w v).ioPins = s.ioPins ∧
    (s.setFld k lo w v).ioRegs = s.ioRegs ∧ (s.setFld k lo w v).cfgmem = s.cfgmem ∧ (s.setFld k lo w v).regions = s.regions ∧
    (s.setFld k lo w v).hal = s.hal ∧ (s.setFld k lo w v).boot = s.boot ∧ (s.setFld k lo w v).shells = s.shells ∧
    (s.setFld k lo w v).cfgDone = s.cfgDone ∧ (s.setFld k lo w v).cfgRdy = s.cfgRdy ∧ (s.setFld k lo w v).mcOn = s.mcOn ∧
    (s.setFld k lo w v).hc = s.hc ∧ (s.setFld k lo w v).chans = s.chans ∧ (s.setFld k lo w v).lanes = s.lanes ∧ (s.setFld k lo w v).ports = s.ports ∧
    (s.setFld k lo w v).tenants = s.tenants ∧ (s.setFld k lo w v).ubxIn = s.ubxIn ∧ (s.setFld k lo w v).rxChans = s.rxChans ∧
    (s.setFld k lo w v).sec = s.sec ∧ (s.setFld k lo w v).smbStatus = s.smbStatus ∧ (s.setFld k lo w v).smbErr = s.smbErr ∧
    (s.setFld k lo w v).smbData = s.smbData ∧ (s.setFld k lo w v).ppsUntil = s.ppsUntil ∧ (s.setFld k lo w v).jtag = s.jtag ∧
    (∀ i, (s.setFld k lo w v).core i = s.core i) ∧ (∀ i, (s.setFld k lo w v).tap i = s.tap i) ∧ (∀ i, (s.setFld k lo w v).dirAt i = s.dirAt i) ∧
    (∀ i, (s.setFld k lo w v).hcAt i = s.hcAt i) ∧ (∀ i, (s.setFld k lo w v).halAt i = s.halAt i) ∧
    (∀ i, (s.setFld k lo w v).region i = s.region i) ∧ (∀ i, (s.setFld k lo w v).chan i = s.chan i) ∧ (∀ i, (s.setFld k lo w v).lane i = s.lane i) ∧
    (∀ i, (s.setFld k lo w v).port i = s.port i) ∧ (∀ i, (s.setFld k lo w v).tenant i = s.tenant i) ∧ (∀ i, (s.setFld k lo w v).blk i = s.blk i) ∧
    (∀ i, (s.setFld k lo w v).clk i = s.clk i) ∧ (∀ i, (s.setFld k lo w v).eff i = s.eff i) := by
  refine ⟨?_, ?_, ?_, ?_, ?_, ?_, ?_, ?_, ?_, ?_, ?_, ?_, ?_, ?_, ?_, ?_, ?_, ?_, ?_, ?_, ?_, ?_, ?_, ?_, ?_, ?_, ?_, ?_, ?_, ?_, ?_, ?_, ?_, ?_, ?_, ?_, ?_, ?_, ?_, ?_, ?_, ?_, ?_, ?_, ?_, ?_, ?_, ?_, ?_, ?_, ?_, ?_, ?_, ?_, ?_, ?_, ?_, ?_, ?_, ?_, ?_, ?_, ?_, ?_, ?_, ?_, ?_, ?_⟩ <;> intros <;> rfl

@[simp] theorem State.incWrap_keeps (s : State) (k n : Nat) :
    (s.incWrap k n).pending = s.pending ∧ (s.incWrap k n).sent = s.sent ∧ (s.incWrap k n).freeCtr = s.freeCtr ∧ (s.incWrap k n).keyGen = s.keyGen ∧
    (s.incWrap k n).resetN = s.resetN ∧ (s.incWrap k n).pwrOk = s.pwrOk ∧ (s.incWrap k n).inReset = s.inReset ∧
    (s.incWrap k n).releaseWaits = s.releaseWaits ∧ (s.incWrap k n).inputMv = s.inputMv ∧ (s.incWrap k n).cfgMode = s.cfgMode ∧
    (s.incWrap k n).ceilHalf = s.ceilHalf ∧ (s.incWrap k n).tripped = s.tripped ∧ (s.incWrap k n).hotJunction = s.hotJunction ∧
    (s.incWrap k n).time = s.time ∧ (s.incWrap k n).cores = s.cores ∧ (s.incWrap k n).taps = s.taps ∧ (s.incWrap k n).planeEnds = s.planeEnds ∧
    (s.incWrap k n).planeDown = s.planeDown ∧ (s.incWrap k n).remap = s.remap ∧ (s.incWrap k n).marks = s.marks ∧ (s.incWrap k n).reefs = s.reefs ∧
    (s.incWrap k n).clkSet = s.clkSet ∧ (s.incWrap k n).clkEff = s.clkEff ∧ (s.incWrap k n).power = s.power ∧ (s.incWrap k n).dir = s.dir ∧
    (s.incWrap k n).lpddr = s.lpddr ∧ (s.incWrap k n).lpoison = s.lpoison ∧ (s.incWrap k n).lfresh = s.lfresh ∧ (s.incWrap k n).fram = s.fram ∧
    (s.incWrap k n).ramOut = s.ramOut ∧ (s.incWrap k n).ffs = s.ffs ∧ (s.incWrap k n).cross = s.cross ∧ (s.incWrap k n).ioPins = s.ioPins ∧
    (s.incWrap k n).ioRegs = s.ioRegs ∧ (s.incWrap k n).cfgmem = s.cfgmem ∧ (s.incWrap k n).regions = s.regions ∧ (s.incWrap k n).hal = s.hal ∧
    (s.incWrap k n).boot = s.boot ∧ (s.incWrap k n).shells = s.shells ∧ (s.incWrap k n).cfgDone = s.cfgDone ∧ (s.incWrap k n).cfgRdy = s.cfgRdy ∧
    (s.incWrap k n).mcOn = s.mcOn ∧ (s.incWrap k n).hc = s.hc ∧ (s.incWrap k n).chans = s.chans ∧ (s.incWrap k n).lanes = s.lanes ∧
    (s.incWrap k n).ports = s.ports ∧ (s.incWrap k n).tenants = s.tenants ∧ (s.incWrap k n).ubxIn = s.ubxIn ∧ (s.incWrap k n).rxChans = s.rxChans ∧
    (s.incWrap k n).sec = s.sec ∧ (s.incWrap k n).smbStatus = s.smbStatus ∧ (s.incWrap k n).smbErr = s.smbErr ∧ (s.incWrap k n).smbData = s.smbData ∧
    (s.incWrap k n).ppsUntil = s.ppsUntil ∧ (s.incWrap k n).jtag = s.jtag ∧ (∀ i, (s.incWrap k n).core i = s.core i) ∧
    (∀ i, (s.incWrap k n).tap i = s.tap i) ∧ (∀ i, (s.incWrap k n).dirAt i = s.dirAt i) ∧ (∀ i, (s.incWrap k n).hcAt i = s.hcAt i) ∧
    (∀ i, (s.incWrap k n).halAt i = s.halAt i) ∧ (∀ i, (s.incWrap k n).region i = s.region i) ∧ (∀ i, (s.incWrap k n).chan i = s.chan i) ∧
    (∀ i, (s.incWrap k n).lane i = s.lane i) ∧ (∀ i, (s.incWrap k n).port i = s.port i) ∧ (∀ i, (s.incWrap k n).tenant i = s.tenant i) ∧
    (∀ i, (s.incWrap k n).blk i = s.blk i) ∧ (∀ i, (s.incWrap k n).clk i = s.clk i) ∧ (∀ i, (s.incWrap k n).eff i = s.eff i) := by
  refine ⟨?_, ?_, ?_, ?_, ?_, ?_, ?_, ?_, ?_, ?_, ?_, ?_, ?_, ?_, ?_, ?_, ?_, ?_, ?_, ?_, ?_, ?_, ?_, ?_, ?_, ?_, ?_, ?_, ?_, ?_, ?_, ?_, ?_, ?_, ?_, ?_, ?_, ?_, ?_, ?_, ?_, ?_, ?_, ?_, ?_, ?_, ?_, ?_, ?_, ?_, ?_, ?_, ?_, ?_, ?_, ?_, ?_, ?_, ?_, ?_, ?_, ?_, ?_, ?_, ?_, ?_, ?_, ?_⟩ <;> intros <;> rfl

@[simp] theorem State.incSat_keeps (s : State) (k n : Nat) :
    (s.incSat k n).pending = s.pending ∧ (s.incSat k n).sent = s.sent ∧ (s.incSat k n).freeCtr = s.freeCtr ∧ (s.incSat k n).keyGen = s.keyGen ∧
    (s.incSat k n).resetN = s.resetN ∧ (s.incSat k n).pwrOk = s.pwrOk ∧ (s.incSat k n).inReset = s.inReset ∧
    (s.incSat k n).releaseWaits = s.releaseWaits ∧ (s.incSat k n).inputMv = s.inputMv ∧ (s.incSat k n).cfgMode = s.cfgMode ∧
    (s.incSat k n).ceilHalf = s.ceilHalf ∧ (s.incSat k n).tripped = s.tripped ∧ (s.incSat k n).hotJunction = s.hotJunction ∧
    (s.incSat k n).time = s.time ∧ (s.incSat k n).cores = s.cores ∧ (s.incSat k n).taps = s.taps ∧ (s.incSat k n).planeEnds = s.planeEnds ∧
    (s.incSat k n).planeDown = s.planeDown ∧ (s.incSat k n).remap = s.remap ∧ (s.incSat k n).marks = s.marks ∧ (s.incSat k n).reefs = s.reefs ∧
    (s.incSat k n).clkSet = s.clkSet ∧ (s.incSat k n).clkEff = s.clkEff ∧ (s.incSat k n).power = s.power ∧ (s.incSat k n).dir = s.dir ∧
    (s.incSat k n).lpddr = s.lpddr ∧ (s.incSat k n).lpoison = s.lpoison ∧ (s.incSat k n).lfresh = s.lfresh ∧ (s.incSat k n).fram = s.fram ∧
    (s.incSat k n).ramOut = s.ramOut ∧ (s.incSat k n).ffs = s.ffs ∧ (s.incSat k n).cross = s.cross ∧ (s.incSat k n).ioPins = s.ioPins ∧
    (s.incSat k n).ioRegs = s.ioRegs ∧ (s.incSat k n).cfgmem = s.cfgmem ∧ (s.incSat k n).regions = s.regions ∧ (s.incSat k n).hal = s.hal ∧
    (s.incSat k n).boot = s.boot ∧ (s.incSat k n).shells = s.shells ∧ (s.incSat k n).cfgDone = s.cfgDone ∧ (s.incSat k n).cfgRdy = s.cfgRdy ∧
    (s.incSat k n).mcOn = s.mcOn ∧ (s.incSat k n).hc = s.hc ∧ (s.incSat k n).chans = s.chans ∧ (s.incSat k n).lanes = s.lanes ∧
    (s.incSat k n).ports = s.ports ∧ (s.incSat k n).tenants = s.tenants ∧ (s.incSat k n).ubxIn = s.ubxIn ∧ (s.incSat k n).rxChans = s.rxChans ∧
    (s.incSat k n).sec = s.sec ∧ (s.incSat k n).smbStatus = s.smbStatus ∧ (s.incSat k n).smbErr = s.smbErr ∧ (s.incSat k n).smbData = s.smbData ∧
    (s.incSat k n).ppsUntil = s.ppsUntil ∧ (s.incSat k n).jtag = s.jtag ∧ (∀ i, (s.incSat k n).core i = s.core i) ∧
    (∀ i, (s.incSat k n).tap i = s.tap i) ∧ (∀ i, (s.incSat k n).dirAt i = s.dirAt i) ∧ (∀ i, (s.incSat k n).hcAt i = s.hcAt i) ∧
    (∀ i, (s.incSat k n).halAt i = s.halAt i) ∧ (∀ i, (s.incSat k n).region i = s.region i) ∧ (∀ i, (s.incSat k n).chan i = s.chan i) ∧
    (∀ i, (s.incSat k n).lane i = s.lane i) ∧ (∀ i, (s.incSat k n).port i = s.port i) ∧ (∀ i, (s.incSat k n).tenant i = s.tenant i) ∧
    (∀ i, (s.incSat k n).blk i = s.blk i) ∧ (∀ i, (s.incSat k n).clk i = s.clk i) ∧ (∀ i, (s.incSat k n).eff i = s.eff i) := by
  refine ⟨?_, ?_, ?_, ?_, ?_, ?_, ?_, ?_, ?_, ?_, ?_, ?_, ?_, ?_, ?_, ?_, ?_, ?_, ?_, ?_, ?_, ?_, ?_, ?_, ?_, ?_, ?_, ?_, ?_, ?_, ?_, ?_, ?_, ?_, ?_, ?_, ?_, ?_, ?_, ?_, ?_, ?_, ?_, ?_, ?_, ?_, ?_, ?_, ?_, ?_, ?_, ?_, ?_, ?_, ?_, ?_, ?_, ?_, ?_, ?_, ?_, ?_, ?_, ?_, ?_, ?_, ?_, ?_⟩ <;> intros <;> rfl

@[simp] theorem State.setReg64_keeps (s : State) (k : Nat) (v : Dword) :
    (s.setReg64 k v).pending = s.pending ∧ (s.setReg64 k v).sent = s.sent ∧ (s.setReg64 k v).freeCtr = s.freeCtr ∧
    (s.setReg64 k v).keyGen = s.keyGen ∧ (s.setReg64 k v).resetN = s.resetN ∧ (s.setReg64 k v).pwrOk = s.pwrOk ∧
    (s.setReg64 k v).inReset = s.inReset ∧ (s.setReg64 k v).releaseWaits = s.releaseWaits ∧ (s.setReg64 k v).inputMv = s.inputMv ∧
    (s.setReg64 k v).cfgMode = s.cfgMode ∧ (s.setReg64 k v).ceilHalf = s.ceilHalf ∧ (s.setReg64 k v).tripped = s.tripped ∧
    (s.setReg64 k v).hotJunction = s.hotJunction ∧ (s.setReg64 k v).time = s.time ∧ (s.setReg64 k v).cores = s.cores ∧
    (s.setReg64 k v).taps = s.taps ∧ (s.setReg64 k v).planeEnds = s.planeEnds ∧ (s.setReg64 k v).planeDown = s.planeDown ∧
    (s.setReg64 k v).remap = s.remap ∧ (s.setReg64 k v).marks = s.marks ∧ (s.setReg64 k v).reefs = s.reefs ∧ (s.setReg64 k v).clkSet = s.clkSet ∧
    (s.setReg64 k v).clkEff = s.clkEff ∧ (s.setReg64 k v).power = s.power ∧ (s.setReg64 k v).dir = s.dir ∧ (s.setReg64 k v).lpddr = s.lpddr ∧
    (s.setReg64 k v).lpoison = s.lpoison ∧ (s.setReg64 k v).lfresh = s.lfresh ∧ (s.setReg64 k v).fram = s.fram ∧ (s.setReg64 k v).ramOut = s.ramOut ∧
    (s.setReg64 k v).ffs = s.ffs ∧ (s.setReg64 k v).cross = s.cross ∧ (s.setReg64 k v).ioPins = s.ioPins ∧ (s.setReg64 k v).ioRegs = s.ioRegs ∧
    (s.setReg64 k v).cfgmem = s.cfgmem ∧ (s.setReg64 k v).regions = s.regions ∧ (s.setReg64 k v).hal = s.hal ∧ (s.setReg64 k v).boot = s.boot ∧
    (s.setReg64 k v).shells = s.shells ∧ (s.setReg64 k v).cfgDone = s.cfgDone ∧ (s.setReg64 k v).cfgRdy = s.cfgRdy ∧ (s.setReg64 k v).mcOn = s.mcOn ∧
    (s.setReg64 k v).hc = s.hc ∧ (s.setReg64 k v).chans = s.chans ∧ (s.setReg64 k v).lanes = s.lanes ∧ (s.setReg64 k v).ports = s.ports ∧
    (s.setReg64 k v).tenants = s.tenants ∧ (s.setReg64 k v).ubxIn = s.ubxIn ∧ (s.setReg64 k v).rxChans = s.rxChans ∧ (s.setReg64 k v).sec = s.sec ∧
    (s.setReg64 k v).smbStatus = s.smbStatus ∧ (s.setReg64 k v).smbErr = s.smbErr ∧ (s.setReg64 k v).smbData = s.smbData ∧
    (s.setReg64 k v).ppsUntil = s.ppsUntil ∧ (s.setReg64 k v).jtag = s.jtag ∧ (∀ i, (s.setReg64 k v).core i = s.core i) ∧
    (∀ i, (s.setReg64 k v).tap i = s.tap i) ∧ (∀ i, (s.setReg64 k v).dirAt i = s.dirAt i) ∧ (∀ i, (s.setReg64 k v).hcAt i = s.hcAt i) ∧
    (∀ i, (s.setReg64 k v).halAt i = s.halAt i) ∧ (∀ i, (s.setReg64 k v).region i = s.region i) ∧ (∀ i, (s.setReg64 k v).chan i = s.chan i) ∧
    (∀ i, (s.setReg64 k v).lane i = s.lane i) ∧ (∀ i, (s.setReg64 k v).port i = s.port i) ∧ (∀ i, (s.setReg64 k v).tenant i = s.tenant i) ∧
    (∀ i, (s.setReg64 k v).blk i = s.blk i) ∧ (∀ i, (s.setReg64 k v).clk i = s.clk i) ∧ (∀ i, (s.setReg64 k v).eff i = s.eff i) := by
  refine ⟨?_, ?_, ?_, ?_, ?_, ?_, ?_, ?_, ?_, ?_, ?_, ?_, ?_, ?_, ?_, ?_, ?_, ?_, ?_, ?_, ?_, ?_, ?_, ?_, ?_, ?_, ?_, ?_, ?_, ?_, ?_, ?_, ?_, ?_, ?_, ?_, ?_, ?_, ?_, ?_, ?_, ?_, ?_, ?_, ?_, ?_, ?_, ?_, ?_, ?_, ?_, ?_, ?_, ?_, ?_, ?_, ?_, ?_, ?_, ?_, ?_, ?_, ?_, ?_, ?_, ?_, ?_, ?_⟩ <;> intros <;> rfl

@[simp] theorem State.inc64_keeps (s : State) (k n : Nat) :
    (s.inc64 k n).pending = s.pending ∧ (s.inc64 k n).sent = s.sent ∧ (s.inc64 k n).freeCtr = s.freeCtr ∧ (s.inc64 k n).keyGen = s.keyGen ∧
    (s.inc64 k n).resetN = s.resetN ∧ (s.inc64 k n).pwrOk = s.pwrOk ∧ (s.inc64 k n).inReset = s.inReset ∧
    (s.inc64 k n).releaseWaits = s.releaseWaits ∧ (s.inc64 k n).inputMv = s.inputMv ∧ (s.inc64 k n).cfgMode = s.cfgMode ∧
    (s.inc64 k n).ceilHalf = s.ceilHalf ∧ (s.inc64 k n).tripped = s.tripped ∧ (s.inc64 k n).hotJunction = s.hotJunction ∧
    (s.inc64 k n).time = s.time ∧ (s.inc64 k n).cores = s.cores ∧ (s.inc64 k n).taps = s.taps ∧ (s.inc64 k n).planeEnds = s.planeEnds ∧
    (s.inc64 k n).planeDown = s.planeDown ∧ (s.inc64 k n).remap = s.remap ∧ (s.inc64 k n).marks = s.marks ∧ (s.inc64 k n).reefs = s.reefs ∧
    (s.inc64 k n).clkSet = s.clkSet ∧ (s.inc64 k n).clkEff = s.clkEff ∧ (s.inc64 k n).power = s.power ∧ (s.inc64 k n).dir = s.dir ∧
    (s.inc64 k n).lpddr = s.lpddr ∧ (s.inc64 k n).lpoison = s.lpoison ∧ (s.inc64 k n).lfresh = s.lfresh ∧ (s.inc64 k n).fram = s.fram ∧
    (s.inc64 k n).ramOut = s.ramOut ∧ (s.inc64 k n).ffs = s.ffs ∧ (s.inc64 k n).cross = s.cross ∧ (s.inc64 k n).ioPins = s.ioPins ∧
    (s.inc64 k n).ioRegs = s.ioRegs ∧ (s.inc64 k n).cfgmem = s.cfgmem ∧ (s.inc64 k n).regions = s.regions ∧ (s.inc64 k n).hal = s.hal ∧
    (s.inc64 k n).boot = s.boot ∧ (s.inc64 k n).shells = s.shells ∧ (s.inc64 k n).cfgDone = s.cfgDone ∧ (s.inc64 k n).cfgRdy = s.cfgRdy ∧
    (s.inc64 k n).mcOn = s.mcOn ∧ (s.inc64 k n).hc = s.hc ∧ (s.inc64 k n).chans = s.chans ∧ (s.inc64 k n).lanes = s.lanes ∧
    (s.inc64 k n).ports = s.ports ∧ (s.inc64 k n).tenants = s.tenants ∧ (s.inc64 k n).ubxIn = s.ubxIn ∧ (s.inc64 k n).rxChans = s.rxChans ∧
    (s.inc64 k n).sec = s.sec ∧ (s.inc64 k n).smbStatus = s.smbStatus ∧ (s.inc64 k n).smbErr = s.smbErr ∧ (s.inc64 k n).smbData = s.smbData ∧
    (s.inc64 k n).ppsUntil = s.ppsUntil ∧ (s.inc64 k n).jtag = s.jtag ∧ (∀ i, (s.inc64 k n).core i = s.core i) ∧
    (∀ i, (s.inc64 k n).tap i = s.tap i) ∧ (∀ i, (s.inc64 k n).dirAt i = s.dirAt i) ∧ (∀ i, (s.inc64 k n).hcAt i = s.hcAt i) ∧
    (∀ i, (s.inc64 k n).halAt i = s.halAt i) ∧ (∀ i, (s.inc64 k n).region i = s.region i) ∧ (∀ i, (s.inc64 k n).chan i = s.chan i) ∧
    (∀ i, (s.inc64 k n).lane i = s.lane i) ∧ (∀ i, (s.inc64 k n).port i = s.port i) ∧ (∀ i, (s.inc64 k n).tenant i = s.tenant i) ∧
    (∀ i, (s.inc64 k n).blk i = s.blk i) ∧ (∀ i, (s.inc64 k n).clk i = s.clk i) ∧ (∀ i, (s.inc64 k n).eff i = s.eff i) := by
  refine ⟨?_, ?_, ?_, ?_, ?_, ?_, ?_, ?_, ?_, ?_, ?_, ?_, ?_, ?_, ?_, ?_, ?_, ?_, ?_, ?_, ?_, ?_, ?_, ?_, ?_, ?_, ?_, ?_, ?_, ?_, ?_, ?_, ?_, ?_, ?_, ?_, ?_, ?_, ?_, ?_, ?_, ?_, ?_, ?_, ?_, ?_, ?_, ?_, ?_, ?_, ?_, ?_, ?_, ?_, ?_, ?_, ?_, ?_, ?_, ?_, ?_, ?_, ?_, ?_, ?_, ?_, ?_, ?_⟩ <;> intros <;> rfl

@[simp] theorem State.enterCodes_keeps (s : State) (p : Nat) (l : List (BitVec 16)) :
    (s.enterCodes p l).pending = s.pending ∧ (s.enterCodes p l).sent = s.sent ∧ (s.enterCodes p l).freeCtr = s.freeCtr ∧
    (s.enterCodes p l).keyGen = s.keyGen ∧ (s.enterCodes p l).resetN = s.resetN ∧ (s.enterCodes p l).pwrOk = s.pwrOk ∧
    (s.enterCodes p l).inReset = s.inReset ∧ (s.enterCodes p l).releaseWaits = s.releaseWaits ∧ (s.enterCodes p l).inputMv = s.inputMv ∧
    (s.enterCodes p l).cfgMode = s.cfgMode ∧ (s.enterCodes p l).ceilHalf = s.ceilHalf ∧ (s.enterCodes p l).tripped = s.tripped ∧
    (s.enterCodes p l).hotJunction = s.hotJunction ∧ (s.enterCodes p l).time = s.time ∧ (s.enterCodes p l).cores = s.cores ∧
    (s.enterCodes p l).taps = s.taps ∧ (s.enterCodes p l).planeEnds = s.planeEnds ∧ (s.enterCodes p l).planeDown = s.planeDown ∧
    (s.enterCodes p l).remap = s.remap ∧ (s.enterCodes p l).marks = s.marks ∧ (s.enterCodes p l).reefs = s.reefs ∧
    (s.enterCodes p l).clkSet = s.clkSet ∧ (s.enterCodes p l).clkEff = s.clkEff ∧ (s.enterCodes p l).power = s.power ∧
    (s.enterCodes p l).dir = s.dir ∧ (s.enterCodes p l).lpddr = s.lpddr ∧ (s.enterCodes p l).lpoison = s.lpoison ∧
    (s.enterCodes p l).lfresh = s.lfresh ∧ (s.enterCodes p l).fram = s.fram ∧ (s.enterCodes p l).ramOut = s.ramOut ∧ (s.enterCodes p l).ffs = s.ffs ∧
    (s.enterCodes p l).cross = s.cross ∧ (s.enterCodes p l).ioPins = s.ioPins ∧ (s.enterCodes p l).ioRegs = s.ioRegs ∧
    (s.enterCodes p l).cfgmem = s.cfgmem ∧ (s.enterCodes p l).regions = s.regions ∧ (s.enterCodes p l).hal = s.hal ∧
    (s.enterCodes p l).boot = s.boot ∧ (s.enterCodes p l).shells = s.shells ∧ (s.enterCodes p l).cfgDone = s.cfgDone ∧
    (s.enterCodes p l).cfgRdy = s.cfgRdy ∧ (s.enterCodes p l).mcOn = s.mcOn ∧ (s.enterCodes p l).hc = s.hc ∧ (s.enterCodes p l).chans = s.chans ∧
    (s.enterCodes p l).lanes = s.lanes ∧ (s.enterCodes p l).ports = s.ports ∧ (s.enterCodes p l).tenants = s.tenants ∧
    (s.enterCodes p l).ubxIn = s.ubxIn ∧ (s.enterCodes p l).rxChans = s.rxChans ∧ (s.enterCodes p l).sec = s.sec ∧
    (s.enterCodes p l).smbStatus = s.smbStatus ∧ (s.enterCodes p l).smbErr = s.smbErr ∧ (s.enterCodes p l).smbData = s.smbData ∧
    (s.enterCodes p l).ppsUntil = s.ppsUntil ∧ (s.enterCodes p l).jtag = s.jtag ∧ (∀ i, (s.enterCodes p l).core i = s.core i) ∧
    (∀ i, (s.enterCodes p l).tap i = s.tap i) ∧ (∀ i, (s.enterCodes p l).dirAt i = s.dirAt i) ∧ (∀ i, (s.enterCodes p l).hcAt i = s.hcAt i) ∧
    (∀ i, (s.enterCodes p l).halAt i = s.halAt i) ∧ (∀ i, (s.enterCodes p l).region i = s.region i) ∧ (∀ i, (s.enterCodes p l).chan i = s.chan i) ∧
    (∀ i, (s.enterCodes p l).lane i = s.lane i) ∧ (∀ i, (s.enterCodes p l).port i = s.port i) ∧ (∀ i, (s.enterCodes p l).tenant i = s.tenant i) ∧
    (∀ i, (s.enterCodes p l).blk i = s.blk i) ∧ (∀ i, (s.enterCodes p l).clk i = s.clk i) ∧ (∀ i, (s.enterCodes p l).eff i = s.eff i) := by
  refine ⟨?_, ?_, ?_, ?_, ?_, ?_, ?_, ?_, ?_, ?_, ?_, ?_, ?_, ?_, ?_, ?_, ?_, ?_, ?_, ?_, ?_, ?_, ?_, ?_, ?_, ?_, ?_, ?_, ?_, ?_, ?_, ?_, ?_, ?_, ?_, ?_, ?_, ?_, ?_, ?_, ?_, ?_, ?_, ?_, ?_, ?_, ?_, ?_, ?_, ?_, ?_, ?_, ?_, ?_, ?_, ?_, ?_, ?_, ?_, ?_, ?_, ?_, ?_, ?_, ?_, ?_, ?_, ?_⟩ <;> intros <;> rfl

@[simp] theorem State.enterCode_keeps (s : State) (p : Nat) (c : BitVec 16) :
    (s.enterCode p c).pending = s.pending ∧ (s.enterCode p c).sent = s.sent ∧ (s.enterCode p c).freeCtr = s.freeCtr ∧
    (s.enterCode p c).keyGen = s.keyGen ∧ (s.enterCode p c).resetN = s.resetN ∧ (s.enterCode p c).pwrOk = s.pwrOk ∧
    (s.enterCode p c).inReset = s.inReset ∧ (s.enterCode p c).releaseWaits = s.releaseWaits ∧ (s.enterCode p c).inputMv = s.inputMv ∧
    (s.enterCode p c).cfgMode = s.cfgMode ∧ (s.enterCode p c).ceilHalf = s.ceilHalf ∧ (s.enterCode p c).tripped = s.tripped ∧
    (s.enterCode p c).hotJunction = s.hotJunction ∧ (s.enterCode p c).time = s.time ∧ (s.enterCode p c).cores = s.cores ∧
    (s.enterCode p c).taps = s.taps ∧ (s.enterCode p c).planeEnds = s.planeEnds ∧ (s.enterCode p c).planeDown = s.planeDown ∧
    (s.enterCode p c).remap = s.remap ∧ (s.enterCode p c).marks = s.marks ∧ (s.enterCode p c).reefs = s.reefs ∧ (s.enterCode p c).clkSet = s.clkSet ∧
    (s.enterCode p c).clkEff = s.clkEff ∧ (s.enterCode p c).power = s.power ∧ (s.enterCode p c).dir = s.dir ∧ (s.enterCode p c).lpddr = s.lpddr ∧
    (s.enterCode p c).lpoison = s.lpoison ∧ (s.enterCode p c).lfresh = s.lfresh ∧ (s.enterCode p c).fram = s.fram ∧
    (s.enterCode p c).ramOut = s.ramOut ∧ (s.enterCode p c).ffs = s.ffs ∧ (s.enterCode p c).cross = s.cross ∧ (s.enterCode p c).ioPins = s.ioPins ∧
    (s.enterCode p c).ioRegs = s.ioRegs ∧ (s.enterCode p c).cfgmem = s.cfgmem ∧ (s.enterCode p c).regions = s.regions ∧
    (s.enterCode p c).hal = s.hal ∧ (s.enterCode p c).boot = s.boot ∧ (s.enterCode p c).shells = s.shells ∧ (s.enterCode p c).cfgDone = s.cfgDone ∧
    (s.enterCode p c).cfgRdy = s.cfgRdy ∧ (s.enterCode p c).mcOn = s.mcOn ∧ (s.enterCode p c).hc = s.hc ∧ (s.enterCode p c).chans = s.chans ∧
    (s.enterCode p c).lanes = s.lanes ∧ (s.enterCode p c).ports = s.ports ∧ (s.enterCode p c).tenants = s.tenants ∧
    (s.enterCode p c).ubxIn = s.ubxIn ∧ (s.enterCode p c).rxChans = s.rxChans ∧ (s.enterCode p c).sec = s.sec ∧
    (s.enterCode p c).smbStatus = s.smbStatus ∧ (s.enterCode p c).smbErr = s.smbErr ∧ (s.enterCode p c).smbData = s.smbData ∧
    (s.enterCode p c).ppsUntil = s.ppsUntil ∧ (s.enterCode p c).jtag = s.jtag ∧ (∀ i, (s.enterCode p c).core i = s.core i) ∧
    (∀ i, (s.enterCode p c).tap i = s.tap i) ∧ (∀ i, (s.enterCode p c).dirAt i = s.dirAt i) ∧ (∀ i, (s.enterCode p c).hcAt i = s.hcAt i) ∧
    (∀ i, (s.enterCode p c).halAt i = s.halAt i) ∧ (∀ i, (s.enterCode p c).region i = s.region i) ∧ (∀ i, (s.enterCode p c).chan i = s.chan i) ∧
    (∀ i, (s.enterCode p c).lane i = s.lane i) ∧ (∀ i, (s.enterCode p c).port i = s.port i) ∧ (∀ i, (s.enterCode p c).tenant i = s.tenant i) ∧
    (∀ i, (s.enterCode p c).blk i = s.blk i) ∧ (∀ i, (s.enterCode p c).clk i = s.clk i) ∧ (∀ i, (s.enterCode p c).eff i = s.eff i) := by
  refine ⟨?_, ?_, ?_, ?_, ?_, ?_, ?_, ?_, ?_, ?_, ?_, ?_, ?_, ?_, ?_, ?_, ?_, ?_, ?_, ?_, ?_, ?_, ?_, ?_, ?_, ?_, ?_, ?_, ?_, ?_, ?_, ?_, ?_, ?_, ?_, ?_, ?_, ?_, ?_, ?_, ?_, ?_, ?_, ?_, ?_, ?_, ?_, ?_, ?_, ?_, ?_, ?_, ?_, ?_, ?_, ?_, ?_, ?_, ?_, ?_, ?_, ?_, ?_, ?_, ?_, ?_, ?_, ?_⟩ <;> intros <;> rfl

@[simp] theorem State.clampAt_keeps (s : State) (p o : Nat) :
    (s.clampAt p o).pending = s.pending ∧ (s.clampAt p o).sent = s.sent ∧ (s.clampAt p o).freeCtr = s.freeCtr ∧ (s.clampAt p o).keyGen = s.keyGen ∧
    (s.clampAt p o).resetN = s.resetN ∧ (s.clampAt p o).pwrOk = s.pwrOk ∧ (s.clampAt p o).inReset = s.inReset ∧
    (s.clampAt p o).releaseWaits = s.releaseWaits ∧ (s.clampAt p o).inputMv = s.inputMv ∧ (s.clampAt p o).cfgMode = s.cfgMode ∧
    (s.clampAt p o).ceilHalf = s.ceilHalf ∧ (s.clampAt p o).tripped = s.tripped ∧ (s.clampAt p o).hotJunction = s.hotJunction ∧
    (s.clampAt p o).time = s.time ∧ (s.clampAt p o).cores = s.cores ∧ (s.clampAt p o).taps = s.taps ∧ (s.clampAt p o).planeEnds = s.planeEnds ∧
    (s.clampAt p o).planeDown = s.planeDown ∧ (s.clampAt p o).remap = s.remap ∧ (s.clampAt p o).marks = s.marks ∧ (s.clampAt p o).reefs = s.reefs ∧
    (s.clampAt p o).clkSet = s.clkSet ∧ (s.clampAt p o).clkEff = s.clkEff ∧ (s.clampAt p o).power = s.power ∧ (s.clampAt p o).dir = s.dir ∧
    (s.clampAt p o).lpddr = s.lpddr ∧ (s.clampAt p o).lpoison = s.lpoison ∧ (s.clampAt p o).lfresh = s.lfresh ∧ (s.clampAt p o).fram = s.fram ∧
    (s.clampAt p o).ramOut = s.ramOut ∧ (s.clampAt p o).ffs = s.ffs ∧ (s.clampAt p o).cross = s.cross ∧ (s.clampAt p o).ioPins = s.ioPins ∧
    (s.clampAt p o).ioRegs = s.ioRegs ∧ (s.clampAt p o).cfgmem = s.cfgmem ∧ (s.clampAt p o).regions = s.regions ∧ (s.clampAt p o).hal = s.hal ∧
    (s.clampAt p o).boot = s.boot ∧ (s.clampAt p o).shells = s.shells ∧ (s.clampAt p o).cfgDone = s.cfgDone ∧ (s.clampAt p o).cfgRdy = s.cfgRdy ∧
    (s.clampAt p o).mcOn = s.mcOn ∧ (s.clampAt p o).hc = s.hc ∧ (s.clampAt p o).chans = s.chans ∧ (s.clampAt p o).lanes = s.lanes ∧
    (s.clampAt p o).ports = s.ports ∧ (s.clampAt p o).tenants = s.tenants ∧ (s.clampAt p o).ubxIn = s.ubxIn ∧ (s.clampAt p o).rxChans = s.rxChans ∧
    (s.clampAt p o).sec = s.sec ∧ (s.clampAt p o).smbStatus = s.smbStatus ∧ (s.clampAt p o).smbErr = s.smbErr ∧ (s.clampAt p o).smbData = s.smbData ∧
    (s.clampAt p o).ppsUntil = s.ppsUntil ∧ (s.clampAt p o).jtag = s.jtag ∧ (∀ i, (s.clampAt p o).core i = s.core i) ∧
    (∀ i, (s.clampAt p o).tap i = s.tap i) ∧ (∀ i, (s.clampAt p o).dirAt i = s.dirAt i) ∧ (∀ i, (s.clampAt p o).hcAt i = s.hcAt i) ∧
    (∀ i, (s.clampAt p o).halAt i = s.halAt i) ∧ (∀ i, (s.clampAt p o).region i = s.region i) ∧ (∀ i, (s.clampAt p o).chan i = s.chan i) ∧
    (∀ i, (s.clampAt p o).lane i = s.lane i) ∧ (∀ i, (s.clampAt p o).port i = s.port i) ∧ (∀ i, (s.clampAt p o).tenant i = s.tenant i) ∧
    (∀ i, (s.clampAt p o).blk i = s.blk i) ∧ (∀ i, (s.clampAt p o).clk i = s.clk i) ∧ (∀ i, (s.clampAt p o).eff i = s.eff i) := by
  refine ⟨?_, ?_, ?_, ?_, ?_, ?_, ?_, ?_, ?_, ?_, ?_, ?_, ?_, ?_, ?_, ?_, ?_, ?_, ?_, ?_, ?_, ?_, ?_, ?_, ?_, ?_, ?_, ?_, ?_, ?_, ?_, ?_, ?_, ?_, ?_, ?_, ?_, ?_, ?_, ?_, ?_, ?_, ?_, ?_, ?_, ?_, ?_, ?_, ?_, ?_, ?_, ?_, ?_, ?_, ?_, ?_, ?_, ?_, ?_, ?_, ?_, ?_, ?_, ?_, ?_, ?_, ?_, ?_⟩ <;> intros <;> rfl

@[simp] theorem State.pageReset_keeps (s : State) (p : Nat) :
    (s.pageReset p).pending = s.pending ∧ (s.pageReset p).sent = s.sent ∧ (s.pageReset p).freeCtr = s.freeCtr ∧ (s.pageReset p).keyGen = s.keyGen ∧
    (s.pageReset p).resetN = s.resetN ∧ (s.pageReset p).pwrOk = s.pwrOk ∧ (s.pageReset p).inReset = s.inReset ∧
    (s.pageReset p).releaseWaits = s.releaseWaits ∧ (s.pageReset p).inputMv = s.inputMv ∧ (s.pageReset p).cfgMode = s.cfgMode ∧
    (s.pageReset p).ceilHalf = s.ceilHalf ∧ (s.pageReset p).tripped = s.tripped ∧ (s.pageReset p).hotJunction = s.hotJunction ∧
    (s.pageReset p).time = s.time ∧ (s.pageReset p).cores = s.cores ∧ (s.pageReset p).taps = s.taps ∧ (s.pageReset p).planeEnds = s.planeEnds ∧
    (s.pageReset p).planeDown = s.planeDown ∧ (s.pageReset p).remap = s.remap ∧ (s.pageReset p).marks = s.marks ∧ (s.pageReset p).reefs = s.reefs ∧
    (s.pageReset p).clkSet = s.clkSet ∧ (s.pageReset p).clkEff = s.clkEff ∧ (s.pageReset p).power = s.power ∧ (s.pageReset p).dir = s.dir ∧
    (s.pageReset p).lpddr = s.lpddr ∧ (s.pageReset p).lpoison = s.lpoison ∧ (s.pageReset p).lfresh = s.lfresh ∧ (s.pageReset p).fram = s.fram ∧
    (s.pageReset p).ramOut = s.ramOut ∧ (s.pageReset p).ffs = s.ffs ∧ (s.pageReset p).cross = s.cross ∧ (s.pageReset p).ioPins = s.ioPins ∧
    (s.pageReset p).ioRegs = s.ioRegs ∧ (s.pageReset p).cfgmem = s.cfgmem ∧ (s.pageReset p).regions = s.regions ∧ (s.pageReset p).hal = s.hal ∧
    (s.pageReset p).boot = s.boot ∧ (s.pageReset p).shells = s.shells ∧ (s.pageReset p).cfgDone = s.cfgDone ∧ (s.pageReset p).cfgRdy = s.cfgRdy ∧
    (s.pageReset p).mcOn = s.mcOn ∧ (s.pageReset p).hc = s.hc ∧ (s.pageReset p).chans = s.chans ∧ (s.pageReset p).lanes = s.lanes ∧
    (s.pageReset p).ports = s.ports ∧ (s.pageReset p).tenants = s.tenants ∧ (s.pageReset p).ubxIn = s.ubxIn ∧ (s.pageReset p).rxChans = s.rxChans ∧
    (s.pageReset p).sec = s.sec ∧ (s.pageReset p).smbStatus = s.smbStatus ∧ (s.pageReset p).smbErr = s.smbErr ∧ (s.pageReset p).smbData = s.smbData ∧
    (s.pageReset p).ppsUntil = s.ppsUntil ∧ (s.pageReset p).jtag = s.jtag ∧ (∀ i, (s.pageReset p).core i = s.core i) ∧
    (∀ i, (s.pageReset p).tap i = s.tap i) ∧ (∀ i, (s.pageReset p).dirAt i = s.dirAt i) ∧ (∀ i, (s.pageReset p).hcAt i = s.hcAt i) ∧
    (∀ i, (s.pageReset p).halAt i = s.halAt i) ∧ (∀ i, (s.pageReset p).region i = s.region i) ∧ (∀ i, (s.pageReset p).chan i = s.chan i) ∧
    (∀ i, (s.pageReset p).lane i = s.lane i) ∧ (∀ i, (s.pageReset p).port i = s.port i) ∧ (∀ i, (s.pageReset p).tenant i = s.tenant i) ∧
    (∀ i, (s.pageReset p).blk i = s.blk i) ∧ (∀ i, (s.pageReset p).clk i = s.clk i) ∧ (∀ i, (s.pageReset p).eff i = s.eff i) := by
  refine ⟨?_, ?_, ?_, ?_, ?_, ?_, ?_, ?_, ?_, ?_, ?_, ?_, ?_, ?_, ?_, ?_, ?_, ?_, ?_, ?_, ?_, ?_, ?_, ?_, ?_, ?_, ?_, ?_, ?_, ?_, ?_, ?_, ?_, ?_, ?_, ?_, ?_, ?_, ?_, ?_, ?_, ?_, ?_, ?_, ?_, ?_, ?_, ?_, ?_, ?_, ?_, ?_, ?_, ?_, ?_, ?_, ?_, ?_, ?_, ?_, ?_, ?_, ?_, ?_, ?_, ?_, ?_, ?_⟩ <;> intros <;> rfl

@[simp] theorem State.setCore_keeps (s : State) (n : Nat) (c : Core) :
    (s.setCore n c).pending = s.pending ∧ (s.setCore n c).sent = s.sent ∧ (s.setCore n c).freeCtr = s.freeCtr ∧ (s.setCore n c).keyGen = s.keyGen ∧
    (s.setCore n c).resetN = s.resetN ∧ (s.setCore n c).pwrOk = s.pwrOk ∧ (s.setCore n c).inReset = s.inReset ∧
    (s.setCore n c).releaseWaits = s.releaseWaits ∧ (s.setCore n c).inputMv = s.inputMv ∧ (s.setCore n c).cfgMode = s.cfgMode ∧
    (s.setCore n c).ceilHalf = s.ceilHalf ∧ (s.setCore n c).tripped = s.tripped ∧ (s.setCore n c).hotJunction = s.hotJunction ∧
    (s.setCore n c).time = s.time ∧ (s.setCore n c).regs = s.regs ∧ (s.setCore n c).taps = s.taps ∧ (s.setCore n c).planeEnds = s.planeEnds ∧
    (s.setCore n c).planeDown = s.planeDown ∧ (s.setCore n c).remap = s.remap ∧ (s.setCore n c).marks = s.marks ∧ (s.setCore n c).reefs = s.reefs ∧
    (s.setCore n c).clkSet = s.clkSet ∧ (s.setCore n c).clkEff = s.clkEff ∧ (s.setCore n c).power = s.power ∧ (s.setCore n c).dir = s.dir ∧
    (s.setCore n c).lpddr = s.lpddr ∧ (s.setCore n c).lpoison = s.lpoison ∧ (s.setCore n c).lfresh = s.lfresh ∧ (s.setCore n c).fram = s.fram ∧
    (s.setCore n c).ramOut = s.ramOut ∧ (s.setCore n c).ffs = s.ffs ∧ (s.setCore n c).cross = s.cross ∧ (s.setCore n c).ioPins = s.ioPins ∧
    (s.setCore n c).ioRegs = s.ioRegs ∧ (s.setCore n c).cfgmem = s.cfgmem ∧ (s.setCore n c).regions = s.regions ∧ (s.setCore n c).hal = s.hal ∧
    (s.setCore n c).boot = s.boot ∧ (s.setCore n c).shells = s.shells ∧ (s.setCore n c).cfgDone = s.cfgDone ∧ (s.setCore n c).cfgRdy = s.cfgRdy ∧
    (s.setCore n c).mcOn = s.mcOn ∧ (s.setCore n c).hc = s.hc ∧ (s.setCore n c).chans = s.chans ∧ (s.setCore n c).lanes = s.lanes ∧
    (s.setCore n c).ports = s.ports ∧ (s.setCore n c).tenants = s.tenants ∧ (s.setCore n c).ubxIn = s.ubxIn ∧ (s.setCore n c).rxChans = s.rxChans ∧
    (s.setCore n c).sec = s.sec ∧ (s.setCore n c).smbStatus = s.smbStatus ∧ (s.setCore n c).smbErr = s.smbErr ∧ (s.setCore n c).smbData = s.smbData ∧
    (s.setCore n c).ppsUntil = s.ppsUntil ∧ (s.setCore n c).jtag = s.jtag ∧ (∀ i, (s.setCore n c).tap i = s.tap i) ∧
    (∀ i, (s.setCore n c).dirAt i = s.dirAt i) ∧ (∀ i, (s.setCore n c).hcAt i = s.hcAt i) ∧ (∀ i, (s.setCore n c).halAt i = s.halAt i) ∧
    (∀ i, (s.setCore n c).region i = s.region i) ∧ (∀ i, (s.setCore n c).chan i = s.chan i) ∧ (∀ i, (s.setCore n c).lane i = s.lane i) ∧
    (∀ i, (s.setCore n c).port i = s.port i) ∧ (∀ i, (s.setCore n c).tenant i = s.tenant i) ∧ (∀ i, (s.setCore n c).blk i = s.blk i) ∧
    (∀ i, (s.setCore n c).clk i = s.clk i) ∧ (∀ i, (s.setCore n c).eff i = s.eff i) ∧ (∀ i, (s.setCore n c).reg i = s.reg i) ∧
    (∀ i, (s.setCore n c).reg64 i = s.reg64 i) ∧ (∀ i b, (s.setCore n c).bit i b = s.bit i b) ∧
    (∀ i lo w, (s.setCore n c).fld i lo w = s.fld i lo w) := by
  refine ⟨?_, ?_, ?_, ?_, ?_, ?_, ?_, ?_, ?_, ?_, ?_, ?_, ?_, ?_, ?_, ?_, ?_, ?_, ?_, ?_, ?_, ?_, ?_, ?_, ?_, ?_, ?_, ?_, ?_, ?_, ?_, ?_, ?_, ?_, ?_, ?_, ?_, ?_, ?_, ?_, ?_, ?_, ?_, ?_, ?_, ?_, ?_, ?_, ?_, ?_, ?_, ?_, ?_, ?_, ?_, ?_, ?_, ?_, ?_, ?_, ?_, ?_, ?_, ?_, ?_, ?_, ?_, ?_, ?_, ?_, ?_⟩ <;> intros <;> rfl

@[simp] theorem State.modCore_keeps (s : State) (n : Nat) (f : Core → Core) :
    (s.modCore n f).pending = s.pending ∧ (s.modCore n f).sent = s.sent ∧ (s.modCore n f).freeCtr = s.freeCtr ∧ (s.modCore n f).keyGen = s.keyGen ∧
    (s.modCore n f).resetN = s.resetN ∧ (s.modCore n f).pwrOk = s.pwrOk ∧ (s.modCore n f).inReset = s.inReset ∧
    (s.modCore n f).releaseWaits = s.releaseWaits ∧ (s.modCore n f).inputMv = s.inputMv ∧ (s.modCore n f).cfgMode = s.cfgMode ∧
    (s.modCore n f).ceilHalf = s.ceilHalf ∧ (s.modCore n f).tripped = s.tripped ∧ (s.modCore n f).hotJunction = s.hotJunction ∧
    (s.modCore n f).time = s.time ∧ (s.modCore n f).regs = s.regs ∧ (s.modCore n f).taps = s.taps ∧ (s.modCore n f).planeEnds = s.planeEnds ∧
    (s.modCore n f).planeDown = s.planeDown ∧ (s.modCore n f).remap = s.remap ∧ (s.modCore n f).marks = s.marks ∧ (s.modCore n f).reefs = s.reefs ∧
    (s.modCore n f).clkSet = s.clkSet ∧ (s.modCore n f).clkEff = s.clkEff ∧ (s.modCore n f).power = s.power ∧ (s.modCore n f).dir = s.dir ∧
    (s.modCore n f).lpddr = s.lpddr ∧ (s.modCore n f).lpoison = s.lpoison ∧ (s.modCore n f).lfresh = s.lfresh ∧ (s.modCore n f).fram = s.fram ∧
    (s.modCore n f).ramOut = s.ramOut ∧ (s.modCore n f).ffs = s.ffs ∧ (s.modCore n f).cross = s.cross ∧ (s.modCore n f).ioPins = s.ioPins ∧
    (s.modCore n f).ioRegs = s.ioRegs ∧ (s.modCore n f).cfgmem = s.cfgmem ∧ (s.modCore n f).regions = s.regions ∧ (s.modCore n f).hal = s.hal ∧
    (s.modCore n f).boot = s.boot ∧ (s.modCore n f).shells = s.shells ∧ (s.modCore n f).cfgDone = s.cfgDone ∧ (s.modCore n f).cfgRdy = s.cfgRdy ∧
    (s.modCore n f).mcOn = s.mcOn ∧ (s.modCore n f).hc = s.hc ∧ (s.modCore n f).chans = s.chans ∧ (s.modCore n f).lanes = s.lanes ∧
    (s.modCore n f).ports = s.ports ∧ (s.modCore n f).tenants = s.tenants ∧ (s.modCore n f).ubxIn = s.ubxIn ∧ (s.modCore n f).rxChans = s.rxChans ∧
    (s.modCore n f).sec = s.sec ∧ (s.modCore n f).smbStatus = s.smbStatus ∧ (s.modCore n f).smbErr = s.smbErr ∧ (s.modCore n f).smbData = s.smbData ∧
    (s.modCore n f).ppsUntil = s.ppsUntil ∧ (s.modCore n f).jtag = s.jtag ∧ (∀ i, (s.modCore n f).tap i = s.tap i) ∧
    (∀ i, (s.modCore n f).dirAt i = s.dirAt i) ∧ (∀ i, (s.modCore n f).hcAt i = s.hcAt i) ∧ (∀ i, (s.modCore n f).halAt i = s.halAt i) ∧
    (∀ i, (s.modCore n f).region i = s.region i) ∧ (∀ i, (s.modCore n f).chan i = s.chan i) ∧ (∀ i, (s.modCore n f).lane i = s.lane i) ∧
    (∀ i, (s.modCore n f).port i = s.port i) ∧ (∀ i, (s.modCore n f).tenant i = s.tenant i) ∧ (∀ i, (s.modCore n f).blk i = s.blk i) ∧
    (∀ i, (s.modCore n f).clk i = s.clk i) ∧ (∀ i, (s.modCore n f).eff i = s.eff i) ∧ (∀ i, (s.modCore n f).reg i = s.reg i) ∧
    (∀ i, (s.modCore n f).reg64 i = s.reg64 i) ∧ (∀ i b, (s.modCore n f).bit i b = s.bit i b) ∧
    (∀ i lo w, (s.modCore n f).fld i lo w = s.fld i lo w) := by
  refine ⟨?_, ?_, ?_, ?_, ?_, ?_, ?_, ?_, ?_, ?_, ?_, ?_, ?_, ?_, ?_, ?_, ?_, ?_, ?_, ?_, ?_, ?_, ?_, ?_, ?_, ?_, ?_, ?_, ?_, ?_, ?_, ?_, ?_, ?_, ?_, ?_, ?_, ?_, ?_, ?_, ?_, ?_, ?_, ?_, ?_, ?_, ?_, ?_, ?_, ?_, ?_, ?_, ?_, ?_, ?_, ?_, ?_, ?_, ?_, ?_, ?_, ?_, ?_, ?_, ?_, ?_, ?_, ?_, ?_, ?_, ?_⟩ <;> intros <;> rfl

@[simp] theorem State.setTap_keeps (s : State) (e : Nat) (t : Taps) :
    (s.setTap e t).pending = s.pending ∧ (s.setTap e t).sent = s.sent ∧ (s.setTap e t).freeCtr = s.freeCtr ∧ (s.setTap e t).keyGen = s.keyGen ∧
    (s.setTap e t).resetN = s.resetN ∧ (s.setTap e t).pwrOk = s.pwrOk ∧ (s.setTap e t).inReset = s.inReset ∧
    (s.setTap e t).releaseWaits = s.releaseWaits ∧ (s.setTap e t).inputMv = s.inputMv ∧ (s.setTap e t).cfgMode = s.cfgMode ∧
    (s.setTap e t).ceilHalf = s.ceilHalf ∧ (s.setTap e t).tripped = s.tripped ∧ (s.setTap e t).hotJunction = s.hotJunction ∧
    (s.setTap e t).time = s.time ∧ (s.setTap e t).regs = s.regs ∧ (s.setTap e t).cores = s.cores ∧ (s.setTap e t).planeEnds = s.planeEnds ∧
    (s.setTap e t).planeDown = s.planeDown ∧ (s.setTap e t).remap = s.remap ∧ (s.setTap e t).marks = s.marks ∧ (s.setTap e t).reefs = s.reefs ∧
    (s.setTap e t).clkSet = s.clkSet ∧ (s.setTap e t).clkEff = s.clkEff ∧ (s.setTap e t).power = s.power ∧ (s.setTap e t).dir = s.dir ∧
    (s.setTap e t).lpddr = s.lpddr ∧ (s.setTap e t).lpoison = s.lpoison ∧ (s.setTap e t).lfresh = s.lfresh ∧ (s.setTap e t).fram = s.fram ∧
    (s.setTap e t).ramOut = s.ramOut ∧ (s.setTap e t).ffs = s.ffs ∧ (s.setTap e t).cross = s.cross ∧ (s.setTap e t).ioPins = s.ioPins ∧
    (s.setTap e t).ioRegs = s.ioRegs ∧ (s.setTap e t).cfgmem = s.cfgmem ∧ (s.setTap e t).regions = s.regions ∧ (s.setTap e t).hal = s.hal ∧
    (s.setTap e t).boot = s.boot ∧ (s.setTap e t).shells = s.shells ∧ (s.setTap e t).cfgDone = s.cfgDone ∧ (s.setTap e t).cfgRdy = s.cfgRdy ∧
    (s.setTap e t).mcOn = s.mcOn ∧ (s.setTap e t).hc = s.hc ∧ (s.setTap e t).chans = s.chans ∧ (s.setTap e t).lanes = s.lanes ∧
    (s.setTap e t).ports = s.ports ∧ (s.setTap e t).tenants = s.tenants ∧ (s.setTap e t).ubxIn = s.ubxIn ∧ (s.setTap e t).rxChans = s.rxChans ∧
    (s.setTap e t).sec = s.sec ∧ (s.setTap e t).smbStatus = s.smbStatus ∧ (s.setTap e t).smbErr = s.smbErr ∧ (s.setTap e t).smbData = s.smbData ∧
    (s.setTap e t).ppsUntil = s.ppsUntil ∧ (s.setTap e t).jtag = s.jtag ∧ (∀ i, (s.setTap e t).core i = s.core i) ∧
    (∀ i, (s.setTap e t).dirAt i = s.dirAt i) ∧ (∀ i, (s.setTap e t).hcAt i = s.hcAt i) ∧ (∀ i, (s.setTap e t).halAt i = s.halAt i) ∧
    (∀ i, (s.setTap e t).region i = s.region i) ∧ (∀ i, (s.setTap e t).chan i = s.chan i) ∧ (∀ i, (s.setTap e t).lane i = s.lane i) ∧
    (∀ i, (s.setTap e t).port i = s.port i) ∧ (∀ i, (s.setTap e t).tenant i = s.tenant i) ∧ (∀ i, (s.setTap e t).blk i = s.blk i) ∧
    (∀ i, (s.setTap e t).clk i = s.clk i) ∧ (∀ i, (s.setTap e t).eff i = s.eff i) ∧ (∀ i, (s.setTap e t).reg i = s.reg i) ∧
    (∀ i, (s.setTap e t).reg64 i = s.reg64 i) ∧ (∀ i b, (s.setTap e t).bit i b = s.bit i b) ∧
    (∀ i lo w, (s.setTap e t).fld i lo w = s.fld i lo w) := by
  refine ⟨?_, ?_, ?_, ?_, ?_, ?_, ?_, ?_, ?_, ?_, ?_, ?_, ?_, ?_, ?_, ?_, ?_, ?_, ?_, ?_, ?_, ?_, ?_, ?_, ?_, ?_, ?_, ?_, ?_, ?_, ?_, ?_, ?_, ?_, ?_, ?_, ?_, ?_, ?_, ?_, ?_, ?_, ?_, ?_, ?_, ?_, ?_, ?_, ?_, ?_, ?_, ?_, ?_, ?_, ?_, ?_, ?_, ?_, ?_, ?_, ?_, ?_, ?_, ?_, ?_, ?_, ?_, ?_, ?_, ?_, ?_⟩ <;> intros <;> rfl

@[simp] theorem State.setDir_keeps (s : State) (l : Nat) (d : DirEntry) :
    (s.setDir l d).pending = s.pending ∧ (s.setDir l d).sent = s.sent ∧ (s.setDir l d).freeCtr = s.freeCtr ∧ (s.setDir l d).keyGen = s.keyGen ∧
    (s.setDir l d).resetN = s.resetN ∧ (s.setDir l d).pwrOk = s.pwrOk ∧ (s.setDir l d).inReset = s.inReset ∧
    (s.setDir l d).releaseWaits = s.releaseWaits ∧ (s.setDir l d).inputMv = s.inputMv ∧ (s.setDir l d).cfgMode = s.cfgMode ∧
    (s.setDir l d).ceilHalf = s.ceilHalf ∧ (s.setDir l d).tripped = s.tripped ∧ (s.setDir l d).hotJunction = s.hotJunction ∧
    (s.setDir l d).time = s.time ∧ (s.setDir l d).regs = s.regs ∧ (s.setDir l d).cores = s.cores ∧ (s.setDir l d).taps = s.taps ∧
    (s.setDir l d).planeEnds = s.planeEnds ∧ (s.setDir l d).planeDown = s.planeDown ∧ (s.setDir l d).remap = s.remap ∧
    (s.setDir l d).marks = s.marks ∧ (s.setDir l d).reefs = s.reefs ∧ (s.setDir l d).clkSet = s.clkSet ∧ (s.setDir l d).clkEff = s.clkEff ∧
    (s.setDir l d).power = s.power ∧ (s.setDir l d).lpddr = s.lpddr ∧ (s.setDir l d).lpoison = s.lpoison ∧ (s.setDir l d).lfresh = s.lfresh ∧
    (s.setDir l d).fram = s.fram ∧ (s.setDir l d).ramOut = s.ramOut ∧ (s.setDir l d).ffs = s.ffs ∧ (s.setDir l d).cross = s.cross ∧
    (s.setDir l d).ioPins = s.ioPins ∧ (s.setDir l d).ioRegs = s.ioRegs ∧ (s.setDir l d).cfgmem = s.cfgmem ∧ (s.setDir l d).regions = s.regions ∧
    (s.setDir l d).hal = s.hal ∧ (s.setDir l d).boot = s.boot ∧ (s.setDir l d).shells = s.shells ∧ (s.setDir l d).cfgDone = s.cfgDone ∧
    (s.setDir l d).cfgRdy = s.cfgRdy ∧ (s.setDir l d).mcOn = s.mcOn ∧ (s.setDir l d).hc = s.hc ∧ (s.setDir l d).chans = s.chans ∧
    (s.setDir l d).lanes = s.lanes ∧ (s.setDir l d).ports = s.ports ∧ (s.setDir l d).tenants = s.tenants ∧ (s.setDir l d).ubxIn = s.ubxIn ∧
    (s.setDir l d).rxChans = s.rxChans ∧ (s.setDir l d).sec = s.sec ∧ (s.setDir l d).smbStatus = s.smbStatus ∧ (s.setDir l d).smbErr = s.smbErr ∧
    (s.setDir l d).smbData = s.smbData ∧ (s.setDir l d).ppsUntil = s.ppsUntil ∧ (s.setDir l d).jtag = s.jtag ∧
    (∀ i, (s.setDir l d).core i = s.core i) ∧ (∀ i, (s.setDir l d).tap i = s.tap i) ∧ (∀ i, (s.setDir l d).hcAt i = s.hcAt i) ∧
    (∀ i, (s.setDir l d).halAt i = s.halAt i) ∧ (∀ i, (s.setDir l d).region i = s.region i) ∧ (∀ i, (s.setDir l d).chan i = s.chan i) ∧
    (∀ i, (s.setDir l d).lane i = s.lane i) ∧ (∀ i, (s.setDir l d).port i = s.port i) ∧ (∀ i, (s.setDir l d).tenant i = s.tenant i) ∧
    (∀ i, (s.setDir l d).blk i = s.blk i) ∧ (∀ i, (s.setDir l d).clk i = s.clk i) ∧ (∀ i, (s.setDir l d).eff i = s.eff i) ∧
    (∀ i, (s.setDir l d).reg i = s.reg i) ∧ (∀ i, (s.setDir l d).reg64 i = s.reg64 i) ∧ (∀ i b, (s.setDir l d).bit i b = s.bit i b) ∧
    (∀ i lo w, (s.setDir l d).fld i lo w = s.fld i lo w) := by
  refine ⟨?_, ?_, ?_, ?_, ?_, ?_, ?_, ?_, ?_, ?_, ?_, ?_, ?_, ?_, ?_, ?_, ?_, ?_, ?_, ?_, ?_, ?_, ?_, ?_, ?_, ?_, ?_, ?_, ?_, ?_, ?_, ?_, ?_, ?_, ?_, ?_, ?_, ?_, ?_, ?_, ?_, ?_, ?_, ?_, ?_, ?_, ?_, ?_, ?_, ?_, ?_, ?_, ?_, ?_, ?_, ?_, ?_, ?_, ?_, ?_, ?_, ?_, ?_, ?_, ?_, ?_, ?_, ?_, ?_, ?_, ?_⟩ <;> intros <;> rfl

@[simp] theorem State.setHc_keeps (s : State) (d : Nat) (h : Hc) :
    (s.setHc d h).pending = s.pending ∧ (s.setHc d h).sent = s.sent ∧ (s.setHc d h).freeCtr = s.freeCtr ∧ (s.setHc d h).keyGen = s.keyGen ∧
    (s.setHc d h).resetN = s.resetN ∧ (s.setHc d h).pwrOk = s.pwrOk ∧ (s.setHc d h).inReset = s.inReset ∧
    (s.setHc d h).releaseWaits = s.releaseWaits ∧ (s.setHc d h).inputMv = s.inputMv ∧ (s.setHc d h).cfgMode = s.cfgMode ∧
    (s.setHc d h).ceilHalf = s.ceilHalf ∧ (s.setHc d h).tripped = s.tripped ∧ (s.setHc d h).hotJunction = s.hotJunction ∧
    (s.setHc d h).time = s.time ∧ (s.setHc d h).regs = s.regs ∧ (s.setHc d h).cores = s.cores ∧ (s.setHc d h).taps = s.taps ∧
    (s.setHc d h).planeEnds = s.planeEnds ∧ (s.setHc d h).planeDown = s.planeDown ∧ (s.setHc d h).remap = s.remap ∧ (s.setHc d h).marks = s.marks ∧
    (s.setHc d h).reefs = s.reefs ∧ (s.setHc d h).clkSet = s.clkSet ∧ (s.setHc d h).clkEff = s.clkEff ∧ (s.setHc d h).power = s.power ∧
    (s.setHc d h).dir = s.dir ∧ (s.setHc d h).lpddr = s.lpddr ∧ (s.setHc d h).lpoison = s.lpoison ∧ (s.setHc d h).lfresh = s.lfresh ∧
    (s.setHc d h).fram = s.fram ∧ (s.setHc d h).ramOut = s.ramOut ∧ (s.setHc d h).ffs = s.ffs ∧ (s.setHc d h).cross = s.cross ∧
    (s.setHc d h).ioPins = s.ioPins ∧ (s.setHc d h).ioRegs = s.ioRegs ∧ (s.setHc d h).cfgmem = s.cfgmem ∧ (s.setHc d h).regions = s.regions ∧
    (s.setHc d h).hal = s.hal ∧ (s.setHc d h).boot = s.boot ∧ (s.setHc d h).shells = s.shells ∧ (s.setHc d h).cfgDone = s.cfgDone ∧
    (s.setHc d h).cfgRdy = s.cfgRdy ∧ (s.setHc d h).mcOn = s.mcOn ∧ (s.setHc d h).chans = s.chans ∧ (s.setHc d h).lanes = s.lanes ∧
    (s.setHc d h).ports = s.ports ∧ (s.setHc d h).tenants = s.tenants ∧ (s.setHc d h).ubxIn = s.ubxIn ∧ (s.setHc d h).rxChans = s.rxChans ∧
    (s.setHc d h).sec = s.sec ∧ (s.setHc d h).smbStatus = s.smbStatus ∧ (s.setHc d h).smbErr = s.smbErr ∧ (s.setHc d h).smbData = s.smbData ∧
    (s.setHc d h).ppsUntil = s.ppsUntil ∧ (s.setHc d h).jtag = s.jtag ∧ (∀ i, (s.setHc d h).core i = s.core i) ∧
    (∀ i, (s.setHc d h).tap i = s.tap i) ∧ (∀ i, (s.setHc d h).dirAt i = s.dirAt i) ∧ (∀ i, (s.setHc d h).halAt i = s.halAt i) ∧
    (∀ i, (s.setHc d h).region i = s.region i) ∧ (∀ i, (s.setHc d h).chan i = s.chan i) ∧ (∀ i, (s.setHc d h).lane i = s.lane i) ∧
    (∀ i, (s.setHc d h).port i = s.port i) ∧ (∀ i, (s.setHc d h).tenant i = s.tenant i) ∧ (∀ i, (s.setHc d h).blk i = s.blk i) ∧
    (∀ i, (s.setHc d h).clk i = s.clk i) ∧ (∀ i, (s.setHc d h).eff i = s.eff i) ∧ (∀ i, (s.setHc d h).reg i = s.reg i) ∧
    (∀ i, (s.setHc d h).reg64 i = s.reg64 i) ∧ (∀ i b, (s.setHc d h).bit i b = s.bit i b) ∧ (∀ i lo w, (s.setHc d h).fld i lo w = s.fld i lo w) := by
  refine ⟨?_, ?_, ?_, ?_, ?_, ?_, ?_, ?_, ?_, ?_, ?_, ?_, ?_, ?_, ?_, ?_, ?_, ?_, ?_, ?_, ?_, ?_, ?_, ?_, ?_, ?_, ?_, ?_, ?_, ?_, ?_, ?_, ?_, ?_, ?_, ?_, ?_, ?_, ?_, ?_, ?_, ?_, ?_, ?_, ?_, ?_, ?_, ?_, ?_, ?_, ?_, ?_, ?_, ?_, ?_, ?_, ?_, ?_, ?_, ?_, ?_, ?_, ?_, ?_, ?_, ?_, ?_, ?_, ?_, ?_, ?_⟩ <;> intros <;> rfl

@[simp] theorem State.setHal_keeps (s : State) (e : Nat) (h : Hal) :
    (s.setHal e h).pending = s.pending ∧ (s.setHal e h).sent = s.sent ∧ (s.setHal e h).freeCtr = s.freeCtr ∧ (s.setHal e h).keyGen = s.keyGen ∧
    (s.setHal e h).resetN = s.resetN ∧ (s.setHal e h).pwrOk = s.pwrOk ∧ (s.setHal e h).inReset = s.inReset ∧
    (s.setHal e h).releaseWaits = s.releaseWaits ∧ (s.setHal e h).inputMv = s.inputMv ∧ (s.setHal e h).cfgMode = s.cfgMode ∧
    (s.setHal e h).ceilHalf = s.ceilHalf ∧ (s.setHal e h).tripped = s.tripped ∧ (s.setHal e h).hotJunction = s.hotJunction ∧
    (s.setHal e h).time = s.time ∧ (s.setHal e h).regs = s.regs ∧ (s.setHal e h).cores = s.cores ∧ (s.setHal e h).taps = s.taps ∧
    (s.setHal e h).planeEnds = s.planeEnds ∧ (s.setHal e h).planeDown = s.planeDown ∧ (s.setHal e h).remap = s.remap ∧
    (s.setHal e h).marks = s.marks ∧ (s.setHal e h).reefs = s.reefs ∧ (s.setHal e h).clkSet = s.clkSet ∧ (s.setHal e h).clkEff = s.clkEff ∧
    (s.setHal e h).power = s.power ∧ (s.setHal e h).dir = s.dir ∧ (s.setHal e h).lpddr = s.lpddr ∧ (s.setHal e h).lpoison = s.lpoison ∧
    (s.setHal e h).lfresh = s.lfresh ∧ (s.setHal e h).fram = s.fram ∧ (s.setHal e h).ramOut = s.ramOut ∧ (s.setHal e h).ffs = s.ffs ∧
    (s.setHal e h).cross = s.cross ∧ (s.setHal e h).ioPins = s.ioPins ∧ (s.setHal e h).ioRegs = s.ioRegs ∧ (s.setHal e h).cfgmem = s.cfgmem ∧
    (s.setHal e h).regions = s.regions ∧ (s.setHal e h).boot = s.boot ∧ (s.setHal e h).shells = s.shells ∧ (s.setHal e h).cfgDone = s.cfgDone ∧
    (s.setHal e h).cfgRdy = s.cfgRdy ∧ (s.setHal e h).mcOn = s.mcOn ∧ (s.setHal e h).hc = s.hc ∧ (s.setHal e h).chans = s.chans ∧
    (s.setHal e h).lanes = s.lanes ∧ (s.setHal e h).ports = s.ports ∧ (s.setHal e h).tenants = s.tenants ∧ (s.setHal e h).ubxIn = s.ubxIn ∧
    (s.setHal e h).rxChans = s.rxChans ∧ (s.setHal e h).sec = s.sec ∧ (s.setHal e h).smbStatus = s.smbStatus ∧ (s.setHal e h).smbErr = s.smbErr ∧
    (s.setHal e h).smbData = s.smbData ∧ (s.setHal e h).ppsUntil = s.ppsUntil ∧ (s.setHal e h).jtag = s.jtag ∧
    (∀ i, (s.setHal e h).core i = s.core i) ∧ (∀ i, (s.setHal e h).tap i = s.tap i) ∧ (∀ i, (s.setHal e h).dirAt i = s.dirAt i) ∧
    (∀ i, (s.setHal e h).hcAt i = s.hcAt i) ∧ (∀ i, (s.setHal e h).region i = s.region i) ∧ (∀ i, (s.setHal e h).chan i = s.chan i) ∧
    (∀ i, (s.setHal e h).lane i = s.lane i) ∧ (∀ i, (s.setHal e h).port i = s.port i) ∧ (∀ i, (s.setHal e h).tenant i = s.tenant i) ∧
    (∀ i, (s.setHal e h).blk i = s.blk i) ∧ (∀ i, (s.setHal e h).clk i = s.clk i) ∧ (∀ i, (s.setHal e h).eff i = s.eff i) ∧
    (∀ i, (s.setHal e h).reg i = s.reg i) ∧ (∀ i, (s.setHal e h).reg64 i = s.reg64 i) ∧ (∀ i b, (s.setHal e h).bit i b = s.bit i b) ∧
    (∀ i lo w, (s.setHal e h).fld i lo w = s.fld i lo w) := by
  refine ⟨?_, ?_, ?_, ?_, ?_, ?_, ?_, ?_, ?_, ?_, ?_, ?_, ?_, ?_, ?_, ?_, ?_, ?_, ?_, ?_, ?_, ?_, ?_, ?_, ?_, ?_, ?_, ?_, ?_, ?_, ?_, ?_, ?_, ?_, ?_, ?_, ?_, ?_, ?_, ?_, ?_, ?_, ?_, ?_, ?_, ?_, ?_, ?_, ?_, ?_, ?_, ?_, ?_, ?_, ?_, ?_, ?_, ?_, ?_, ?_, ?_, ?_, ?_, ?_, ?_, ?_, ?_, ?_, ?_, ?_, ?_⟩ <;> intros <;> rfl

@[simp] theorem State.setRegion_keeps (s : State) (r : Nat) (v : Region) :
    (s.setRegion r v).pending = s.pending ∧ (s.setRegion r v).sent = s.sent ∧ (s.setRegion r v).freeCtr = s.freeCtr ∧
    (s.setRegion r v).keyGen = s.keyGen ∧ (s.setRegion r v).resetN = s.resetN ∧ (s.setRegion r v).pwrOk = s.pwrOk ∧
    (s.setRegion r v).inReset = s.inReset ∧ (s.setRegion r v).releaseWaits = s.releaseWaits ∧ (s.setRegion r v).inputMv = s.inputMv ∧
    (s.setRegion r v).cfgMode = s.cfgMode ∧ (s.setRegion r v).ceilHalf = s.ceilHalf ∧ (s.setRegion r v).tripped = s.tripped ∧
    (s.setRegion r v).hotJunction = s.hotJunction ∧ (s.setRegion r v).time = s.time ∧ (s.setRegion r v).regs = s.regs ∧
    (s.setRegion r v).cores = s.cores ∧ (s.setRegion r v).taps = s.taps ∧ (s.setRegion r v).planeEnds = s.planeEnds ∧
    (s.setRegion r v).planeDown = s.planeDown ∧ (s.setRegion r v).remap = s.remap ∧ (s.setRegion r v).marks = s.marks ∧
    (s.setRegion r v).reefs = s.reefs ∧ (s.setRegion r v).clkSet = s.clkSet ∧ (s.setRegion r v).clkEff = s.clkEff ∧
    (s.setRegion r v).power = s.power ∧ (s.setRegion r v).dir = s.dir ∧ (s.setRegion r v).lpddr = s.lpddr ∧ (s.setRegion r v).lpoison = s.lpoison ∧
    (s.setRegion r v).lfresh = s.lfresh ∧ (s.setRegion r v).fram = s.fram ∧ (s.setRegion r v).ramOut = s.ramOut ∧ (s.setRegion r v).ffs = s.ffs ∧
    (s.setRegion r v).cross = s.cross ∧ (s.setRegion r v).ioPins = s.ioPins ∧ (s.setRegion r v).ioRegs = s.ioRegs ∧
    (s.setRegion r v).cfgmem = s.cfgmem ∧ (s.setRegion r v).hal = s.hal ∧ (s.setRegion r v).boot = s.boot ∧ (s.setRegion r v).shells = s.shells ∧
    (s.setRegion r v).cfgDone = s.cfgDone ∧ (s.setRegion r v).cfgRdy = s.cfgRdy ∧ (s.setRegion r v).mcOn = s.mcOn ∧ (s.setRegion r v).hc = s.hc ∧
    (s.setRegion r v).chans = s.chans ∧ (s.setRegion r v).lanes = s.lanes ∧ (s.setRegion r v).ports = s.ports ∧
    (s.setRegion r v).tenants = s.tenants ∧ (s.setRegion r v).ubxIn = s.ubxIn ∧ (s.setRegion r v).rxChans = s.rxChans ∧
    (s.setRegion r v).sec = s.sec ∧ (s.setRegion r v).smbStatus = s.smbStatus ∧ (s.setRegion r v).smbErr = s.smbErr ∧
    (s.setRegion r v).smbData = s.smbData ∧ (s.setRegion r v).ppsUntil = s.ppsUntil ∧ (s.setRegion r v).jtag = s.jtag ∧
    (∀ i, (s.setRegion r v).core i = s.core i) ∧ (∀ i, (s.setRegion r v).tap i = s.tap i) ∧ (∀ i, (s.setRegion r v).dirAt i = s.dirAt i) ∧
    (∀ i, (s.setRegion r v).hcAt i = s.hcAt i) ∧ (∀ i, (s.setRegion r v).halAt i = s.halAt i) ∧ (∀ i, (s.setRegion r v).chan i = s.chan i) ∧
    (∀ i, (s.setRegion r v).lane i = s.lane i) ∧ (∀ i, (s.setRegion r v).port i = s.port i) ∧ (∀ i, (s.setRegion r v).tenant i = s.tenant i) ∧
    (∀ i, (s.setRegion r v).blk i = s.blk i) ∧ (∀ i, (s.setRegion r v).clk i = s.clk i) ∧ (∀ i, (s.setRegion r v).eff i = s.eff i) ∧
    (∀ i, (s.setRegion r v).reg i = s.reg i) ∧ (∀ i, (s.setRegion r v).reg64 i = s.reg64 i) ∧ (∀ i b, (s.setRegion r v).bit i b = s.bit i b) ∧
    (∀ i lo w, (s.setRegion r v).fld i lo w = s.fld i lo w) := by
  refine ⟨?_, ?_, ?_, ?_, ?_, ?_, ?_, ?_, ?_, ?_, ?_, ?_, ?_, ?_, ?_, ?_, ?_, ?_, ?_, ?_, ?_, ?_, ?_, ?_, ?_, ?_, ?_, ?_, ?_, ?_, ?_, ?_, ?_, ?_, ?_, ?_, ?_, ?_, ?_, ?_, ?_, ?_, ?_, ?_, ?_, ?_, ?_, ?_, ?_, ?_, ?_, ?_, ?_, ?_, ?_, ?_, ?_, ?_, ?_, ?_, ?_, ?_, ?_, ?_, ?_, ?_, ?_, ?_, ?_, ?_, ?_⟩ <;> intros <;> rfl

@[simp] theorem State.setChan_keeps (s : State) (k : Nat) (v : ChanRun) :
    (s.setChan k v).pending = s.pending ∧ (s.setChan k v).sent = s.sent ∧ (s.setChan k v).freeCtr = s.freeCtr ∧ (s.setChan k v).keyGen = s.keyGen ∧
    (s.setChan k v).resetN = s.resetN ∧ (s.setChan k v).pwrOk = s.pwrOk ∧ (s.setChan k v).inReset = s.inReset ∧
    (s.setChan k v).releaseWaits = s.releaseWaits ∧ (s.setChan k v).inputMv = s.inputMv ∧ (s.setChan k v).cfgMode = s.cfgMode ∧
    (s.setChan k v).ceilHalf = s.ceilHalf ∧ (s.setChan k v).tripped = s.tripped ∧ (s.setChan k v).hotJunction = s.hotJunction ∧
    (s.setChan k v).time = s.time ∧ (s.setChan k v).regs = s.regs ∧ (s.setChan k v).cores = s.cores ∧ (s.setChan k v).taps = s.taps ∧
    (s.setChan k v).planeEnds = s.planeEnds ∧ (s.setChan k v).planeDown = s.planeDown ∧ (s.setChan k v).remap = s.remap ∧
    (s.setChan k v).marks = s.marks ∧ (s.setChan k v).reefs = s.reefs ∧ (s.setChan k v).clkSet = s.clkSet ∧ (s.setChan k v).clkEff = s.clkEff ∧
    (s.setChan k v).power = s.power ∧ (s.setChan k v).dir = s.dir ∧ (s.setChan k v).lpddr = s.lpddr ∧ (s.setChan k v).lpoison = s.lpoison ∧
    (s.setChan k v).lfresh = s.lfresh ∧ (s.setChan k v).fram = s.fram ∧ (s.setChan k v).ramOut = s.ramOut ∧ (s.setChan k v).ffs = s.ffs ∧
    (s.setChan k v).cross = s.cross ∧ (s.setChan k v).ioPins = s.ioPins ∧ (s.setChan k v).ioRegs = s.ioRegs ∧ (s.setChan k v).cfgmem = s.cfgmem ∧
    (s.setChan k v).regions = s.regions ∧ (s.setChan k v).hal = s.hal ∧ (s.setChan k v).boot = s.boot ∧ (s.setChan k v).shells = s.shells ∧
    (s.setChan k v).cfgDone = s.cfgDone ∧ (s.setChan k v).cfgRdy = s.cfgRdy ∧ (s.setChan k v).mcOn = s.mcOn ∧ (s.setChan k v).hc = s.hc ∧
    (s.setChan k v).lanes = s.lanes ∧ (s.setChan k v).ports = s.ports ∧ (s.setChan k v).tenants = s.tenants ∧ (s.setChan k v).ubxIn = s.ubxIn ∧
    (s.setChan k v).rxChans = s.rxChans ∧ (s.setChan k v).sec = s.sec ∧ (s.setChan k v).smbStatus = s.smbStatus ∧ (s.setChan k v).smbErr = s.smbErr ∧
    (s.setChan k v).smbData = s.smbData ∧ (s.setChan k v).ppsUntil = s.ppsUntil ∧ (s.setChan k v).jtag = s.jtag ∧
    (∀ i, (s.setChan k v).core i = s.core i) ∧ (∀ i, (s.setChan k v).tap i = s.tap i) ∧ (∀ i, (s.setChan k v).dirAt i = s.dirAt i) ∧
    (∀ i, (s.setChan k v).hcAt i = s.hcAt i) ∧ (∀ i, (s.setChan k v).halAt i = s.halAt i) ∧ (∀ i, (s.setChan k v).region i = s.region i) ∧
    (∀ i, (s.setChan k v).lane i = s.lane i) ∧ (∀ i, (s.setChan k v).port i = s.port i) ∧ (∀ i, (s.setChan k v).tenant i = s.tenant i) ∧
    (∀ i, (s.setChan k v).blk i = s.blk i) ∧ (∀ i, (s.setChan k v).clk i = s.clk i) ∧ (∀ i, (s.setChan k v).eff i = s.eff i) ∧
    (∀ i, (s.setChan k v).reg i = s.reg i) ∧ (∀ i, (s.setChan k v).reg64 i = s.reg64 i) ∧ (∀ i b, (s.setChan k v).bit i b = s.bit i b) ∧
    (∀ i lo w, (s.setChan k v).fld i lo w = s.fld i lo w) := by
  refine ⟨?_, ?_, ?_, ?_, ?_, ?_, ?_, ?_, ?_, ?_, ?_, ?_, ?_, ?_, ?_, ?_, ?_, ?_, ?_, ?_, ?_, ?_, ?_, ?_, ?_, ?_, ?_, ?_, ?_, ?_, ?_, ?_, ?_, ?_, ?_, ?_, ?_, ?_, ?_, ?_, ?_, ?_, ?_, ?_, ?_, ?_, ?_, ?_, ?_, ?_, ?_, ?_, ?_, ?_, ?_, ?_, ?_, ?_, ?_, ?_, ?_, ?_, ?_, ?_, ?_, ?_, ?_, ?_, ?_, ?_, ?_⟩ <;> intros <;> rfl

@[simp] theorem State.setLane_keeps (s : State) (k : Nat) (v : Lane) :
    (s.setLane k v).pending = s.pending ∧ (s.setLane k v).sent = s.sent ∧ (s.setLane k v).freeCtr = s.freeCtr ∧ (s.setLane k v).keyGen = s.keyGen ∧
    (s.setLane k v).resetN = s.resetN ∧ (s.setLane k v).pwrOk = s.pwrOk ∧ (s.setLane k v).inReset = s.inReset ∧
    (s.setLane k v).releaseWaits = s.releaseWaits ∧ (s.setLane k v).inputMv = s.inputMv ∧ (s.setLane k v).cfgMode = s.cfgMode ∧
    (s.setLane k v).ceilHalf = s.ceilHalf ∧ (s.setLane k v).tripped = s.tripped ∧ (s.setLane k v).hotJunction = s.hotJunction ∧
    (s.setLane k v).time = s.time ∧ (s.setLane k v).regs = s.regs ∧ (s.setLane k v).cores = s.cores ∧ (s.setLane k v).taps = s.taps ∧
    (s.setLane k v).planeEnds = s.planeEnds ∧ (s.setLane k v).planeDown = s.planeDown ∧ (s.setLane k v).remap = s.remap ∧
    (s.setLane k v).marks = s.marks ∧ (s.setLane k v).reefs = s.reefs ∧ (s.setLane k v).clkSet = s.clkSet ∧ (s.setLane k v).clkEff = s.clkEff ∧
    (s.setLane k v).power = s.power ∧ (s.setLane k v).dir = s.dir ∧ (s.setLane k v).lpddr = s.lpddr ∧ (s.setLane k v).lpoison = s.lpoison ∧
    (s.setLane k v).lfresh = s.lfresh ∧ (s.setLane k v).fram = s.fram ∧ (s.setLane k v).ramOut = s.ramOut ∧ (s.setLane k v).ffs = s.ffs ∧
    (s.setLane k v).cross = s.cross ∧ (s.setLane k v).ioPins = s.ioPins ∧ (s.setLane k v).ioRegs = s.ioRegs ∧ (s.setLane k v).cfgmem = s.cfgmem ∧
    (s.setLane k v).regions = s.regions ∧ (s.setLane k v).hal = s.hal ∧ (s.setLane k v).boot = s.boot ∧ (s.setLane k v).shells = s.shells ∧
    (s.setLane k v).cfgDone = s.cfgDone ∧ (s.setLane k v).cfgRdy = s.cfgRdy ∧ (s.setLane k v).mcOn = s.mcOn ∧ (s.setLane k v).hc = s.hc ∧
    (s.setLane k v).chans = s.chans ∧ (s.setLane k v).ports = s.ports ∧ (s.setLane k v).tenants = s.tenants ∧ (s.setLane k v).ubxIn = s.ubxIn ∧
    (s.setLane k v).rxChans = s.rxChans ∧ (s.setLane k v).sec = s.sec ∧ (s.setLane k v).smbStatus = s.smbStatus ∧ (s.setLane k v).smbErr = s.smbErr ∧
    (s.setLane k v).smbData = s.smbData ∧ (s.setLane k v).ppsUntil = s.ppsUntil ∧ (s.setLane k v).jtag = s.jtag ∧
    (∀ i, (s.setLane k v).core i = s.core i) ∧ (∀ i, (s.setLane k v).tap i = s.tap i) ∧ (∀ i, (s.setLane k v).dirAt i = s.dirAt i) ∧
    (∀ i, (s.setLane k v).hcAt i = s.hcAt i) ∧ (∀ i, (s.setLane k v).halAt i = s.halAt i) ∧ (∀ i, (s.setLane k v).region i = s.region i) ∧
    (∀ i, (s.setLane k v).chan i = s.chan i) ∧ (∀ i, (s.setLane k v).port i = s.port i) ∧ (∀ i, (s.setLane k v).tenant i = s.tenant i) ∧
    (∀ i, (s.setLane k v).blk i = s.blk i) ∧ (∀ i, (s.setLane k v).clk i = s.clk i) ∧ (∀ i, (s.setLane k v).eff i = s.eff i) ∧
    (∀ i, (s.setLane k v).reg i = s.reg i) ∧ (∀ i, (s.setLane k v).reg64 i = s.reg64 i) ∧ (∀ i b, (s.setLane k v).bit i b = s.bit i b) ∧
    (∀ i lo w, (s.setLane k v).fld i lo w = s.fld i lo w) := by
  refine ⟨?_, ?_, ?_, ?_, ?_, ?_, ?_, ?_, ?_, ?_, ?_, ?_, ?_, ?_, ?_, ?_, ?_, ?_, ?_, ?_, ?_, ?_, ?_, ?_, ?_, ?_, ?_, ?_, ?_, ?_, ?_, ?_, ?_, ?_, ?_, ?_, ?_, ?_, ?_, ?_, ?_, ?_, ?_, ?_, ?_, ?_, ?_, ?_, ?_, ?_, ?_, ?_, ?_, ?_, ?_, ?_, ?_, ?_, ?_, ?_, ?_, ?_, ?_, ?_, ?_, ?_, ?_, ?_, ?_, ?_, ?_⟩ <;> intros <;> rfl

@[simp] theorem State.setPort_keeps (s : State) (k : Nat) (v : Port) :
    (s.setPort k v).pending = s.pending ∧ (s.setPort k v).sent = s.sent ∧ (s.setPort k v).freeCtr = s.freeCtr ∧ (s.setPort k v).keyGen = s.keyGen ∧
    (s.setPort k v).resetN = s.resetN ∧ (s.setPort k v).pwrOk = s.pwrOk ∧ (s.setPort k v).inReset = s.inReset ∧
    (s.setPort k v).releaseWaits = s.releaseWaits ∧ (s.setPort k v).inputMv = s.inputMv ∧ (s.setPort k v).cfgMode = s.cfgMode ∧
    (s.setPort k v).ceilHalf = s.ceilHalf ∧ (s.setPort k v).tripped = s.tripped ∧ (s.setPort k v).hotJunction = s.hotJunction ∧
    (s.setPort k v).time = s.time ∧ (s.setPort k v).regs = s.regs ∧ (s.setPort k v).cores = s.cores ∧ (s.setPort k v).taps = s.taps ∧
    (s.setPort k v).planeEnds = s.planeEnds ∧ (s.setPort k v).planeDown = s.planeDown ∧ (s.setPort k v).remap = s.remap ∧
    (s.setPort k v).marks = s.marks ∧ (s.setPort k v).reefs = s.reefs ∧ (s.setPort k v).clkSet = s.clkSet ∧ (s.setPort k v).clkEff = s.clkEff ∧
    (s.setPort k v).power = s.power ∧ (s.setPort k v).dir = s.dir ∧ (s.setPort k v).lpddr = s.lpddr ∧ (s.setPort k v).lpoison = s.lpoison ∧
    (s.setPort k v).lfresh = s.lfresh ∧ (s.setPort k v).fram = s.fram ∧ (s.setPort k v).ramOut = s.ramOut ∧ (s.setPort k v).ffs = s.ffs ∧
    (s.setPort k v).cross = s.cross ∧ (s.setPort k v).ioPins = s.ioPins ∧ (s.setPort k v).ioRegs = s.ioRegs ∧ (s.setPort k v).cfgmem = s.cfgmem ∧
    (s.setPort k v).regions = s.regions ∧ (s.setPort k v).hal = s.hal ∧ (s.setPort k v).boot = s.boot ∧ (s.setPort k v).shells = s.shells ∧
    (s.setPort k v).cfgDone = s.cfgDone ∧ (s.setPort k v).cfgRdy = s.cfgRdy ∧ (s.setPort k v).mcOn = s.mcOn ∧ (s.setPort k v).hc = s.hc ∧
    (s.setPort k v).chans = s.chans ∧ (s.setPort k v).lanes = s.lanes ∧ (s.setPort k v).tenants = s.tenants ∧ (s.setPort k v).ubxIn = s.ubxIn ∧
    (s.setPort k v).rxChans = s.rxChans ∧ (s.setPort k v).sec = s.sec ∧ (s.setPort k v).smbStatus = s.smbStatus ∧ (s.setPort k v).smbErr = s.smbErr ∧
    (s.setPort k v).smbData = s.smbData ∧ (s.setPort k v).ppsUntil = s.ppsUntil ∧ (s.setPort k v).jtag = s.jtag ∧
    (∀ i, (s.setPort k v).core i = s.core i) ∧ (∀ i, (s.setPort k v).tap i = s.tap i) ∧ (∀ i, (s.setPort k v).dirAt i = s.dirAt i) ∧
    (∀ i, (s.setPort k v).hcAt i = s.hcAt i) ∧ (∀ i, (s.setPort k v).halAt i = s.halAt i) ∧ (∀ i, (s.setPort k v).region i = s.region i) ∧
    (∀ i, (s.setPort k v).chan i = s.chan i) ∧ (∀ i, (s.setPort k v).lane i = s.lane i) ∧ (∀ i, (s.setPort k v).tenant i = s.tenant i) ∧
    (∀ i, (s.setPort k v).blk i = s.blk i) ∧ (∀ i, (s.setPort k v).clk i = s.clk i) ∧ (∀ i, (s.setPort k v).eff i = s.eff i) ∧
    (∀ i, (s.setPort k v).reg i = s.reg i) ∧ (∀ i, (s.setPort k v).reg64 i = s.reg64 i) ∧ (∀ i b, (s.setPort k v).bit i b = s.bit i b) ∧
    (∀ i lo w, (s.setPort k v).fld i lo w = s.fld i lo w) := by
  refine ⟨?_, ?_, ?_, ?_, ?_, ?_, ?_, ?_, ?_, ?_, ?_, ?_, ?_, ?_, ?_, ?_, ?_, ?_, ?_, ?_, ?_, ?_, ?_, ?_, ?_, ?_, ?_, ?_, ?_, ?_, ?_, ?_, ?_, ?_, ?_, ?_, ?_, ?_, ?_, ?_, ?_, ?_, ?_, ?_, ?_, ?_, ?_, ?_, ?_, ?_, ?_, ?_, ?_, ?_, ?_, ?_, ?_, ?_, ?_, ?_, ?_, ?_, ?_, ?_, ?_, ?_, ?_, ?_, ?_, ?_, ?_⟩ <;> intros <;> rfl

@[simp] theorem State.setTenant_keeps (s : State) (t : Nat) (v : Tenant) :
    (s.setTenant t v).pending = s.pending ∧ (s.setTenant t v).sent = s.sent ∧ (s.setTenant t v).freeCtr = s.freeCtr ∧
    (s.setTenant t v).keyGen = s.keyGen ∧ (s.setTenant t v).resetN = s.resetN ∧ (s.setTenant t v).pwrOk = s.pwrOk ∧
    (s.setTenant t v).inReset = s.inReset ∧ (s.setTenant t v).releaseWaits = s.releaseWaits ∧ (s.setTenant t v).inputMv = s.inputMv ∧
    (s.setTenant t v).cfgMode = s.cfgMode ∧ (s.setTenant t v).ceilHalf = s.ceilHalf ∧ (s.setTenant t v).tripped = s.tripped ∧
    (s.setTenant t v).hotJunction = s.hotJunction ∧ (s.setTenant t v).time = s.time ∧ (s.setTenant t v).regs = s.regs ∧
    (s.setTenant t v).cores = s.cores ∧ (s.setTenant t v).taps = s.taps ∧ (s.setTenant t v).planeEnds = s.planeEnds ∧
    (s.setTenant t v).planeDown = s.planeDown ∧ (s.setTenant t v).remap = s.remap ∧ (s.setTenant t v).marks = s.marks ∧
    (s.setTenant t v).reefs = s.reefs ∧ (s.setTenant t v).clkSet = s.clkSet ∧ (s.setTenant t v).clkEff = s.clkEff ∧
    (s.setTenant t v).power = s.power ∧ (s.setTenant t v).dir = s.dir ∧ (s.setTenant t v).lpddr = s.lpddr ∧ (s.setTenant t v).lpoison = s.lpoison ∧
    (s.setTenant t v).lfresh = s.lfresh ∧ (s.setTenant t v).fram = s.fram ∧ (s.setTenant t v).ramOut = s.ramOut ∧ (s.setTenant t v).ffs = s.ffs ∧
    (s.setTenant t v).cross = s.cross ∧ (s.setTenant t v).ioPins = s.ioPins ∧ (s.setTenant t v).ioRegs = s.ioRegs ∧
    (s.setTenant t v).cfgmem = s.cfgmem ∧ (s.setTenant t v).regions = s.regions ∧ (s.setTenant t v).hal = s.hal ∧ (s.setTenant t v).boot = s.boot ∧
    (s.setTenant t v).shells = s.shells ∧ (s.setTenant t v).cfgDone = s.cfgDone ∧ (s.setTenant t v).cfgRdy = s.cfgRdy ∧
    (s.setTenant t v).mcOn = s.mcOn ∧ (s.setTenant t v).hc = s.hc ∧ (s.setTenant t v).chans = s.chans ∧ (s.setTenant t v).lanes = s.lanes ∧
    (s.setTenant t v).ports = s.ports ∧ (s.setTenant t v).ubxIn = s.ubxIn ∧ (s.setTenant t v).rxChans = s.rxChans ∧ (s.setTenant t v).sec = s.sec ∧
    (s.setTenant t v).smbStatus = s.smbStatus ∧ (s.setTenant t v).smbErr = s.smbErr ∧ (s.setTenant t v).smbData = s.smbData ∧
    (s.setTenant t v).ppsUntil = s.ppsUntil ∧ (s.setTenant t v).jtag = s.jtag ∧ (∀ i, (s.setTenant t v).core i = s.core i) ∧
    (∀ i, (s.setTenant t v).tap i = s.tap i) ∧ (∀ i, (s.setTenant t v).dirAt i = s.dirAt i) ∧ (∀ i, (s.setTenant t v).hcAt i = s.hcAt i) ∧
    (∀ i, (s.setTenant t v).halAt i = s.halAt i) ∧ (∀ i, (s.setTenant t v).region i = s.region i) ∧ (∀ i, (s.setTenant t v).chan i = s.chan i) ∧
    (∀ i, (s.setTenant t v).lane i = s.lane i) ∧ (∀ i, (s.setTenant t v).port i = s.port i) ∧ (∀ i, (s.setTenant t v).blk i = s.blk i) ∧
    (∀ i, (s.setTenant t v).clk i = s.clk i) ∧ (∀ i, (s.setTenant t v).eff i = s.eff i) ∧ (∀ i, (s.setTenant t v).reg i = s.reg i) ∧
    (∀ i, (s.setTenant t v).reg64 i = s.reg64 i) ∧ (∀ i b, (s.setTenant t v).bit i b = s.bit i b) ∧
    (∀ i lo w, (s.setTenant t v).fld i lo w = s.fld i lo w) := by
  refine ⟨?_, ?_, ?_, ?_, ?_, ?_, ?_, ?_, ?_, ?_, ?_, ?_, ?_, ?_, ?_, ?_, ?_, ?_, ?_, ?_, ?_, ?_, ?_, ?_, ?_, ?_, ?_, ?_, ?_, ?_, ?_, ?_, ?_, ?_, ?_, ?_, ?_, ?_, ?_, ?_, ?_, ?_, ?_, ?_, ?_, ?_, ?_, ?_, ?_, ?_, ?_, ?_, ?_, ?_, ?_, ?_, ?_, ?_, ?_, ?_, ?_, ?_, ?_, ?_, ?_, ?_, ?_, ?_, ?_, ?_, ?_⟩ <;> intros <;> rfl

@[simp] theorem State.setBlk_keeps (s : State) (p : Nat) (v : BlkPower) :
    (s.setBlk p v).pending = s.pending ∧ (s.setBlk p v).sent = s.sent ∧ (s.setBlk p v).freeCtr = s.freeCtr ∧ (s.setBlk p v).keyGen = s.keyGen ∧
    (s.setBlk p v).resetN = s.resetN ∧ (s.setBlk p v).pwrOk = s.pwrOk ∧ (s.setBlk p v).inReset = s.inReset ∧
    (s.setBlk p v).releaseWaits = s.releaseWaits ∧ (s.setBlk p v).inputMv = s.inputMv ∧ (s.setBlk p v).cfgMode = s.cfgMode ∧
    (s.setBlk p v).ceilHalf = s.ceilHalf ∧ (s.setBlk p v).tripped = s.tripped ∧ (s.setBlk p v).hotJunction = s.hotJunction ∧
    (s.setBlk p v).time = s.time ∧ (s.setBlk p v).regs = s.regs ∧ (s.setBlk p v).cores = s.cores ∧ (s.setBlk p v).taps = s.taps ∧
    (s.setBlk p v).planeEnds = s.planeEnds ∧ (s.setBlk p v).planeDown = s.planeDown ∧ (s.setBlk p v).remap = s.remap ∧
    (s.setBlk p v).marks = s.marks ∧ (s.setBlk p v).reefs = s.reefs ∧ (s.setBlk p v).clkSet = s.clkSet ∧ (s.setBlk p v).clkEff = s.clkEff ∧
    (s.setBlk p v).dir = s.dir ∧ (s.setBlk p v).lpddr = s.lpddr ∧ (s.setBlk p v).lpoison = s.lpoison ∧ (s.setBlk p v).lfresh = s.lfresh ∧
    (s.setBlk p v).fram = s.fram ∧ (s.setBlk p v).ramOut = s.ramOut ∧ (s.setBlk p v).ffs = s.ffs ∧ (s.setBlk p v).cross = s.cross ∧
    (s.setBlk p v).ioPins = s.ioPins ∧ (s.setBlk p v).ioRegs = s.ioRegs ∧ (s.setBlk p v).cfgmem = s.cfgmem ∧ (s.setBlk p v).regions = s.regions ∧
    (s.setBlk p v).hal = s.hal ∧ (s.setBlk p v).boot = s.boot ∧ (s.setBlk p v).shells = s.shells ∧ (s.setBlk p v).cfgDone = s.cfgDone ∧
    (s.setBlk p v).cfgRdy = s.cfgRdy ∧ (s.setBlk p v).mcOn = s.mcOn ∧ (s.setBlk p v).hc = s.hc ∧ (s.setBlk p v).chans = s.chans ∧
    (s.setBlk p v).lanes = s.lanes ∧ (s.setBlk p v).ports = s.ports ∧ (s.setBlk p v).tenants = s.tenants ∧ (s.setBlk p v).ubxIn = s.ubxIn ∧
    (s.setBlk p v).rxChans = s.rxChans ∧ (s.setBlk p v).sec = s.sec ∧ (s.setBlk p v).smbStatus = s.smbStatus ∧ (s.setBlk p v).smbErr = s.smbErr ∧
    (s.setBlk p v).smbData = s.smbData ∧ (s.setBlk p v).ppsUntil = s.ppsUntil ∧ (s.setBlk p v).jtag = s.jtag ∧
    (∀ i, (s.setBlk p v).core i = s.core i) ∧ (∀ i, (s.setBlk p v).tap i = s.tap i) ∧ (∀ i, (s.setBlk p v).dirAt i = s.dirAt i) ∧
    (∀ i, (s.setBlk p v).hcAt i = s.hcAt i) ∧ (∀ i, (s.setBlk p v).halAt i = s.halAt i) ∧ (∀ i, (s.setBlk p v).region i = s.region i) ∧
    (∀ i, (s.setBlk p v).chan i = s.chan i) ∧ (∀ i, (s.setBlk p v).lane i = s.lane i) ∧ (∀ i, (s.setBlk p v).port i = s.port i) ∧
    (∀ i, (s.setBlk p v).tenant i = s.tenant i) ∧ (∀ i, (s.setBlk p v).clk i = s.clk i) ∧ (∀ i, (s.setBlk p v).eff i = s.eff i) ∧
    (∀ i, (s.setBlk p v).reg i = s.reg i) ∧ (∀ i, (s.setBlk p v).reg64 i = s.reg64 i) ∧ (∀ i b, (s.setBlk p v).bit i b = s.bit i b) ∧
    (∀ i lo w, (s.setBlk p v).fld i lo w = s.fld i lo w) := by
  refine ⟨?_, ?_, ?_, ?_, ?_, ?_, ?_, ?_, ?_, ?_, ?_, ?_, ?_, ?_, ?_, ?_, ?_, ?_, ?_, ?_, ?_, ?_, ?_, ?_, ?_, ?_, ?_, ?_, ?_, ?_, ?_, ?_, ?_, ?_, ?_, ?_, ?_, ?_, ?_, ?_, ?_, ?_, ?_, ?_, ?_, ?_, ?_, ?_, ?_, ?_, ?_, ?_, ?_, ?_, ?_, ?_, ?_, ?_, ?_, ?_, ?_, ?_, ?_, ?_, ?_, ?_, ?_, ?_, ?_, ?_, ?_⟩ <;> intros <;> rfl

@[simp] theorem State.setClk_keeps (s : State) (n v : Nat) :
    (s.setClk n v).pending = s.pending ∧ (s.setClk n v).sent = s.sent ∧ (s.setClk n v).freeCtr = s.freeCtr ∧ (s.setClk n v).keyGen = s.keyGen ∧
    (s.setClk n v).resetN = s.resetN ∧ (s.setClk n v).pwrOk = s.pwrOk ∧ (s.setClk n v).inReset = s.inReset ∧
    (s.setClk n v).releaseWaits = s.releaseWaits ∧ (s.setClk n v).inputMv = s.inputMv ∧ (s.setClk n v).cfgMode = s.cfgMode ∧
    (s.setClk n v).ceilHalf = s.ceilHalf ∧ (s.setClk n v).tripped = s.tripped ∧ (s.setClk n v).hotJunction = s.hotJunction ∧
    (s.setClk n v).time = s.time ∧ (s.setClk n v).regs = s.regs ∧ (s.setClk n v).cores = s.cores ∧ (s.setClk n v).taps = s.taps ∧
    (s.setClk n v).planeEnds = s.planeEnds ∧ (s.setClk n v).planeDown = s.planeDown ∧ (s.setClk n v).remap = s.remap ∧
    (s.setClk n v).marks = s.marks ∧ (s.setClk n v).reefs = s.reefs ∧ (s.setClk n v).clkEff = s.clkEff ∧ (s.setClk n v).power = s.power ∧
    (s.setClk n v).dir = s.dir ∧ (s.setClk n v).lpddr = s.lpddr ∧ (s.setClk n v).lpoison = s.lpoison ∧ (s.setClk n v).lfresh = s.lfresh ∧
    (s.setClk n v).fram = s.fram ∧ (s.setClk n v).ramOut = s.ramOut ∧ (s.setClk n v).ffs = s.ffs ∧ (s.setClk n v).cross = s.cross ∧
    (s.setClk n v).ioPins = s.ioPins ∧ (s.setClk n v).ioRegs = s.ioRegs ∧ (s.setClk n v).cfgmem = s.cfgmem ∧ (s.setClk n v).regions = s.regions ∧
    (s.setClk n v).hal = s.hal ∧ (s.setClk n v).boot = s.boot ∧ (s.setClk n v).shells = s.shells ∧ (s.setClk n v).cfgDone = s.cfgDone ∧
    (s.setClk n v).cfgRdy = s.cfgRdy ∧ (s.setClk n v).mcOn = s.mcOn ∧ (s.setClk n v).hc = s.hc ∧ (s.setClk n v).chans = s.chans ∧
    (s.setClk n v).lanes = s.lanes ∧ (s.setClk n v).ports = s.ports ∧ (s.setClk n v).tenants = s.tenants ∧ (s.setClk n v).ubxIn = s.ubxIn ∧
    (s.setClk n v).rxChans = s.rxChans ∧ (s.setClk n v).sec = s.sec ∧ (s.setClk n v).smbStatus = s.smbStatus ∧ (s.setClk n v).smbErr = s.smbErr ∧
    (s.setClk n v).smbData = s.smbData ∧ (s.setClk n v).ppsUntil = s.ppsUntil ∧ (s.setClk n v).jtag = s.jtag ∧
    (∀ i, (s.setClk n v).core i = s.core i) ∧ (∀ i, (s.setClk n v).tap i = s.tap i) ∧ (∀ i, (s.setClk n v).dirAt i = s.dirAt i) ∧
    (∀ i, (s.setClk n v).hcAt i = s.hcAt i) ∧ (∀ i, (s.setClk n v).halAt i = s.halAt i) ∧ (∀ i, (s.setClk n v).region i = s.region i) ∧
    (∀ i, (s.setClk n v).chan i = s.chan i) ∧ (∀ i, (s.setClk n v).lane i = s.lane i) ∧ (∀ i, (s.setClk n v).port i = s.port i) ∧
    (∀ i, (s.setClk n v).tenant i = s.tenant i) ∧ (∀ i, (s.setClk n v).blk i = s.blk i) ∧ (∀ i, (s.setClk n v).eff i = s.eff i) ∧
    (∀ i, (s.setClk n v).reg i = s.reg i) ∧ (∀ i, (s.setClk n v).reg64 i = s.reg64 i) ∧ (∀ i b, (s.setClk n v).bit i b = s.bit i b) ∧
    (∀ i lo w, (s.setClk n v).fld i lo w = s.fld i lo w) := by
  refine ⟨?_, ?_, ?_, ?_, ?_, ?_, ?_, ?_, ?_, ?_, ?_, ?_, ?_, ?_, ?_, ?_, ?_, ?_, ?_, ?_, ?_, ?_, ?_, ?_, ?_, ?_, ?_, ?_, ?_, ?_, ?_, ?_, ?_, ?_, ?_, ?_, ?_, ?_, ?_, ?_, ?_, ?_, ?_, ?_, ?_, ?_, ?_, ?_, ?_, ?_, ?_, ?_, ?_, ?_, ?_, ?_, ?_, ?_, ?_, ?_, ?_, ?_, ?_, ?_, ?_, ?_, ?_, ?_, ?_, ?_, ?_⟩ <;> intros <;> rfl

@[simp] theorem State.setEff_keeps (s : State) (n v : Nat) :
    (s.setEff n v).pending = s.pending ∧ (s.setEff n v).sent = s.sent ∧ (s.setEff n v).freeCtr = s.freeCtr ∧ (s.setEff n v).keyGen = s.keyGen ∧
    (s.setEff n v).resetN = s.resetN ∧ (s.setEff n v).pwrOk = s.pwrOk ∧ (s.setEff n v).inReset = s.inReset ∧
    (s.setEff n v).releaseWaits = s.releaseWaits ∧ (s.setEff n v).inputMv = s.inputMv ∧ (s.setEff n v).cfgMode = s.cfgMode ∧
    (s.setEff n v).ceilHalf = s.ceilHalf ∧ (s.setEff n v).tripped = s.tripped ∧ (s.setEff n v).hotJunction = s.hotJunction ∧
    (s.setEff n v).time = s.time ∧ (s.setEff n v).regs = s.regs ∧ (s.setEff n v).cores = s.cores ∧ (s.setEff n v).taps = s.taps ∧
    (s.setEff n v).planeEnds = s.planeEnds ∧ (s.setEff n v).planeDown = s.planeDown ∧ (s.setEff n v).remap = s.remap ∧
    (s.setEff n v).marks = s.marks ∧ (s.setEff n v).reefs = s.reefs ∧ (s.setEff n v).clkSet = s.clkSet ∧ (s.setEff n v).power = s.power ∧
    (s.setEff n v).dir = s.dir ∧ (s.setEff n v).lpddr = s.lpddr ∧ (s.setEff n v).lpoison = s.lpoison ∧ (s.setEff n v).lfresh = s.lfresh ∧
    (s.setEff n v).fram = s.fram ∧ (s.setEff n v).ramOut = s.ramOut ∧ (s.setEff n v).ffs = s.ffs ∧ (s.setEff n v).cross = s.cross ∧
    (s.setEff n v).ioPins = s.ioPins ∧ (s.setEff n v).ioRegs = s.ioRegs ∧ (s.setEff n v).cfgmem = s.cfgmem ∧ (s.setEff n v).regions = s.regions ∧
    (s.setEff n v).hal = s.hal ∧ (s.setEff n v).boot = s.boot ∧ (s.setEff n v).shells = s.shells ∧ (s.setEff n v).cfgDone = s.cfgDone ∧
    (s.setEff n v).cfgRdy = s.cfgRdy ∧ (s.setEff n v).mcOn = s.mcOn ∧ (s.setEff n v).hc = s.hc ∧ (s.setEff n v).chans = s.chans ∧
    (s.setEff n v).lanes = s.lanes ∧ (s.setEff n v).ports = s.ports ∧ (s.setEff n v).tenants = s.tenants ∧ (s.setEff n v).ubxIn = s.ubxIn ∧
    (s.setEff n v).rxChans = s.rxChans ∧ (s.setEff n v).sec = s.sec ∧ (s.setEff n v).smbStatus = s.smbStatus ∧ (s.setEff n v).smbErr = s.smbErr ∧
    (s.setEff n v).smbData = s.smbData ∧ (s.setEff n v).ppsUntil = s.ppsUntil ∧ (s.setEff n v).jtag = s.jtag ∧
    (∀ i, (s.setEff n v).core i = s.core i) ∧ (∀ i, (s.setEff n v).tap i = s.tap i) ∧ (∀ i, (s.setEff n v).dirAt i = s.dirAt i) ∧
    (∀ i, (s.setEff n v).hcAt i = s.hcAt i) ∧ (∀ i, (s.setEff n v).halAt i = s.halAt i) ∧ (∀ i, (s.setEff n v).region i = s.region i) ∧
    (∀ i, (s.setEff n v).chan i = s.chan i) ∧ (∀ i, (s.setEff n v).lane i = s.lane i) ∧ (∀ i, (s.setEff n v).port i = s.port i) ∧
    (∀ i, (s.setEff n v).tenant i = s.tenant i) ∧ (∀ i, (s.setEff n v).blk i = s.blk i) ∧ (∀ i, (s.setEff n v).clk i = s.clk i) ∧
    (∀ i, (s.setEff n v).reg i = s.reg i) ∧ (∀ i, (s.setEff n v).reg64 i = s.reg64 i) ∧ (∀ i b, (s.setEff n v).bit i b = s.bit i b) ∧
    (∀ i lo w, (s.setEff n v).fld i lo w = s.fld i lo w) := by
  refine ⟨?_, ?_, ?_, ?_, ?_, ?_, ?_, ?_, ?_, ?_, ?_, ?_, ?_, ?_, ?_, ?_, ?_, ?_, ?_, ?_, ?_, ?_, ?_, ?_, ?_, ?_, ?_, ?_, ?_, ?_, ?_, ?_, ?_, ?_, ?_, ?_, ?_, ?_, ?_, ?_, ?_, ?_, ?_, ?_, ?_, ?_, ?_, ?_, ?_, ?_, ?_, ?_, ?_, ?_, ?_, ?_, ?_, ?_, ?_, ?_, ?_, ?_, ?_, ?_, ?_, ?_, ?_, ?_, ?_, ?_, ?_⟩ <;> intros <;> rfl

/-! What each update writes -/

theorem State.setReg_reg (s : State) (k : Nat) (v : Word) (j : Nat) : (s.setReg k v).reg j = if j = k then v else s.reg j := Sparse.get_put ..
@[simp] theorem State.setReg_reg_same (s : State) (k : Nat) (v : Word) : (s.setReg k v).reg k = v := by simp [State.setReg_reg]
theorem State.setCore_core (s : State) (k : Nat) (v : Core) (j : Nat) : (s.setCore k v).core j = if j = k then v else s.core j := Sparse.get_put ..
@[simp] theorem State.setCore_core_same (s : State) (k : Nat) (v : Core) : (s.setCore k v).core k = v := by simp [State.setCore_core]
theorem State.setTap_tap (s : State) (k : Nat) (v : Taps) (j : Nat) : (s.setTap k v).tap j = if j = k then v else s.tap j := Sparse.get_put ..
@[simp] theorem State.setTap_tap_same (s : State) (k : Nat) (v : Taps) : (s.setTap k v).tap k = v := by simp [State.setTap_tap]
theorem State.setDir_dirAt (s : State) (k : Nat) (v : DirEntry) (j : Nat) : (s.setDir k v).dirAt j = if j = k then v else s.dirAt j := Sparse.get_put ..
@[simp] theorem State.setDir_dirAt_same (s : State) (k : Nat) (v : DirEntry) : (s.setDir k v).dirAt k = v := by simp [State.setDir_dirAt]
theorem State.setHc_hcAt (s : State) (k : Nat) (v : Hc) (j : Nat) : (s.setHc k v).hcAt j = if j = k then v else s.hcAt j := Sparse.get_put ..
@[simp] theorem State.setHc_hcAt_same (s : State) (k : Nat) (v : Hc) : (s.setHc k v).hcAt k = v := by simp [State.setHc_hcAt]
theorem State.setHal_halAt (s : State) (k : Nat) (v : Hal) (j : Nat) : (s.setHal k v).halAt j = if j = k then v else s.halAt j := Sparse.get_put ..
@[simp] theorem State.setHal_halAt_same (s : State) (k : Nat) (v : Hal) : (s.setHal k v).halAt k = v := by simp [State.setHal_halAt]
theorem State.setRegion_region (s : State) (k : Nat) (v : Region) (j : Nat) : (s.setRegion k v).region j = if j = k then v else s.region j := Sparse.get_put ..
@[simp] theorem State.setRegion_region_same (s : State) (k : Nat) (v : Region) : (s.setRegion k v).region k = v := by simp [State.setRegion_region]
theorem State.setChan_chan (s : State) (k : Nat) (v : ChanRun) (j : Nat) : (s.setChan k v).chan j = if j = k then v else s.chan j := Sparse.get_put ..
@[simp] theorem State.setChan_chan_same (s : State) (k : Nat) (v : ChanRun) : (s.setChan k v).chan k = v := by simp [State.setChan_chan]
theorem State.setLane_lane (s : State) (k : Nat) (v : Lane) (j : Nat) : (s.setLane k v).lane j = if j = k then v else s.lane j := Sparse.get_put ..
@[simp] theorem State.setLane_lane_same (s : State) (k : Nat) (v : Lane) : (s.setLane k v).lane k = v := by simp [State.setLane_lane]
theorem State.setPort_port (s : State) (k : Nat) (v : Port) (j : Nat) : (s.setPort k v).port j = if j = k then v else s.port j := Sparse.get_put ..
@[simp] theorem State.setPort_port_same (s : State) (k : Nat) (v : Port) : (s.setPort k v).port k = v := by simp [State.setPort_port]
theorem State.setTenant_tenant (s : State) (k : Nat) (v : Tenant) (j : Nat) : (s.setTenant k v).tenant j = if j = k then v else s.tenant j := Sparse.get_put ..
@[simp] theorem State.setTenant_tenant_same (s : State) (k : Nat) (v : Tenant) : (s.setTenant k v).tenant k = v := by simp [State.setTenant_tenant]
theorem State.setBlk_blk (s : State) (k : Nat) (v : BlkPower) (j : Nat) : (s.setBlk k v).blk j = if j = k then v else s.blk j := Sparse.get_put ..
@[simp] theorem State.setBlk_blk_same (s : State) (k : Nat) (v : BlkPower) : (s.setBlk k v).blk k = v := by simp [State.setBlk_blk]
theorem State.setClk_clk (s : State) (k v : Nat) (j : Nat) : (s.setClk k v).clk j = if j = k then v else s.clk j := Sparse.get_put ..
@[simp] theorem State.setClk_clk_same (s : State) (k v : Nat) : (s.setClk k v).clk k = v := by simp [State.setClk_clk]
theorem State.setEff_eff (s : State) (k v : Nat) (j : Nat) : (s.setEff k v).eff j = if j = k then v else s.eff j := Sparse.get_put ..
@[simp] theorem State.setEff_eff_same (s : State) (k v : Nat) : (s.setEff k v).eff k = v := by simp [State.setEff_eff]

theorem State.modCore_core (s : State) (k : Nat) (f : Core → Core) (j : Nat) :
    (s.modCore k f).core j = if j = k then f (s.core k) else s.core j := State.setCore_core ..
@[simp] theorem State.modCore_core_same (s : State) (k : Nat) (f : Core → Core) : (s.modCore k f).core k = f (s.core k) := by
  simp [State.modCore_core]
@[simp] theorem State.send_sent (s : State) (m : Msg) : (s.send m).sent = s.sent ++ [m] := rfl
@[simp] theorem State.draw_fst (s : State) : s.draw.1 = Config.free s.freeCtr := rfl
@[simp] theorem State.draw_snd (s : State) : s.draw.2 = { s with freeCtr := s.freeCtr + 1 } := rfl

/-! Interrupts: a rise may be sent, and nothing else changes -/

theorem State.irqRise_cases (a b : State) (p : Nat) : State.irqRise a b p = b ∨ ∃ m, State.irqRise a b p = b.send m := by
  unfold State.irqRise; split
  · exact .inr ⟨_, rfl⟩
  · exact .inl rfl

/-- What raising bits of BLK_IRQ_STAT does: those bits are set in that register, a rise of the output may be sent, and the rest stays. -/
theorem State.raiseIrq_cases (s : State) (p : Nat) (m : Word) :
    let t := s.setReg (p + 0x10) (s.reg (p + 0x10) ||| m)
    s.raiseIrq p m = t ∨ ∃ x, s.raiseIrq p m = t.send x := State.irqRise_cases ..

@[simp] theorem State.raiseIrq_keeps (s : State) (p : Nat) (m : Word) :
    (s.raiseIrq p m).pending = s.pending ∧ (s.raiseIrq p m).freeCtr = s.freeCtr ∧ (s.raiseIrq p m).keyGen = s.keyGen ∧
    (s.raiseIrq p m).resetN = s.resetN ∧ (s.raiseIrq p m).pwrOk = s.pwrOk ∧ (s.raiseIrq p m).inReset = s.inReset ∧
    (s.raiseIrq p m).releaseWaits = s.releaseWaits ∧ (s.raiseIrq p m).inputMv = s.inputMv ∧ (s.raiseIrq p m).cfgMode = s.cfgMode ∧
    (s.raiseIrq p m).ceilHalf = s.ceilHalf ∧ (s.raiseIrq p m).tripped = s.tripped ∧ (s.raiseIrq p m).hotJunction = s.hotJunction ∧
    (s.raiseIrq p m).time = s.time ∧ (s.raiseIrq p m).cores = s.cores ∧ (s.raiseIrq p m).taps = s.taps ∧ (s.raiseIrq p m).planeEnds = s.planeEnds ∧
    (s.raiseIrq p m).planeDown = s.planeDown ∧ (s.raiseIrq p m).remap = s.remap ∧ (s.raiseIrq p m).marks = s.marks ∧
    (s.raiseIrq p m).reefs = s.reefs ∧ (s.raiseIrq p m).clkSet = s.clkSet ∧ (s.raiseIrq p m).clkEff = s.clkEff ∧ (s.raiseIrq p m).power = s.power ∧
    (s.raiseIrq p m).dir = s.dir ∧ (s.raiseIrq p m).lpddr = s.lpddr ∧ (s.raiseIrq p m).lpoison = s.lpoison ∧ (s.raiseIrq p m).lfresh = s.lfresh ∧
    (s.raiseIrq p m).fram = s.fram ∧ (s.raiseIrq p m).ramOut = s.ramOut ∧ (s.raiseIrq p m).ffs = s.ffs ∧ (s.raiseIrq p m).cross = s.cross ∧
    (s.raiseIrq p m).ioPins = s.ioPins ∧ (s.raiseIrq p m).ioRegs = s.ioRegs ∧ (s.raiseIrq p m).cfgmem = s.cfgmem ∧
    (s.raiseIrq p m).regions = s.regions ∧ (s.raiseIrq p m).hal = s.hal ∧ (s.raiseIrq p m).boot = s.boot ∧ (s.raiseIrq p m).shells = s.shells ∧
    (s.raiseIrq p m).cfgDone = s.cfgDone ∧ (s.raiseIrq p m).cfgRdy = s.cfgRdy ∧ (s.raiseIrq p m).mcOn = s.mcOn ∧ (s.raiseIrq p m).hc = s.hc ∧
    (s.raiseIrq p m).chans = s.chans ∧ (s.raiseIrq p m).lanes = s.lanes ∧ (s.raiseIrq p m).ports = s.ports ∧ (s.raiseIrq p m).tenants = s.tenants ∧
    (s.raiseIrq p m).ubxIn = s.ubxIn ∧ (s.raiseIrq p m).rxChans = s.rxChans ∧ (s.raiseIrq p m).sec = s.sec ∧
    (s.raiseIrq p m).smbStatus = s.smbStatus ∧ (s.raiseIrq p m).smbErr = s.smbErr ∧ (s.raiseIrq p m).smbData = s.smbData ∧
    (s.raiseIrq p m).ppsUntil = s.ppsUntil ∧ (s.raiseIrq p m).jtag = s.jtag ∧ (∀ i, (s.raiseIrq p m).core i = s.core i) ∧
    (∀ i, (s.raiseIrq p m).tap i = s.tap i) ∧ (∀ i, (s.raiseIrq p m).dirAt i = s.dirAt i) ∧ (∀ i, (s.raiseIrq p m).hcAt i = s.hcAt i) ∧
    (∀ i, (s.raiseIrq p m).halAt i = s.halAt i) ∧ (∀ i, (s.raiseIrq p m).region i = s.region i) ∧ (∀ i, (s.raiseIrq p m).chan i = s.chan i) ∧
    (∀ i, (s.raiseIrq p m).lane i = s.lane i) ∧ (∀ i, (s.raiseIrq p m).port i = s.port i) ∧ (∀ i, (s.raiseIrq p m).tenant i = s.tenant i) ∧
    (∀ i, (s.raiseIrq p m).blk i = s.blk i) ∧ (∀ i, (s.raiseIrq p m).clk i = s.clk i) ∧ (∀ i, (s.raiseIrq p m).eff i = s.eff i) := by
  rcases State.raiseIrq_cases s p m with h | ⟨x, h⟩ <;> rw [h] <;> (refine ⟨?_, ?_, ?_, ?_, ?_, ?_, ?_, ?_, ?_, ?_, ?_, ?_, ?_, ?_, ?_, ?_, ?_, ?_, ?_, ?_, ?_, ?_, ?_, ?_, ?_, ?_, ?_, ?_, ?_, ?_, ?_, ?_, ?_, ?_, ?_, ?_, ?_, ?_, ?_, ?_, ?_, ?_, ?_, ?_, ?_, ?_, ?_, ?_, ?_, ?_, ?_, ?_, ?_, ?_, ?_, ?_, ?_, ?_, ?_, ?_, ?_, ?_, ?_, ?_, ?_, ?_, ?_⟩ <;> intros <;> rfl)

theorem State.raiseIrq_reg (s : State) (p : Nat) (m : Word) (j : Nat) :
    (s.raiseIrq p m).reg j = if j = p + 0x10 then s.reg (p + 0x10) ||| m else s.reg j := by
  rcases State.raiseIrq_cases s p m with h | ⟨x, h⟩ <;> rw [h]
  · exact State.setReg_reg ..
  · exact State.setReg_reg ..
theorem State.setFld_reg (s : State) (k lo w v j : Nat) :
    (s.setFld k lo w v).reg j = if j = k then BitVec.ofNat 32 (setBits (s.reg k).toNat lo w v) else s.reg j := State.setReg_reg ..
theorem State.incWrap_reg (s : State) (k n j : Nat) :
    (s.incWrap k n).reg j = if j = k then s.reg k + BitVec.ofNat 32 n else s.reg j := State.setReg_reg ..
theorem State.incSat_reg (s : State) (k n j : Nat) :
    (s.incSat k n).reg j = if j = k then BitVec.ofNat 32 (min 0xFFFFFFFF ((s.reg k).toNat + n)) else s.reg j := State.setReg_reg ..
theorem State.enterCodes_reg (s : State) (p : Nat) (l : List (BitVec 16)) (j : Nat) :
    (s.enterCodes p l).reg j = if j = p + 0x18 then errEntered (s.reg (p + 0x18)) l else s.reg j := State.setReg_reg ..
theorem State.clampAt_reg (s : State) (p o j : Nat) :
    (s.clampAt p o).reg j = if j = p + 0x1C then clampEntered (s.reg (p + 0x1C)) (BitVec.ofNat 16 o) else s.reg j := State.setReg_reg ..
theorem State.setReg64_reg (s : State) (k : Nat) (v : Dword) (j : Nat) :
    (s.setReg64 k v).reg j = if j = k + 4 then (v >>> 32).setWidth 32 else if j = k then v.setWidth 32 else s.reg j := by
  simp [State.setReg64, State.setReg_reg]

end Sys2Proof.Machine
end

