-- ==== Sys2Proof/Laws/Lines.lean ====
section
/-! SUPPORT. What an access to a line of LPDDR leaves as it was: the helpers of a read change counters only. -/

namespace Sys2Proof.Machine

/-- The contents of LPDDR: its bytes, its poison, what has been written since it was lost, and what was lost. -/
def State.sameLines (s t : State) : Prop :=
  t.lpddr = s.lpddr ∧ t.lpoison = s.lpoison ∧ t.lfresh = s.lfresh ∧ ∀ k, (t.chan k).lost = (s.chan k).lost

theorem State.sameLines_trans {s t u : State} (h : s.sameLines t) (g : t.sameLines u) : s.sameLines u :=
  ⟨g.1.trans h.1, g.2.1.trans h.2.1, g.2.2.1.trans h.2.2.1, fun k => (g.2.2.2 k).trans (h.2.2.2 k)⟩

theorem State.draw_sameLines (s : State) : s.sameLines s.draw.2 := ⟨rfl, rfl, rfl, fun _ => rfl⟩

theorem State.setReg_sameLines (s : State) (k : Nat) (v : Word) : s.sameLines (s.setReg k v) := ⟨rfl, rfl, rfl, fun _ => rfl⟩

theorem State.incWrap_sameLines (s : State) (k n : Nat) : s.sameLines (s.incWrap k n) := ⟨rfl, rfl, rfl, fun _ => rfl⟩

theorem State.incSat_sameLines (s : State) (k n : Nat) : s.sameLines (s.incSat k n) := ⟨rfl, rfl, rfl, fun _ => rfl⟩

theorem State.raiseIrq_sameLines (s : State) (p : Nat) (m : Word) : s.sameLines (s.raiseIrq p m) := by
  refine ⟨?_, ?_, ?_, fun k => ?_⟩ <;> simp [State.chan]

theorem State.setChan_sameLines {s t : State} (c : Nat) (v : ChanRun) (h : s.sameLines t) (hv : v.lost = (s.chan c).lost) : s.sameLines (t.setChan c v) := by
  refine ⟨h.1, h.2.1, h.2.2.1, fun k => ?_⟩
  rw [← h.2.2.2 c] at hv
  rw [← h.2.2.2 k]
  by_cases e : k = c <;> simp_all [State.setChan, State.chan, Sparse.get_put]

/-- An activation changes what the channel knows of its neighbours, and counters. -/
theorem State.activate_sameLines (s : State) (pa : Nat) : s.sameLines (s.activate pa) := by
  have h (p : Prop) [Decidable p] (a b : Nat) : s.draw.2.sameLines (if p then (s.draw.2.incWrap a).incSat b else s.draw.2) := by
    split
    · exact State.sameLines_trans (State.incWrap_sameLines _ _ _) (State.incSat_sameLines _ _ _)
    · exact ⟨rfl, rfl, rfl, fun _ => rfl⟩
  have d := s.draw_sameLines
  unfold State.activate
  simp only []
  split
  · exact ⟨rfl, rfl, rfl, fun _ => rfl⟩
  · split
    · exact d
    · exact State.sameLines_trans d (State.setChan_sameLines _ _ (h _ _ _) rfl)

theorem State.served_sameLines (s : State) (pa port : Nat) : s.sameLines (s.served pa port) := by
  have h := State.sameLines_trans s.draw_sameLines (s.draw.2.activate_sameLines pa)
  unfold State.served
  simp only []
  split
  · exact State.sameLines_trans h (State.sameLines_trans (State.incSat_sameLines _ _ _) (State.raiseIrq_sameLines _ _ _))
  · exact h

theorem State.metWrite_sameLines (s : State) (pa : Nat) : s.sameLines (s.metWrite pa) := by
  unfold State.metWrite
  split
  · exact State.sameLines_trans s.draw_sameLines (State.incWrap_sameLines _ _ _)
  · exact s.draw_sameLines

theorem State.sameLines_lost {s t : State} (h : s.sameLines t) (pa : Nat) : t.lineLost pa = s.lineLost pa := by
  simp only [State.lineLost, h.2.2.2, h.2.2.1]

/-- A read of a line that has not been lost and is not poisoned answers its bytes, and an error only where its check bits show one. -/
theorem State.readLine_fresh (s : State) (port pa : Nat) (e : LineEcc) (hl : s.lineLost pa = false) (hp : Sparse.get (fun _ => false) s.lpoison (pa / 64) = false) :
    (s.readLine port pa e).2 = (Memory.readN s.lpddr pa 64, decide (e = .uncorrectable)) := by
  have h : s.sameLines (((s.served pa port).metWrite pa).incWrap (lpdPage (chanCo pa).1 + 0xA4)) :=
    State.sameLines_trans (State.sameLines_trans (s.served_sameLines pa port) (State.metWrite_sameLines _ _)) (State.incWrap_sameLines _ _ _)
  unfold State.readLine
  simp only [State.sameLines_lost h, h.1, h.2.1, hl, hp]
  cases e <;> rfl

/-- What a read of a window answers, from what the reads of its lines answer. -/
theorem State.readWindow_of (s u : State) (o len : Nat) (ls : List Nat) (m : List Byte)
    (h : ls.foldl (fun (r : State × List Byte × Bool) l =>
      let x := (r.1.recall l true).readLine 2 (l * 64) .clean
      (x.1, r.2.1 ++ x.2.1, r.2.2 || x.2.2)) (s, [], false) = (u, m, false)) :
    s.readWindow o len ls = (u, 0, bytesAt m (o % 64) len) := by
  unfold State.readWindow
  rw [h]
  rfl

theorem foldl_one {α β : Type} (f : α → β → α) (z w : α) (l : β) (h : f z l = w) : [l].foldl f z = w := h

theorem State.readWindow_one (s : State) (o len l : Nat) (m : List Byte) (h : ((s.recall l true).readLine 2 (l * 64) .clean).2 = (m, false)) :
    (s.readWindow o len [l]).2 = (0, bytesAt m (o % 64) len) := by
  rw [State.readWindow_of s ((s.recall l true).readLine 2 (l * 64) .clean).1 o len [l] m (foldl_one _ _ _ _ ?_)]
  generalize (s.recall l true).readLine 2 (l * 64) .clean = x at h
  simp [h]

/-- An engine's read of one whole line of a window that serves, with no transaction on it and nothing lost or poisoned. -/
theorem State.atLines_one (s : State) (t o n l : Nat) (h : s.windowLines t o n = .ok [l]) (c : s.chanOffline (chanCo (l * 64)).1 = false)
    (v : s.chanServes (chanCo (l * 64)).1 = true) (d : (s.dirAt l).txn = none) (q : (s.recall l true).lineLost (l * 64) = false)
    (p : Sparse.get (fun _ => false) (s.recall l true).lpoison (l * 64 / 64) = false) :
    (s.atLines t o n (fun s ls => s.readWindow o n ls)).map (fun q => q.2) =
      some (0, bytesAt (Memory.readN (s.recall l true).lpddr (l * 64) 64) (o % 64) n) := by
  have r := State.readWindow_one s o n l _ (State.readLine_fresh (s.recall l true) 2 (l * 64) .clean q p)
  unfold State.atLines
  rw [h]
  simp [c, v, d, r]

end Sys2Proof.Machine
end

