-- ==== Sys2Proof/Laws/Slovo.lean ====
section
/-! SUPPORT. What the shared forms of the Slovo operations do when they are issued. -/
namespace Sys2Proof.Machine

theorem Core.setG_same (c : Core) (i : Nat) (v : Dword) : SameIssue c (c.setG i v) := by
  unfold Core.setG; split <;> exact ⟨rfl, rfl, rfl, rfl⟩

theorem Core.setP_same (c : Core) (i : BitVec 3) (b : Bool) : SameIssue c (c.setP i b) := by
  unfold Core.setP; split <;> exact ⟨rfl, rfl, rfl, rfl⟩

theorem modCore_same {s : State} {n : Nat} {f : Core → Core} (h : SameIssue (s.core n) (f (s.core n))) :
    SameIssue (s.core n) ((s.modCore n f).core n) := by rw [State.core_modCore_same]; exact h

/-- An operation that writes one g register, issued. -/
theorem issue_gOp {s : State} {o : Slot} {slot op : Nat} {gd : BitVec 5} {f : Core → Dword} (h : s.executes o) :
    s.issueOp o slot (gOp op gd false f) = (s.setGr (coreNo o.core) gd (f (s.core (coreNo o.core)))).issued (coreNo o.core) :=
  issueOp_plain h rfl rfl rfl rfl rfl (modCore_same (Core.setG_same _ _ _))

/-- An operation that writes one predicate, issued. -/
theorem issue_pOp {s : State} {o : Slot} {slot op : Nat} {pd : BitVec 3} {f : Core → Bool} (h : s.executes o) :
    s.issueOp o slot (pOp op pd f) = (s.setPr (coreNo o.core) pd (f (s.core (coreNo o.core)))).issued (coreNo o.core) :=
  issueOp_plain h rfl rfl rfl rfl rfl (modCore_same (Core.setP_same _ _ _))

/-- An operation whose effect is one change of the core. -/
theorem issue_core {s : State} {o : Slot} {slot : Nat} {f : State → Nat → SlotOp} {g : Core → Core} (h : s.executes o)
    (hi : (f s (coreNo o.core)).illegal = false) (hf : (f s (coreNo o.core)).fault = none)
    (hst : (f s (coreNo o.core)).stall = .none) (hj : (f s (coreNo o.core)).jump = .none)
    (hh : (f s (coreNo o.core)).halt = false) (hp : (f s (coreNo o.core)).pre s = s)
    (ha : (f s (coreNo o.core)).act s = s.modCore (coreNo o.core) g)
    (hs : SameIssue (s.core (coreNo o.core)) (g (s.core (coreNo o.core)))) :
    s.issueOp o slot f = (s.modCore (coreNo o.core) g).issued (coreNo o.core) := by
  have e := issueOp_plain (slot := slot) h hi hf hst hj hh (by rw [hp, ha]; exact modCore_same hs)
  rw [hp, ha] at e
  exact e

/-- An operation that raises a fault of its own. -/
theorem issue_fault {s : State} {o : Slot} {slot : Nat} {f : State → Nat → SlotOp} {x : Flt} (h : s.executes o)
    (hi : (f s (coreNo o.core)).illegal = false) (hf : (f s (coreNo o.core)).fault = some x)
    (ho : (f s (coreNo o.core)).onFault s = s) :
    s.issueOp o slot f = s.seqFault (coreNo o.core) slot (f s (coreNo o.core)).op x := by
  have hp : (s.core (coreNo o.core)).pcOut = none := h.1.1.2.2.2.2.2
  have e : s.issueOp o slot f = s.runBundle (coreNo o.core) [⟨slot, true, f s (coreNo o.core)⟩] := by
    simp [State.issueOp, canIssue_of_atBundle h.1.1, hp, h.2]
  rw [e]
  simp [State.runBundle, bundleFault, hi, hf, ho]

/-- An illegal operation, whatever its predicate. -/
theorem issue_illegal {s : State} {o : Slot} {slot : Nat} {f : State → Nat → SlotOp} (h : s.issues (coreNo o.core))
    (hi : (f s (coreNo o.core)).illegal = true) (ho : (f s (coreNo o.core)).fault = some .illegal → (f s (coreNo o.core)).onFault s = s) :
    s.issueOp o slot f = s.seqFault (coreNo o.core) slot (f s (coreNo o.core)).op .illegal := by
  have hp : (s.core (coreNo o.core)).pcOut = none := h.1.2.2.2.2.2
  have e : s.issueOp o slot f = s.runBundle (coreNo o.core) [⟨slot, (s.core (coreNo o.core)).pred o, f s (coreNo o.core)⟩] := by
    simp [State.issueOp, canIssue_of_atBundle h.1, hp]
  rw [e]
  by_cases hfi : (f s (coreNo o.core)).fault = some Flt.illegal <;> cases (s.core (coreNo o.core)).pred o <;>
    simp_all [State.runBundle, bundleFault]

end Sys2Proof.Machine
end

