-- ==== Sys2Proof/WellFormed.lean ====
section
/-! DEFINITION. Which commands are well formed: the lengths and ranges that the spec gives the operands and that the
operands' types do not hold already. -/
namespace Sys2Proof

/-- A valid region id (11 R343): DIE [23:19], KIND [18:17], [16:12] 0, UNIT [11:0]. -/
def regionOk (r : BitVec 24) : Bool :=
  let die := r.toNat / 2 ^ 19
  let kind := r.toNat / 2 ^ 17 % 4
  let unit := r.toNat % 2 ^ 12
  decide (r.toNat / 2 ^ 12 % 32 = 0)
    && match kind with
      | 0 => decide (die < 24) && decide (unit < 2112)
      | 1 => decide (24 ≤ die) && decide (die < 28) && decide (unit < 16)
      | 2 => decide (die < 28) && decide (unit = 0)
      | _ => decide (die = 24) && decide (unit = 0)

/-- A collar or an edge region. -/
def fabricRegion (r : BitVec 24) : Bool := regionOk r && decide (r.toNat / 2 ^ 17 % 4 < 2)

/-- A plane port reads (RD) or writes a line (WR); a frame has at least the bytes of its length. -/
def FabOut.wf : FabOut → Bool
  | .plane r op _ _ d => fabricRegion r && (decide (op = 5) || (decide (op = 6) && decide (d.length = 64)))
  | .mac r _ _ _ len b => fabricRegion r && decide (b.length ≤ len)

/-- The bit errors of an access name words of the scratchpad. -/
def Ecc.ok (e : Ecc) : Bool := (e.corr ++ e.unc).all (fun w => decide (w < 131072))

/-- Whether the operands of a command have the lengths and ranges of their rules. -/
def Instr.wf : Instr → Bool
  | .cfg _ _ r f ws => regionOk r && decide (f < 65536) && decide (ws.length = 64)
  | .streamWrite _ _ ws => decide (ws.length = 64)
  | .streamSig _ _ ws => decide (ws.length = 25)
  | .rlbMissFill _ d _ => decide (d.length = 64)
  | .wb _ d _ => decide (d.length = 64)
  | .wr _ _ d _ => decide (d.length = 64)
  | .snpRsp _ _ d _ => match d with | some l => decide (l.length = 64) | none => true
  | .recentre _ d => decide (d.length = 24)
  | .trDone _ l => l.all (fun p => decide (p.1 < 24))
  | .issue _ _ _ _ e => e.ok
  | .contextRestore _ e => e.ok
  | .passStart _ _ _ e => e.ok
  | .groupDrain _ _ _ e => e.ok
  | .readPacket _ _ e => e.ok
  | .transferStart _ e => e.ok
  | .scrubRead _ _ e => e.ok
  | .ldb _ _ _ _ _ e => e.ok
  | .ldh _ _ _ _ _ e => e.ok
  | .ldw _ _ _ _ _ e => e.ok
  | .ldd _ _ _ _ _ e => e.ok
  | .ldv _ _ _ _ _ e => e.ok
  | .ldvb _ _ _ _ _ e => e.ok
  | .step _ _ e => e.ok
  | .regionClearDone r => regionOk r
  | .releaseStage2 r => regionOk r
  | .releaseStage3 r => regionOk r
  | .shrClear _ r => fabricRegion r
  | .configFrameCheck r f _ => regionOk r && decide (f < 65536)
  | .fabricClockEdge _ ins _ _ outs => ins.all (fun x => fabricRegion x.region) && outs.all FabOut.wf
  | _ => true

end Sys2Proof
end

