-- ==== Sys2Proof/Tests/Slice0.lean ====
section
/-! SUPPORT. Small tests of the model: ill-formed commands that the check refuses; examples that the spec works out; and, for each
statement that has hypotheses, a state and operands that meet them all (the theorems `meets_…`, named after the parts of the
statements). -/
namespace Sys2Proof.Tests
open Sys2Proof Sys2Proof.Machine
set_option Elab.async false

/-! Small states -/

/-- Core 0 of die 0, and a slot of it whose predicate is p0. -/
def c0 : CoreId := ⟨0, 0⟩
def sl : Slot := ⟨c0, 0, false⟩
/-- A slot whose predicate, p1, is false after reset. -/
def slOff : Slot := ⟨c0, 1, false⟩
/-- Reset with core 0 changed. -/
def with0 (f : Core → Core) : State := State.reset.modCore 0 f
/-- Reset with core 0 RUNNING and changed. -/
def run0 (f : Core → Core) : State := with0 (fun c => f { c with st := .running })

theorem atBundle_of {s : State} {n : Nat}
    (h : s.inReset = false ∧ s.tripped = false ∧ (s.core n).st = .running ∧ (s.core n).stepping = false ∧ (s.core n).reads = false ∧
      (s.core n).pcOut = none) : s.atBundle n := h

theorem issues_of {s : State} {n : Nat}
    (h : (s.inReset = false ∧ s.tripped = false ∧ (s.core n).st = .running ∧ (s.core n).stepping = false ∧ (s.core n).reads = false ∧
      (s.core n).pcOut = none) ∧ (s.core n).pc.toNat + 16 < 2 ^ 20 ∧ ∀ l ∈ (s.core n).loops, l.last ≠ (s.core n).pc) : s.issues n := h

theorem executes_of {s : State} {o : Slot}
    (h : ((s.inReset = false ∧ s.tripped = false ∧ (s.core (coreNo o.core)).st = .running ∧ (s.core (coreNo o.core)).stepping = false ∧
      (s.core (coreNo o.core)).reads = false ∧ (s.core (coreNo o.core)).pcOut = none) ∧ (s.core (coreNo o.core)).pc.toNat + 16 < 2 ^ 20 ∧
      ∀ l ∈ (s.core (coreNo o.core)).loops, l.last ≠ (s.core (coreNo o.core)).pc) ∧ (s.core (coreNo o.core)).pred o = true) : s.executes o := h

theorem run0_executes : (run0 id).executes sl := executes_of (by decide)

/-! Slovo: control and scalar operations -/

theorem meets_StepRunsFront : ({ State.reset with pending := [.holdoverEntry] } : State).pending = .holdoverEntry :: [] := rfl

theorem meets_ScalarResults : (run0 id).executes sl ∧ (63 : BitVec 12).toNat < 64 ∧ 64 ≤ (64 : BitVec 12).toNat ∧
    (0xFFFF : BitVec 17).getLsbD 16 = false ∧ (0x10000 : BitVec 17).getLsbD 16 = true := ⟨run0_executes, by decide⟩

/-- The lengths 1, 2^20, 0 and 2^20 + 1 of SETL. -/
theorem meets_GeneratorResults :
    let v (x : Dword) := ((run0 (fun c => c.setG 1 x)).core 0).gr 1 + (0 : BitVec 12).signExtend 64
    (run0 (fun c => c.setG 1 0x100001)).executes sl ∧ (v 1).toNat = 1 ∧ (v 0x100000).toNat = 2 ^ 20 ∧ (v 0).toNat = 0 ∧ (v 0x100001).toNat = 2 ^ 20 + 1 :=
  ⟨executes_of (by decide), by decide⟩

/-- Targets at the ends of the scratchpad and outside; BRR's targets 0xFFFF0, 8, 2^20 and 2^20 + 8. -/
theorem meets_BranchResults :
    let c (x : Dword) := (run0 (fun c => c.setG 1 x)).core 0
    (run0 (fun c => c.setG 1 0xFFFF0)).atBundle (coreNo sl.core) ∧ (c 0).pred sl = true ∧
      ((c 0).pc.toNat : Int) + (0xFFFF : BitVec 22).toInt * 16 = 2 ^ 20 - 16 ∧ ((c 0).pc.toNat : Int) + (0x3FFFFF : BitVec 22).toInt * 16 = -16 ∧
      ((c 0xFFFF0).gr 1).toNat = 2 ^ 20 - 16 ∧ ((c 8).gr 1).toNat % 16 ≠ 0 ∧ ((c 0x100000).gr 1).toNat = 2 ^ 20 ∧ ((c 0x100008).gr 1).toNat % 16 ≠ 0 :=
  ⟨atBundle_of (by decide), by decide⟩

/-- A loop of the bundles 0 to 0x30 around pc = 0x10, four of them, and a rotating one. -/
def lp : LoopEntry := ⟨0, 0x30, 1, false, 2, 0⟩
def inLoops (l : List LoopEntry) : State := run0 (fun c => { c with pc := 0x10, loops := l })
theorem meets_LoopResults : (inLoops []).executes sl ∧ (inLoops [lp]).executes sl ∧ (inLoops [lp, lp, lp, lp]).executes sl ∧
    (inLoops [{ lp with rot := true }]).executes sl ∧ 4 ≤ ((inLoops [lp, lp, lp, lp]).core 0).loops.length ∧
    (∃ l ∈ ((inLoops [{ lp with rot := true }]).core 0).loops, l.rot = true) ∧
    ¬ (lp.first.toNat ≤ 0x10 + 16 ∧ 0x10 + 16 * 3 ≤ lp.last.toNat) ∧ (lp.first.toNat ≤ 0x10 + 16 ∧ 0x10 + 16 * 2 ≤ lp.last.toNat) :=
  ⟨executes_of (by decide), executes_of (by decide), executes_of (by decide), executes_of (by decide), by decide⟩

theorem meets_TripEnds :
    let s := run0 (fun c => { c with pc := 0x30, loops := [lp] })
    s.atBundle (coreNo sl.core) ∧ (s.core 0).loops = [] ++ [lp] ∧ lp.last = (s.core 0).pc ∧ 1 ≤ lp.stages ∧ (s.core 0).pc.toNat + 16 < 2 ^ 20 ∧
      ¬ lp.n + lp.stages - 1 ≤ lp.done + 1 ∧ ({ lp with done := 1 } : LoopEntry).n + lp.stages - 1 ≤ 1 + 1 := ⟨atBundle_of (by decide), by decide⟩

/-- WAIT's and FENCE's conditions met and not, a collar shrouded and not, a full event buffer and one with a place. -/
theorem meets_ControlResults :
    let s := run0 (fun c => { c with cnt := [(0, 3)], posted := 1 })
    let e := run0 (fun c => { c with events := List.replicate 8 1 })
    s.executes sl ∧ e.executes sl ∧ (s.core 0).ctr 0 = 3 ∧ (s.core 0).posted ≠ 0 ∧ ((run0 id).core 0).posted = 0 ∧ (run0 id).shrouded 0 = true ∧
      ((run0 id).setRegion (collarRegion 0) { Region.reset with st := .running }).shrouded 0 = false ∧
      ((run0 id).core 0).events.length < 8 ∧ 8 ≤ (e.core 0).events.length := ⟨executes_of (by decide), executes_of (by decide), by decide⟩

theorem meets_SpecialRegisters : (run0 id).executes sl ∧ (run0 id).logOf 0 = some (0, 0) ∧ (0x0D : BitVec 6).toNat = 0x0D :=
  ⟨run0_executes, by decide⟩

theorem meets_PredicateOff : (run0 id).issues (coreNo slOff.core) ∧ ((run0 id).core 0).pred slOff = false ∧
    (decodeSlot 0 0x30000000 ⟨[], []⟩ (run0 id) 0).illegal = false := ⟨issues_of (by decide), by decide⟩

theorem meets_PreciseFault : (run0 id).atBundle (coreNo c0) ∧ (Flt.misaligned 8).cause < 8 ∧ (Flt.misaligned 8).code ≠ 0 ∧
    (run0 id).bit (corePage 0 0 + 0x4C) 0 = false ∧ ((run0 id).setReg (corePage 0 0 + 0x4C) 1).bit (corePage 0 0 + 0x4C) 0 = true ∧
    ((run0 id).reg (corePage 0 0 + 0x18)).setWidth 16 = (0 : BitVec 16) := ⟨atBundle_of (by decide), by decide⟩


/-! Slovo: memory operations -/

theorem meets_GeneratorAddresses :
    let c := (run0 id).core 0
    (0 : BitVec 2) ≠ 3 ∧ c.mode.getLsbD (0 : BitVec 3).toNat = false ∧ ({ c with mode := 1 } : Core).mode.getLsbD (0 : BitVec 3).toNat = true ∧
      c.lenOf 0 = 0 ∧ (c.setLen 0 64).lenOf 0 ≠ 0 := by decide

/-- A core whose generator 0 holds an address. -/
def at0 (a : Dword) : State := run0 (fun c => c.setA 0 a)

/-- The last word of the scratchpad, clean and poisoned. -/
theorem meets_ScratchpadLoads :
    let s := at0 0xFFFF8
    let c := s.core 0
    s.executes sl ∧ (Instr.ldd sl 1 0 0 0 ⟨[], [131071]⟩, MemKind.ldd) ∈ loadsOf sl 1 0 0 0 ⟨[], [131071]⟩ ∧ MemKind.ldd.legal 1 0 ∧
      c.agu 0 0 0 8 = some (0xFFFF8, none) ∧ (0xFFFF8 : Dword).toNat % MemKind.ldd.align = 0 ∧ spaceOf (0xFFFF8 : Dword).toNat = 0 ∧
      (0xFFFF8 : Dword).toNat % 2 ^ 20 + MemKind.ldd.size ≤ 2 ^ 20 ∧ c.spadWaits = false ∧
      c.readPoisoned 0xFFFF8 8 ⟨[], []⟩ = false ∧ c.readPoisoned 0xFFFF8 8 ⟨[], [131071]⟩ = true :=
  ⟨executes_of (by decide), by simp [loadsOf], ⟨by decide, .inr (by decide)⟩, by decide⟩

theorem meets_LoadedValues : (List.replicate 128 (0 : Byte)).length = 128 ∧ 4 * min 32 ((run0 id).core 0).vl = 128 ∧ ([0, 0, 0, 0] : List Byte).length = 4 :=
  ⟨List.length_replicate, by decide, rfl⟩

theorem meets_ScratchpadStores :
    let s := at0 0xFFF80
    let c := s.core 0
    s.executes sl ∧ (Instr.stv sl 1 0 0 0, MemKind.stv) ∈ storesOf sl 1 0 0 0 ∧ MemKind.stv.legal 1 0 ∧ c.agu 0 0 0 MemKind.stv.size = some (0xFFF80, none) ∧
      (0xFFF80 : Dword).toNat % MemKind.stv.align = 0 ∧ spaceOf (0xFFF80 : Dword).toNat = 0 ∧
      (0xFFF80 : Dword).toNat % 2 ^ 20 + MemKind.stv.size ≤ 2 ^ 20 ∧ c.spadWaits = false :=
  ⟨executes_of (by decide), by simp [storesOf], ⟨by decide, .inl rfl⟩, by decide⟩

/-- AM 0b11, a circular generator of length 0, an odd address, the last 4 bytes for an access of 8, space 4, and a byte of space 3. -/
theorem meets_AccessFaults :
    let s := run0 (fun c => { c.setA 0 1 with mode := 1 })
    s.executes sl ∧ (at0 1).executes sl ∧ (at0 0xFFFFC).executes sl ∧ (at0 (4 <<< 56)).executes sl ∧ (at0 (3 <<< 56)).executes sl ∧
    ¬ MemKind.ldw.legal 1 3 ∧ MemKind.ldw.legal 1 0 ∧ (s.core 0).agu 0 0 0 4 = none ∧
      ((at0 1).core 0).agu 0 0 0 4 = some (1, none) ∧ (1 : Dword).toNat % MemKind.ldw.align ≠ 0 ∧
      ((at0 0xFFFF0).core 0).agu 0 0 0 128 = some (0xFFFF0, none) ∧ 2 ^ 20 < (0xFFFF0 : Dword).toNat % 2 ^ 20 + MemKind.ldv.size ∧
      4 ≤ spaceOf (4 <<< 56 : Dword).toNat ∧ spaceOf (3 <<< 56 : Dword).toNat = 3 ∧ MemKind.ldb.size < 4 :=
  ⟨executes_of (by decide), executes_of (by decide), executes_of (by decide), executes_of (by decide), executes_of (by decide),
    fun h => h.1 rfl, ⟨by decide, .inr (by decide)⟩, by decide⟩

/-- Line 0 of a window, held with ownership. -/
def line0 : RlbLine := ⟨0, true, false, false, false, List.replicate 64 0⟩

theorem meets_PlaneAccesses : (at0 (2 <<< 56)).executes sl ∧ spaceOf (2 <<< 56 : Dword).toNat = 2 ∧ bits (2 <<< 56 : Dword).toNat 26 30 = 0 ∧
    (2 <<< 56 : Dword).toNat % 2 ^ 24 + 8 ≤ 0xC00000 ∧ ((at0 (2 <<< 56)).core 0).posted = 0 ∧ ((at0 (2 <<< 56)).core 0).seqReads = [] ∧
    (at0 (2 <<< 56)).admits 0 ⟨2, 0, 0, edgeOf (2 <<< 56), 0⟩ 8 = false ∧
    ((at0 (2 <<< 56)).setReg (corePage 0 9 + 0x40) 0xFF).admits 0 ⟨2, 0, 0, edgeOf (2 <<< 56), 0⟩ 8 = true ∧
    spaceOf (3 <<< 56 : Dword).toNat = 3 ∧ bits (3 <<< 56 : Dword).toNat 44 12 = 0 ∧
    decide ((at0 (3 <<< 56)).niTenant 0 ≠ 0) = false ∧ ((at0 (3 <<< 56)).setReg (corePage 0 9 + 0x40) 0xFF).niTenant 0 = 0xFF :=
  ⟨executes_of (by decide), by decide⟩

theorem meets_StoreThenLoad :
    let s := at0 0xFFFF8
    let c := s.core 0
    s.executes sl ∧ c.pc.toNat + 32 < 2 ^ 20 ∧ (∀ l ∈ c.loops, l.last ≠ c.pc + 16) ∧ (1 : BitVec 6).getLsbD 5 = false ∧
      c.agu 0 0 0 8 = some (0xFFFF8, none) ∧ (0xFFFF8 : Dword).toNat % 8 = 0 ∧ spaceOf (0xFFFF8 : Dword).toNat = 0 ∧ c.spadWaits = false ∧
      ∃ t, exec (.std sl 1 0 0 0) s = .next t := ⟨executes_of (by decide), by decide, by decide, by decide, by decide, by decide, by decide, by decide, _, rfl⟩

theorem meets_RemoteAccesses :
    let f (c : Core) : Core := { c.setA 0 (1 <<< 56) with rlb := [line0] }
    let s := (run0 f).setReg (corePage 0 9 + 0x40) 0xFF
    let c := s.core 0
    s.executes sl ∧ spaceOf (1 <<< 56 : Dword).toNat = 1 ∧ bits (1 <<< 56 : Dword).toNat 41 15 = 0 ∧ s.admits 0 ⟨1, 0, 0, 0, 0⟩ 8 = true ∧
      (run0 f).admits 0 ⟨1, 0, 0, 0, 0⟩ 8 = false ∧ c.retention = .on ∧ (∀ m ∈ c.misses, m.status = 0) ∧
      (∀ l ∈ linesOf 0 8, c.rlbServes true l = true) ∧ (∀ l ∈ c.rlb, l.poisoned = false) ∧ (∃ l ∈ linesOf 64 8, c.rlbServes false l = false) :=
  ⟨executes_of (by decide), by decide⟩

/-! Slovo: vector operations -/

theorem meets_VectorLanes : (run0 id).executes sl ∧ (31 : BitVec 6).toNat < 32 ∧ 32 ≤ (32 : BitVec 6).toNat ∧ (1 : BitVec 4) ≠ 0 := ⟨run0_executes, by decide⟩
theorem meets_VectorMinMax : (run0 id).executes sl ∧ (1 : BitVec 4) ≠ 0 := ⟨run0_executes, by decide⟩
/-- MOD 0 (nearest), 2 (stochastic), 3 and 4 (illegal). -/
theorem meets_VectorFloats : (run0 id).executes sl ∧ (∀ m : BitVec 4, m = 0 ∨ m = 2 ∨ m = 10 → m.toNat % 4 ≠ 3 ∧ m.getLsbD 2 = false) ∧
    (3 : BitVec 4).toNat % 4 = 3 ∧ (4 : BitVec 4).getLsbD 2 = true ∧ (1 : BitVec 6) ≠ 0 := ⟨run0_executes, by decide⟩
/-- Format pairs listed (3, 4) and not (6, 4); the last sub-functions of NORM, APX, MXD and RAND and the first beyond them. -/
theorem meets_VectorConversions : (run0 id).executes sl ∧
    (let a := (28 : BitVec 6).toNat / 8; let b := (28 : BitVec 6).toNat % 8
     ¬ ((a = 6 ∧ (b = 4 ∨ b = 5 ∨ b = 6 ∨ b = 7)) ∨ (a = 7 ∧ (b = 4 ∨ b = 5 ∨ b = 7)))) ∧
    ((52 : BitVec 6).toNat / 8 = 6 ∧ (52 : BitVec 6).toNat % 8 = 4) ∧ (2 : BitVec 4).toNat % 4 = 2 ∧ cvtExact 3 4 = false ∧
    (1 : BitVec 4).toNat < 2 ∧ 2 ≤ (2 : BitVec 4).toNat ∧ 2 ≤ (2 : BitVec 6).toNat ∧ (0x0C : BitVec 6).toNat ≤ 0x0C ∧ 0x0C < (0x0D : BitVec 6).toNat ∧
    ((20 : BitVec 6).toNat % 4 = 0 ∧ (20 : BitVec 6).toNat / 4 ≤ 5) ∧ 5 < (24 : BitVec 6).toNat / 4 ∧ (8 : BitVec 4).toNat % 8 = 0 ∧ (3 : BitVec 6).toNat < 4 ∧
    (4 : BitVec 4).toNat % 8 ≠ 0 := ⟨run0_executes, by decide⟩
theorem meets_ReductionValues : (run0 id).executes sl ∧ (1 : BitVec 4).toNat < 2 ∧ (7 : BitVec 6) = 7 ∧ 8 ≤ (8 : BitVec 6).toNat ∧
    (20 : BitVec 6).toNat % 4 = 0 := ⟨run0_executes, by decide⟩
theorem meets_KeyedDraws : ((run0 id).setReg (rngPage 0 + 0x58) 1).bit (rngPage 0 + 0x58) 0 = true ∧ (0 : Nat) / 2 ^ 12 ≠ rngPage 0 / 2 ^ 12 := by decide
theorem meets_RoundingRule : 8 % 2 ^ 2 = 0 ∧ 10 % 2 ^ 2 ≠ 0 := by decide
theorem meets_ReductionOrder : ([1, 2, 3] : List Nat).length % 2 = 1 ∧ 2 * 0 + 1 < ([1, 2, 3] : List Nat).length ∧ 2 ≤ ([1, 2, 3] : List Nat).length := by decide

/-- The example of R171: two rounds for seed 0, element index 5, tensor id 0x11 and draw 3, with the injection after them. -/
theorem test_keyed_rounds : keyedRounds 0 5 0x11 3 2 = { x0 := 0x6A3A95FA, x1 := 0xD8752BB3, x2 := 0x6C3A95FA, x3 := 0xC591C42F } := by decide

/-! Slovo: ISSUE, the collar, the sequencer's commands -/

/-- Core 0 running with its collar region RUNNING. -/
def open0 (f : Core → Core) : State := (run0 f).setRegion (collarRegion 0) { Region.reset with st := .running }

theorem meets_IssueResults :
    let c := (run0 id).core 0
    let full := (run0 (fun c => c.setCtr 0 15)).core 0
    let bad := (run0 (fun c => { c with poison := [(0, true)] })).core 0
    (run0 id).executes sl ∧ (run0 (fun c => c.setCtr 0 15)).executes sl ∧ (run0 (fun c => { c with poison := [(0, true)] })).executes sl ∧
    2 ≤ (2 : BitVec 2).toNat ∧ (1 : BitVec 2).toNat < 2 ∧ ((c.gr 0).toNat < 2 ^ 20 ∧ (c.gr 0).toNat % 64 = 0) ∧ ¬ ((32 : Dword).toNat % 64 = 0) ∧
      c.spadWaits = false ∧ c.readPoisoned 0 64 ⟨[], []⟩ = false ∧ c.ctr 0 < 15 ∧ c.jobs.length < 16 ∧ c.readPoisoned 0 (c.descBytes 0 0) ⟨[], []⟩ = false ∧
      (∃ u, (run0 id).routeOf 0 (Desc.of (dwordsOf 8 (c.spadBytes 0 64))) = some u ∧
        (run0 id).routeOf 0 (Desc.of (dwordsOf (c.descBytes 0 0 / 8) (c.spadBytes 0 (c.descBytes 0 0)))) = some u ∧ (run0 id).unitOn 0 u = true ∧ (c.unit u).jobs.length < 4) ∧
      full.ctr 0 = 15 ∧ bad.readPoisoned 0 (bad.descBytes 0 0) ⟨[], []⟩ = true :=
  ⟨run0_executes, executes_of (by decide), executes_of (by decide), by decide, by decide, by decide, by decide, by decide, by decide, by decide, by decide,
    by decide, ⟨2, by decide⟩, by decide⟩

theorem meets_CollarStreams :
    let f (c : Core) : Core := { c with ob0 := [(0, 1)], ib0 := [1, 2, 3, 4] }
    let s := open0 f
    s.executes sl ∧ s.shrouded 0 = false ∧ (run0 id).shrouded 0 = true ∧ ((s.core 0).ob false).length ≤ 4 ∧ (s.core 0).ob false = [(0, 1)] ∧ (s.core 0).ib false = [1, 2, 3, 4] ∧
      ((s.core 0).ib true).length < 4 ∧ (s.core 0).ob true = [] ∧ 4 < (List.replicate 5 ((0, 0) : BitVec 2 × BitVec 256)).length ∧
      8 ≤ (List.replicate 8 (0 : BitVec 256)).length := ⟨executes_of (by decide), by decide⟩

theorem meets_CollarRegisters :
    let s := open0 (fun c => { c with colReads := [.seq 1, .host] })
    s.inReset = false ∧ s.tripped = false ∧ s.shrouded 0 = false ∧ (run0 id).shrouded 0 = true ∧ (s.core 0).colReads = [.seq 1, .host] ∧
      (∀ x ∈ ([.seq 1] : List ColRead), x = .dropped ∨ ∃ h, x = .seq h) ∧ (s.setReg (corePage 0 9 + 0x40) 1).mayWrite (.runtime 1) (colPage 0 + 0x8C) = true :=
  ⟨rfl, rfl, by decide, by decide, by decide, by simp, by decide⟩

theorem meets_SequencerControl :
    let a := with0 (fun c => { c with st := .stopping, after := .stopped, pendSave := true })
    let b := with0 (fun c => { c with st := .stopping, after := .halted, pendStart := true })
    let d := with0 (fun c => { c with st := .stopping, after := .faulted, pendStart := true })
    (State.reset.core 0).st = .idle ∧ ((run0 id).core 0).st = .running ∧ ((run0 id).core 0).stall ≠ .other ∧
      ((run0 (fun c => { c with stall := .other })).core 0).stall = .other ∧ ((a.core 0).st = .stopping ∧ (a.core 0).stall ≠ .other ∧ (a.core 0).reads = false ∧
      (a.core 0).pendSave = true) ∧ ((b.core 0).pendSave = false ∧ (b.core 0).pendStart = true ∧ (b.core 0).after ≠ .faulted) ∧ (d.core 0).after = .faulted ∧
      State.reset.mayWrite .firmware (corePage 0 0 + 0x40) = true := by decide

theorem meets_StepCommand :
    let s := with0 (fun c => { c with st := .stopped })
    let c := s.core 0
    s.inReset = false ∧ s.tripped = false ∧ s.mayWrite .firmware (corePage 0 0 + 0x40) = true ∧ c.st.held = true ∧ c.reads = false ∧ c.pcOut = none ∧ c.spadWaits = false ∧
      c.poisonedAt c.pc.toNat 16 = false ∧ c.spadBytes c.pc.toNat 16 = List.replicate 16 0 ∧ c.pc.toNat + 16 < 2 ^ 20 ∧ (∀ l ∈ c.loops, l.last ≠ c.pc) ∧ c.buffered = none ∧
      ({ c with loops := [{ lp with last := 0x40, done := 1 }], loopBuf := [(0, 0)] } : Core).buffered = some 0 := by decide

/-- A context address in the own scratchpad, and one that is not aligned. -/
theorem meets_ContextCommands :
    let s := with0 (fun c => { c with st := .saving })
    State.reset.ctxSpot 0 (State.reset.ctxAddr 0) 8896 = some (.own 0) ∧ State.reset.ctxSpot 0 1 8896 = none ∧ State.reset.ctxSpot 0 1 64 = none ∧
      (State.reset.core 0).st.held = true ∧ ((run0 id).core 0).stall ≠ .other ∧ (s.core 0).st = .saving ∧ (s.core 0).ctx = none ∧ (s.core 0).countersZero = true ∧
      (s.core 0).spadWaits = false ∧ ((with0 (fun c => c.setCtr 0 1)).core 0).countersZero = false ∧ (s.core 0).pendStart = false := by decide

/-- An image whose MAGIC is not right: an all-zero scratchpad; and a poisoned first word. -/
theorem meets_RestoreImages :
    let s := with0 (fun c => { c with st := .restoring })
    let c := s.core 0
    s.inReset = false ∧ s.tripped = false ∧ c.st = .restoring ∧ c.countersZero = true ∧ c.pendStart = false ∧ c.spadWaits = false ∧
      s.ctxSpot 0 (s.ctxAddr 0) 64 = some (.own 0) ∧ 0 + 8896 ≤ 2 ^ 20 ∧ c.poisonedAt 0 8 = false ∧ ¬ imgFld (c.spadBytes 0 8) 0 4 = 0x4F564C53 ∧
      ({ c with poison := [(0, true)] } : Core).poisonedAt 0 8 = true ∧
      c.readPoisoned 0 8 ⟨[], [0]⟩ = true := by decide

theorem meets_LoopEntriesRoundTrip : (List.replicate 0x40 (0 : Byte)).length = 0x40 ∧ [lp].length ≤ 4 ∧ [lp][0]? = some lp ∧ 1 ≤ lp.stages ∧ lp.stages ≤ 4 ∧ lp.n < 2 ^ 32 := by
  decide

/-! Matrix units, the scratchpad and transfers -/

/-- A descriptor for array 0: INT8 by INT8 into INT32, 1 x 1 with K = 32. -/
def mj : MatJob := ⟨[0x3551, 0x2000010001, 0x2000000, 0x1000, 0x100000200000000, 0x3000, 0, 0], 0, true, 0⟩
/-- The same with a reserved bit, for a tap, and one of no rows. -/
def mjBad : MatJob := { mj with words := [0x80003551, 0x2000010001, 0x2000000, 0x1000, 0x100000200000000, 0x3000, 0, 0] }
def mjTap : MatJob := { mj with words := [0x83551, 0x2000010001, 0x2000000, 0x1000, 0x100000200000000, 0x3000, 0, 0] }
def unitWith (j : MatJob) (r : Option MatRun) : State := with0 (fun c => { c with u0 := { jobs := [j], run := r, nextA := none } })
/-- A run before its first pass, and one whose halves are given. -/
def mr : MatRun := MatRun.init mj none
def mrWith (h : HalfRun) : MatRun := { mr with h0 := h }

theorem meets_StatusRecordFields : (15 : Nat) < 16 ∧ (3 : Nat) < 4 ∧ 65535 < 2 ^ 16 := by decide
theorem meets_DescriptorEnds : ((((unitWith mj none).core 0).unit 0).jobs = mj :: []) ∧ 0x3000 % 8 = 0 := by decide
theorem meets_MatrixTakeUp :
    let s := unitWith mj none
    let c := s.core 0
    s.inReset = false ∧ s.tripped = false ∧ (c.unit 0).jobs = [mj] ∧ (c.unit 0).run = none ∧ c.spadWaits = false ∧ (mj.tap && c.tapTaken 0) = false ∧
      (s.bit (corePage 0 1 + 8) 0 = true ∧ mj.check = none) ∧ (s.setReg (corePage 0 1 + 8) 0).bit (corePage 0 1 + 8) 0 = false ∧
      (∃ p, mjBad.check = some p ∧ p.1.reason < 16 ∧ p.1.word < 8 ∧ p.1.lsb < 64 ∧ (mjBad.desc p.2).passId < 2 ^ 16 ∧ p.2 < 2) ∧ s.bit (corePage 0 1 + 0x50) 0 = false ∧
      (s.setReg (corePage 0 1 + 0x50) 1).bit (corePage 0 1 + 0x50) 0 = true :=
  ⟨rfl, rfl, by decide, by decide, by decide, by decide, by decide, by decide, ⟨_, rfl, by decide⟩, by decide⟩
/-- A pass that starts; one with no group; one that a poisoned group of its half holds back; a half that takes part and one that does not. -/
theorem meets_MatrixPass :
    let s := unitWith mj (some mr)
    let c := s.core 0
    s.inReset = false ∧ s.tripped = false ∧ (c.unit 0).jobs = [mj] ∧ (c.unit 0).run = some mr ∧ c.spadWaits = false ∧
      mr.lockPass mj = some 0 ∧ mr.ready mj 0 = true ∧ (mrWith HalfRun.idle).lockPass mj = none ∧ mr.rows = 0 ∧ ({ mr with rows := 9 } : MatRun).rows ≠ 0 ∧
      mr.part mj 0 0 = some (Group.start 0 0) ∧ mr.part mj 1 0 = none ∧ 0 < min 256 ((mj.desc 0).m - 256 * 0) ∧ 0 < min ((mj.desc 0).nt mj.pair) ((mj.desc 0).n - (mj.desc 0).nt mj.pair * 0) := by decide
theorem meets_IntegerPass : (mj.desc 0).aFmt = 5 ∧ (mj.desc 0).wFmt = 5 ∧ (mj.desc 0).outFmt = 3 ∧ (mj.desc 0).scale = false ∧ (mj.desc 0).acc = false ∧
    0 < (mj.desc 0).nt false ∧ (Group.start 0 0).kt < (mj.desc 0).kt ∧ (Group.start 0 0).tile < (mj.desc 0).tiles false := by decide

/-- A run whose one group is finished, clean or poisoned, tried once or twice. -/
def grp (poisoned retried : Bool) : Group := { Group.start 0 0 with kt := 1, poisoned := poisoned, retried := retried }
def full0 (poisoned retried : Bool) : MatRun := mrWith { HalfRun.idle with groups := [grp poisoned retried] }
theorem meets_MatrixDrain :
    let r := full0 false false
    let s := unitWith mj (some r)
    let c := s.core 0
    let d := mj.desc 0
    s.inReset = false ∧ s.tripped = false ∧ (c.unit 0).jobs = [mj] ∧ (c.unit 0).run = some r ∧ c.spadWaits = false ∧ r.h0.groups = grp false false :: [] ∧
      r.h0.drains d = some (grp false false) ∧ mr.h0.drains d = none ∧ mr.h1.drains (mj.desc 1) = none ∧ d.kt ≤ (grp false false).kt ∧
      ((grp false false).spansDrain d mj.pair).any (fun y => c.poisonedAt y.1 y.2) = false ∧ d.epi = 0 ∧ (mjTap.desc 0).epi = 1 ∧ c.tapQ = [] ∧
      min (d.nt mj.pair) (d.n - d.nt mj.pair * 0) * d.outBytes ≤ d.cLd := by decide
theorem meets_MatrixRetry :
    let r := full0 true false
    let s := unitWith mj (some r)
    s.inReset = false ∧ s.tripped = false ∧ ((s.core 0).unit 0).jobs = [mj] ∧ ((s.core 0).unit 0).run = some r ∧
      r.h0.groups = [] ++ grp true false :: [] ∧ (decide ((mj.desc 0).kt ≤ (grp true false).kt) && (grp true false).poisoned) = true ∧
      (full0 false false).h0.groups.any (fun g => decide ((mj.desc 0).kt ≤ g.kt) && g.poisoned) = false ∧ (grp true false).retried = false ∧ (grp true true).retried = true ∧
      (s.setReg (matPage 0 0 + 0x40) 1).bit (matPage 0 0 + 0x40) 0 = true ∧ (s.setReg (matPage 0 0 + 0x40) 0).bit (matPage 0 0 + 0x40) 0 = false := by decide
/-- A run that has ended: clean, with an invalid result, POISONED, and of a tap descriptor. -/
def ended0 (fl : BitVec 5) (dead : Bool) : MatRun := mrWith { HalfRun.idle with flags := fl, dead := dead }
theorem meets_MatrixComplete :
    let r := ended0 0 false
    let s := unitWith mj (some r)
    s.inReset = false ∧ s.tripped = false ∧ ((s.core 0).unit 0).jobs = [mj] ∧ ((s.core 0).unit 0).run = some r ∧ (s.core 0).spadWaits = false ∧
      r.h0.ended = true ∧ r.h1.ended = true ∧ mr.h0.ended = false ∧ mj.taps 0 = false ∧ mj.taps 1 = false ∧ mjTap.taps 0 = true ∧ r.end0 = false ∧
      (r.h0.dead || r.h1.dead || (r.h0.flags ||| r.h1.flags).getLsbD 0 || (r.h0.flags ||| r.h1.flags).getLsbD 2 || r.h0.sat || r.h1.sat) = false ∧
      (ended0 1 false).h0.flags.getLsbD 0 = true ∧ (ended0 0 true).h0.dead = true := by decide
/-- A split pair, both halves with taps. -/
def mjTap2 : MatJob := { mjTap with words := mjTap.words ++ mjTap.words }
theorem meets_TapBeats :
    let b : TapBeat := ⟨0, 0, 0, 1, 0, false, 0⟩
    let r := ended0 0 false
    let s := open0 (fun c => { c with tapQ := [b] })
    let e := open0 (fun c => { c with u0 := { jobs := [mjTap], run := some r, nextA := none } })
    s.inReset = false ∧ s.tripped = false ∧ s.shrouded 0 = false ∧ (s.core 0).tapQ = b :: [] ∧ e.shrouded 0 = false ∧ ((e.core 0).unit 0).jobs = [mjTap] ∧
      ((e.core 0).unit 0).run = some r ∧ (e.core 0).tapQ = [] ∧ (mjTap.desc 0).epi ≠ 0 ∧ r.end0 = false ∧ r.h0.ended = true ∧
      ({ r with end0 := true } : MatRun).end0 = true ∧ mjTap2.pair = true ∧ (mjTap2.desc 1).epi ≠ 0 ∧ r.end1 = false ∧ r.h1.ended = true := by decide +kernel

theorem meets_ScratchpadControl : (State.reset.core 0).zeroing = false ∧ ((with0 (fun c => { c with zeroing := true, rlbOp := 1 })).core 0).zeroing = true ∧
    ((with0 (fun c => { c with zeroing := true, rlbOp := 1 })).core 0).rlbOp = 1 ∧ ((with0 (fun c => { c with rlbOp := 2 })).core 0).rlbOp = 2 := by decide
theorem meets_ScratchpadRetention : (State.reset.core 0).retention = .on ∧ (State.reset.blk (corePage 0 5)).resetDue = false ∧
    (∀ r ∈ [Retention.entering, .retained, .waking], ((with0 (fun c => { c with retention := r })).core 0).retention = r) ∧ (State.reset.core 0).zeroing = false := by decide
theorem meets_EccErrors : ([0, 1] : List Nat).Nodup ∧ ([0, 1] : List Nat).filter (fun w => ([1] : List Nat).contains w && !(State.reset.core 0).wordPoisoned w) = 1 :: [] ∧
    State.reset.bit (corePage 0 5 + 0x5C) 0 = false ∧ (State.reset.setReg (corePage 0 5 + 0x5C) 1).bit (corePage 0 5 + 0x5C) 0 = true := by decide
/-- No miss; one with room in its set; one whose set of eight lines is full. -/
theorem meets_LineFills :
    let m : Miss := ⟨64, true, false, 0⟩
    let set8 : List RlbLine := (List.range 8).map (fun i => ⟨128 + 64 * i, true, false, false, false, []⟩)
    (List.replicate 64 (0 : Byte)).length = 64 ∧ (State.reset.core 0).misses.filter (fun m => decide (m.status = 0)) = [] ∧
      [m].filter (fun m => decide (m.status = 0)) = m :: [] ∧ 8 ≤ ((set8.filter (fun x => decide (x.line ≠ m.line))).filter (fun x => decide (x.line % 64 = m.line % 64))).length :=
  ⟨List.length_replicate, by decide⟩
theorem meets_LineSnoops : (with0 id).planeCarries 2 (lineEnd 0) (coreEnd 0) = true ∧
    ({ with0 id with planeDown := [(stopKey 2 0 0 0, true)] } : State).planeCarries 2 (lineEnd 0) (coreEnd 0) = false ∧ (State.reset.core 0).rlbFind 0 = none ∧ ((with0 (fun c => { c with rlb := [line0] })).core 0).rlbFind 0 = some line0 := by decide

/-- A COPY of 64 own bytes to LPDDR; the transfer of the example of R213. -/
def tj : XferJob := ⟨0, [0x00000A2100000000, 0x0080000000000000, 0x0100000000000000, 64, 0, 0, 0x70000, 0], 0, true, false, []⟩
def part16 (i : Nat) : Part := ⟨i, 0, if i = 5 then Code.netLinkTimeout else if i = 12 then Code.netRouteNone else 0⟩
def tj16 : XferJob :=
  ⟨0, [0x00000A21000000F1, 0x0080000000050000, 0x0000004000060000, 0x1000, 0, 63, 0x70000, 0], 0, true, true, (List.range 16).map part16⟩
theorem meets_TransferRecords :
    let s := with0 (fun c => { c with jobs := [tj16] })
    s.inReset = false ∧ s.tripped = false ∧ (s.core 0).jobs = [tj16] ∧ (s.core 0).spadWaits = false ∧ tj16.check (1, 1) [] = none := by decide
theorem meets_PartPieces : 8 % 8 = 0 ∧ 248 % 8 = 0 ∧ 512 % 8 = 0 := by decide
theorem meets_TransferStarts :
    let s := (with0 (fun c => { c with jobs := [tj] })).setReg (niPage 0 + 0x40) 0xFF
    let c := s.core 0
    let bad (w : List Dword) : XferJob := { tj with words := w }
    s.inReset = false ∧ s.tripped = false ∧ c.spadWaits = false ∧ c.jobs = [] ++ tj :: [] ∧ tj.started = false ∧ (c.jobs.filter (fun x => x.started)).length < 4 ∧
      tj.order = false ∧ tj.check (s.meAt 0) (tj.entries c) = none ∧ tj.stream = 0 ∧ c.unsent = [] ∧ c.outst.length < 2048 ∧ tj.typ = 0 ∧ tj.nparts = 1 ∧ tj.mask = 0 ∧
      tj.bytes = 64 ∧ tj.src = 2 ^ 55 + 0 ∧ tj.dst = 2 ^ 56 + 0 ∧ c.poisonedAt 0 64 = false ∧ s.niTenant 0 = 0xFF ∧
      4 ≤ ((List.replicate 4 tj16).filter (fun x => x.started)).length ∧
      (bad [0xF, 0, 0, 0, 0, 0, 0x70000, 0]).check (0, 0) [] = some (2, false) ∧ (bad [0, 0x0080000000000000, 0x0100000000000000, 64, 0, 0, 0xFFFF8, 0]).check (0, 0) [] = some (4, true) ∧
      (bad [0x400, 0x0080000000000000, 0x0100000000000000, 0, 0, 0, 0x70000, 0]).order = true ∧
      (bad [0x400, 0x0080000000000000, 0x0100000000000000, 0, 0, 0, 0x70000, 0]).bytes = 0 := by decide
theorem meets_TransferEnds :
    let s := with0 (fun c => { c with jobs := [tj16] })
    s.inReset = false ∧ s.tripped = false ∧ (s.core 0).spadWaits = false ∧ (s.core 0).jobs = [] ++ tj16 :: [] ∧ tj16.started = true ∧ (∀ p ∈ tj16.parts, p.left = 0) ∧
      tj16.parts.filter (fun p => decide (p.code ≠ 0)) = part16 5 :: [part16 12] ∧ (∃ p ∈ ({ tj16 with parts := [⟨0, 1, 0⟩] } : XferJob).parts, p.left ≠ 0) ∧
      ({ tj16 with parts := [⟨0, 0, 0⟩] } : XferJob).parts.filter (fun p => decide (p.code ≠ 0)) = [] := by decide

/-- Headers of a WRITE, a READ, an ACK and an RDATA of one line, under TENANT 0xFF. -/
def hdr (kind tenant : Nat) : BitVec 168 := BitVec.ofNat 168 (kind + tenant * 2 ^ 38 + 1 * 2 ^ 46 + 7 * 2 ^ 57 + 0xFFFF * 2 ^ 83)
theorem meets_PacketsReceived :
    let s := State.reset.setReg (niPage 0 + 0x40) 1
    s.inReset = false ∧ s.tripped = false ∧ malformed (hdr 0 0xFF) = false ∧ malformed (hdr 1 0xFF) = false ∧ (s.core 0).retention = .on ∧
      64 * hdrFld (hdr 0 0xFF) 69 14 + 64 * hdrFld (hdr 0 0xFF) 46 3 ≤ 2 ^ 20 ∧ hdrFld (hdr 0 0xFF) 0 2 = 0 ∧ hdrFld (hdr 1 0xFF) 0 2 = 1 ∧
      (s.niTenant 0 ≠ 0 ∧ (BitVec.ofNat 8 (hdrFld (hdr 0 0xFF) 38 8) = s.niTenant 0 ∨ BitVec.ofNat 8 (hdrFld (hdr 0 0xFF) 38 8) = 0xFF ∨ s.niTenant 0 = 0xFF)) ∧
      ¬ (BitVec.ofNat 8 (hdrFld (hdr 0 2) 38 8) = s.niTenant 0 ∨ BitVec.ofNat 8 (hdrFld (hdr 0 2) 38 8) = 0xFF ∨ s.niTenant 0 = 0xFF) ∧
      (s.core 0).poisonedAt 0 64 = false ∧ ((with0 (fun c => { c with poison := [(0, true)] })).core 0).poisonedAt 0 64 = true := by decide
theorem meets_PacketAnswers :
    let o : Outst := ⟨7, 0, 0, false, 0, 64, 0, 0, false, []⟩
    let r : Outst := ⟨7, 0, 0, true, 0, 64, 0, 0, false, []⟩
    let of (o : Outst) : State := (with0 (fun c => { c with outst := [o] })).setReg (niPage 0 + 0x40) 1
    let s := of o
    let t := of r
    let c := s.core 0
    s.inReset = false ∧ s.tripped = false ∧ hdrFld (hdr 2 0xFF) 0 2 = 2 ∧ hdrFld (hdr 3 0xFF) 0 2 = 3 ∧ BitVec.ofNat 12 (hdrFld (hdr 2 0xFF) 57 12) = 7 ∧
      (s.niTenant 0 ≠ 0 ∧ BitVec.ofNat 8 (hdrFld (hdr 2 0xFF) 38 8) = 0xFF) ∧ State.reset.niTenant 0 = 0 ∧
      c.waiting 7 false false = some o ∧ (t.core 0).waiting 7 false false = none ∧ (t.core 0).waiting 7 false true = some r ∧
      (State.reset.core 0).waiting 7 false true = none ∧ spaceOf r.dst.toNat = 0 ∧ (colOf r.dst.toNat, rowOf r.dst.toNat) = t.meAt 0 ∧ (t.core 0).retention = .on ∧
      BitVec.ofNat 16 (hdrFld (hdr 3 0xFF) 99 16) = 0 ∧ BitVec.ofNat 16 (hdrFld (hdr 3 0xFF + 1 <<< 99) 99 16) ≠ 0 ∧
      s.bit (niPage 0 + 0x44) 2 = false ∧ (s.setReg (niPage 0 + 0x44) 4).bit (niPage 0 + 0x44) 2 = true ∧
      c.outst.find? (fun o => decide (o.tag = 7)) = some o := by decide

/-! The tensor network -/

/-- A flit of one packet to logical (X, Y) under epoch bit 0. -/
def flitTo (x y : Nat) : Flit := ⟨BitVec.ofNat 168 (x * 2 ^ 6 + y * 2 ^ 15 + 0xFF * 2 ^ 38 + 1 * 2 ^ 46), true, true, 0, []⟩
/-- Core 1 of die 0, in the middle of a row, with bank 0 live as logical (1, 0). -/
def c1 : CoreId := ⟨0, 1⟩
def routed (out : Nat) : State :=
  (State.reset.modCore 1 (fun c => { c with rt0 := .armed })).setReg (rtrPage 1 + 0x40) (BitVec.ofNat 32 (1 + 2 ^ 9 + out))

/-- The same with a flit in the bridge of its port 1. -/
def routedF (out : Nat) (f : Flit) : State := (routed out).setBridge (.core 1 1) [f]

theorem meets_FlitRouting :
    let f := flitTo 5 0
    let s := routedF 0 f
    s.inReset = false ∧ s.tripped = false ∧ s.linkUp (nodePlace (.router c1) 1) = true ∧ (nodePlace (.router c1) 1).far.isSome = true ∧
      s.bridgeAt (.core 1 1) = f :: [] ∧ ((routed 0).bridgeAt (.core 1 1)).head? ≠ some f ∧ (s.core 1).sw.held = [] ∧
      (s.linkAt (nodePlace (.router c1) 1)).fails = 0 ∧ malformed f.hdr = false ∧ hdrFld f.hdr 4 1 = 0 ∧ hdrFld f.hdr 5 1 = 0 ∧ hdrFld f.hdr 2 1 = 0 ∧
      s.bit (rtrPage 1 + 0x40) 9 = true ∧ s.fld (rtrPage 1 + 0x40) 0 9 = 1 ∧ s.fld (rtrPage 1 + 0x40) 16 7 = 0 ∧ (s.core 1).rtBank 0 ≠ .spare ∧
      (State.reset.core 1).rtBank 0 = .spare ∧ hdrFld f.hdr 6 9 = 5 ∧ coreFar 1 0 = some (.core 2 1) ∧ s.linkUp (.core 1 0) = true ∧ s.bit (rtrPage 1 + 0x40) 28 = false ∧
      s.mayCarry (.core 2 1) f.vc.toNat = true ∧ (s.setBridge (.core 2 1) (List.replicate 16 f)).mayCarry (.core 2 1) f.vc.toNat = false ∧
      (routedF (2 ^ 24) f).bit (rtrPage 1 + 0x40) 24 = true ∧ (routedF (2 ^ 28) f).bit (rtrPage 1 + 0x40) 28 = true ∧ hdrFld f.hdr 117 1 = 0 ∧ (0 : Nat) < 24 * 2112 ∧ (4 : Nat) < 5 := by decide
/-- A flit for a core, one for the tap's own edge die and one that edge die 0 hands over for die 2. -/
def flitEdge (e : Nat) : Flit := ⟨BitVec.ofNat 168 (2 ^ 5 + e * 2 ^ 6 + 0xFF * 2 ^ 38 + 1 * 2 ^ 46), true, true, 0, []⟩
theorem meets_TapFlits :
    let f := flitTo 5 0
    let s := (State.reset.setTap 0 { Taps.reset with b0 := .armed }).setBridge (.tap 0 0 0) [f]
    s.inReset = false ∧ s.linkUp (.tap 0 0 0) = true ∧ s.linkUp (.tap 0 0 1) = true ∧ (s.linkAt (.tap 0 0 0)).fails = 0 ∧ malformed f.hdr = false ∧ malformed (flitEdge 0).hdr = false ∧
      s.bridgeAt (.tap 0 0 0) = f :: [] ∧ (s.tap 0).sw.held = [] ∧
      (s.tap 0).b0 ≠ .spare ∧ (State.reset.tap 0).b0 = .spare ∧ hdrFld f.hdr 2 1 = 0 ∧ (hdrFld (flitEdge 0).hdr 5 1 = 1 ∧ hdrFld (flitEdge 0).hdr 6 2 = 0) ∧
      ¬ hdrFld f.hdr 5 1 = 1 ∧ tapFar 0 0 1 = some (.tap 2 0 0) ∧ s.mayCarry (.tap 2 0 0) f.vc.toNat = true ∧ (s.setBridge (.tap 2 0 0) (List.replicate 16 f)).mayCarry (.tap 2 0 0) f.vc.toNat = false ∧
      (s.setTap 0 { s.tap 0 with down := [(1, true)] }).linkUp (.tap 0 0 1) = false ∧
      malformed (flitEdge 2).hdr = false ∧ hdrFld (flitEdge 2).hdr 5 1 = 1 ∧ hdrFld (flitEdge 2).hdr 6 2 ≠ 0 ∧ tapFar 0 0 0 = some (.core 0 1) ∧ s.mayCarry (.core 0 1) (flitEdge 2).vc.toNat = true := by decide
theorem meets_LinkCommands :
    let s := State.reset
    let pl := nodePlace (.router c1) 1
    let bad := s.setLink pl ⟨7, false⟩
    let raising := s.setLink pl ⟨0, true⟩
    let st := nodePlace (.stop 0 0 0) 0
    s.inReset = false ∧ s.tripped = false ∧ (s.linkUp pl = true ∧ pl.far.isSome = true) ∧ (s.showLink pl false).linkUp pl = false ∧ ownPort (.router c1) 1 = none ∧
      (s.linkAt pl).fails < 7 ∧ 7 ≤ (bad.linkAt pl).fails ∧ (s.linkUp st = true ∧ st.far.isSome = true ∧ nodeIsStop (.stop 0 0 0) = true) ∧ nodeIsStop (.router c1) = false ∧
      (raising.linkAt pl).raising = true ∧ (s.linkAt pl).raising = false ∧ linkEndCore 1 1 = 1 ∧ coreFar 1 1 = some (.core 0 0) ∧ coreFar 0 1 = some (.tap 0 0 0) ∧ tapFar 0 0 1 = some (.tap 2 0 0) ∧
      (s.showLink (.tap 0 0 1) false).linkUp (.tap 0 0 1) = false ∧ s.linkUp (.tap 0 0 1) = true := by decide
theorem meets_RouteBanks :
    let s := State.reset
    let d := with0 (fun c => { c with rt0 := .draining, rt1 := .armed })
    s.inReset = false ∧ s.mayWrite .firmware (rtrPage 0 + 0x48) = true ∧ (s.core 0).rt0 = .spare ∧ (s.core 0).rt1 = .spare ∧ (d.core 0).rt0 = .draining ∧
      s.oldHeld 0 = 0 ∧ (d.setBridge (.core 0 0) [flitTo 5 0]).oldHeld 0 ≠ 0 ∧ s.mayWrite .firmware (agtPage 24 + 0x40) = true ∧
      (s.tap 0).b0 = .spare ∧ (s.tap 0).b1 = .spare := by decide
theorem meets_InterfaceFlips :
    let s := State.reset
    let a := with0 (fun c => { c with ni0 := .armed })
    let p := s.setReg (niPage 0 + 0x44) 0x10
    s.inReset = false ∧ s.mayWrite .firmware (niPage 0 + 0x44) = true ∧ p.bit (niPage 0 + 0x44) 4 = true ∧ s.bit (niPage 0 + 0x44) 4 = false ∧ (s.core 0).ni0 = .spare ∧ (s.core 0).ni1 = .spare ∧
      ¬ ((a.core 0).ni0 = .spare ∧ (a.core 0).ni1 = .spare) ∧ s.bit (niPage 0 + 0x44) 2 = false ∧ (s.setReg (niPage 0 + 0x44) 4).bit (niPage 0 + 0x44) 2 = true ∧ (s.core 0).outst = [] ∧
      (p.reg64 (niPage 0 + 0x48)).toNat ≤ p.time.toNat ∧ p.time.toNat % 1024 = 0 ∧ ({ p with time := 1 } : State).time.toNat % 1024 ≠ 0 ∧ s.mayWrite .firmware (agtPage 24 + 0x40) = true ∧ (s.tap 0).flipPending = false ∧
      decide (({ Taps.reset with b1 := .armed } : Taps).b1 = .armed) ≠ Taps.reset.stamp := by decide
theorem meets_AgentCommands :
    let s := (State.reset.setReg (agtPage 0 + 0x50) 0x19).setReg (agtPage 0 + 0x54) 0x40
    s.bit (agtPage 0 + 0x44) 2 = false ∧ (s.setReg (agtPage 0 + 0x44) 4).bit (agtPage 0 + 0x44) 2 = true ∧ State.reset.bit (agtPage 0 + 0x50) 4 = false ∧ s.bit (agtPage 0 + 0x50) 4 = true ∧
      s.mayWrite .firmware (agtPage 0 + 0x58) = true ∧ s.fld (agtPage 0 + 0x50) 0 4 = 9 ∧ s.fld (agtPage 0 + 0x54) 0 12 = 0x40 := by decide

/-! The memory planes, health and the recorder -/

/-- A request of core 1 of die 0 under TENANT 0xFF, or 1, to an address on edge die 24; tenant 1 has a window of 1 MiB at physical address 0. -/
def req (a : Dword) : PReq := ⟨1, 0, 1, 0xFF, 5, 24, 0, a, 0⟩
def req1 (a : Dword) : PReq := { req a with tenant := 1 }
def windowed (s : State) : State := (s.setReg (winKey 0 1) 0x80000000).setReg (winKey 0 1 + 4) 1
def lpd (st : ChanState) (d : DirEntry) : State := windowed ((State.reset.setChan 0 { ChanRun.reset with st := st }).setDir 0 d)

/-- The crossing link of a memory plane east of edge die 24's column. -/
def cut (plane : Nat) (s : State) : State := { s with planeDown := [(stopKey plane 0 0 0, true)] }
theorem meets_DirectoryRequests :
    let q := req1 0x0100000000000000
    let s := lpd .active { DirEntry.empty with st := .m 7 }
    s.inReset = false ∧ 24 ≤ q.dstDie.toNat ∧ q.dstDie.toNat < 28 ∧ q.addr.toNat / 2 ^ 56 = 1 ∧ q.size.toNat < 3 ∧ q.op.toNat < 0x0B ∧ ({ q with op := 0x0C } : PReq).op.toNat = 0x0C ∧
      s.planeCarries 0 (planeEnd q.srcDie.toNat q.srcUnit.toNat) (.edge 0) = true ∧ s.planeCarries 3 (planeEnd q.srcDie.toNat q.srcUnit.toNat) (.edge 0) = true ∧
      (cut 0 s).planeCarries 0 (planeEnd q.srcDie.toNat q.srcUnit.toNat) (.edge 0) = false ∧
      s.translate 0 q.tenant (q.addr.toNat % 2 ^ 41 / 64 * 64) 64 = .ok 0 ∧ s.translate 0 1 0x100000 64 = .error Code.netPartition ∧ (chanCo 0).1 = 0 ∧ (s.chan 0).st = .active ∧
      (s.dirAt 0).txn = none ∧ (s.dirAt 0).st ≠ .u ∧ ((lpd .offline DirEntry.empty).chan 0).st = .offline ∧ (State.reset.chan 0).st = .untrained ∧
      ((lpd .active { DirEntry.empty with txn := some (dirTxn 5 q 0 [] .clean) }).dirAt 0).txn.isSome = true ∧
      (((lpd .active DirEntry.empty).dirUsed 0).filter (fun y => decide (y ≠ 0))).length < 16 :=
  by decide +kernel
/-- Reset with no neighbour draws: a read of a line finds its stored bytes whatever the free values say of its timing. -/
def quiet : State := State.reset.setReg (lpdPage 0 + 0x4C) 0
theorem lost_none (s : State) (pa : Nat) (h : (s.chan (chanCo pa).1).lost = 0) : s.lineLost pa = false := by simp [State.lineLost, h]
theorem quiet_read (e : LineEcc) : (quiet.readLine 0 0 e).2.2 = decide (e = .uncorrectable) := by
  rw [State.readLine_fresh quiet 0 0 e (lost_none _ _ (by decide +kernel)) (by decide +kernel)]
def edge0 : State :=
  ((State.reset.setRegion (edgeRegion 0 0) { Region.reset with st := .running }).setReg (shrKey 0 0 0x48) 1)
/-- The same with a plane port at block 0, without and with ECC. -/
def port0 (x : Word) : State := edge0.putFrame (edgeRegion 0 0) 52224 [x]
theorem meets_FabricRamAccesses :
    let q := req 0x0200000000000000
    let far := req 0x0200000000C00000
    edge0.inReset = false ∧ q.addr.toNat / 2 ^ 56 = 2 ∧ 24 ≤ q.dstDie.toNat ∧ q.dstDie.toNat < 28 ∧ q.size.toNat < 3 ∧ q.addr.toNat % 2 ^ 24 < 0xC00000 ∧
      edge0.shroudedRegion (edgeRegion 0 0) = false ∧ (edge0.reg (shrKey 0 0 0x48)).setWidth 8 ≠ (0 : BitVec 8) ∧ State.reset.shroudedRegion (edgeRegion 0 0) = true ∧
      q.srcDie.toNat < 24 ∧ q.srcUnit.toNat < 2112 ∧ 0xC00000 ≤ far.addr.toNat % 2 ^ 24 ∧
      ((port0 0x800).ramCfg 0 0).plane = true ∧ ((port0 0x800).ramCfg 0 0).ecc = false ∧ ((port0 0xC36).ramCfg 0 0).plane = true ∧ ((port0 0xC36).ramCfg 0 0).ecc = true ∧
      (port0 0x800).shroudedRegion (edgeRegion 0 0) = false ∧ ((port0 0x800).reg (shrKey 0 0 0x48)).setWidth 8 = (1 : BitVec 8) ∧ edge0.planeCarries 0 (planeEnd 0 1) (.edge 0) = true ∧ edge0.planeCarries 3 (planeEnd 0 1) (.edge 0) = true := by decide +kernel
theorem meets_PlaneAnswers :
    let q := req (0x0300 <<< 48 ||| 0x0C00 <<< 32 ||| BitVec.ofNat 64 (niPage 0 + 0x40))
    let key := q.addr.toNat % 2 ^ 40
    let s := State.reset
    let o : Outst := ⟨7, 0, 0, false, 0, 64, 0, 0, false, []⟩
    let r : SeqRead := ⟨0x0300 <<< 48, 0xFF0, false, none⟩
    let id := (24 + 0) * 2 ^ 19 + 2 ^ 17 + 0
    s.inReset = false ∧ q.addr.toNat / 2 ^ 40 = 0x3000C ∧ q.size = 0 ∧ key % 4 = 0 ∧ keyBlk key = some .ni ∧ s.mayRead .firmware key = true ∧ s.mayWrite .firmware key = true ∧ q.op.toNat < 0x0B ∧
      s.planeCarries 0 (planeEnd 0 1) (addrEnd q.addr.toNat) = true ∧
      s.mayWrite (.program c1) key = false ∧ s.mayRead (.runtime 1) key = false ∧ keyDie key < 24 ∧ keyUnit key < 2112 ∧ ({ req 0x40 with dstDie := 0 } : PReq).dstDie.toNat < 24 ∧ (req 0x40).addr.toNat / 2 ^ 56 = 0 ∧
      (s.core 0).retention = .on ∧ s.niTenant 0 = 0 ∧ ((s.setReg (niPage 0 + 0x40) 1).niTenant 0 ≠ 0 ∧ (req 0).tenant = 0xFF) ∧ s.physOf 0 0 = 0 ∧
      s.planeCarries 0 (planeEnd 0 1) (coreEnd 0) = true ∧ s.planeCarries 3 (planeEnd 0 1) (coreEnd 0) = true ∧ (s.region 0).st ≠ .loading ∧
      ((s.setRegion 0 { Region.reset with st := .loading }).region 0).st = .loading ∧ regionValid 0 = true ∧ 0 < regionFrames 0 ∧ s.planeCarries 0 (.edge 0) (planeEnd 0 0xF003) = true ∧
      s.planeCarries 3 (.edge 0) (planeEnd 0 0xF003) = true ∧ (7 : BitVec 12).toNat < 0x800 ∧ s.planeCarries 1 (addrEnd 0x0100000000000000) (coreEnd 0) = true ∧ s.planeCarries 3 (addrEnd 0x0100000000000000) (coreEnd 0) = true ∧
      ((with0 (fun c => { c with outst := [o] })).core 0).waiting 7 true false = none ∧
      ((with0 (fun c => { c with outst := [{ o with addr := 0x0100000000000000 }] })).core 0).waiting 7 true false = some { o with addr := 0x0100000000000000 } ∧
      ((with0 (fun c => { c with outst := [{ o with isRead := true, addr := 0x0100000000000000 }] })).core 0).waiting 7 true true = some { o with isRead := true, addr := 0x0100000000000000 } ∧
      (s.core 0).seqReads.find? (fun r => decide (r.tag = 0xFFD)) = none ∧ ([r].find? (fun r => decide (r.tag = 0xFF0))) = some r ∧ s.planeCarries 1 (addrEnd r.addr.toNat) (coreEnd 0) = true ∧
      (s.region id).st = .empty ∧ (edge0.region id).st = .running := by decide +kernel

/-- A report that finds room; a window of 64 and of 65 reports; a window that has ended, its STORM with nine quiet windows before. -/
theorem meets_ReportArrivals :
    let h (f : Hc → Hc) : State := State.reset.setHc 0 (f Hc.reset)
    let later (s : State) : State := { s with time := 1500 }
    let storm := later (h (fun x => { x with storm := true, window := 3, quiet := 9 }))
    State.reset.inReset = false ∧ (0xF : Dword).toNat % 16 = 15 ∧ (2 : Dword).toNat % 16 = 2 ∧ (State.reset.hcAt 0).win = State.reset.time.toNat / 1000 ∧ (State.reset.hcAt 0).queue.length < 256 ∧
      (State.reset.hcAt 0).window < 64 ∧ 256 ≤ (List.replicate 256 ((0, 0) : Dword × Dword)).length ∧
      ((h (fun x => { x with window := 64 })).hcAt 0).storm = false ∧ 64 ≤ ((h (fun x => { x with window := 64 })).hcAt 0).window ∧
      ((later State.reset).hcAt 0).win ≠ (later State.reset).time.toNat / 1000 ∧ (storm.hcAt 0).win ≠ storm.time.toNat / 1000 ∧
      (storm.hcAt 0).storm = true ∧ (storm.hcAt 0).window ≤ 64 ∧ 10 ≤ (storm.hcAt 0).quiet + max 1 (storm.time.toNat / 1000 - (storm.hcAt 0).win) := by decide +kernel
/-- An accusation of core 5 at an empty table, at an OPEN, at a FAILED and at a full one. -/
theorem meets_SuspectTable :
    let w : Dword := BitVec.ofNat 64 (2 + 5 * 16)
    let e (st : SuspectState) : Suspect := { Suspect.empty with st := st, suspect := 5 }
    let h (t : List (Nat × Suspect)) : Hc := { Hc.reset with queue := [(0, w)], table := t }
    let full : List (Nat × Suspect) := (List.range 16).map (fun i => (i, { Suspect.empty with st := .opened, suspect := BitVec.ofNat 12 (100 + i) }))
    State.reset.inReset = false ∧ (h []).queue = (0, w) :: [] ∧ w.toNat % 16 = 2 ∧ w.toNat / 16 % 2 ^ 12 = 5 ∧ (h []).find .failed 5 = none ∧ (h []).find .opened 5 = none ∧ (h []).free = some 0 ∧
      (h [(0, e .failed)]).find .failed 5 = some 0 ∧ (h [(3, e .opened)]).find .opened 5 = some 3 ∧ (h full).free = none ∧ (h full).find .opened 5 = none ∧
      (h full).weakest.isSome = true ∧ ((h [(3, e .opened)]).entry 3).st = .opened ∧ State.reset.mayWrite .firmware (hcPage 0 + 0x58) = true := by decide +kernel
theorem meets_ReefCommands :
    let s := State.reset.mark 0 .serving
    let f := s.setHc 0 { Hc.reset with table := [(0, { Suspect.empty with st := .failed })] }
    s.inReset = false ∧ f.logOf 0 = some (0, 0) ∧ s.isFailed 0 = false ∧
      f.isFailed 0 = true ∧ f.markOf 0 ≠ .removed ∧ f.reefs = [] ∧ (0 : Nat) ≠ 0 - 0 % 66 + 64 ∧ f.swapFree = true ∧ f.routed 0 = false ∧ (f.region (collarRegion 0)).image = none ∧
      (f.tenant (f.niTenant 0).toNat).res.rects = [] ∧ (f.region (collarRegion 64)).st = .empty ∧
      f.idleSpare 64 = true ∧ f.idleSpare 65 = true ∧ (f.mark 65 .removed).idleSpare 65 = false ∧ (s.mark 0 .reefed).markOf 0 = .reefed := by decide +kernel
/-- A tenant with a ring of 2 MiB, before and after the end of an epoch; a ring that is full. -/
def ringed (r : Ring) (rp : Option Replay) : State := State.reset.setTenant 1 { Tenant.free with live := true, ring := r, replay := rp }
theorem meets_RecorderCommands :
    let r : Ring := { Ring.empty with size := 2 ^ 21 }
    let s := (ringed r none).setReg (recPage 0 + 0x44) 10
    let rp : Replay := ⟨0, 4096, 0, [⟨0, 0, 0, 0⟩], [], 0, 0, [], [], false⟩
    let len := max 1 (s.reg (recPage 0 + 0x44)).toNat
    s.inReset = false ∧ r.used + 48 ≤ r.size ∧ r.head + 48 ≤ r.size ∧ Ring.empty.size < Ring.empty.used + 48 ∧ (s.tenant 1).live = true ∧ s.time.toNat < (r.since / len + 1) * len ∧
      (r.since / len + 1) * len ≤ ({ s with time := 10 } : State).time.toNat ∧ ({ s with time := 10 } : State).time.toNat < (r.since / len + 1) * len + len ∧ (s.tenant 1).replay = none ∧
      ((ringed r (some rp)).tenant 1).replay = some rp ∧ rp.newer ≤ 1 ∧ rp.domain = [⟨0, 0, 0, 0⟩] ∧ s.reefs = [] := by decide +kernel

/-! Configuration and the fabric -/

/-- The management-controller port of the halyard of die 24, and its stream: open, with a region of die 0 declared and selected. -/
def mc0 : Pusher := ⟨0, false⟩
def stOpen : Stream := { Stream.closed with opened := true, len := 1000, pos := 4, declared := [0], cur := [0], last := List.replicate 64 0, lastIdx := 1, begun := true }
def streaming (x : Stream) : State := State.reset.setStm mc0 x

theorem meets_StreamGrammar : stOpen.typ = 0 ∧ stOpen.crcOk = false ∧ stOpen.begun = true ∧ (65536 : Nat) < 2 ^ 24 ∧ ({ stOpen with cur := [] } : Stream).cur = [] ∧ stOpen.cur ≠ [] ∧
    ({ stOpen with pos := 998 } : Stream).len ≤ 998 + 2 ∧ stOpen.pos + 1 < stOpen.len ∧ ({ stOpen with pos := 999 } : Stream).pos + 1 = stOpen.len := by decide +kernel
theorem meets_StreamCommands :
    let s := streaming stOpen
    let x := s.stm mc0
    let early := { stOpen with begun := false }
    let done := { stOpen with crcOk := true, len := 5 }
    s.inReset = false ∧ s.portOk mc0 = true ∧ x.opened = true ∧ x.ended = false ∧ x.rejected = false ∧ (List.replicate 64 (0 : Word)).length = 64 ∧ (List.replicate 25 (0 : Word)).length = 25 ∧
      s.grammar mc0 x 0 0 [] = none ∧ s.grammar mc0 early 1 0 [] = none ∧ s.grammar mc0 early 2 0 [0] = none ∧ s.grammar mc0 x 3 0 [] = none ∧ s.grammar mc0 x 4 0 [0] = none ∧
      s.grammar mc0 x 5 0 [] = none ∧ s.grammar mc0 x 6 0 [0] = none ∧ s.grammar mc0 x 7 1 (List.replicate 64 0) = none ∧ x.begun = true ∧ x.cur = [0] ∧ x.declared.contains 0 = true ∧
      1 < regionFrames 0 ∧ s.grammar mc0 x 8 1 [] = none ∧ x.lastIdx + 1 < regionFrames 0 ∧ s.grammar mc0 x 9 0 [0] = none ∧ s.grammar mc0 done 11 0 [] = none ∧ x.foreign = false ∧
      s.grammar mc0 { stOpen with typ := 1, crcOk := true } 10 0 (List.replicate 25 0) = none ∧ s.buf mc0 = [] ∧ s.cfgRdy = decide ((s.buf boardPort).length ≤ 15360) ∧
      (s.region 0).clearing = false ∧ ((s.setRegion 0 { Region.reset with clearing := true }).region 0).clearing = true ∧ ((s.setStm mc0 { stOpen with ended := true }).stm mc0).ended = true := by decide +kernel
theorem meets_frames_clean : frameClamps 0 1 (frameNat (List.replicate 64 0)) = [] ∧ frameClamps 0 2 (frameNat (List.replicate 64 0)) = [] := by decide +kernel
/-- (The verification itself is the uninterpreted Config.ecdsaOk; the clause concludes for either verdict.) -/
theorem meets_StreamOutcomes :
    let s := streaming { stOpen with sig := some (1, []) }
    let x := s.stm mc0
    let early := { stOpen with begun := false }
    State.reset.inReset = false ∧ State.reset.portOk mc0 = true ∧ (State.reset.stm mc0).ended = false ∧ (State.reset.stm mc0).opened = false ∧ bits 0x00FF0100 0 4 = 0 ∧ bits 0x00FF0100 5 3 = 0 ∧
      bits 0x00FF0100 8 8 = 1 ∧ bits 0x00FF0100 24 8 = 0 ∧ bits 0x00FF0100 16 8 = 0xFF ∧ bits 0x00FF0200 8 8 ≠ 1 ∧ mc0.board = false ∧ x.opened = true ∧ x.rejected = false ∧
      s.grammar mc0 x 0 1 [] = some 2 ∧ s.grammar mc0 x 9 0 [0] = none ∧ (0 : Word) ≠ ~~~ crcWord x.crc (BitVec.ofNat 32 (9 * 2 ^ 24)) ∧ x.sig = some (1, []) ∧ s.buf mc0 = [] ∧ (s.halAt 0).forTenant = false ∧ early.cur.any (fun r => early.declared.contains r) = true ∧ x.sigOk = false ∧
      s.sec.keyOk 1 x.typ = true ∧ s.sec.keyOk 3 x.typ = false ∧ s.sec.fused x.typ ≤ x.svn ∧ ({ s.sec with svnShell := 1 } : Sec).fused x.typ > x.svn ∧ early.typ = 0 ∧ early.begun = false ∧
      s.grammar mc0 early 7 0 (List.replicate 64 0) = none ∧ s.declareBad mc0 early early.declared = 0 := by decide +kernel

theorem meets_RegionReleases :
    let g (st : RegionState) (n : Nat) : State := ({ State.reset with time := 256 }).setRegion 0 { Region.reset with st := st, stage := n }
    let s := State.reset.setHal 0 { Hal.reset with readyMc := [0] }
    let f := regionId 24 3 0
    let b := (State.reset.setRegion f { Region.reset with st := .loading })
    let x := streaming stOpen
    let w : List Word := BitVec.ofNat 32 (7 * 2 ^ 24 + 1) :: List.replicate 64 0
    let y := x.setBuf mc0 w
    s.inReset = false ∧ (s.halAt 0).readyMc = [0] ∧ (State.reset.halAt 0).readyMc = [] ∧ (s.region 0).clearing = false ∧ ((s.setRegion 0 { Region.reset with clearing := true }).region 0).clearing = true ∧ 0 / 2 ^ 17 % 4 = 0 ∧
      y.buf mc0 = BitVec.ofNat 32 (7 * 2 ^ 24 + 1) :: List.replicate 64 0 ∧ (y.halAt 0).buf true = [] ∧ (∀ e < 4, ∀ b, (State.reset.halAt e).buf b = []) ∧
      3 ≤ ({ s with boot := 3 } : State).boot ∧ s.boot < 3 ∧ f / 2 ^ 17 % 4 = 3 ∧
      (edgeRegion 0 1) / 2 ^ 17 % 4 = 1 ∧ ((g .releasing 1).region 0).st = .releasing ∧ ((g .releasing 1).region 0).stage = 1 ∧ ((g .releasing 1).region 0).at_.toNat + 128 ≤ (g .releasing 1).time.toNat ∧
      ((g .releasing 2).region 0).stage = 2 ∧ ((g .releasing 2).region 0).at_.toNat + 256 ≤ (g .releasing 2).time.toNat ∧ ({ State.reset with boot := 4, time := 320 } : State).boot = 4 ∧
      (∀ e < 4, (({ State.reset with boot := 4, time := 320 } : State).region (edgeRegion e 0)).at_.toNat + 320 ≤ ({ State.reset with boot := 4, time := 320 } : State).time.toNat) ∧
      (b.region f).st = .loading ∧ ((State.reset.setRegion f { Region.reset with st := .running }).region f).st = .running ∧ ({ b with sec := { b.sec with fwKey := 1 } } : State).sec.fwKey ≠ 0 ∧ b.mcOn = false ∧
      regionValid 0 = true ∧ b.mayWrite .firmware (regionKey 0 0x40) = true ∧ ((g .running 3).region 0).st = .running ∧ ((g .loading 0).region 0).st = .loading := by decide +kernel
theorem meets_HalyardPorts :
    let l : List ClampEntry := [⟨1, 0, 0, 0⟩, ⟨1, 0, 1, 0⟩]
    let s := State.reset.setHal 0 { Hal.reset with log := l }
    s.inReset = false ∧ s.mayWrite .firmware (halPage 0 + 0x74) = true ∧ (s.halAt 0).log = ⟨1, 0, 0, 0⟩ :: ⟨1, 0, 1, 0⟩ :: [] ∧ (State.reset.halAt 0).log.length ≤ 1 ∧ regionValid 0 = true ∧
      s.cfgMode = false ∧ ({ s with cfgMode := true } : State).cfgMode = true ∧ s.jtag = .idcode ∧ s.buf boardPort = [] ∧ s.cfgRdy = true ∧ (0 : Nat) < 128 ∧ (s.stm boardPort).opened = false ∧ (s.stm boardPort).ended = false ∧
      (s.halAt 0).bytes = [] ∧ ((3#8 ++ 2#8 ++ 1#8 ++ 0#8 : BitVec (8 + 8 + 8 + 8)).toNat ≠ 0x5A3CC3A5) := by decide +kernel
theorem meets_FabricEdges :
    let r (st : RegionState) (e : List (Nat × Nat)) (tm : Dword) : State := ({ State.reset with time := tm } : State).setRegion (collarRegion 0) { Region.reset with st := st, edges := e }
    let s := r .running [(0, 3)] 1000
    let g (s : State) := s.region (collarRegion (coreNo c0))
    s.inReset = false ∧ s.tripped = false ∧ (g s).st = .running ∧ (g (r .releasing [] 0)).st = .releasing ∧ (g s).at_.toNat + 256 ≤ s.time.toNat ∧ ¬ (g (r .running [] 0)).at_.toNat + 256 ≤ (r .running [] 0).time.toNat ∧
      Sparse.get (fun _ => 0) (g s).edges 0 = 3 ∧ (g State.reset).st ≠ .running ∧ (g State.reset).st ≠ .releasing := by decide +kernel

/-! LPDDR -/

theorem meets_MemoryWindows :
    let s := windowed State.reset
    (1 : BitVec 8) ≠ 0xFF ∧ s.window 0 1 = some (0, 2 ^ 20) ∧ 64 ≤ 2 ^ 20 ∧ State.reset.window 0 1 = none ∧ s.bit (winKey 0 1) 31 = true ∧ State.reset.bit (winKey 0 1) 31 = false ∧
      s.mayWrite .firmware (winKey 0 1) = true ∧ (0x80000000 : Word).getLsbD 31 = true := by decide +kernel
theorem capacity_covers : (0x80000000 : Word).toNat % 2 ^ 15 * (96 * 2 ^ 20) + 2 ^ 20 ≤ Config.lpddrBytes ∧ Config.lpddrBytes < (0x80007FFF : Word).toNat % 2 ^ 15 * (96 * 2 ^ 20) + 2 ^ 20 := by
  unfold Config.lpddrBytes Config.chanGiB; split <;> decide
theorem meets_MemoryLines :
    let s := { State.reset with lpoison := [(0, true)] }
    (List.replicate 64 (0 : Byte)).length = 64 ∧ State.reset.lineLost 0 = false ∧ s.lineLost 0 = false ∧ Sparse.get (fun _ => false) State.reset.lpoison 0 = false ∧
      Sparse.get (fun _ => false) s.lpoison 0 = true ∧ State.reset.bit (lpdPage 0 + 0x88) 0 = false ∧ (1 : Dword) ≠ 0xFFFFFFFFFFFFFFFF :=
  ⟨rfl, lost_none _ _ (by decide +kernel), lost_none _ _ (by decide +kernel), by decide, by decide, by decide, by decide⟩
def ch0 : Chan := ⟨0, 0⟩
theorem meets_ChannelUpkeep :
    let a := State.reset.setChan 0 { ChanRun.reset with st := .active, postponed := [(0, 8)], neighbours := [(0, [5])] }
    a.inReset = false ∧ (State.reset.chan 0).st ≠ .active ∧ (a.chan 0).st = .active ∧ (a.chan 0).helper = .none ∧ 8 ≤ Sparse.get (fun _ => 0) (a.chan 0).postponed 0 ∧
      Sparse.get (fun _ => 0) (a.chan 0).postponed 1 < 8 ∧ Sparse.get (fun _ => []) (a.chan 0).neighbours 0 = 5 :: [] ∧ Sparse.get (fun _ => []) (a.chan 0).neighbours 1 = [] ∧
      (a.setReg (lpdPage 0 + 0x44) 3).bit (lpdPage 0 + 0x44) 1 = true ∧ (a.setReg (lpdPage 0 + 0x44) 3).bit (lpdPage 0 + 0x44) 0 = true ∧ (a.setReg (lpdPage 0 + 0x44) 0).bit (lpdPage 0 + 0x44) 0 = false ∧
      ((State.reset.setChan 0 { ChanRun.reset with st := .selfRefresh }).chan 0).st = .selfRefresh ∧ Sparse.get (fun _ => false) a.lpoison (paOf 0 0 / 64) = false := by decide +kernel
theorem chanBytes_pos : 0 < chanBytes := by unfold chanBytes Config.chanGiB; split <;> decide
theorem meets_ChannelTraining :
    let t := State.reset.setChan 0 { ChanRun.reset with st := .training }
    let r := State.reset.setChan 0 { ChanRun.reset with st := .training, helper := .run }
    let f := (State.reset.setChan 0 { ChanRun.reset with st := .training, helper := .fill }).setReg (lpdPage 0 + 0x104) 5
    t.inReset = false ∧ t.mayWrite .firmware (lpdPage 0 + 0x48) = true ∧ (State.reset.chan 0).st = .untrained ∧ (t.chan 0).st = .training ∧ (t.chan 0).helper = .none ∧ (r.chan 0).helper = .run ∧
      (f.chan 0).helper = .fill ∧ f.fld (lpdPage 0 + 0x104) 0 3 = 5 ∧ (f.setReg (lpdPage 0 + 0x10C) 0).reg (lpdPage 0 + 0x10C) = 0 ∧ (f.chan 0).lost = 0 ∧ (1 : Nat) < 96 ∧ (t.chan 1).st ≠ .active ∧
      t.mayWrite .firmware (lpdPage 0 + 0x100) = true := by decide +kernel

/-! Lanes, Ethernet and time -/

def ln0 : LaneId := ⟨0, 0⟩
def pt0 : PortId := ⟨0, 0⟩
theorem meets_LaneStates :
    let s := State.reset
    let raw := s.setReg (laneKey 0 0) 0x104
    let on := s.setLane 0 { Lane.reset with st := .on, moving := false }
    let eth := (s.setReg (macPage 0 + 0x40) 0x13)
    s.inReset = false ∧ s.mayWrite .firmware (laneKey 0 0) = true ∧ raw.bit (laneKey 0 0) 2 = true ∧ raw.fld (laneKey 0 0) 8 4 ≠ 0 ∧ s.bit (laneKey 0 0) 2 = false ∧ modeSub (s.mode 0) 0 = none ∧
      modeSub (eth.mode 0) 0 = some 0 ∧ eth.bit (macPage 0 + 0x40) 4 = true ∧ (on.lane 0).moving = false ∧ (s.lane 0).moving = true ∧ (s.lane 0).want = (s.lane 0).goal ∧
      (({ Lane.reset with want := 2 } : Lane).want ≠ Lane.reset.goal) := by decide +kernel
theorem meets_LanePatterns :
    let x : Lane := { Lane.reset with st := .on, lock := true, prbs := true, scan := true, slip := true }
    let s := (State.reset.setLane 0 x).setReg (laneKey 0 8) 0x10
    s.inReset = false ∧ (s.lane 0).lock = true ∧ (s.lane 0).st = .on ∧ s.fld (laneKey 0 8) 4 4 ≠ 0 ∧ (State.reset.lane 0).lock = false ∧ (s.lane 0).prbs = true ∧ (s.lane 0).scan = true ∧
      (s.lane 0).nextScan = none ∧ (s.lane 0).slip = true ∧ s.mayWrite .firmware (laneKey 0 0x0C) = true ∧ s.mayWrite .firmware (laneKey 0 0x20) = true ∧
      s.mayWrite .firmware (laneKey 0 0x28) = true ∧ (State.reset.lane 0).st ≠ .on := by decide +kernel
def frm (n : Nat) : RxFrame := ⟨0x020000000001, 0x020000000002, none, 0x88B5, none, 0, 0, true, none, n, false, false, []⟩
theorem meets_FrameReception :
    let s := (State.reset.setReg (macPage 0 + 0x40) 0x5EE11).setReg (macPage 0 + 0x44) 1
    s.inReset = false ∧ s.mayWrite .firmware (macPage 0 + 0x40) = true ∧ s.mode 0 = 1 ∧ (1 : BitVec 3) ≠ 7 ∧ (2 : BitVec 3).toNat ≠ s.mode 0 ∧ 0 < modeSubs (s.mode 0) ∧ s.bit (macPage 0 + 0x40) 4 = true ∧
      (∀ j < 4, modeSub (s.mode 0) j = some 0 → s.bit (laneKey (0 * 4 + j) 0) 2 = false) ∧ s.bit (macPage 0 + 0x44) 0 = true ∧ State.reset.bit (macPage 0 + 0x44) 0 = false ∧
      (s.setReg (mmacPage + 0x44) 1).bit (mmacPage + 0x44) 0 = true ∧ s.jtag = .idcode ∧ (frm 63).len < 64 ∧ 64 ≤ (frm 64).len ∧ (frm 64).len ≤ s.fld (macPage 0 + 0x40) 8 14 ∧ (frm 64).pause = false ∧
      (frm 64).sci = none ∧ (frm 64).ptp = false ∧ (∀ i < 256, filterMatches (s.entry128 (filterKey 0 i)) (frm 64) 0 = false) := by decide +kernel
theorem meets_MetersAndRecovery :
    let q : Port := { Port.reset with committed := [(0, 64 * 15625)] }
    64 * 15625 ≤ Sparse.get (fun _ => 0) q.committed 0 ∧ Sparse.get (fun _ => 0) q.committed 1 < 1 * 15625 ∧ Sparse.get (fun _ => 0) q.excess 1 < 1 * 15625 ∧ State.reset.inReset = false ∧
      State.reset.time.toNat % 1024 = 0 ∧ ({ State.reset with time := 1 } : State).time.toNat % 1024 ≠ 0 ∧ (2 : Nat) ≤ 2 ∧ (RxChan.mk (some (0, 9)) none).cur = some (0, 9) ∧ 9 + 1 ≤ 10 + 0 ∧ 9 + 0 < 9 + 1 := by
  decide +kernel
theorem meets_FrameTransmission :
    let f : TxFrame := ⟨0, 64, 1, [], 0, none⟩
    let s := (State.reset.setReg (macPage 0 + 0x44) 1).setPort 0 { Port.reset with tx := [(0, [f])] }
    let t := s.setPort 0 { Port.reset with swapAt := some 0 }
    0 < 1 ∧ s.inReset = false ∧ State.reset.bit (macPage 0 + 0x44) 0 = false ∧ s.bit (macPage 0 + 0x44) 0 = true ∧ s.bit (tsnPage 0 + 0x40) 0 = false ∧ s.bit (tsnPage 0 + 0x44) 2 = false ∧
      s.sendingOn 0 0 = none ∧ s.txq 0 0 = f :: [] ∧ f.gone = 0 ∧ s.macsecTx 1 = false ∧ s.mayWrite .firmware (tsnPage 0 + 0x70) = true ∧ (s.port 0).swapAt = none ∧ (t.port 0).swapAt = some 0 ∧
      (0 : Dword).toNat ≤ t.time.toNat ∧ (s.setReg (tsnPage 0 + 0x40) 2).bit (tsnPage 0 + 0x40) 1 = true := by decide +kernel
/-- SRC 0, 1 and 2; the first lock and a later one; offsets of 1 us and just beyond; the ends of the window in which PPS_OUT rises. -/
theorem meets_TimeCommands :
    let s (x : Word) := State.reset.setReg (timePage 24 + 0x40) x
    (s 0).inReset = false ∧ (s 0).fld (timePage 24 + 0x40) 0 2 = 0 ∧ (s 1).fld (timePage 24 + 0x40) 0 2 = 1 ∧ 2 ≤ (s 2).fld (timePage 24 + 0x40) 0 2 ∧ (s 1).bit (timePage 24 + 0x44) 0 = false ∧
      ((s 1).setReg (timePage 24 + 0x44) 1).bit (timePage 24 + 0x44) 0 = true ∧ 1000 < (-1001 : Int).natAbs ∧ (1000 : Int).natAbs ≤ 1000 ∧ (s 0x80).bit (timePage 24 + 0x40) 7 = true ∧
      (0 + 5) % 1000000000 ≤ 10 ∧ (999999995 + 5) % 1000000000 ≤ 10 ∧ (5 + 5) % 1000000000 ≤ 10 ∧ State.reset.mayRead .firmware (timePage 0 + 0x48) = true := by decide +kernel
theorem meets_IdleStep : State.reset.pending = [] ∧ State.reset.inReset = false ∧ State.reset.ppsUntil ≠ some (State.reset.time + 1) ∧
    ({ State.reset with ppsUntil := some 1 } : State).ppsUntil = some (State.reset.time + 1) ∧ ({ State.reset with inReset := true } : State).inReset = true := by decide

/-! Ublexia and tenants -/

/-- A Ublexia header, VERSION 1 and SESSION 9. -/
def head (kind flags tenant seq len : Nat) : List Byte :=
  [1, BitVec.ofNat 8 kind, BitVec.ofNat 8 flags, BitVec.ofNat 8 tenant] ++ beBytes 4 (if kind = 1 then 0 else 9) ++ beBytes 4 seq ++ [0, 0, 0, 0, 0, 0, 0, 0] ++ beBytes 2 len ++ [0, 0]
def uf (b : List Byte) : UFrame := ⟨pt0, false, 1, 2, 0, 64, b⟩
/-- Tenant 1 with an open session that expects frame 1 and has credit for it, holding logical core (0, 0). -/
def sess1 : Session := { Session.closed with st := .open_, id := 9, version := 1, maxFrame := 9216, expect := 1, txSeq := 1, tokSeq := 1, creditInit := 4 }
def res1 : TenantRec := { TenantRec.empty with id := 1, rects := [⟨0, 0, 0, 0⟩], winSize := 1, ports := [pt0], creditInit := 4 }
def ten1 : Tenant := { Tenant.free with live := true, res := res1, sess := sess1, ring := { Ring.empty with size := 2 ^ 22 } }
def tenS (x : Tenant) : State := (((windowed State.reset).setReg (corePage 0 9 + 0x40) 1).setReg (State.reset.ubx 1 0x58) 4).setTenant 1 x
def cmdOf (op : Nat) (args : List Byte) : QCmd := ⟨9, 1, BitVec.ofNat 16 op, false, 7, args, false⟩
def asked (op : Nat) (args : List Byte) : State := tenS { ten1 with cmds := [cmdOf op args] }
theorem nextIs_of {s : State} {t : Nat} {c : QCmd} {op : Nat} (h : s.inReset = false ∧ s.nextCmd t = some c ∧ c.op = BitVec.ofNat 16 op ∧ knownOp t op = true) :
    s.nextIs t c op := h

/-- The state once FRAME_RECEIVE has passed a frame on. -/
def heard (s : State) (f : UFrame) : State := { s with ubxIn := [f] }
/-- A short frame, a frame of another TENANT, of another VERSION, of another SESSION, one with no session, one that has not been passed on and one on a channel of no tenant. -/
theorem meets_FrameDiscards :
    let f := uf (head 3 0 1 1 0)
    let g := uf (head 3 0 2 1 0)
    let s := heard (tenS ten1) f
    let s0 : State := { s with ubxIn := s.ubxIn.erase f }
    let b (f : UFrame) (o n : Nat) := beFld f.bytes o n
    s.inReset = false ∧ f.mgmt = false ∧ f ∈ s.ubxIn ∧ f ∉ s0.ubxIn ∧ (s.tenant f.chan.toNat).live = true ∧ ((heard State.reset f).tenant f.chan.toNat).live = false ∧ (uf (List.replicate 23 0)).bytes.length < 24 ∧
      b (uf (head 8 0 1 1 0)) 1 1 = 8 ∧ s0.ubxMalformed 1 f = false ∧ { heard s g with ubxIn := (heard s g).ubxIn.erase g }.ubxMalformed 1 g = false ∧
      b g 3 1 ≠ 1 ∧ b f 3 1 = 1 ∧ b f 1 1 ≠ 1 ∧ (s.tenant 1).sess.st ≠ .none ∧ b f 0 1 = (s.tenant 1).sess.version.toNat ∧ b f 4 4 = (s.tenant 1).sess.id.toNat ∧
      b f 4 4 ≠ ({ sess1 with id := 8 } : Session).id.toNat ∧ b f 0 1 ≠ ({ sess1 with version := 2 } : Session).version.toNat ∧ Session.closed.st = .none ∧
      (tenS { ten1 with sess := .closed }).ubxMalformed 1 f = false := by decide +kernel
def hello1 (vmin vmax : Byte) : UFrame := uf (head 1 0 1 0 8 ++ [vmin, vmax, 0, 0] ++ beBytes 2 1518 ++ [0, 0])
theorem meets_SessionOpens :
    let s := heard (tenS ten1) (hello1 1 1)
    let o := heard (tenS ten1) (hello1 2 3)
    let b (f : UFrame) (o n : Nat) := beFld f.bytes o n
    s.inReset = false ∧ (s.tenant 1).live = true ∧ hello1 1 1 ∈ s.ubxIn ∧ { s with ubxIn := s.ubxIn.erase (hello1 1 1) }.ubxMalformed 1 (hello1 1 1) = false ∧
      { o with ubxIn := o.ubxIn.erase (hello1 2 3) }.ubxMalformed 1 (hello1 2 3) = false ∧ b (hello1 1 1) 3 1 = 1 ∧ b (hello1 1 1) 1 1 = 1 ∧
      (b (hello1 1 1) 24 1 ≤ 1 ∧ 1 ≤ b (hello1 1 1) 25 1) ∧ ¬ (b (hello1 2 3) 24 1 ≤ 1) ∧ s.sec.ready = false ∧ ({ s with sec := { s.sec with ready := true } } : State).sec.ready = true ∧
      (s.tenant 1).sess.unack = [] := by decide +kernel
/-- A repeat, an early frame, the expected frame, one beyond CREDIT, an ACK frame, a device KIND; a ring with room and one without; a closing session that has nothing left to send. -/
theorem meets_SessionFrames :
    let f (k n : Nat) := uf (head k 0 1 n 0)
    let s := heard (tenS { ten1 with sess := { sess1 with expect := 5, credit := 5 } }) (f 3 5)
    let s0 : State := { s with ubxIn := s.ubxIn.erase (f 3 5) }
    let e := tenS { ten1 with sess := { sess1 with expect := 5, ending := true } }
    let b (f : UFrame) (o n : Nat) := beFld f.bytes o n
    let d (n : Nat) : Int := (BitVec.ofNat 32 (b (f 3 n) 8 4) - (s.tenant 1).sess.expect).toInt
    s.inReset = false ∧ f 3 5 ∈ s.ubxIn ∧ (s.tenant 1).live = true ∧ s0.ubxMalformed 1 (f 3 5) = false ∧ s0.ubxMalformed 1 (f 4 0) = false ∧ s0.ubxMalformed 1 (f 5 5) = false ∧ b (f 3 5) 3 1 = 1 ∧ (s.tenant 1).sess.st = .open_ ∧
      b (f 3 5) 0 1 = (s.tenant 1).sess.version.toNat ∧ b (f 3 5) 4 4 = (s.tenant 1).sess.id.toNat ∧ b (f 4 0) 1 1 = 4 ∧ b (f 5 5) 1 1 = 5 ∧ b (f 3 5) 1 1 = 3 ∧ d 4 < 0 ∧ 0 < d 6 ∧ d 5 = 0 ∧
      (s.tenant 1).sess.ending = false ∧ (e.tenant 1).sess.st = .open_ ∧ (e.tenant 1).sess.ending = true ∧ (e.tenant 1).sess.unack = [] ∧ (e.tenant 1).replies = [] ∧ (e.tenant 1).events = [] ∧ (e.tenant 1).progEvents = [] ∧
      ((BitVec.ofNat 32 5) - (s.tenant 1).creditNow).toInt ≤ 0 ∧
      0 < ((BitVec.ofNat 32 5) - ({ ten1 with sess := { sess1 with expect := 5, creditInit := 0 } } : Tenant).creditNow).toInt ∧ s.epochDue 1 = false ∧ (s.tenant 1).ring.full = false ∧
      (s.tenant 1).ring.used + (recordBytes 1 0 0 ((f 3 5).bytes.take 24)).length + 2 ^ 20 ≤ (s.tenant 1).ring.size ∧
      Ring.empty.size < Ring.empty.used + (recordBytes 1 0 0 ((f 3 5).bytes.take 24)).length + 2 ^ 20 ∧ parseCmds 9 5 1 [] = some [] ∧ parseCmds 9 5 1 [0] = none ∧ b (f 3 5) 2 1 = 0 ∧
      b (uf (head 3 1 1 5 0)) 2 1 = 1 := by decide +kernel
theorem meets_CommandBodies : ([1, 2, 3] : List Byte).length < 65536 ∧ ([0] : List Byte).length < 4 ∧ (([1, 2, 3] : List Byte).length + ([0] : List Byte).length) % 4 = 0 ∧
    (∀ x ∈ ([0] : List Byte), x = 0) ∧ (∃ x ∈ ([5] : List Byte), x ≠ 0) ∧ 14 < 12 + ([1, 2, 3] : List Byte).length := by decide
theorem tagBytes_le (t : Nat) : (tagBytes t).length ≤ 4 := by
  unfold tagBytes
  split <;> simp [beBytes, leBytes]
theorem room_of (t m : Nat) {k : Nat} (h : k ≤ 32) (h2 : 102 ≤ m) : 66 + (tagBytes t).length + k ≤ m := by
  have := tagBytes_le t
  omega
theorem replyRoom_of (s : State) (t : Nat) {n : Nat} (h : s.macsecBytes t ≤ 32) (h2 : n + 90 ≤ (s.tenant t).sess.maxFrame) : n ≤ s.replyRoom t := by
  have := tagBytes_le t
  unfold State.replyRoom State.bodyRoom
  omega
/-- One held frame, resends left and used up; a reply; an event; 64 frames held. -/
theorem meets_DeviceFrames :
    let u : DevFrame := ⟨6, 1, []⟩
    let r : Reply := ⟨9, 1, 7, 1, 0, []⟩
    let ev : EvRec := ⟨0x7001, 0, 0, 0, 0, 0, 0, 0⟩
    let s := tenS { ten1 with sess := { sess1 with unack := [u], ackDue := true }, replies := [r], events := [ev] }
    let x := (s.tenant 1).sess
    (66 + (tagBytes 1).length + s.macsecBytes 1 ≤ x.maxFrame) ∧ s.inReset = false ∧ x.st = .open_ ∧ x.ackDue = true ∧ x.unack = [u] ∧ x.resends < s.fld (edgePage 0 0xF030 + 0x44) 24 4 ∧
      s.fld (edgePage 0 0xF030 + 0x44) 24 4 ≤ ({ sess1 with resends := 15 } : Session).resends ∧ (s.tenant 1).cmds = [] ∧ (s.tenant 1).nextCmd = none ∧ (∀ c ∈ (s.tenant 1).cmds, c.started = false) ∧ x.unack.length < 64 ∧ (s.tenant 1).replies = [r] ∧
      (s.tenant 1).events ++ (s.tenant 1).progEvents = [ev] ∧ (s.tenant 1).lostEvents = 0 ∧ 64 ≤ (List.replicate 64 u).length ∧ Session.closed.st = .none :=
  ⟨room_of 1 sess1.maxFrame (by decide +kernel) (by decide +kernel), by decide +kernel⟩
/-- COUNT 0, 1, 16 and 17; a home page and another; user 5 with STEP 3; a program event. -/
theorem meets_TokensAndEvents :
    let s := (tenS ten1).modCore 0 (fun c => { c with events := [0x10] })
    let g : Go := ⟨0, 0, 3, [(5, 1)]⟩
    let k : TokFrame := ⟨2, 3, [(5, 1)]⟩
    s.inReset = false ∧ s.mayWrite (.program c0) (edgePage 0 (0xF040 + 1) + 0x108) = true ∧ (0 : BitVec 5).toNat = 0 ∧ 16 < (17 : BitVec 5).toNat ∧ 1 ≤ (16 : BitVec 5).toNat ∧ (16 : BitVec 5).toNat ≤ 16 ∧
      (s.tenant 1).live = true ∧ (s.tenant 1).res.home = 0 ∧ (s.tenant 1).res.home ≠ 1 ∧ (g.pairs.map (fun q => q.1)).Nodup ∧ (s.tenant 1).replay = none ∧ (s.tenant 1).goes = [] ∧ s.epochDue 1 = false ∧ (s.tenant 1).suppressed = [] ∧ (s.tenant 1).sess.st = .open_ ∧
      ((tenS { ten1 with suppressed := [k] }).tenant 1).suppressed = [k] ∧ k.pairs = g.pairs ∧ ((tenS { ten1 with goes := [g] }).tenant 1).goes = [g] ∧
      g.pairs.filter (fun q => decide (q.1.toNat ≤ 4095) && decide (Sparse.get (fun _ => 0) (s.tenant 1).highest q.1.toNat ≤ g.step.toNat)) ≠ [] ∧
      (s.tenant 1).ring.used + 64 ≤ (s.tenant 1).ring.size ∧ (s.core 0).events = 0x10 :: [] ∧ (s.tenant (s.niTenant 0).toNat).live = true ∧ (s.tenant (s.niTenant 0).toNat).progEvents.length < 64 ∧
      64 ≤ (List.replicate 64 (0 : Nat)).length ∧ (State.reset.tenant (State.reset.niTenant 0).toNat).live = false ∧ s.tripped = false := by decide +kernel

/-! Commands of a host -/

theorem meets_CommandStarts :
    let c := cmdOf 0x01 []
    let d := cmdOf 0x14 []
    let x : Tenant := { ten1 with cmds := [{ c with started := true }, d] }
    let s := asked 0 []
    x.cmds = { c with started := true } :: [d] ∧ x.sess.unack.length < 64 ∧ 64 ≤ (List.replicate 64 (⟨6, 1, []⟩ : DevFrame)).length ∧ d.started = false ∧ d ≠ { c with started := true } ∧ d.order = false ∧
      ({ d with order := true } : QCmd).order = true ∧ s.inReset = false ∧ ((tenS ten1).tenant 1).nextCmd = none ∧ (s.tenant 1).nextCmd = some (cmdOf 0 []) ∧ s.nextCmd 1 = some (cmdOf 0 []) ∧ s.reefs = [] ∧
      (∃ r ∈ ({ s with reefs := [⟨1, 0, 0, 0, some 5, false, 0, 0, [], false, []⟩] } : State).reefs, r.t = 1 ∧ r.new.isSome = true) ∧ Session.closed.st = .none ∧ ({ ten1 with sess := .closed } : Tenant).sess.st = .none ∧ (cmdOf 0 []).op.toNat ≠ 0x01 ∧
      (1 : Nat) ∉ ([0] : List Nat) ∧ (cmdOf 0 []).op = 0 ∧ 0x61 ≤ (cmdOf 0x61 []).op.toNat ∧ (cmdOf 0x100 []).op.toNat / 256 = 1 ∧ (∀ d ∈ (s.tenant 1).cmds, d.started = false) := by decide +kernel
theorem meets_CommandStarts_next : (asked 0x12 []).nextIs 1 (cmdOf 0x12 []) 0x12 := nextIs_of (by decide +kernel)
/-- A DELIVER of 8 bytes to the RECT (0, 0) to (0, 0); a WRITE_MEM of 8 bytes to the core, the window and fabric RAM; a CTRL_WRITE of NI_TENANT, which a runtime may not write, and of VEC_FLAGS. -/
def deliver1 : List Byte := [0, 0, 0, 0, 0, 0, 0, 0, 0, 0, 0, 0, 0, 0, 0, 0] ++ List.replicate 8 1
def ctrl1 (page off : Byte) : List Byte := [0, 0, 0, 0, 0, 0, 0, 0, page, 0, 0, off, 0, 0, 0, 1]
theorem meets_HostWrites :
    (asked 0x01 []).nextIs 1 (cmdOf 0x01 []) 0x01 ∧ (asked 0x02 []).nextIs 1 (cmdOf 0x02 []) 0x02 ∧ (asked 0x10 deliver1).nextIs 1 (cmdOf 0x10 deliver1) 0x10 ∧
    (asked 0x11 deliver1).nextIs 1 (cmdOf 0x11 deliver1) 0x11 ∧ (asked 0x13 (ctrl1 4 0x40)).nextIs 1 (cmdOf 0x13 (ctrl1 4 0x40)) 0x13 ∧
    (let s := asked 0x10 deliver1
     (s.tenant 1).replay = none ∧ beFld deliver1 8 4 + (deliver1.drop 16).length ≤ 2 ^ 20 ∧ deliver1.length = 24 ∧ (s.tenant 1).owns 0 0 = true ∧ (s.tenant 1).owns 1 0 = false ∧
       tenantOk (s.niTenant (s.physOf 0 0)) 1 = true ∧ tenantOk (State.reset.niTenant (State.reset.physOf 0 0)) 1 = false ∧ s.markOf (s.physOf 0 0) ≠ .removed ∧
       ((s.mark 0 .removed).markOf ((s.mark 0 .removed).physOf 0 0) = .removed) ∧ memAddrOk 0 = true ∧ spaceOf (2 ^ 56) = 1 ∧ spaceOf (2 ^ 57) = 2 ∧ s.windowLines 1 0 8 = .ok [0] ∧
       s.windowLines 1 (2 ^ 20) 8 = .error Code.netPartition ∧ (s.chan (chanCo 0).1).st ≠ .active ∧ (s.chan (chanCo 0).1).st ≠ .offline ∧ s.framCode 1 0 0 8 true ≠ 0 ∧ (s.dirAt 0).txn = none ∧
       s.mayWrite (.runtime 1) (corePage 0 9 + 0x40) = false ∧ s.mayWrite (.runtime 1) (corePage 0 4 + 0x40) = true ∧ (ctrl1 4 0x40).length = 16) :=
  ⟨nextIs_of (by decide +kernel), nextIs_of (by decide +kernel), nextIs_of (by decide +kernel), nextIs_of (by decide +kernel), nextIs_of (by decide +kernel), by decide +kernel⟩
def read1 (hi len : Byte) : List Byte := [hi, 0, 0, 0, 0, 0, 0, 0, 0, 0, 0, len]
theorem meets_HostReads :
    (asked 0x12 (read1 0 8)).nextIs 1 (cmdOf 0x12 (read1 0 8)) 0x12 ∧ (asked 0x14 [0, 0, 0, 0, 8, 0, 0, 0x8C]).nextIs 1 (cmdOf 0x14 [0, 0, 0, 0, 8, 0, 0, 0x8C]) 0x14 ∧
    8 ≤ (asked 0x12 (read1 0 8)).replyRoom 1 ∧
    (let s := asked 0x12 (read1 0 8)
     let p := s.modCore 0 (fun c => { c with poison := [(0, true)] })
     (read1 0 8).length = 12 ∧ memAddrOk (beFld (read1 0 8) 0 8) = true ∧ beFld (read1 0 8) 8 4 = 8 ∧ memAddrOk (beFld (read1 4 8) 0 8) = false ∧ 7 % 8 ≠ 0 ∧
       (s.core 0).poisonedAt 0 8 = false ∧ (p.core 0).poisonedAt 0 8 = true ∧ s.mayRead (.runtime 1) (corePage 0 8 + 0x8C) = true ∧ coversRdata (corePage 0 8 + 0x8C) false = true ∧
       coversRdata (corePage 0 8 + 0x84) false = false ∧ s.mayWrite (.runtime 1) (corePage 0 8 + 0x8C) = true ∧ (s.setRegion (collarRegion 0) { Region.reset with st := .running }).shrouded 0 = false ∧
       Sparse.get (fun _ => false) s.lpoison 0 = false) := ⟨nextIs_of (by decide +kernel), nextIs_of (by decide +kernel), replyRoom_of _ _ (by decide +kernel) (by decide +kernel), by decide +kernel⟩

/-- A tenant with cores (0, 0) and (1, 0), whose routers are brought up; RESERVE of one link from one to the other. -/
def res2 : TenantRec := { res1 with rects := [⟨0, 1, 0, 0⟩], filters := 2, regions := [(0, 1)] }
def twoCores (x : Tenant) : State := ((tenS { x with res := res2 }).setReg (rtrPage 0 + 0x40) 0x200).setReg (rtrPage 1 + 0x40) 0x201
def resv (i : Nat) : Reservation := ⟨5, 900, 0, 0, 1, 0, [i], []⟩
def reserve1 : List Byte := [5, 0] ++ beBytes 2 900 ++ [0, 0, 0, 0, 0, 1, 0, 0, 0, 1, 0, 0, 0, 3]
/-- A halyard stream of tenant 1 with its own CRC, in the window. -/
def image : List Word :=
  let h : List Word := [0x5A3CC3A5, 0, 7, 0, 0x09000000]
  h ++ [~~~ (h.foldl crcWord 0xFFFFFFFF), 0x0A000000]
def load1 : List Byte := [0, 0, 0, 0, 0, 0, 0, 0, 0, 0, 0, 7, 0, 0, 0, 0]
def loads (l : List Word) : State :=
  let s := ((asked 0x20 load1).setChan (chanCo 0).1 { ChanRun.reset with st := .active }).setReg (lpdPage (chanCo 0).1 + 0x4C) 0
  { s with lpddr := Memory.writeN [] 0 ((l.map (fun w => leBytes 4 w.toNat)).flatten) }
theorem loads_lines : (loads image).windowLines 1 0 28 = .ok [0] ∧ (loads []).windowLines 1 0 28 = .ok [0] := by decide +kernel
theorem loads_got : ((loads image).atLines 1 0 28 (fun s ls => s.readWindow 0 28 ls)).map (fun q => q.2) = some (0, bytesAt (Memory.readN ((loads image).recall 0 true).lpddr 0 64) 0 28) ∧
    imageCrcOk (wordsOfBytes (bytesAt (Memory.readN ((loads image).recall 0 true).lpddr 0 64) 0 28)).1 = true :=
  ⟨(loads image).atLines_one 1 0 28 0 loads_lines.1 (by decide +kernel) (by decide +kernel) (by decide +kernel) (lost_none _ _ (by decide +kernel)) (by decide +kernel), by decide +kernel⟩
theorem loads_got0 : ((loads []).atLines 1 0 28 (fun s ls => s.readWindow 0 28 ls)).map (fun q => q.2) = some (0, bytesAt (Memory.readN ((loads []).recall 0 true).lpddr 0 64) 0 28) ∧
    imageCrcOk (wordsOfBytes (bytesAt (Memory.readN ((loads []).recall 0 true).lpddr 0 64) 0 28)).1 = false :=
  ⟨(loads []).atLines_one 1 0 28 0 loads_lines.2 (by decide +kernel) (by decide +kernel) (by decide +kernel) (lost_none _ _ (by decide +kernel)) (by decide +kernel), by decide +kernel⟩

theorem meets_RegionCommands :
    let got (s : State) := s.atLines 1 0 28 (fun s ls => s.readWindow 0 28 ls)
    let ld : State := tenS { ten1 with cmds := [{ cmdOf 0x20 [] with started := true }] }
    (asked 0x20 load1).nextIs 1 (cmdOf 0x20 load1) 0x20 ∧ (asked 0x21 [0, 0, 0, 0, 0, 0, 0, 0]).nextIs 1 (cmdOf 0x21 [0, 0, 0, 0, 0, 0, 0, 0]) 0x21 ∧
      (load1.length = 16 ∧ beFld load1 12 4 = 0 ∧ beFld load1 8 4 = 7 ∧ (loads image).portFree ⟨0, false⟩ = true ∧ (asked 0x20 load1).portFree ⟨0, false⟩ = true ∧ (got (asked 0x20 load1)).isNone = true ∧
        (asked 0x20 load1).windowLines 1 (2 ^ 20) 28 = .error Code.netPartition ∧ Code.netPartition ≠ 0 ∧
        (loads []).portFree ⟨0, false⟩ = true ∧ ld.portFree ⟨0, false⟩ = false ∧
        tenantOk ((asked 0x21 []).niTenant ((asked 0x21 []).physOf 0 0)) 1 = true ∧ ((asked 0x21 []).tenant 1).owns 0 0 = true ∧ ((asked 0x21 []).tenant 1).owns 5 0 = false ∧
        (asked 0x21 []).markOf 0 ≠ .removed ∧ (∃ r ∈ ((twoCores ten1).tenant 1).res.regions, r.1.val * 16 + r.2.val = 1)) :=
  ⟨nextIs_of (by decide +kernel), nextIs_of (by decide +kernel), by decide +kernel⟩
/-- A load that runs on: all regions RUNNING, one FAILED, one still loading; a rejection; not yet ended. -/
theorem meets_RegionCommands_ends :
    let c : QCmd := { cmdOf 0x20 (List.replicate 48 0 ++ beBytes 3 (collarRegion 0)) with started := true }
    let s : State := (tenS { ten1 with cmds := [c], sess := .closed })
    let at1 (st : RegionState) : State := s.setRegion (collarRegion 0) { Region.reset with st := st }
    s.inReset = false ∧ (s.tenant 1).cmds = [c] ∧ c.started = true ∧ c.op = 0x20 ∧ (s.tenant 1).sess.st = .none ∧ beFld c.args 48 3 = collarRegion 0 ∧ ((at1 .running).region (collarRegion 0)).st = .running ∧
      ((at1 .failed).region (collarRegion 0)).st = .failed ∧ ((at1 .loading).region (collarRegion 0)).st ≠ .running ∧ (s.reg (resKey ⟨(s.tenant 1).res.home, false⟩)).toNat % 4 ≠ 2 ∧
      ((s.setReg (resKey ⟨0, false⟩) 0x10010002).reg (resKey ⟨0, false⟩)).toNat % 4 = 2 ∧ ((s.setReg (resKey ⟨0, false⟩) 1).reg (resKey ⟨0, false⟩)).toNat % 4 = 1 := by decide +kernel

theorem meets_ReservationCommands :
    let s := twoCores { ten1 with cmds := [cmdOf 0x30 reserve1] }
    let d (op : Nat) (a : List Byte) := twoCores { ten1 with cmds := [cmdOf op a], streams := [resv 3] }
    s.nextIs 1 (cmdOf 0x30 reserve1) 0x30 ∧ (d 0x31 [5, 0, 0, 0]).nextIs 1 (cmdOf 0x31 [5, 0, 0, 0]) 0x31 ∧ (d 0x32 (List.replicate 36 0)).nextIs 1 (cmdOf 0x32 (List.replicate 36 0)) 0x32 ∧
      (reserve1.length = 18 ∧ beFld reserve1 12 2 = 1 ∧ s.swapFree = true ∧ (s.modCore 0 (fun c => { c with rt0 := .draining })).swapFree = false ∧ (s.copyBanks.reserveOk 1 (resv 3)).isSome = true ∧
        s.copyBanks.streamPath 0 0 1 0 = some [⟨0, 4, 0⟩] ∧ s.copyBanks.streamPath 0 0 0 0 = some [] ∧ (asked 0 []).copyBanks.streamPath 0 0 1 0 = none ∧ (s.tenant 1).owns 0 0 = true ∧ (s.tenant 1).owns 2 0 = false ∧
        ((d 0x31 []).tenant 1).streams = [resv 3] ∧ (resv 3).stream.toNat = 5 ∧ (tenS { ten1 with sess := .closed, cmds := [{ cmdOf 0x31 [5, 0, 0, 0] with started := true }] }).swapFree = true ∧
        (s.setReg (rtrPage 0 + 0x400) 0x8000).copyBanks.slotTaken 0 0 3 = true ∧ beFld (List.replicate 36 0) 4 16 / 2 ^ 111 % 8 ≤ 1 ∧ 0 < res2.filters ∧ res2.filterBase + res2.filters ≤ 256 ∧ res2.meter < 128 ∧
        (∀ p ∈ res2.ports, (s.port (portNo p)).swapAt = none)) :=
  ⟨nextIs_of (by decide +kernel), nextIs_of (by decide +kernel), nextIs_of (by decide +kernel), by decide +kernel⟩

/-- The replay of a tenant whose domain is (0, 0), with no journal entries; a REPLAY_DECLARE of that domain. -/
def rp0 : Replay := { jbase := 0, jsize := 4096, rb := 0, domain := [⟨0, 0, 0, 0⟩], slots := [], newer := 0, upTo := 0, log := [], redo := [], diverged := false }
def declare1 (hi : Byte) : List Byte := [0, 0, 0, 0, 0, 0, 0, 0, 0, 0, 0, 0, hi, 0, 0x10, 0, 0, 0, 0, 0] ++ List.replicate 12 0
def image1 (x len : Byte) : List Byte := [0, x, 0, 0, 0, 0, 0, 0, 0, 0, 0, 0, 0, 0, 0, len]
/-- The bytes of a record of the ring, and the state that holds them. -/
def note1 : List Byte := recordBytes 1 3 0 [1, 2, 3, 4]
def replayed (op : Nat) (a : List Byte) : State :=
  { tenS { ten1 with cmds := [cmdOf op a], replay := some rp0, ring := { ten1.ring with recs := [⟨1, 3, 0, [1, 2, 3, 4], 0, note1.length⟩], used := note1.length } } with lpddr := Memory.writeN [] ten1.ring.base note1 }
theorem meets_ReplayCommands :
    let s := replayed
    (s 0x40 (declare1 0)).nextIs 1 (cmdOf 0x40 (declare1 0)) 0x40 ∧ (s 0x41 []).nextIs 1 (cmdOf 0x41 []) 0x41 ∧ (s 0x42 [0, 0, 0, 0]).nextIs 1 (cmdOf 0x42 [0, 0, 0, 0]) 0x42 ∧
      (s 0x43 [0, 0, 0, 0, 0, 0, 0, 64]).nextIs 1 (cmdOf 0x43 [0, 0, 0, 0, 0, 0, 0, 64]) 0x43 ∧ (s 0x44 (image1 0 8)).nextIs 1 (cmdOf 0x44 (image1 0 8)) 0x44 ∧
      beFld (image1 0 8) 12 4 ≤ (s 0 []).replyRoom 1 ∧
      (let u := s 0 []
       let b := beFld (declare1 0)
       (declare1 0).length = 32 ∧ b 20 4 = 0 ∧ b 16 4 + 32 ≤ 2 ^ 20 ∧ b 24 2 = 0 ∧ b 26 2 = 0 ∧ b 28 2 = 0 ∧ b 30 2 = 0 ∧ (u.tenant 1).owns 0 0 = true ∧
         b 0 8 + b 8 8 ≤ (u.tenant 1).res.winSize * 2 ^ 20 ∧ (u.tenant 1).res.winSize * 2 ^ 20 < beFld (declare1 1) 0 8 + beFld (declare1 1) 8 8 ∧ (u.tenant 1).replay = some rp0 ∧ u.reefs = [] ∧ ((u.tenant 1).ring.recs.all (fun x => u.readable (u.tenant 1).ring x && decide (x.size ≤ (u.tenant 1).ring.size))) = true ∧ ((u.tenant 1).ring.recs.any (fun x => !({ u with lpddr := [] } : State).readable (u.tenant 1).ring x)) = true ∧
         ((asked 0 []).tenant 1).replay = none ∧ u.physOf 0 0 = homeNo 0 0 ∧ (0, 0) ∈ rp0.cores.map (fun p => p.1) ∧ (1, 0) ∉ rp0.cores.map (fun p => p.1) ∧ (image1 0 8).length = 16 ∧
         ((u.setPhys 0 0 7).physOf 0 0 ≠ homeNo 0 0) ∧ (((u.setPhys 0 0 7).mark 0 .repatriable).markOf (homeNo 0 0) = .repatriable) ∧ ((u.setPhys 0 0 7).mark 0 .repatriable).swapFree = true ∧ (u.region (collarRegion 7)).image = none ∧ (u.region (collarRegion 0)).st = .empty ∧ ((u.setPhys 0 0 7).isFailed 7 = false) ∧
         ((u.setPhys 0 0 7).modCore 0 (fun c => { c with rt0 := .draining })).swapFree = false) :=
  ⟨nextIs_of (by decide +kernel), nextIs_of (by decide +kernel), nextIs_of (by decide +kernel), nextIs_of (by decide +kernel), nextIs_of (by decide +kernel), replyRoom_of _ _ (by decide +kernel) (by decide +kernel), by decide +kernel⟩

theorem meets_SeedAndAttest :
    let up (s : State) : State := { s with sec := { s.sec with ready := true } }
    let a := asked 0x50 (List.replicate 12 0)
    let b := asked 0x60 (List.replicate 48 0)
    a.nextIs 1 (cmdOf 0x50 (List.replicate 12 0)) 0x50 ∧ b.nextIs 1 (cmdOf 0x60 (List.replicate 48 0)) 0x60 ∧ (up a).nextIs 1 (cmdOf 0x50 (List.replicate 12 0)) 0x50 ∧ (up b).nextIs 1 (cmdOf 0x60 (List.replicate 48 0)) 0x60 ∧
      (a.sec.ready = false ∧ (up a).sec.ready = true ∧ a.epochDue 1 = false ∧ (a.tenant 1).ring.used + (recordBytes 2 0 0 (List.replicate 20 0)).length ≤ (a.tenant 1).ring.size ∧
        ({ Ring.empty with size := 40, used := 8 } : Ring).size < ({ Ring.empty with size := 40, used := 8 } : Ring).used + (recordBytes 2 0 0 (List.replicate 20 0)).length) :=
  ⟨nextIs_of (by decide +kernel), nextIs_of (by decide +kernel), nextIs_of (by decide +kernel), nextIs_of (by decide +kernel), by decide +kernel⟩

/-- The admin with a command in front; the record of tenant 2; a module that is ready and holds a key of tenant 2. -/
def admin (op : Nat) (s : State) : State := s.setTenant 255 { Tenant.free with live := true, cmds := [cmdOf op []] }
def rec2 : TenantRec := { TenantRec.empty with id := 2, rects := [⟨2, 2, 0, 0⟩], winBase := 1, winSize := 1, ports := [pt0], mac := 2, filterBase := 2, filters := 2, meter := 1, ringBase := 192 * 2 ^ 20, ringMiB := 4, creditInit := 4 }
def allReady (s : State) : State := s.setReg (edgePage 0 0xF090 + 0x70) 0x7FFF
theorem meets_TenantCommands :
    (admin 0x100 (tenS ten1)).nextIs 255 (cmdOf 0x100 []) 0x100 ∧ (admin 0x101 (tenS ten1)).nextIs 255 (cmdOf 0x101 []) 0x101 ∧ (admin 0x102 (tenS ten1)).nextIs 255 (cmdOf 0x102 []) 0x102 ∧
      (let s := admin 0x100 (tenS ten1)
       recordOk rec2 = true ∧ recordOk { rec2 with id := 0 } = false ∧ (s.tenant 1).live = true ∧ (s.tenant 2).live = false ∧ s.ready 0 = false ∧ (∀ i < 15, (allReady s).ready i = true) ∧
         recordsMeet { rec2 with rects := [⟨0, 3, 0, 0⟩] } (s.tenant 1).res = true ∧ 1 ∈ s.liveTenants ∧ (∀ an < 4, (s.keyAn 2 an).loaded = false) ∧
         ({ s with sec := { s.sec with keys := [(8, ⟨true, 0, 0, 0, 0⟩)] } } : State).keyAn 2 0 = ⟨true, 0, 0, 0, 0⟩ ∧ (s.cutOff 1).destroyWaits 1 = false ∧
         ((s.setRegion (collarRegion 0) { Region.reset with st := .loading }).cutOff 1).destroyWaits 1 = true ∧ (0, 0) ∈ rectCores (s.tenant 1).res.rects ∧ (s.blk (corePage 0 0)).moving = false ∧
         ¬ (((tenS ten1).tenant 255).nextCmd.map (fun d => d.op.toNat) = some 0x100)) :=
  ⟨nextIs_of (by decide +kernel), nextIs_of (by decide +kernel), nextIs_of (by decide +kernel), by decide +kernel⟩
theorem meets_TenantCommands_free : (allReady (admin 0x100 (tenS ten1))).resourcesFree rec2 = true := by
  have h : ∀ e < 4, (allReady (admin 0x100 (tenS ten1))).windowFits e 2 (recWindow rec2).1 (recWindow rec2).2 = true ∧ (allReady (admin 0x100 (tenS ten1))).windowFits e 0 (recRing rec2).1 (recRing rec2).2 = true := by
    unfold State.windowFits Config.lpddrBytes Config.chanGiB
    split <;> decide +kernel
  have a : (allReady (admin 0x100 (tenS ten1))).liveTenants.all (fun t => !recordsMeet rec2 ((allReady (admin 0x100 (tenS ten1))).tenant t).res) = true := by decide +kernel
  have m : rangesMeet (recWindow rec2) (recRing rec2) = false := by decide
  have hid : rec2.id.toNat = 2 := by decide
  unfold State.resourcesFree
  rw [a, m, hid]
  simp only [Bool.true_and, Bool.not_false, Bool.and_true, List.all_eq_true, List.mem_range, Bool.and_eq_true]
  exact h

/-! The module: security, power, pages, reset -/

/-- The security block out of reset, with a commit, an import or a test going on. -/
def sec1 (f : Sec → Sec) : State := { State.reset with sec := f State.reset.sec }
theorem meets_SecurityCommands :
    let s := State.reset
    let pg := edgePage 0 0xF080
    s.inReset = false ∧ s.sec.commit = none ∧ (sec1 (fun x => { x with commit := some (1, 3) })).sec.commit = some (1, 3) ∧ s.sec.loadedFw ≤ 64 ∧ 64 < (sec1 (fun x => { x with loadedFw := 65 })).sec.loadedFw ∧
      s.mayWrite .firmware (pg + 0x44) = true ∧ s.mayWrite (.runtime 1) (pg + 0x44) = false ∧ (sec1 (fun x => { x with fwKey := 2 })).sec.fwKey = 2 ∧ (sec1 (fun x => { x with fwKey := 1 })).sec.fwKey = 1 ∧
      s.sec.owner = none ∧ (sec1 (fun x => { x with owner := some [] })).sec.owner ≠ none ∧ s.sec.importing = none ∧ (sec1 (fun x => { x with importing := some (5, .bad) })).sec.importing = some (5, .bad) ∧ (sec1 (fun x => { x with importing := some (5, .key 0 0 0) })).sec.importing = some (5, .key 0 0 0) ∧
      Sparse.get (fun _ => 0) s.sec.txAn (5 / 4) ≠ 5 % 4 + 1 ∧ Sparse.get (fun _ => 0) (sec1 (fun x => { x with txAn := [(1, 2)] })).sec.txAn (5 / 4) = 5 % 4 + 1 ∧
      s.sec.testing = true ∧ (sec1 (fun x => { x with testing := false })).sec.testing = false ∧ s.sec.ready = false ∧ (sec1 (fun x => { x with ready := true })).sec.ready = true ∧
      s.mayWrite .firmware (rngPage (coreNo c0) + 0x60) = true ∧ (s.reg (pg + 0x18)).setWidth 16 = (0 : BitVec 16) ∧ (∀ d < 4, Sparse.get (fun _ => 0) s.sec.loadedShell d = 0) ∧ (0 : Nat) ≤ 2 ^ 32 ∧ s.sec.seeded.toNat + 1000000 ≤ ({ s with time := 1000000 } : State).time.toNat ∧ s.time.toNat < s.sec.seeded.toNat + 1000000 ∧
      s.sec.served < 65536 ∧ 65536 ≤ (sec1 (fun x => { x with served := 65536 })).sec.served := by decide +kernel

/-- Voltages at the ends of the bands: 37.999, 38, 39.999, 40, 58, 58.001 and 60 V. -/
theorem meets_ResetAndInput :
    let s := State.reset
    s.resetN = true ∧ s.inReset = false ∧ s.pwrOk = true ∧ ({ s with resetN := false } : State).resetN = false ∧ ({ s with pwrOk := false } : State).pwrOk = false ∧ s.releaseWaits = false ∧
      ({ s with releaseWaits := true } : State).releaseWaits = true ∧ s.sec.commit = none ∧ (sec1 (fun x => { x with commit := some (1, 3) })).sec.commit = some (1, 3) ∧
      37999 < 38000 ∧ 38000 ≤ 38000 ∧ 38000 < 40000 ∧ ¬ (40000 < 40000) ∧ 40000 ≤ 40000 ∧ 58000 ≤ 58000 ∧ 58000 < 58001 ∧ 60000 ≤ 60000 := by decide +kernel
theorem meets_ResetLines : State.reset.inReset = (!State.reset.resetN || !State.reset.pwrOk) ∧ State.reset.releaseWaits = (State.reset.resetN && !State.reset.pwrOk) := by decide

/-- At the bound and above it; the ceiling at 2,000 and at 900; a scale of 256 and of less; a junction that is hot. -/
theorem meets_GovernorAndClocks :
    let s := State.reset
    let pg := edgePage 0 0xF090
    let g2 (u : State) : Nat := u.fld (pg + 0x4C) 0 12 * 2 + b2n u.ceilHalf
    let bound := min (s.fld (pg + 0x40) 0 16) (48000 * 330 / 1000)
    let low := (s.setReg (pg + 0x4C) 900).setReg (pg + 0x50) 100
    s.inReset = false ∧ bound = 15000 ∧ min (s.fld (pg + 0x40) 0 16) (40000 * 330 / 1000) = 13200 ∧ ¬ s.fld (pg + 0x44) 8 8 * 8 < s.fld (pg + 0x64) 0 12 ∧ (s.setReg (pg + 0x64) 0xFFF).fld (pg + 0x44) 8 8 * 8 < (s.setReg (pg + 0x64) 0xFFF).fld (pg + 0x64) 0 12 ∧
      g2 s = 4000 ∧ s.fld (pg + 0x50) 0 9 = 256 ∧ g2 low = 1800 ∧ low.fld (pg + 0x50) 0 9 = 100 ∧ 14549 * 100 < s.fld (pg + 0x60) 0 16 * 97 ∧ s.fld (pg + 0x60) 0 16 * 97 ≤ 14550 * 100 ∧
      s.mayWrite .firmware (timePage 0 + 0x90) = true ∧ s.mayWrite .firmware (timePage 24 + 0x90) = true ∧ s.overTj = false ∧ s.fld (pg + 0x44) 8 8 * 8 < min 4095 4095 ∧ s.fld (pg + 0x6C) 0 4 = 0 ∧
      s.hotJunction = false ∧ (s.setReg (lpdPage 0 + 0x40) 0x10).bit (lpdPage 0 + 0x40) 4 = true := by decide +kernel
theorem meets_ChannelsCool : ∀ ch < 96, State.reset.bit (lpdPage ch + 0x40) 4 = false := by decide +kernel
theorem meets_TrippedHolds : ({ State.reset with tripped := true } : State).tripped = true := rfl

/-- The vector page of core 0: at rest, in transition, in transition with a SOFT_RESET waiting. -/
def vec0 : PageId := ⟨0, 0, 4⟩
theorem meets_BlockPower :
    let s := State.reset
    let pg := PageId.key vec0
    let p := s.blk pg
    let t (due : Bool) : State := s.setBlk pg { p with moving := true, resetDue := due }
    s.inReset = false ∧ headBlk vec0 = some .vec ∧ headPage .vec pg = pg ∧ p.moving = false ∧ p.on = true ∧ p.on ≠ false ∧ s.mayWrite .firmware pg = true ∧ ((t false).blk pg).moving = true ∧ ((t false).blk pg).resetDue = false ∧
      ((t true).blk pg).resetDue = true ∧ (s.mayWrite (.runtime 1) pg = false) := by decide +kernel

/-- A misaligned access, a refused one; GOV_PEAK_W 5,999, 6,000, 15,000 and 15,001; BLK_ERR and BLK_CLAMP. -/
theorem meets_PageWrites :
    let s := State.reset
    let w (a : BitVec 44) (who : Party) (wide : Bool) : CtlWrite := ⟨who, a, wide, 0⟩
    let k (a : BitVec 44) := addrKey a.toNat
    s.inReset = false ∧ k 0xC0000004006 % 4 ≠ 0 ∧ k 0xC0000004004 % 8 ≠ 0 ∧ k 0xC0000004008 % 4 = 0 ∧ (w 8 .firmware false).wide = false ∧ s.mayWrite .firmware (k 0xC0000004008) = true ∧ s.mayWrite (.runtime 1) (k 0xC0000004008) = false ∧
      ((5999 : Word).toNat % 65536 < 6000 ∧ 6000 ≤ (6000 : Word).toNat % 65536 ∧ (15000 : Word).toNat % 65536 ≤ 15000 ∧ 15000 < (15001 : Word).toNat % 65536) ∧
      headBlk vec0 = some .vec ∧ headPage .vec (PageId.key vec0) = PageId.key vec0 ∧ s.mayWrite .firmware (PageId.key vec0 + 0x18) = true ∧ s.mayWrite .firmware (PageId.key vec0 + 0x1C) = true := by decide +kernel
theorem meets_RefusedWrites :
    let s := State.reset
    s.inReset = false ∧ s.mayWrite (.runtime 1) (rngPage 0 + 0x60) = false ∧ s.mayWrite (.runtime 1) (corePage 0 0 + 0x40) = false ∧ s.mayWrite (.runtime 1) (edgePage 0 0xF080 + 0x44) = false ∧
      s.mayWrite (.runtime 1) (PageId.key vec0) = false ∧ s.mayWrite (.runtime 1) (timePage 0 + 0x90) = false := by decide +kernel
theorem meets_BoardPorts :
    let s := { State.reset with time := 1000000 }
    (s.inReset = false ∧ 1000000 ≤ s.time.toNat) ∧ ¬ 1000000 ≤ State.reset.time.toNat ∧ s.smbStatus ≠ 1 ∧ ({ s with smbStatus := 1 } : State).smbStatus = 1 ∧ keyBlk (addrKey 0xF000) = none ∧ keyBlk (addrKey 0xC000000F000) = none ∧ addrKey 0xC0000000002 % 4 ≠ 0 ∧
      keyBlk (addrKey 0xC0000004000) ≠ none ∧ s.mayWrite .board (addrKey 0xC0000004000) = true ∧ coversRdata (addrKey 0xC0000004000) false = false ∧ (0 : Fin 4) = 0 ∧ (1 : Fin 4) ≠ 0 := by decide +kernel
theorem meets_ResetHolds : ({ State.reset with inReset := true } : State).inReset = true := rfl

/-! Slot words and steps -/

/-- An operation of each class with its bits as the tables write them: ADDI g1, g2, 3 in slot 0 is word 0x10 shifted and so on;
one opcode that no class lists. -/
theorem meets_SlotWordsDecode : (∃ x, slotFields (.nop sl 0) = some x) ∧ (∃ x, slotFields (.halt sl) = some x) ∧ slotFields .holdoverEntry = none := by
  refine ⟨⟨_, rfl⟩, ⟨_, rfl⟩, rfl⟩
theorem meets_IllegalWords : (0x2B : Nat) < 64 ∧ (0x3F : Nat) < 64 ∧ (2 : Nat) ^ 17 < 2 ^ 22 ∧ (1 : Nat) % 128 ≠ 0 ∧ (2 : Nat) ^ 17 / 2 ^ 17 % 4 ≠ 0 ∧ (2 : Nat) / 2 % 2 ^ 15 ≠ 0 := by decide
theorem meets_StepsKeepResetLines :
    let s : State := { State.reset with pending := [.tapReset] }
    s.inReset = (!s.resetN || !s.pwrOk) ∧ s.releaseWaits = (s.resetN && !s.pwrOk) ∧ ∃ t, step s = .next t := ⟨by decide, by decide, _, rfl⟩

/-! Ill-formed commands: one for each check -/

def noEcc : Ecc := ⟨[], []⟩
def badEcc : Ecc := ⟨[131072], []⟩
theorem test_wf_regions : regionOk 0 = true ∧ regionOk 2112 = false ∧ regionOk 0x1000 = false ∧ regionOk (BitVec.ofNat 24 (24 * 2 ^ 19)) = false ∧ regionOk (BitVec.ofNat 24 (24 * 2 ^ 19 + 2 ^ 17 + 15)) = true ∧
    regionOk (BitVec.ofNat 24 (24 * 2 ^ 19 + 2 ^ 17 + 16)) = false ∧ regionOk (BitVec.ofNat 24 (2 ^ 18)) = true ∧ regionOk (BitVec.ofNat 24 (2 ^ 18 + 1)) = false ∧
    regionOk (BitVec.ofNat 24 (24 * 2 ^ 19 + 3 * 2 ^ 17)) = true ∧ regionOk (BitVec.ofNat 24 (23 * 2 ^ 19 + 3 * 2 ^ 17)) = false ∧ fabricRegion (BitVec.ofNat 24 (2 ^ 18)) = false := by decide
theorem test_wf_words (w : Word) : (Instr.cfg 0 0 0 65535 (List.replicate 64 w)).wf = true ∧ (Instr.cfg 0 0 0 65536 (List.replicate 64 w)).wf = false ∧ (Instr.cfg 0 0 2112 0 (List.replicate 64 w)).wf = false ∧
    (Instr.cfg 0 0 0 0 (List.replicate 63 w)).wf = false ∧ (Instr.streamWrite ⟨0, false⟩ 0 [w]).wf = false ∧ (Instr.streamSig ⟨0, false⟩ 0 [w]).wf = false ∧ (Instr.configFrameCheck 0 65536 .clean).wf = false ∧
    (Instr.configFrameCheck 2112 0 .clean).wf = false := by simp [Instr.wf, regionOk]
def q0 : PReq := ⟨0, 0, 0, 0, 0, 0, 0, 0, 0⟩
theorem test_wf_lines (b : Byte) (p : Bool) : (Instr.rlbMissFill c0 [b] p).wf = false ∧ (Instr.wb q0 [b] p).wf = false ∧ (Instr.wr q0 0 [b] .clean).wf = false ∧ (Instr.snpRsp c0 0 (some [b]) p).wf = false ∧
    (Instr.snpRsp c0 0 none p).wf = true := by simp [Instr.wf]
theorem test_wf_lanes (d : BitVec 6 × BitVec 6) (x : BitVec 16) : (Instr.recentre ⟨0, 0⟩ [d]).wf = false ∧ (Instr.trDone ⟨0, 0⟩ [(24, x, x)]).wf = false ∧ (Instr.trDone ⟨0, 0⟩ [(23, x, x)]).wf = true := by simp [Instr.wf]
theorem test_wf_ecc (r : BitVec 6) (n : BitVec 3) (am : BitVec 2) (off : BitVec 11) : (Instr.ldb sl r n am off badEcc).wf = false ∧ (Instr.ldh sl r n am off badEcc).wf = false ∧ (Instr.ldw sl r n am off badEcc).wf = false ∧
    (Instr.ldd sl r n am off badEcc).wf = false ∧ (Instr.ldv sl r n am off badEcc).wf = false ∧ (Instr.ldvb sl r n am off badEcc).wf = false ∧ (Instr.ldvb sl r n am off noEcc).wf = true := by
  simp [Instr.wf, Ecc.ok, badEcc, noEcc]
theorem test_wf_ecc_engines (p : PathErr) : (Instr.passStart c0 0 p badEcc).wf = false ∧ (Instr.groupDrain c0 0 p badEcc).wf = false ∧ (Instr.issue sl 0 0 0 badEcc).wf = false ∧ (Instr.contextRestore c0 badEcc).wf = false ∧ (Instr.readPacket c0 0 badEcc).wf = false ∧ (Instr.transferStart c0 badEcc).wf = false ∧ (Instr.scrubRead c0 0 badEcc).wf = false ∧ (Instr.step .firmware c0 badEcc).wf = false := by
  simp [Instr.wf, Ecc.ok, badEcc]
theorem test_wf_collars : (Instr.regionClearDone 2112).wf = false ∧ (Instr.releaseStage2 2112).wf = false ∧ (Instr.releaseStage3 2112).wf = false ∧ (Instr.shrClear .firmware 2112).wf = false ∧
    (Instr.fabricClockEdge (.pin 0 0) [⟨BitVec.ofNat 24 (2 ^ 18), 0, .pps, true⟩] [] [] []).wf = false ∧ (Instr.fabricClockEdge (.pin 0 0) [⟨0, 0, .pps, true⟩] [] [] []).wf = true ∧
    (FabOut.plane 0 5 0 0 []).wf = true ∧ (FabOut.plane 0 7 0 0 []).wf = false ∧ (FabOut.plane 0 6 0 0 []).wf = false ∧ (FabOut.mac 0 0 0 0 1 [0, 0]).wf = false ∧ (Instr.regionClearDone 0).wf = true := by decide

/-! Examples that the spec works out -/

/-- 00, "the status register of array 1 in the spare core at physical column 65, row 3, of die 14". -/
theorem test_example_address : addrKey 0x0C0E0107200C = corePage (14 * 2112 + 263) 2 + 0xC ∧ keyDie (addrKey 0x0C0E0107200C) = 14 := by decide +kernel
/-- 01, logical core (197, 77): die 15, physical index 863. -/
theorem test_example_core : homeNo 197 77 = 15 * 2112 + 863 ∧ homeXY (15 * 2112 + 863) = (197, 77) ∧ State.reset.physOf 197 77 = 15 * 2112 + 863 := by decide +kernel
/-- 03, 0x3F88_4000 into FP8 E4M3: directly, through BF16 to nearest, and through BF16 to odd. -/
theorem test_example_double_rounding :
    Fmt.e4m3.ofVal .rne false (Fmt.fp32.unpack 0x3F884000) = (0x39, fInexact) ∧ Fmt.bf16.ofVal .rne false (Fmt.fp32.unpack 0x3F884000) = (0x3F88, fInexact) ∧ (Fmt.e4m3.ofVal .rne false (Fmt.bf16.unpack 0x3F88)).1 = 0x38 ∧
      Fmt.bf16.ofVal .rto false (Fmt.fp32.unpack 0x3F884000) = (0x3F89, fInexact) ∧ Fmt.e4m3.ofVal .rne false (Fmt.bf16.unpack 0x3F89) = (0x39, fInexact) := by decide +kernel
/-- 03, a block of 96.0, 1.0, -0.75 and zeros into MXFP4. -/
theorem test_example_mxfp4 :
    mxQuant 0 ([0x42C00000, 0x3F800000, 0xBF400000].map Fmt.fp32.unpack ++ List.replicate 29 (Fmt.fp32.unpack 0)) = ([0x7, 0x0, 0x8] ++ List.replicate 29 0, 0x83, fUnderflow ||| fInexact, true) := by decide +kernel
/-- 03, one block of FP8 E4M3: products 2^16, 2^-8 and -2^16 under the scales 0x81 and 0x7E. -/
theorem test_example_block :
    let v := Fmt.e4m3.unpack
    let b := blockSum (([(0x78, 0x78), (0x18, 0x18), (0xF8, 0x78)] ++ List.replicate 29 (0, 0)).map (fun (p : Nat × Nat) => prodOf (v p.1) (v p.2))) 0x81 0x7E false
    b.2 = [] ∧ accAdd 0 b.1 = (0x3C000000, 0, false) := by decide +kernel
/-- 04, the four words of bundles 7 and 8 of the program: LOOPI, SETM, LDV and FMA_S. -/
theorem test_example_bundles :
    let word (i : Instr) := (slotFields i).map (fun f => (f.2.1, slotCode f.1 f.2.2.2.1 f.2.2.2.2))
    word (.loopi ⟨c0, 0, false⟩ 32 2 3 true) = some (0, 0x01404017) ∧ word (.setm ⟨c0, 0, false⟩ 2 4 0) = some (1, 0x0C504000) ∧ word (.ldv ⟨c0, 4, false⟩ 32 0 1 0 noEcc) = some (2, 0x82600800) ∧
      word (.fmaS ⟨c0, 6, false⟩ 35 34 0 0) = some (3, 0xC1238800) := by decide +kernel
/-- 05, CVT from FP32 to BF16 of 0x3F80_5000 in the 4-bit mode with u = 3, and in the 3-bit mode with u = 1. -/
theorem test_example_stochastic : cvtElem 1 2 (.sr 4 3) false 0x3F805000 = (0x3F81, fInexact) ∧ cvtElem 1 2 (.sr 3 1) false 0x3F805000 = (0x3F81, fInexact) ∧ (cvtElem 1 2 (.sr 4 5) false 0x3F805000).1 = 0x3F80 := by
  decide +kernel
/-- 12, tenant 5's offset 0x3_0000_1A40 in a window at 200 * 96 MiB. -/
theorem test_example_channel : chanCo (200 * 96 * 2 ^ 20 + 0x300001A40) = (26, 0x14800040) ∧ (bankRow 0x14800040).2 = 5248 := by decide +kernel
/-- 17, filter 5 of global port 14. -/
theorem test_example_filter : filterKey 14 5 = addrKey 0x0C1BF2221050 ∧ keyBlk (addrKey 0x0C1BF2241050) = none := by decide +kernel
/-- 06, the record of a multicast whose rows 5 and 12 failed. -/
theorem test_example_record (j : XferJob) (hx : j.xid = 0x0A21) (hn : j.nparts = 16) : xferRecord j 1 5 0x3001 0 0x1020 = leBytes 8 0x00000A2130011015 ++ leBytes 8 0x1020 := by
  simp only [xferRecord, hx, hn]
  decide +kernel
/-- 10, cells 0 and 1 of the adder with INIT = 0x6688: the sum and the carry of every pair of input bits, the inputs on wires 0 and 1. -/
theorem test_example_adder : ∀ a ∈ [0, 1], ∀ b ∈ [0, 1], ∀ c : Bool,
    cellSum (a + 2 * b) (0x6688 + 1 * 2 ^ 16 + 1 * 2 ^ 32 + 2 * 2 ^ 64) c = (decide ((a + b + b2n c) % 2 = 1), decide (2 ≤ a + b + b2n c)) := by decide +kernel
/-- 02, the record of the BF16 descriptor with PASS_ID 0x0051 whose column 2 is NaN. -/
theorem test_example_status : statusRecord 0 0 (fInvalid, false) (0, false) 0 false true 0x51 0x2001 = 0x2001005100800100 := by decide +kernel

/-! The commands complete -/

theorem meets_ScalarsComplete :
    let s := run0 (fun c => c.setG 1 1)
    let c := s.core 0
    s.executes sl ∧ (open0 id).executes sl ∧ ((c.pc.toNat : Int) + (0xFFFF : BitVec 22).toInt * 16 = 2 ^ 20 - 16) ∧ ((c.gr 0).toNat % 16 = 0 ∧ (c.gr 0).toNat < 2 ^ 20) ∧ c.loops = [] ∧ 0 < (c.gr 1).toNat % 2 ^ 32 ∧
      0 < (1 : BitVec 13).toNat ∧ (∀ j < 4, c.ctr j ≤ 0) ∧ c.posted = 0 ∧ s.shrouded 0 = true ∧ (open0 id).shrouded 0 = false ∧ c.events.length < 8 ∧ (63 : BitVec 12).toNat < 64 ∧
      (0xFFFF : BitVec 17).getLsbD 16 = false ∧ 0 < (c.gr 1 + (0 : BitVec 12).signExtend 64).toNat ∧ (c.gr 1 + (0 : BitVec 12).signExtend 64).toNat ≤ 2 ^ 20 ∧ (1 : BitVec 12).toNat ≤ 1 :=
  ⟨executes_of (by decide), executes_of (by decide +kernel), by decide +kernel⟩
/-- Generator 0 at the last word, with a clean scratchpad; a collar with room and with beats; a miss and a register read that wait. -/
theorem meets_MemoryOpsComplete :
    let s := at0 0xFFFF8
    let v := at0 0xFFF80
    let q := open0 (fun c => { c with ib0 := [1, 2, 3, 4], misses := [⟨64, true, false, 0⟩] })
    let w := with0 (fun c => { c with colReads := [.seq 1] })
    s.executes sl ∧ v.executes sl ∧ q.executes sl ∧
      ((s.core 0).agu 0 0 0 8 = some (0xFFFF8, none) ∧ (s.core 0).agu 0 0 0 4 = some (0xFFFF8, none) ∧ (s.core 0).agu 0 0 0 1 = some (0xFFFF8, none) ∧ (0xFFFF8 : Dword).toNat % 8 = 0 ∧ spaceOf (0xFFFF8 : Dword).toNat = 0 ∧
      (0xFFFF8 : Dword).toNat % 2 ^ 20 + 8 ≤ 2 ^ 20 ∧ (s.core 0).spadWaits = false ∧ (1 : BitVec 6).getLsbD 5 = false ∧ (s.core 0).poisonedAt 0xFFFF8 8 = false ∧
      (v.core 0).agu 0 0 0 128 = some (0xFFF80, none) ∧ (0xFFF80 : Dword).toNat % 4 = 0 ∧ spaceOf (0xFFF80 : Dword).toNat = 0 ∧ (0xFFF80 : Dword).toNat % 2 ^ 20 + 128 ≤ 2 ^ 20 ∧ (v.core 0).spadWaits = false ∧
      (v.core 0).poisonedAt 0xFFF80 (4 * min 32 (v.core 0).vl) = false ∧ q.inReset = false ∧ q.tripped = false ∧ q.shrouded 0 = false ∧ ((q.core 0).ob false).length ≤ 4 ∧ 4 ≤ ((q.core 0).ib false).length ∧
      ((q.core 0).gr 0).toNat < 2 ^ 20 ∧ ((q.core 0).gr 0).toNat % 64 = 0 ∧ (q.core 0).spadWaits = false ∧ (q.core 0).poisonedAt 0 64 = false ∧ (q.core 0).ctr 0 < 15 ∧ (q.core 0).jobs.length < 16 ∧
      (q.core 0).misses = ⟨64, true, false, 0⟩ :: [] ∧ (List.replicate 64 (0 : Byte)).length = 64 ∧ w.inReset = false ∧ w.tripped = false ∧ (w.core 0).colReads = .seq 1 :: []) :=
  ⟨executes_of (by decide), executes_of (by decide), executes_of (by decide +kernel), by decide +kernel⟩
theorem meets_VectorsComplete : (run0 id).executes sl ∧ (1 : BitVec 4).toNat < 2 ∧ (2 : BitVec 4).toNat % 8 = 2 ∧ ((2 : BitVec 4).getLsbD 3 = false ∧ ((run0 id).core 0).rngPosted = 0) ∧ (31 : BitVec 6).toNat < 32 ∧
    (28 : BitVec 6).toNat / 8 < 6 ∧ (1 : BitVec 6).toNat < 2 ∧ ((20 : BitVec 6).toNat % 4 = 0 ∧ (20 : BitVec 6).toNat / 4 ≤ 5) ∧ (7 : BitVec 6).toNat < 8 ∧ (0x0C : BitVec 6).toNat ≤ 0x0C ∧ (8 : BitVec 4).toNat % 8 = 0 ∧
    (3 : BitVec 6).toNat < 4 := ⟨run0_executes, by decide⟩

/-- An image of core 0, at the bottom of the scratchpad. -/
def image0 : List Byte := (State.reset.core 0).image 0
def restoring0 : State := with0 (fun c => { c with st := .restoring, spad := Memory.writeN [] 0 image0 })
theorem restoring0_bytes : (restoring0.core 0).spadBytes 0 8896 = image0 := by
  have h : (restoring0.core 0).spad = Memory.writeN [] 0 image0 := by simp [restoring0, with0]
  have e : image0.length = 8896 := Core.image_length _ _ (by decide)
  unfold Core.spadBytes
  rw [h, ← e]
  exact Memory.readN_writeN _ _ _
theorem restoring0_spots : ∀ len, 0 + len ≤ 2 ^ 20 → restoring0.ctxSpot 0 (restoring0.ctxAddr 0) len = some (.own 0) := by
  intro len h
  have e : restoring0.ctxAddr 0 = 0 := by decide +kernel
  have f : restoring0.logOf 0 = some (0, 0) := by decide +kernel
  rw [e]
  unfold State.ctxSpot
  rw [f]
  simp [addrBad, spaceOf, offOf, colOf, rowOf, selfOf, bits]
  omega
theorem meets_CoreCommandsComplete_image :
    let c := restoring0.core 0
    let l := c.spadBytes 0 8896
    restoring0.inReset = false ∧ restoring0.tripped = false ∧ c.st = .restoring ∧ c.countersZero = true ∧ c.pendStart = false ∧ c.spadWaits = false ∧ (∀ len, 0 + len ≤ 2 ^ 20 → restoring0.ctxSpot 0 (restoring0.ctxAddr 0) len = some (.own 0)) ∧
      0 + 8896 ≤ 2 ^ 20 ∧ c.poisonedAt 0 8896 = false ∧ imgFld l 0 4 = 0x4F564C53 ∧ imgFld l 4 2 = 1 ∧ imgFld l 6 1 = 32 ∧ crc32c (l.take 8892) = BitVec.ofNat 32 (imgFld l 8892 4) ∧ imageFormOk l = true := by
  simp only [restoring0_bytes]
  exact ⟨by decide, by decide, by decide, by decide, by decide, by decide, restoring0_spots, by decide, by decide +kernel, by decide +kernel, by decide +kernel, by decide +kernel, Core.image_crc _ _ (by decide), by decide +kernel⟩
/-- A tap beat that waits; a unit whose array tap has ended; a scratchpad that zeroes; line buffers that flush and invalidate; each state of retention; the scrubber on; beats both ways and a register read. -/
theorem meets_CoreCommandsComplete :
    let f := Party.firmware
    let s := State.reset
    let held := with0 (fun c => { c with st := .stopped })
    let stops := with0 (fun c => { c with st := .stopping, after := .stopped })
    let saves := with0 (fun c => { c with st := .saving })
    let saved := with0 (fun c => { c with st := .saving, ctx := some 0 })
    let b : TapBeat := ⟨0, 0, 0, 1, 0, false, 0⟩
    let tap := open0 (fun c => { c with tapQ := [b] })
    let tapEnd := open0 (fun c => { c with u0 := { jobs := [mjTap], run := some (ended0 0 false), nextA := none } })
    let col := (open0 (fun c => { c with ob0 := [(0, 1)], colReads := [.host] })).setReg (niPage 0 + 0x40) 1
    s.inReset = false ∧ s.tripped = false ∧ s.mayWrite f (rngPage 0 + 0x60) = true ∧ ({ s with sec := { s.sec with ready := true } } : State).sec.ready = true ∧ s.mayWrite f (corePage 0 0 + 0x40) = true ∧ (held.core 0).st.held = true ∧
      ((run0 id).core 0).st = .running ∧ (stops.core 0).st = .stopping ∧ (stops.core 0).stall ≠ .other ∧ (stops.core 0).reads = false ∧ (stops.core 0).pendSave = false ∧ (stops.core 0).pendStart = false ∧
      (held.core 0).reads = false ∧ (held.core 0).pcOut = none ∧ (held.core 0).loops = [] ∧ (held.core 0).pc.toNat + 16 < 2 ^ 20 ∧ (held.core 0).spadWaits = false ∧ (held.core 0).poisonedAt (held.core 0).pc.toNat 16 = false ∧
      (held.core 0).spadBytes (held.core 0).pc.toNat 16 = List.replicate 16 0 ∧ held.ctxSpot 0 (held.ctxAddr 0) 8896 ≠ none ∧ held.ctxSpot 0 (held.ctxAddr 0) 64 ≠ none ∧
      (saves.core 0).st = .saving ∧ (saves.core 0).ctx = none ∧ (saves.core 0).countersZero = true ∧ (saves.core 0).spadWaits = false ∧ saves.ctxSpot 0 (saves.ctxAddr 0) 8896 = some (.own 0) ∧ (saved.core 0).ctx = some 0 ∧
      (saved.core 0).pendStart = false ∧
      tap.shrouded 0 = false ∧ (tap.core 0).tapQ = b :: [] ∧ tapEnd.shrouded 0 = false ∧ (tapEnd.core 0).tapQ = [] ∧ (tapEnd.core 0).u0.jobs = mjTap :: [] ∧ (tapEnd.core 0).u0.run = some (ended0 0 false) ∧ (mjTap.desc 0).epi ≠ 0 ∧
      (ended0 0 false).end0 = false ∧ (ended0 0 false).h0.ended = true ∧ s.mayWrite f (corePage 0 5 + 0x40) = true ∧ s.mayWrite f (corePage 0 5 + 0x44) = true ∧ (s.core 0).zeroing = false ∧
      ((with0 (fun c => { c with zeroing := true, rlbOp := 2 })).core 0).zeroing = true ∧ ((with0 (fun c => { c with rlbOp := 1 })).core 0).rlbOp = 1 ∧ ((with0 (fun c => { c with rlbOp := 2 })).core 0).rlbOp = 2 ∧
      (s.core 0).retention = .on ∧ (∀ r ∈ [Retention.entering, .retained, .waking], ((with0 (fun c => { c with retention := r })).core 0).retention = r) ∧ (s.blk (corePage 0 5)).resetDue = false ∧ (s.core 0).wake = false ∧
      s.bit (corePage 0 5 + 0x44) 0 = false ∧ (s.setReg (corePage 0 5 + 0x60) 1).bit (corePage 0 5 + 0x60) 0 = true ∧ (∀ i < 8, (s.core 0).wordPoisoned (8 * 16383 + i) = false) ∧
      col.shrouded 0 = false ∧ (col.core 0).ob false = (0, 1) :: [] ∧ ((col.core 0).ib false).length < 8 ∧ (col.core 0).colReads = .host :: [] ∧ col.mayWrite (.runtime 1) (colPage 0 + 0x8C) = true := by decide +kernel
/-- The matrix units: a take-up, a pass, a drain, a retry and a completion. -/
theorem meets_CoreCommandsComplete_units :
    let s (r : Option MatRun) := unitWith mj r
    ((s none).core 0).unit 0 = { jobs := [mj], run := none, nextA := none } ∧ ((s none).core 0).spadWaits = false ∧ (mj.tap && ((s none).core 0).tapTaken 0) = false ∧ (s none).bit (corePage 0 1 + 8) 0 = true ∧ mj.check = none ∧
      mr.lockPass mj = some 0 ∧ mr.ready mj 0 = true ∧ (full0 false false).h0.drains (mj.desc 0) = some (grp false false) ∧ (full0 false false).h1.drains (mj.desc 1) = none ∧ (mj.desc 0).epi = 0 ∧ (mj.desc 0).k ≠ 0 ∧
      (full0 true false).h0.groups = grp true false :: [] ∧ (mj.desc 0).kt ≤ (grp true false).kt ∧ (grp true false).poisoned = true ∧ (grp true false).retried = false ∧
      ((s none).setReg (matPage 0 0 + 0x40) 1).bit (corePage 0 1 + 0x40) 0 = true ∧ (ended0 0 false).h0.ended = true ∧ (ended0 0 false).h1.ended = true ∧ mj.taps 0 = false ∧ mj.taps 1 = false := by decide

/-- A job that starts and one that ends; the transfers, flits, links and packets of the theorems before; both ends of a raise; a bank and an interface in each state; an agent's drain and broadcast. -/
theorem meets_NetworkCommandsComplete :
    let f := Party.firmware
    let j0 : XferJob := { tj with words := [0, 0x0080000000000000, 0x0100000000000000, 0, 0, 0, 0x70000, 0] }
    let j1 : XferJob := { j0 with started := true, parts := [⟨0, 0, 0⟩] }
    let jobs (l : List XferJob) : State := with0 (fun c => { c with jobs := l })
    let o : Outst := ⟨7, 0, 0, false, 0, 64, 0, 0, false, []⟩
    let r : Outst := ⟨7, 0, 0, true, 0, 64, 0, 0, false, []⟩
    let sent (o : Outst) : State := (with0 (fun c => { c with outst := [o] })).setReg (niPage 0 + 0x40) 1
    let home := (State.reset.modCore 1 (fun c => { c with rt0 := .armed })).setReg (rtrPage 1 + 0x40) (BitVec.ofNat 32 (1 + 2 ^ 9))
    let g := flitTo 1 0
    let s := home.setBridge (.core 1 1) [g]
    let down := (State.reset.showLink (.core 1 1) false)
    let banks := with0 (fun c => { c with rt0 := .draining, rt1 := .armed, ni0 := .draining, ni1 := .armed })
    let taps := State.reset.setTap 0 { Taps.reset with b0 := .draining, b1 := .armed }
    let p := State.reset.setReg (niPage 0 + 0x44) 0x10
    let a := (State.reset.setReg (agtPage 0 + 0x50) 0x19).setReg (agtPage 0 + 0x54) 0x40
    (s.inReset = false ∧ s.tripped = false ∧ ((jobs [j0]).core 0).jobs = j0 :: [] ∧ ((jobs [j0]).core 0).spadWaits = false ∧ j0.started = false ∧ j0.check ((jobs [j0]).meAt 0) (j0.entries ((jobs [j0]).core 0)) = none ∧ j0.bytes = 0 ∧ j0.stream = 0 ∧
      ((jobs [j0]).core 0).unsent = [] ∧ ((jobs [j1]).core 0).jobs = j1 :: [] ∧ j1.started = true ∧ (∀ x ∈ j1.parts, x.left = 0 ∧ x.code = 0) ∧ j1.stat % 16 = 0 ∧ j1.stat + 16 ≤ 2 ^ 20 ∧
      (sent o).bit (niPage 0 + 0x44) 2 = false ∧ ((sent o).core 0).unsent = [] ∧ ((sent o).core 0).outst.find? (fun o => decide (o.tag = 7)) = some o ∧
      s.linkUp (nodePlace (.router c1) 1) = true ∧ (nodePlace (.router c1) 1).far.isSome = true ∧ (s.linkAt (nodePlace (.router c1) 1)).fails = 0 ∧ (s.core 1).sw.held = [] ∧ s.bridgeAt (.core 1 1) = [g] ∧ malformed g.hdr = false ∧
      hdrFld g.hdr 4 1 = 0 ∧ hdrFld g.hdr 5 1 = 0 ∧ (s.core 1).rtBank (hdrFld g.hdr 2 1) ≠ .spare ∧ s.bit (rtrPage 1 + 0x40 + 4 * hdrFld g.hdr 2 1) 9 = true ∧ s.fld (rtrPage 1 + 0x40 + 4 * hdrFld g.hdr 2 1) 0 9 = hdrFld g.hdr 6 9 ∧
      s.fld (rtrPage 1 + 0x40 + 4 * hdrFld g.hdr 2 1) 16 7 = hdrFld g.hdr 15 7 ∧ nodeIsStop (.router c1) = false ∧ s.mayWrite f (rtrPage 1 + 0x6C) = true ∧ linkEndCore 1 1 = 1 ∧ down.linkUp (.core 1 1) = false ∧ coreFar 1 1 = some (.core 0 0) ∧
      ((s.setLink (nodePlace (.router c1) 1) ⟨0, true⟩).linkAt (nodePlace (.router c1) 1)).raising = true ∧ (s.showLink (.tap 0 0 1) false).linkUp (.tap 0 0 1) = false) ∧
      (malformed (hdr 0 0xFF) = false ∧ (State.reset.core 0).retention = .on ∧ 64 * hdrFld (hdr 0 0xFF) 69 14 + 64 * hdrFld (hdr 0 0xFF) 46 3 ≤ 2 ^ 20 ∧ (sent o).niTenant 0 ≠ 0 ∧ BitVec.ofNat 8 (hdrFld (hdr 0 0xFF) 38 8) = 0xFF ∧
      hdrFld (hdr 0 0xFF) 0 2 = 0 ∧ hdrFld (hdr 0 0xFF) 83 16 = 0xFFFF ∧ hdrFld (hdr 1 0xFF) 0 2 = 1 ∧ ((sent o).core 0).poisonedAt 0 64 = false ∧ hdrFld (hdr 2 0xFF) 0 2 = 2 ∧ ((sent o).core 0).waiting 7 false false = some o ∧
      hdrFld (hdr 3 0xFF) 0 2 = 3 ∧ ((sent r).core 0).waiting 7 false true = some r ∧ hdrFld (hdr 3 0xFF) 99 16 = 0 ∧ spaceOf r.dst.toNat = 0 ∧ (colOf r.dst.toNat, rowOf r.dst.toNat) = (sent r).meAt 0 ∧
      s.mayWrite f (rtrPage 0 + 0x48) = true ∧ (s.core 0).rt0 = .spare ∧ (s.core 0).rt1 = .spare ∧ banks.oldHeld 0 = 0 ∧ (banks.core 0).rt0 = .draining ∧ (banks.core 0).rt1 = .armed ∧ s.mayWrite f (agtPage 24 + 0x40) = true ∧
      (s.tap 0).b0 = .spare ∧ (s.tap 0).b1 = .spare ∧ (taps.tap 0).b0 = .draining ∧ (taps.tap 0).b1 = .armed ∧ s.mayWrite f (niPage 0 + 0x44) = true ∧ s.bit (niPage 0 + 0x44) 4 = false ∧ (s.core 0).ni0 = .spare ∧ (s.core 0).ni1 = .spare ∧
      ((with0 (fun c => { c with ni0 := .armed })).core 0).ni0 = .armed ∧ p.bit (niPage 0 + 0x44) 4 = true ∧ p.time.toNat % 1024 = 0 ∧ (p.reg64 (niPage 0 + 0x48)).toNat ≤ p.time.toNat ∧ (banks.core 0).ni0 = .draining ∧
      (banks.core 0).ni1 = .armed ∧ banks.bit (niPage 0 + 0x44) 2 = false ∧ s.mayWrite f (agtPage 0 + 0x44) = true ∧ s.bit (agtPage 0 + 0x44) 2 = false ∧ (s.setReg (agtPage 0 + 0x44) 4).bit (agtPage 0 + 0x44) 2 = true ∧
      a.mayWrite f (agtPage 0 + 0x58) = true ∧ a.bit (agtPage 0 + 0x50) 4 = true ∧ a.fld (agtPage 0 + 0x50) 0 4 = 9 ∧ a.fld (agtPage 0 + 0x54) 0 12 = 0x40) := ⟨by decide +kernel, by decide +kernel⟩
/-- Core 1's request for line 0 of tenant 1's window, in each state of the directory; snoops of core 0's line 0 under TENANT 0xFF; answers that core 0 waits for. -/
theorem meets_PlaneCommandsComplete :
    let q := req1 0x0100000000000000
    let p := req (0x0300 <<< 48 ||| 0x0C00 <<< 32 ||| BitVec.ofNat 64 (niPage 0 + 0x40))
    let w := { req 0x40 with dstDie := 0, tenant := 1 }
    let d (st : DirState) : State := lpd .active { DirEntry.empty with st := st }
    let s := State.reset.setReg (niPage 0 + 0x40) 1
    let x (owed : List Nat) (unblock : Bool) : DirTxn := { dirTxn 5 { q with srcUnit := 0 } 0 [] .clean with owed := owed, unblock := unblock }
    let snooped (t : DirTxn) : State := ((with0 (fun c => { c with rlb := [line0] })).setReg (niPage 0 + 0x40) 0xFF).setDir 0 { DirEntry.empty with txn := some t }
    let o : Outst := { (⟨7, 0, 0, false, 0, 64, 0, 0, false, []⟩ : Outst) with addr := 0x0100000000000000 }
    let r : SeqRead := ⟨0x0300 <<< 48, 0xFF0, false, none⟩
    (s.inReset = false ∧ s.tripped = false ∧ q.op.toNat < 0x0B ∧ q.size.toNat < 3 ∧ q.srcDie.toNat * 2112 + q.srcUnit.toNat = 1 ∧ 24 ≤ q.dstDie.toNat ∧ q.dstDie.toNat < 28 ∧ q.addr.toNat / 2 ^ 56 = 1 ∧
      (d .u).planeCarries 0 (planeEnd 0 1) (.edge 0) = true ∧ (d .u).planeCarries 3 (planeEnd 0 1) (.edge 0) = true ∧ (d .u).translate 0 1 (q.addr.toNat % 2 ^ 41 / 64 * 64) 64 = .ok 0 ∧ ((d .u).chan (chanCo 0).1).st = .active ∧
      ((d (.s [1])).dirAt 0).st = .s [1] ∧ ((d (.s [1])).dirAt 0).txn = none ∧ ((d .u).dirAt 0).st = .u ∧ ((d (.m 1)).dirAt 0).st = .m 1 ∧
      p.addr.toNat / 2 ^ 40 = 0x3000C ∧ p.size = 0 ∧ p.addr.toNat % 2 ^ 40 % 4 = 0 ∧ s.planeCarries 0 (planeEnd 0 1) (addrEnd p.addr.toNat) = true ∧ keyBlk (p.addr.toNat % 2 ^ 40) = some .ni ∧
      s.mayRead .firmware (p.addr.toNat % 2 ^ 40) = true ∧ s.mayWrite .firmware (p.addr.toNat % 2 ^ 40) = true ∧ p.tenant = 0xFF) ∧
    (w.dstDie.toNat < 24 ∧ w.addr.toNat / 2 ^ 56 = 0 ∧ w.addr.toNat % 2 ^ 20 + 64 ≤ 2 ^ 20 ∧ s.physOf 0 0 = 0 ∧ s.planeCarries 0 (planeEnd 0 1) (coreEnd 0) = true ∧ s.planeCarries 3 (planeEnd 0 1) (coreEnd 0) = true ∧ s.niTenant 0 ≠ 0 ∧
      w.tenant = s.niTenant 0 ∧ (s.core 0).retention = .on ∧ regionValid 0 = true ∧ ((s.setRegion 0 { Region.reset with st := .loading }).region 0).st = .loading ∧ 0 < regionFrames 0 ∧
      s.planeCarries 0 (.edge 0) (planeEnd 0 0xF003) = true ∧ s.planeCarries 3 (.edge 0) (planeEnd 0 0xF003) = true ∧
      (snooped (x [] false)).planeCarries 2 (lineEnd 0) (coreEnd 0) = true ∧ ((snooped (x [] false)).core 0).rlbFind 0 = some line0 ∧ line0.dirty = false ∧ (snooped (x [] false)).planeCarries 1 (coreEnd 0) (lineEnd 0) = true ∧
      (snooped (x [] false)).snoopLine 0 0 = some 0 ∧ ((snooped (x [0, 1] false)).dirAt 0).txn = some (x [0, 1] false) ∧ (x [0, 1] false).owed = [0, 1] ∧ ((snooped (x [] true)).dirAt 0).txn = some (x [] true) ∧
      (x [] true).owed = [] ∧ (x [] true).unblock = true ∧ (x [] true).req.srcDie.toNat * 2112 + (x [] true).req.srcUnit.toNat = 0 ∧ ((snooped (x [] true)).dirAt 0).waiting = [] ∧ ((snooped (x [] true)).dirAt 0).st = .u) ∧
    ((7 : BitVec 12).toNat < 0x800 ∧ ((with0 (fun c => { c with outst := [o] })).core 0).unsent = [] ∧ ((with0 (fun c => { c with outst := [o] })).core 0).outst.find? (fun o => decide (o.tag = 7)) = some o ∧
      s.planeCarries 1 (addrEnd o.addr.toNat) (coreEnd 0) = true ∧ s.planeCarries 3 (addrEnd o.addr.toNat) (coreEnd 0) = true ∧ ((with0 (fun c => { c with outst := [o] })).core 0).waiting 7 true false = some o ∧
      ((with0 (fun c => { c with outst := [{ o with isRead := true }] })).core 0).waiting 7 true true = some { o with isRead := true } ∧ 0xFF0 ≤ (0xFF0 : BitVec 12).toNat ∧
      ((with0 (fun c => { c with seqReads := [r] })).core 0).seqReads = [r] ∧ r.tag = 0xFF0 ∧ r.dropped = false ∧ r.ans = none ∧ s.planeCarries 1 (addrEnd r.addr.toNat) (coreEnd 0) = true) :=
  ⟨by decide +kernel, by decide +kernel, by decide +kernel⟩
/-- Reports that arrive and that wait; an OPEN entry; a window that has ended; a failed core with an idle spare; a reefed one; a tenant with a replay of one core and one whose epoch has ended. -/
theorem meets_HealthCommandsComplete :
    let w (kind : Nat) : Dword := BitVec.ofNat 64 (kind + 5 * 16)
    let h (f : Hc → Hc) : State := State.reset.setHc 0 (f Hc.reset)
    let f := ((State.reset.mark 0 .serving).setHc 0 { Hc.reset with table := [(0, { Suspect.empty with st := .failed })] })
    let rp : Replay := ⟨0, 4096, 0, [⟨0, 0, 0, 0⟩], [], 0, 0, [], [], false⟩
    let e := { (ringed { Ring.empty with size := 2 ^ 21 } (some rp)).setReg (recPage 0 + 0x44) 10 with time := 10 }
    State.reset.inReset = false ∧ (State.reset.hcAt 0).win = State.reset.time.toNat / 1000 ∧ (State.reset.hcAt 0).window < 64 ∧ (State.reset.hcAt 0).queue.length < 256 ∧ 1 ≤ (w 2).toNat % 16 ∧ (w 2).toNat % 16 ≤ 3 ∧
      ((h (fun x => { x with queue := [(0, w 1)] })).hcAt 0).queue = [(0, w 1)] ∧ (w 1).toNat % 16 = 1 ∧ (w 3).toNat % 16 = 3 ∧ (w 1).toNat / 16 % 2 ^ 12 < 2112 ∧ (State.reset.hcAt 0).table = [] ∧
      (((h (fun x => { x with table := [(3, { Suspect.empty with st := .opened })] })).hcAt 0).entry 3).st = .opened ∧ ((h (fun x => { x with win := 1 })).hcAt 0).win ≠ State.reset.time.toNat / 1000 ∧
      State.reset.mayWrite .firmware (hcPage 0 + 0x58) = true ∧ f.logOf 0 = some (0, 0) ∧ f.isFailed 0 = true ∧ f.markOf 0 ≠ .removed ∧ f.reefs = [] ∧ f.idleSpare 64 = true ∧ (State.reset.mark 0 .reefed).markOf 0 = .reefed ∧
      (e.tenant 1).replay = some rp ∧ rp.newer ≤ 1 ∧ rp.domain = [⟨0, 0, 0, 0⟩] ∧ (e.tenant 1).live = true ∧ e.reefs = [] ∧
      (((e.tenant 1).ring.since / max 1 (e.reg (recPage 0 + 0x44)).toNat + 1) * max 1 (e.reg (recPage 0 + 0x44)).toNat) ≤ e.time.toNat ∧ e.time.toNat < 10 + 10 ∧ (e.tenant 1).ring.used + 48 ≤ (e.tenant 1).ring.size := by decide +kernel
/-- The conditions of the clause of the verified signature are met in `meets_StreamOutcomes`. The streams are those of `meets_StreamCommands`. -/
theorem meets_HalyardCommandsComplete :
    let s := streaming stOpen
    let x := s.stm mc0
    let early := { stOpen with begun := false }
    let z := State.reset
    let g (st : RegionState) (n : Nat) : State := ({ z with time := 256 }).setRegion 0 { Region.reset with st := st, stage := n }
    let rd : State := { (z.setHal 0 { Hal.reset with readyMc := [0] }).setRegion 0 { Region.reset with st := .loading } with boot := 3 }
    let f := regionId 24 3 0
    let b : State := { z.setRegion f { Region.reset with st := .running } with sec := { z.sec with fwKey := 1 } }
    let done : State := { z with boot := 4, time := 320 }
    let fab : State := z.setRegion (collarRegion 0) { Region.reset with st := .running, edges := [(0, 3)] }
    (z.inReset = false ∧ z.portOk mc0 = true ∧ (z.stm mc0).ended = false ∧ (z.stm mc0).opened = false ∧ z.buf mc0 = [] ∧ mc0.board = false ∧ (z.halAt 0).forTenant = false ∧ s.portOk mc0 = true ∧ x.opened = true ∧ x.ended = false ∧
      x.rejected = false ∧ s.buf mc0 = [] ∧ s.grammar mc0 x 0 0 [] = none ∧ s.grammar mc0 early 1 0 [] = none ∧ s.grammar mc0 early 2 0 [0] = none ∧ s.grammar mc0 x 3 0 [] = none ∧ x.typ = 0 ∧ s.grammar mc0 x 4 0 [0] = none ∧
      s.grammar mc0 x 5 0 [] = none ∧ s.grammar mc0 x 6 0 [0] = none ∧ s.grammar mc0 x 7 1 (List.replicate 64 0) = none ∧ x.begun = true ∧ x.cur = [0] ∧ x.declared.contains 0 = true ∧ (s.region 0).clearing = false ∧
      1 < regionFrames 0 ∧ s.grammar mc0 x 8 1 [] = none ∧ x.lastIdx + 1 < regionFrames 0 ∧ x.last.length = 64 ∧ s.grammar mc0 x 9 0 [~~~ crcWord x.crc (BitVec.ofNat 32 (9 * 2 ^ 24))] = none ∧
      s.grammar mc0 { stOpen with typ := 1, crcOk := true } 10 0 (List.replicate 25 0) = none ∧ s.grammar mc0 { stOpen with crcOk := true, len := 5 } 11 0 [] = none ∧ x.foreign = false ∧
      frameClamps 0 1 (frameNat (List.replicate 64 0)) = [] ∧ frameClamps 0 2 (frameNat (List.replicate 64 0)) = []) ∧
    (((z.setRegion 0 { Region.reset with clearing := true }).region 0).clearing = true ∧ (∀ e < 4, ∀ b, (z.halAt e).buf b = []) ∧ (rd.halAt 0).readyMc = [0] ∧ (rd.region 0).st = .loading ∧ (rd.region 0).clearing = false ∧ 3 ≤ rd.boot ∧
      ((g .releasing 1).region 0).st = .releasing ∧ ((g .releasing 1).region 0).stage = 1 ∧ ((g .releasing 1).region 0).at_.toNat + 128 ≤ (g .releasing 1).time.toNat ∧ ((g .releasing 2).region 0).stage = 2 ∧
      ((g .releasing 2).region 0).at_.toNat + 256 ≤ (g .releasing 2).time.toNat ∧ done.boot = 4 ∧ done.cfgDone = false ∧ (∀ e < 4, (done.region (edgeRegion e 0)).at_.toNat + 320 ≤ done.time.toNat) ∧ (b.region f).st = .running ∧
      b.sec.fwKey ≠ 0 ∧ b.mcOn = false ∧ z.cfgMode = false ∧ z.jtag = .idcode ∧ z.buf boardPort = [] ∧ z.cfgRdy = true ∧ (z.stm boardPort).opened = false ∧ (z.stm boardPort).ended = false ∧ (z.halAt 0).bytes = [] ∧
      z.mayWrite .firmware (halPage 0 + 0x74) = true ∧ ((z.setHal 0 { Hal.reset with log := [⟨1, 0, 0, 0⟩] }).halAt 0).log = ⟨1, 0, 0, 0⟩ :: [] ∧ regionValid 0 = true ∧ z.mayWrite .firmware (regionKey 0 0x40) = true ∧
      ((g .running 3).region 0).st = .running ∧ fab.tripped = false ∧ (fab.region (collarRegion 0)).st = .running ∧ 3 ≤ Sparse.get (fun _ => 0) (fab.region (collarRegion 0)).edges 0) := ⟨by decide +kernel, by decide +kernel⟩
theorem meets_ChannelAndLaneCommandsComplete :
    let s := State.reset
    let win := windowed s
    let a := (s.setChan 0 { ChanRun.reset with st := .active, neighbours := [(0, [5])] }).setReg (lpdPage 0 + 0x44) 3
    let t := s.setChan 0 { ChanRun.reset with st := .training }
    let r := s.setChan 0 { ChanRun.reset with st := .training, helper := .run }
    let raw := s.setReg (laneKey 0 0) 0x104
    let x : Lane := { Lane.reset with st := .on, lock := true, prbs := true, scan := true, slip := true, moving := true, want := 2, goal := 2 }
    let l := (s.setLane 0 x).setReg (laneKey 0 8) 0x11
    (0 < 1 ∧ s.inReset = false ∧ win.bit (winKey 0 1) 31 = true ∧ (0 : Word).getLsbD 31 = false ∧ win.mayWrite .firmware (winKey 0 1) = true ∧ s.bit (winKey 0 1) 31 = false ∧ s.mayWrite .firmware (winKey 0 1 + 4) = true ∧ (a.chan 0).st = .active ∧
      Sparse.get (fun _ => []) (a.chan 0).neighbours 0 = 5 :: [] ∧ (a.chan 0).helper = .none ∧ a.bit (lpdPage 0 + 0x44) 1 = true ∧ ((s.setChan 0 { ChanRun.reset with st := .selfRefresh }).chan 0).st = .selfRefresh ∧
      a.bit (lpdPage 0 + 0x44) 0 = true ∧ 0 < chanBytes ∧ Sparse.get (fun _ => false) a.lpoison (paOf 0 (0 / 64 * 64) / 64) = false ∧ s.mayWrite .firmware (lpdPage 0 + 0x48) = true ∧ (s.chan 0).st = .untrained ∧
      (t.chan 0).st = .training ∧ (t.chan 0).helper = .none ∧ s.mayWrite .firmware (lpdPage 0 + 0x100) = true ∧ (r.chan 0).helper = .run ∧
      s.mayWrite .firmware (laneKey 0 0) = true ∧ (1 : BitVec 4) ≠ 0 ∧ raw.bit (laneKey 0 0) 2 = true ∧ raw.fld (laneKey 0 0) 8 4 ≠ 0 ∧ (2 : BitVec 2) ≠ 3 ∧ (l.lane 0).moving = true ∧ (l.lane 0).want = (l.lane 0).goal ∧
      l.mayWrite .firmware (laneKey 0 0x0C) = true ∧ l.fld (laneKey 0 8) 0 4 ≠ 0 ∧ (l.lane 0).prbs = true ∧ l.mayWrite .firmware (laneKey 0 0x20) = true ∧ (l.lane 0).scan = true ∧ (l.lane 0).nextScan = none ∧
      l.mayWrite .firmware (laneKey 0 0x28) = true ∧ (l.lane 0).slip = true ∧ (l.lane 0).lock = true ∧ (l.lane 0).st = .on ∧ l.fld (laneKey 0 8) 4 4 ≠ 0) := by
  refine ⟨by decide, by decide +kernel, by decide +kernel, by decide +kernel, by decide +kernel, by decide +kernel, by decide +kernel, by decide +kernel, by decide +kernel, by decide +kernel, by decide +kernel, by decide +kernel, by decide +kernel, chanBytes_pos, ?_, by decide +kernel⟩
  decide +kernel
theorem meets_EthernetCommandsComplete :
    let s := (State.reset.setReg (macPage 0 + 0x40) 0x5EE11).setReg (macPage 0 + 0x44) 1
    let q : TxFrame := ⟨0, 64, 1, [], 0, none⟩
    let x := (State.reset.setReg (macPage 0 + 0x44) 1).setPort 0 { Port.reset with tx := [(0, [q])] }
    let t (v : Word) := State.reset.setReg (timePage 24 + 0x40) v
    s.inReset = false ∧ s.mayWrite .firmware (macPage 0 + 0x40) = true ∧ (1 : BitVec 3) ≠ 7 ∧ 0 < modeSubs (s.mode 0) ∧ s.bit (macPage 0 + 0x40) (4 + 0) = true ∧ (∀ j < 4, modeSub (s.mode 0) j = some 0 → s.bit (laneKey (0 * 4 + j) 0) 2 = false) ∧
      s.bit (macPage 0 + 0x44) 0 = true ∧ s.jtag = .idcode ∧ 64 ≤ (frm 64).len ∧ (frm 64).len ≤ s.fld (macPage 0 + 0x40) 8 14 ∧ ({ frm 64 with ptp := true } : RxFrame).pause = false ∧ ({ frm 64 with ptp := true } : RxFrame).sci = none ∧
      ({ frm 64 with ptp := true } : RxFrame).ptp = true ∧ s.time.toNat % 1024 = 0 ∧
      (Sparse.get (fun _ => History.empty) (s.port 0).seen 0).since.toNat + max 1 (s.fld (recoveryKey 0 0) 8 24) * 1000 ≤ ({ s with time := 0x40000000000 } : State).time.toNat ∧
      x.bit (macPage 0 + 0x44) 0 = true ∧ x.bit (tsnPage 0 + 0x40) 0 = false ∧ x.bit (tsnPage 0 + 0x44) 2 = false ∧ x.sendingOn 0 0 = none ∧ x.txq 0 0 = [q] ∧ q.gone = 0 ∧ x.macsecTx 1 = false ∧
      x.mayWrite .firmware (tsnPage 0 + 0x70) = true ∧ (x.port 0).swapAt = none ∧ ((x.setPort 0 { Port.reset with swapAt := some 0 }).port 0).swapAt = some 0 ∧ (0 : Dword).toNat ≤ x.time.toNat ∧
      (x.setReg (tsnPage 0 + 0x40) 2).bit (tsnPage 0 + 0x40) 1 = true ∧ (t 0).fld (timePage 24 + 0x40) 0 2 = 0 ∧ (t 1).fld (timePage 24 + 0x40) 0 2 = 1 ∧ (t 0x80).bit (timePage 24 + 0x40) 7 = true ∧
      ((t 0x80).time.toNat + 5) % 1000000000 ≤ 10 ∧ s.mayRead .firmware (timePage 0 + 0x48) = true := by decide +kernel
/-- Tenant 1's session: a HELLO, the expected CMD frame, an ACK frame; a held frame, a reply, an event; each command in front of its queue; a GO of one pair; core 0's program event. -/
theorem meets_SessionCommandsComplete_frames :
    let up (s : State) : State := { s with sec := { s.sec with ready := true } }
    let h := up (heard (tenS ten1) (hello1 1 1))
    let f (k n : Nat) := uf (head k 0 1 n 0)
    let s := heard (tenS { ten1 with sess := { sess1 with expect := 5, credit := 5 } }) (f 3 5)
    let a := heard (tenS { ten1 with sess := { sess1 with expect := 5, credit := 5 } }) (f 4 0)
    let u : DevFrame := ⟨6, 1, []⟩
    let r : Reply := ⟨9, 1, 7, 1, 0, []⟩
    let ev : EvRec := ⟨0x7001, 0, 0, 0, 0, 0, 0, 0⟩
    let d := tenS { ten1 with sess := { sess1 with unack := [u], ackDue := true }, replies := [r], events := [ev] }
    let e := tenS { ten1 with replies := [r] }
    let g : Go := ⟨0, 0, 3, [(5, 1)]⟩
    let w := (tenS { ten1 with goes := [g] }).modCore 0 (fun c => { c with events := [0x10] })
    (h.inReset = false ∧ h.tripped = false ∧ hello1 1 1 ∈ h.ubxIn ∧ (h.tenant 1).live = true ∧ { h with ubxIn := h.ubxIn.erase (hello1 1 1) }.ubxMalformed 1 (hello1 1 1) = false ∧ beFld (hello1 1 1).bytes 3 1 = 1 ∧ beFld (hello1 1 1).bytes 1 1 = 1 ∧
      beFld (hello1 1 1).bytes 24 1 ≤ 1 ∧ 1 ≤ beFld (hello1 1 1).bytes 25 1 ∧ h.sec.ready = true ∧ (h.tenant 1).sess.unack = [] ∧
      f 3 5 ∈ s.ubxIn ∧ f 4 0 ∈ a.ubxIn ∧ { s with ubxIn := s.ubxIn.erase (f 3 5) }.ubxMalformed 1 (f 3 5) = false ∧ { a with ubxIn := a.ubxIn.erase (f 4 0) }.ubxMalformed 1 (f 4 0) = false ∧ (s.tenant 1).sess.st = .open_ ∧
      (s.tenant 1).sess.ending = false ∧ beFld (f 3 5).bytes 0 1 = (s.tenant 1).sess.version.toNat ∧ beFld (f 3 5).bytes 4 4 = (s.tenant 1).sess.id.toNat ∧ beFld (f 4 0).bytes 4 4 = (s.tenant 1).sess.id.toNat ∧
      beFld (f 3 5).bytes 1 1 = 3 ∧ beFld (f 4 0).bytes 1 1 = 4 ∧ BitVec.ofNat 32 (beFld (f 3 5).bytes 8 4) = (s.tenant 1).sess.expect ∧ ((s.tenant 1).sess.expect - (s.tenant 1).creditNow).toInt ≤ 0 ∧ s.epochDue 1 = false ∧
      (s.tenant 1).ring.full = false ∧ (s.tenant 1).ring.used + (recordBytes 1 (s.tenant 1).ring.seq (f 3 5).stamp ((f 3 5).bytes.take 24)).length + 2 ^ 20 ≤ (s.tenant 1).ring.size ∧ parseCmds 9 5 1 [] = some []) ∧
    ((d.tenant 1).sess.st = .open_ ∧ (d.tenant 1).sess.ackDue = true ∧ (d.tenant 1).sess.unack = [u] ∧ (d.tenant 1).sess.resends < d.fld (edgePage 0 0xF030 + 0x44) 24 4 ∧ (e.tenant 1).cmds = [] ∧ (e.tenant 1).nextCmd = none ∧
      (e.tenant 1).sess.unack = [] ∧ (e.tenant 1).replies = [r] ∧ (d.tenant 1).events ++ (d.tenant 1).progEvents = [ev] ∧
      w.mayWrite (.program c0) (edgePage 0 (0xF040 + 1) + 0x108) = true ∧ (w.tenant 1).live = true ∧ (w.tenant 1).res.home ≠ 1 ∧ 1 ≤ (16 : BitVec 5).toNat ∧ (16 : BitVec 5).toNat ≤ 16 ∧ (w.tenant 1).goes = g :: [] ∧
      (w.tenant 1).replay = none ∧ w.epochDue 1 = false ∧ (w.tenant 1).suppressed = [] ∧ g.pairs = [(5, 1)] ∧ (5 : Word).toNat ≤ 4095 ∧ Sparse.get (fun _ => 0) (w.tenant 1).highest 5 ≤ g.step.toNat ∧
      (w.tenant 1).ring.used + (recordBytes 3 (w.tenant 1).ring.seq w.time (leBytes 8 3 ++ leBytes 4 1 ++ leBytes 4 5 ++ leBytes 4 1)).length ≤ (w.tenant 1).ring.size ∧
      (w.core 0).events = 0x10 :: [] ∧ (w.tenant (w.niTenant 0).toNat).live = true ∧ (w.tenant (w.niTenant 0).toNat).progEvents.length < 64) ∧
    66 + (tagBytes 1).length + d.macsecBytes 1 ≤ (d.tenant 1).sess.maxFrame :=
  ⟨by decide +kernel, by decide +kernel, room_of _ _ (by decide +kernel) (by decide +kernel)⟩
/-- Fabric RAM block 0 of edge die 24 on its plane port, region 0 running for tenant 1; a WRITE_MEM and a READ_MEM of 8 bytes of it. -/
def ramAsked (op : Nat) (a : List Byte) : State :=
  (((asked op a).setRegion (edgeRegion 0 0) { Region.reset with st := .running }).setReg (shrKey 0 0 0x48) 1).putFrame (edgeRegion 0 0) 52224 [0x800]
def ramWrite1 : List Byte := [2, 0, 0, 0, 0, 0, 0, 0] ++ List.replicate 8 1
/-- (The conditions of the commands from LOAD_REGION to ATTEST are those of `meets_RegionCommands` to `meets_SeedAndAttest`, whose states have the command in front.) -/
theorem meets_SessionCommandsComplete :
    let s := asked 0 []
    let u := replayed 0 []
    (asked 0x01 []).nextIs 1 (cmdOf 0x01 []) 0x01 ∧ (asked 0x02 []).nextIs 1 (cmdOf 0x02 []) 0x02 ∧ (asked 0x10 deliver1).nextIs 1 (cmdOf 0x10 deliver1) 0x10 ∧ (asked 0x13 (ctrl1 4 0x40)).nextIs 1 (cmdOf 0x13 (ctrl1 4 0x40)) 0x13 ∧
      (ramAsked 0x11 ramWrite1).nextIs 1 (cmdOf 0x11 ramWrite1) 0x11 ∧ (ramAsked 0x12 (read1 2 8)).nextIs 1 (cmdOf 0x12 (read1 2 8)) 0x12 ∧ 8 ≤ (ramAsked 0x12 (read1 2 8)).replyRoom 1 ∧
      (ramWrite1.length = 16 ∧ memAddrOk (beFld ramWrite1 0 8) = true ∧ spaceOf (beFld ramWrite1 0 8) = 2 ∧ (ramAsked 0x11 ramWrite1).framCode 1 (edgeOf (beFld ramWrite1 0 8)) (offOf (beFld ramWrite1 0 8)) 8 true = 0 ∧
        (read1 2 8).length = 12 ∧ spaceOf (beFld (read1 2 8) 0 8) = 2 ∧ (ramAsked 0x12 (read1 2 8)).framCode 1 0 0 8 = 0 ∧ deliver1.length = 24 ∧ (s.tenant 1).replay = none ∧ beFld deliver1 0 2 = beFld deliver1 2 2 ∧ beFld deliver1 4 2 = beFld deliver1 6 2 ∧ beFld deliver1 8 4 % 64 = 0 ∧ beFld deliver1 12 4 = 0 ∧ beFld deliver1 8 4 + 8 ≤ 2 ^ 20 ∧
        (s.tenant 1).owns 0 0 = true ∧ tenantOk (s.niTenant (s.physOf 0 0)) 1 = true ∧ s.markOf (s.physOf 0 0) ≠ .removed ∧ (ctrl1 4 0x40).length = 16 ∧ beFld (ctrl1 4 0x40) 8 1 ≤ 9 ∧ beFld (ctrl1 4 0x40) 9 1 = 0 ∧
        beFld (ctrl1 4 0x40) 10 2 % 4 = 0 ∧ s.mayWrite (.runtime 1) (corePage 0 4 + 0x40) = true ∧ s.mayRead (.runtime 1) (corePage 0 8 + 0x84) = true ∧ coversRdata (corePage 0 8 + 0x84) false = false ∧
        (u.tenant 1).replay = some rp0 ∧ u.reefs = [] ∧ (s.tenant 1).ring.recs = [] ∧ (0, 0) ∈ rp0.cores.map (fun p => p.1) ∧ (1 : Nat) < 64) :=
  ⟨nextIs_of (by decide +kernel), nextIs_of (by decide +kernel), nextIs_of (by decide +kernel), nextIs_of (by decide +kernel), nextIs_of (by decide +kernel), nextIs_of (by decide +kernel), replyRoom_of _ _ (by decide +kernel) (by decide +kernel), by decide +kernel⟩
theorem meets_ModuleCommandsComplete :
    let s := State.reset
    let pg := edgePage 0 0xF090
    let low := (s.setReg (pg + 0x4C) 900).setReg (pg + 0x50) 100
    let u := { s with time := 1000000 }
    let w : CtlWrite := ⟨.firmware, 0xC0000004008, false, 0⟩
    let v := PageId.key vec0
    let m := s.setBlk v { s.blk v with moving := true }
    s.inReset = false ∧ ({ s with resetN := false } : State).resetN = false ∧ s.pwrOk = true ∧ ({ s with pwrOk := false } : State).pwrOk = false ∧ 40000 ≤ 48000 ∧ 48000 ≤ 58000 ∧ 37999 < 38000 ∧
      min (s.fld (pg + 0x40) 0 16) (48000 * 330 / 1000) < 15001 ∧ 14549 * 100 < low.fld (pg + 0x60) 0 16 * 97 ∧ ¬ low.fld (pg + 0x44) 8 8 * 8 < low.fld (pg + 0x64) 0 12 ∧ low.fld (pg + 0x50) 0 9 < 256 ∧
      s.mayWrite .firmware (timePage 0 + 0x90) = true ∧ 1000000 ≤ u.time.toNat ∧ u.smbStatus ≠ 1 ∧ addrKey 0xC0000004000 % 4 = 0 ∧ u.mayWrite .board (addrKey 0xC0000004000) = true ∧ keyBlk (addrKey 0xC0000004000) ≠ none ∧
      coversRdata (addrKey 0xC0000004000) false = false ∧ addrKey w.addr.toNat % 4 = 0 ∧ w.wide = false ∧ s.mayWrite w.who (addrKey w.addr.toNat) = true ∧ headBlk vec0 = some .vec ∧ headPage .vec v = v ∧
      s.mayWrite .firmware (v + 0x18) = true ∧ s.mayWrite .firmware (v + 0x1C) = true ∧ (0x2001 : BitVec 16) ≠ 0 ∧ s.mayWrite .firmware v = true ∧ (s.blk v).moving = false ∧ (s.blk v).on ≠ false ∧ (m.blk v).moving = true ∧
      (m.blk v).resetDue = false ∧ (1 : Fin 4) ≠ 0 := by decide +kernel
/-- (TENANT_CREATE's free resources are those of `meets_TenantCommands_free`, with a key of tenant 2 loaded.) -/
theorem meets_SecurityCommandsComplete :
    let s := State.reset
    let pg := edgePage 0 0xF080
    let keyed (s : State) : State := { allReady s with sec := { (allReady s).sec with keys := [(8, ⟨true, 0, 0, 0, 0⟩)] } }
    let a := keyed (admin 0x100 (tenS ten1))
    a.nextIs 255 (cmdOf 0x100 []) 0x100 ∧ (admin 0x101 (tenS ten1)).nextIs 255 (cmdOf 0x101 []) 0x101 ∧ (admin 0x102 (tenS ten1)).nextIs 255 (cmdOf 0x102 []) 0x102 ∧
      (s.inReset = false ∧ s.mayWrite .firmware (pg + 0x44) = true ∧ s.sec.commit = none ∧ (sec1 (fun x => { x with commit := some (1, 3) })).sec.commit = some (1, 3) ∧ (sec1 (fun x => { x with fwKey := 2 })).sec.fwKey = 2 ∧
        (sec1 (fun x => { x with fwKey := 1 })).sec.fwKey = 1 ∧ s.sec.owner = none ∧ s.sec.importing = none ∧ (sec1 (fun x => { x with importing := some (5, .key 0 0 0) })).sec.importing = some (5, .key 0 0 0) ∧
        Sparse.get (fun _ => 0) s.sec.txAn (5 / 4) ≠ 5 % 4 + 1 ∧ s.sec.testing = true ∧ (sec1 (fun x => { x with ready := true, served := 65536 })).sec.ready = true ∧
        65536 ≤ (sec1 (fun x => { x with ready := true, served := 65536 })).sec.served ∧ recordOk rec2 = true ∧ (a.tenant 2).live = false ∧ (∀ i < 15, a.ready i = true) ∧ (∃ an < 4, (a.keyAn 2 an).loaded = true) ∧
        ((admin 0x101 (tenS ten1)).tenant 1).live = true ∧ ((admin 0x101 (tenS ten1)).cutOff 1).destroyWaits 1 = false) :=
  ⟨nextIs_of (by decide +kernel), nextIs_of (by decide +kernel), nextIs_of (by decide +kernel), by decide +kernel⟩
def winWrite1 : List Byte := [1, 0, 0, 0, 0, 0, 0, 0] ++ List.replicate 8 1
def winAsked (op : Nat) (a : List Byte) : State := (asked op a).setChan 0 { ChanRun.reset with st := .active }
/-- A WRITE_MEM and a READ_MEM of 8 bytes of the window that are made. -/
theorem meets_HostWrites_window :
    let s := winAsked 0x11 winWrite1
    s.nextIs 1 (cmdOf 0x11 winWrite1) 0x11 ∧ (winAsked 0x12 (read1 1 8)).nextIs 1 (cmdOf 0x12 (read1 1 8)) 0x12 ∧ (∀ k line, (s.core k).rlbFind line = none) ∧ s.lineLost (0 * 64) = false ∧
      (memAddrOk (beFld winWrite1 0 8) = true ∧ spaceOf (beFld winWrite1 0 8) = 1 ∧ s.windowLines 1 0 8 = .ok [0] ∧ (s.chan (chanCo (0 * 64)).1).st = .active ∧ (s.dirAt 0).txn = none ∧ Sparse.get (fun _ => false) s.lpoison 0 = false) :=
  ⟨nextIs_of (by decide +kernel), nextIs_of (by decide +kernel), fun _ _ => rfl, lost_none _ _ (by decide +kernel), by decide +kernel⟩

end Sys2Proof.Tests
end

section
/-! SUPPORT. What every command of this family shares: the module out of reset, a refused control write, and what logging
(records and events of tenants) leaves as it was. -/
namespace Sys2Proof.Machine

/-! A module out of reset -/

@[simp] theorem State.whenUp_of_up {s : State} (h : s.inReset = false) (f : State → State) : s.whenUp f = f s := by
  simp [State.whenUp, h]

@[simp] theorem State.whenUp_of_reset {s : State} (h : s.inReset = true) (f : State → State) : s.whenUp f = s := by
  simp [State.whenUp, h]

theorem State.ctl_of_may {s : State} {who : Party} {k : Nat} (h : s.mayWrite who k = true) (f : State → State) :
    s.ctl who k f = (f s).answerCtl 0 := by simp [State.ctl, h]

/-- A refused control write: its answer and nothing else (17 R516). -/
theorem State.ctl_of_refused {s : State} {who : Party} {k : Nat} (h : s.mayWrite who k = false) (f : State → State) :
    s.ctl who k f = s.answerCtl (State.refusal who k) := by simp [State.ctl, h]

/-! The halves of BLK_ERR and BLK_CLAMP -/

@[simp] theorem low_append (a b : BitVec 16) : (a ++ b : Word).setWidth 16 = b := by
  apply BitVec.eq_of_toNat_eq
  rw [BitVec.toNat_setWidth, BitVec.toNat_append, Nat.shiftLeft_eq, Nat.mul_comm, ← Nat.two_pow_add_eq_or_of_lt b.isLt]
  omega

@[simp] theorem high_append (a b : BitVec 16) : ((a ++ b : Word) >>> 16).setWidth 16 = a := by
  apply BitVec.eq_of_toNat_eq
  rw [BitVec.toNat_setWidth, BitVec.toNat_ushiftRight, BitVec.toNat_append, Nat.shiftLeft_eq, Nat.mul_comm,
    ← Nat.two_pow_add_eq_or_of_lt b.isLt, Nat.shiftRight_eq_div_pow]
  omega

/-! Logging -/

/-- t is s after records have been written and tenants told of events: the tenants, the lines of their rings and what has been
sent may differ, and among the registers the interrupt register of an engine page and the registers banked by tenant. -/
structure State.LogsTo (s t : State) : Prop where
  hc : t.hc = s.hc
  cores : t.cores = s.cores
  time : t.time = s.time
  hotJunction : t.hotJunction = s.hotJunction
  reg : ∀ k < 2 ^ 40, (∀ e, k ≠ edgePage e 0xF030 + 0x10) → t.reg k = s.reg k

namespace State.LogsTo

theorem refl (s : State) : s.LogsTo s := ⟨rfl, rfl, rfl, rfl, fun _ _ _ => rfl⟩

theorem trans {s t u : State} (h : s.LogsTo t) (g : t.LogsTo u) : s.LogsTo u where
  hc := g.hc.trans h.hc
  cores := g.cores.trans h.cores
  time := g.time.trans h.time
  hotJunction := g.hotJunction.trans h.hotJunction
  reg := fun k hk he => (g.reg k hk he).trans (h.reg k hk he)

theorem foldl {β : Type} {f : State → β → State} (h : ∀ (s : State) (x : β), s.LogsTo (f s x)) (l : List β) (s : State) : s.LogsTo (l.foldl f s) := by
  induction l generalizing s with
  | nil => exact refl s
  | cons x l ih => exact (h s x).trans (ih (f s x))

theorem hcAt {s t : State} (h : s.LogsTo t) (d : Nat) : t.hcAt d = s.hcAt d := by simp only [State.hcAt, h.hc]

theorem setTenant (s : State) (t : Nat) (v : Tenant) : s.LogsTo (s.setTenant t v) := ⟨rfl, rfl, rfl, rfl, fun _ _ _ => rfl⟩

/-- A register banked by tenant lies above every page. -/
theorem incSat_banked (s : State) {j : Nat} (n : Nat) (hj : 2 ^ 40 ≤ j) : s.LogsTo (s.incSat j n) where
  hc := by simp
  cores := by simp
  time := by simp
  hotJunction := by simp
  reg := fun k hk _ => by
    have hne : k ≠ j := by omega
    rw [State.incSat_reg, if_neg hne]

theorem ubx_banked (s : State) (t off : Nat) : 2 ^ 40 ≤ s.ubx t off := by
  simp only [State.ubx, ubxKey]
  omega

theorem raiseIrq_engine (s : State) (e : Nat) (m : Word) : s.LogsTo (s.raiseIrq (edgePage e 0xF030) m) where
  hc := by simp
  cores := by simp
  time := by simp
  hotJunction := by simp
  reg := fun k _ he => by rw [State.raiseIrq_reg, if_neg (he e)]

theorem event (s : State) (t : Nat) (code : BitVec 16) (kind : Nat) (x y : BitVec 16) (src : Nat) (detail : Word) :
    s.LogsTo (s.event t code kind x y src detail) := by
  unfold State.event
  simp only []
  split
  · exact refl s
  · split
    · exact setTenant ..
    · split
      · exact setTenant ..
      · exact ((setTenant ..).trans (incSat_banked _ _ (ubx_banked ..))).trans (raiseIrq_engine ..)

theorem eventAll (s : State) (code : BitVec 16) (src : Nat) (detail : Word) : s.LogsTo (s.eventAll code src detail) :=
  foldl (fun s t => event s t code 0 0xFFFF 0xFFFF src detail) s.liveTenants s

theorem putRec (s : State) (t typ : Nat) (time : Dword) (body : List Byte) (keep : Nat) : s.LogsTo (s.putRec t typ time body keep).1 := by
  unfold State.putRec
  simp only []
  split
  · exact setTenant ..
  · exact ⟨rfl, rfl, rfl, rfl, fun _ _ _ => rfl⟩

theorem closeEpoch (s : State) (t : Nat) : s.LogsTo (s.closeEpoch t) := by
  unfold State.closeEpoch
  simp only []
  refine trans ?_ (setTenant ..)
  split
  · exact putRec ..
  · exact (putRec ..).trans (event ..)

theorem closeEpochs (t n : Nat) (s : State) : s.LogsTo (State.closeEpochs t n s) := by
  induction n generalizing s with
  | zero => exact refl s
  | succ n ih =>
    simp only [State.closeEpochs]
    split
    · exact refl s
    · exact (closeEpoch s t).trans (ih _)

theorem record (s : State) (t typ : Nat) (time : Dword) (body : List Byte) (keep : Nat) : s.LogsTo (s.record t typ time body keep).1 := by
  unfold State.record State.rollEpochs
  split
  · exact (closeEpochs ..).trans (putRec ..)
  · exact putRec ..

theorem recordOrFull (s : State) (t typ : Nat) (time : Dword) (body : List Byte) : s.LogsTo (s.recordOrFull t typ time body) := by
  unfold State.recordOrFull
  simp only []
  split
  · exact record ..
  · exact event ..

end State.LogsTo

end Sys2Proof.Machine
end

section
/-! SUPPORT. The health controllers: what raising their interrupt leaves, the windows of STORM, the suspect table. -/
namespace Sys2Proof.Machine

/-! The interrupt of a health controller -/

/-- A rise of a health controller's output may be noted in the controller, held back or sent; nothing else changes. -/
theorem State.hcRise_cases (a b : State) (d : Nat) :
    State.hcRise a b d = b ∨ State.hcRise a b d = b.setHc d { b.hcAt d with held := true } ∨
      ∃ l x, State.hcRise a b d = (b.setHc d { b.hcAt d with lastIrq := l }).send x := by
  unfold State.hcRise
  extract_lets h up late
  split
  · exact .inl rfl
  · refine .inr ?_
    split
    · exact .inl rfl
    · exact .inr ⟨_, _, rfl⟩

/-- Raising bits of a health controller's BLK_IRQ_STAT sets them, and the output may rise. -/
theorem State.hcRaise_cases (s : State) (d : Nat) (m : Word) :
    let t := s.setReg (hcPage d + 0x10) (s.reg (hcPage d + 0x10) ||| m)
    s.hcRaise d m = t ∨ s.hcRaise d m = t.setHc d { s.hcAt d with held := true } ∨
      ∃ l x, s.hcRaise d m = (t.setHc d { s.hcAt d with lastIrq := l }).send x := by
  intro t
  have hd : t.hcAt d = s.hcAt d := by simp [t]
  have hc := State.hcRise_cases s t d
  rwa [hd] at hc

theorem State.hcRaise_hcAt (s : State) (d : Nat) (m : Word) :
    ∃ l b, (s.hcRaise d m).hcAt d = { s.hcAt d with lastIrq := l, held := b } := by
  rcases s.hcRaise_cases d m with h | h | ⟨l, x, h⟩ <;> rw [h]
  · exact ⟨(s.hcAt d).lastIrq, (s.hcAt d).held, by simp⟩
  · exact ⟨(s.hcAt d).lastIrq, true, by simp⟩
  · exact ⟨l, (s.hcAt d).held, by simp⟩

@[simp] theorem State.hcRaise_queue (s : State) (d : Nat) (m : Word) : ((s.hcRaise d m).hcAt d).queue = (s.hcAt d).queue := by
  obtain ⟨l, b, h⟩ := s.hcRaise_hcAt d m; rw [h]
@[simp] theorem State.hcRaise_table (s : State) (d : Nat) (m : Word) : ((s.hcRaise d m).hcAt d).table = (s.hcAt d).table := by
  obtain ⟨l, b, h⟩ := s.hcRaise_hcAt d m; rw [h]
@[simp] theorem State.hcRaise_storm (s : State) (d : Nat) (m : Word) : ((s.hcRaise d m).hcAt d).storm = (s.hcAt d).storm := by
  obtain ⟨l, b, h⟩ := s.hcRaise_hcAt d m; rw [h]
@[simp] theorem State.hcRaise_win (s : State) (d : Nat) (m : Word) : ((s.hcRaise d m).hcAt d).win = (s.hcAt d).win := by
  obtain ⟨l, b, h⟩ := s.hcRaise_hcAt d m; rw [h]
@[simp] theorem State.hcRaise_window (s : State) (d : Nat) (m : Word) : ((s.hcRaise d m).hcAt d).window = (s.hcAt d).window := by
  obtain ⟨l, b, h⟩ := s.hcRaise_hcAt d m; rw [h]
@[simp] theorem State.hcRaise_quiet (s : State) (d : Nat) (m : Word) : ((s.hcRaise d m).hcAt d).quiet = (s.hcAt d).quiet := by
  obtain ⟨l, b, h⟩ := s.hcRaise_hcAt d m; rw [h]
@[simp] theorem State.hcRaise_entry (s : State) (d : Nat) (m : Word) (e : Nat) : ((s.hcRaise d m).hcAt d).entry e = (s.hcAt d).entry e := by
  simp [Hc.entry]

theorem State.hcRaise_reg (s : State) (d : Nat) (m : Word) (j : Nat) :
    (s.hcRaise d m).reg j = if j = hcPage d + 0x10 then s.reg (hcPage d + 0x10) ||| m else s.reg j := by
  rcases s.hcRaise_cases d m with h | h | ⟨l, x, h⟩ <;> rw [h] <;> simp [State.setReg_reg]

@[simp] theorem State.hcRaise_keeps (s : State) (d : Nat) (m : Word) :
    (s.hcRaise d m).inReset = s.inReset ∧ (s.hcRaise d m).time = s.time ∧ (∀ k lo w, k ≠ hcPage d + 0x10 → (s.hcRaise d m).fld k lo w = s.fld k lo w) := by
  refine ⟨?_, ?_, fun k lo w hk => ?_⟩
  · rcases s.hcRaise_cases d m with h | h | ⟨l, x, h⟩ <;> simp [h]
  · rcases s.hcRaise_cases d m with h | h | ⟨l, x, h⟩ <;> simp [h]
  · simp [State.fld, State.hcRaise_reg, hk]

/-- A bit that is raised reads 1. -/
theorem State.hcRaise_bit (s : State) (d b : Nat) (m : Word) (h : m.getLsbD b = true) : (s.hcRaise d m).bit (hcPage d + 0x10) b = true := by
  simp [State.bit, State.hcRaise_reg, h]

/-- A bit that reads 1 still does. -/
theorem State.hcRaise_bit_kept (s : State) (d b : Nat) (m : Word) (h : s.bit (hcPage d + 0x10) b = true) :
    (s.hcRaise d m).bit (hcPage d + 0x10) b = true := by
  simp only [State.bit] at h
  simp [State.bit, State.hcRaise_reg, h]

/-! Windows of device time and STORM (08 R274, R278) -/

/-- Logging touches no register of a health controller's page. -/
theorem State.LogsTo.hcReg {s t : State} (h : s.LogsTo t) (die : Fin 24) {off : Nat} (ho : off < 4096) : t.reg (hcPage die.val + off) = s.reg (hcPage die.val + off) := by
  have hd := die.isLt
  refine h.reg _ ?_ fun e => ?_
  · simp only [hcPage, pageAt]; omega
  · simp only [hcPage, edgePage, pageAt]; omega

/-- The last part of a window's end: a rise that was held back is sent once it may be. -/
def State.sendHeld (s : State) (d : Nat) (ends : Bool) : State :=
  let g := s.hcAt d
  let late := match g.lastIrq with | none => true | some t => decide (t.toNat + 10000 ≤ s.time.toNat)
  if g.held && (late || ends) then
    let t := s.setHc d { g with held := false, lastIrq := if g.storm then some s.time else none }
    if t.irqOut (hcPage d) then t.send (.irq (hcPage d) (servingEdge d)) else t
  else s

theorem State.sendHeld_cases (s : State) (d : Nat) (ends : Bool) :
    s.sendHeld d ends = s ∨ ∃ l, s.sendHeld d ends = s.setHc d { s.hcAt d with held := false, lastIrq := l } ∨
      ∃ x, s.sendHeld d ends = (s.setHc d { s.hcAt d with held := false, lastIrq := l }).send x := by
  unfold State.sendHeld
  extract_lets g late
  split
  · refine .inr ⟨if g.storm then some s.time else none, ?_⟩
    split
    · exact .inr ⟨_, rfl⟩
    · exact .inl rfl
  · exact .inl rfl

theorem State.sendHeld_hcAt (s : State) (d : Nat) (ends : Bool) :
    ∃ l b, (s.sendHeld d ends).hcAt d = { s.hcAt d with lastIrq := l, held := b } := by
  rcases s.sendHeld_cases d ends with h | ⟨l, h | ⟨x, h⟩⟩ <;> rw [h]
  · exact ⟨(s.hcAt d).lastIrq, (s.hcAt d).held, by simp⟩
  · exact ⟨l, false, by simp⟩
  · exact ⟨l, false, by simp⟩

@[simp] theorem State.sendHeld_keeps (s : State) (d : Nat) (ends : Bool) :
    (s.sendHeld d ends).inReset = s.inReset ∧ (s.sendHeld d ends).time = s.time ∧ (∀ k, (s.sendHeld d ends).reg k = s.reg k) := by
  refine ⟨?_, ?_, fun k => ?_⟩ <;> rcases s.sendHeld_cases d ends with h | ⟨l, h | ⟨x, h⟩⟩ <;> simp [h]

/-- The quiet windows in a row once n more windows have ended (08 R278). -/
def Hc.quietAfter (h : Hc) (n : Nat) : Nat := if h.window ≤ 64 then h.quiet + n else n - 1

/-- Whether STORM is over by then. -/
def Hc.stormOver (h : Hc) (n : Nat) : Bool := h.storm && decide (10 ≤ h.quietAfter n)

/-- The controller after n windows have ended, the present one being number now. -/
def Hc.closed (h : Hc) (now n : Nat) : Hc :=
  { h with
    win := now, window := 0, quiet := if h.storm && !h.stormOver n then h.quietAfter n else 0, storm := h.storm && !h.stormOver n }

/-- The state in which the windows are closed and HC_RATE shows the last. -/
def State.rateShown (s : State) (d n : Nat) : State :=
  (s.setReg (hcPage d + 0x4C) (BitVec.ofNat 32 (if n = 1 then min (s.hcAt d).window 65535 else 0))).setHc d ((s.hcAt d).closed s.stormWindow n)

theorem State.windowEnds_eq (s : State) (d n : Nat) : s.windowEnds d n =
    (if (s.hcAt d).stormOver n then (s.rateShown d n).hcRaise d 8 else s.rateShown d n).sendHeld d ((s.hcAt d).stormOver n) := rfl

@[simp] theorem State.rateShown_hcAt (s : State) (d n : Nat) : (s.rateShown d n).hcAt d = (s.hcAt d).closed s.stormWindow n := by
  simp [State.rateShown]

/-- The controller after a window's end, whose interrupt output may have risen. -/
theorem State.windowEnds_hcAt (s : State) (d n : Nat) :
    ∃ l b, (s.windowEnds d n).hcAt d = { (s.hcAt d).closed s.stormWindow n with lastIrq := l, held := b } := by
  rw [State.windowEnds_eq]
  obtain ⟨l, b, hs⟩ := State.sendHeld_hcAt (if (s.hcAt d).stormOver n then (s.rateShown d n).hcRaise d 8 else s.rateShown d n) d ((s.hcAt d).stormOver n)
  rw [hs]
  split
  · obtain ⟨l', b', hr⟩ := (s.rateShown d n).hcRaise_hcAt d 8
    exact ⟨l, b, by rw [hr, State.rateShown_hcAt]⟩
  · exact ⟨l, b, by rw [State.rateShown_hcAt]⟩

@[simp] theorem State.windowEnds_keeps (s : State) (d n : Nat) :
    (s.windowEnds d n).inReset = s.inReset ∧ (s.windowEnds d n).time = s.time := by
  rw [State.windowEnds_eq]
  cases (s.hcAt d).stormOver n <;> simp [State.rateShown]

/-- HC_RATE shows the count of the last window. -/
theorem State.windowEnds_rate (s : State) (d n : Nat) :
    (s.windowEnds d n).reg (hcPage d + 0x4C) = BitVec.ofNat 32 (if n = 1 then min (s.hcAt d).window 65535 else 0) := by
  rw [State.windowEnds_eq]
  cases (s.hcAt d).stormOver n <;> simp [State.rateShown, State.hcRaise_reg]

/-- The end of STORM raises STORM_END. -/
theorem State.windowEnds_stormEnd (s : State) (d n : Nat) (h : (s.hcAt d).stormOver n = true) :
    (s.windowEnds d n).bit (hcPage d + 0x10) 3 = true := by
  have hb := (s.rateShown d n).hcRaise_bit d 3 8 (by decide)
  rw [State.windowEnds_eq]
  simpa [State.bit, h] using hb

end Sys2Proof.Machine
end

section
/-! SUPPORT. The arrival of reports at a health controller (08 R274, R278). -/
namespace Sys2Proof.Machine

/-- The state in which STORM is shown, before tenants are told. -/
def State.stormShown (s : State) (d : Nat) : State :=
  (((s.setHc d { (s.hcAt d) with storm := true, quiet := 0, lastIrq := none }).incSat (hcPage d + 0x54)).enterCode (hcPage d) Code.storm).hcRaise d 4

theorem State.stormEnters_logs (s : State) (d : Nat) : (s.stormShown d).LogsTo (s.stormEnters d) :=
  State.LogsTo.foldl (fun s t => (State.LogsTo.recordOrFull s t 7 _ _).trans (State.LogsTo.event _ t Code.storm 0 0xFFFF 0xFFFF Blk.hc.type (BitVec.ofNat 32 d))) _ _

theorem State.stormShown_hcAt (s : State) (d : Nat) :
    ∃ l b, (s.stormShown d).hcAt d = { s.hcAt d with storm := true, quiet := 0, lastIrq := l, held := b } := by
  obtain ⟨l, b, h⟩ := State.hcRaise_hcAt (((s.setHc d { (s.hcAt d) with storm := true, quiet := 0, lastIrq := none }).incSat (hcPage d + 0x54)).enterCode (hcPage d) Code.storm) d 4
  exact ⟨l, b, by rw [State.stormShown, h]; simp⟩

theorem State.stormShown_count (s : State) (d : Nat) : (s.stormShown d).reg (hcPage d + 0x48) = s.reg (hcPage d + 0x48) := by
  simp [State.stormShown, State.hcRaise_reg, State.enterCode, State.enterCodes_reg, State.incSat_reg]

/-- An empty BLK_ERR takes STORM's code. -/
theorem State.stormShown_err (s : State) (d : Nat) (h : (s.reg (hcPage d + 0x18)).setWidth 16 = (0 : BitVec 16)) :
    ((s.stormShown d).reg (hcPage d + 0x18)).setWidth 16 = (0x7003 : BitVec 16) := by
  simp [State.stormShown, State.hcRaise_reg, State.enterCode, State.enterCodes_reg, State.incSat_reg, errEntered, h, lowestCode, Code.storm]

/-- The controller and its registers once STORM has been entered. -/
theorem State.stormEnters_spec (s : State) (die : Fin 24) :
    let d := die.val
    let t := s.stormEnters d
    (∃ l b, t.hcAt d = { s.hcAt d with storm := true, quiet := 0, lastIrq := l, held := b }) ∧
      t.reg (hcPage d + 0x48) = s.reg (hcPage d + 0x48) ∧ t.bit (hcPage d + 0x10) 2 = true ∧
      ((s.reg (hcPage d + 0x18)).setWidth 16 = (0 : BitVec 16) → (t.reg (hcPage d + 0x18)).setWidth 16 = (0x7003 : BitVec 16)) := by
  intro d t
  have hl := s.stormEnters_logs d
  have hr (off : Nat) (ho : off < 4096) : t.reg (hcPage d + off) = (s.stormShown d).reg (hcPage d + off) := hl.hcReg die ho
  refine ⟨?_, ?_, ?_, fun h => ?_⟩
  · rw [hl.hcAt]
    exact s.stormShown_hcAt d
  · rw [hr 0x48 (by omega), s.stormShown_count]
  · rw [State.bit, hr 0x10 (by omega)]
    exact State.hcRaise_bit _ d 2 4 (by decide)
  · rw [hr 0x18 (by omega)]
    exact s.stormShown_err d h

/-- The state with a report stamped, queued and counted. -/
def State.queueReport (s : State) (d : Nat) (w : Dword) : State :=
  (s.setHc d { s.hcAt d with queue := (s.hcAt d).queue ++ [(s.time, w)], window := (s.hcAt d).window + 1 }).incSat (hcPage d + 0x48)

/-- The windows are up to date. -/
theorem State.closeWindows_same {s : State} {d : Nat} (h : (s.hcAt d).win = s.stormWindow) : s.closeWindows d = s := by
  simp [State.closeWindows, h]

theorem State.closeWindows_other {s : State} {d : Nat} (h : (s.hcAt d).win ≠ s.stormWindow) :
    s.closeWindows d = s.windowEnds d (max 1 (s.stormWindow - (s.hcAt d).win)) := by
  simp [State.closeWindows, Ne.symm h]

theorem State.closeWindows_win (s : State) (d : Nat) : ((s.closeWindows d).hcAt d).win = s.stormWindow := by
  by_cases h : (s.hcAt d).win = s.stormWindow
  · rw [State.closeWindows_same h, h]
  · obtain ⟨l, b, e⟩ := s.windowEnds_hcAt d (max 1 (s.stormWindow - (s.hcAt d).win))
    rw [State.closeWindows_other h, e]
    rfl

@[simp] theorem State.closeWindows_keeps (s : State) (d : Nat) :
    (s.closeWindows d).inReset = s.inReset ∧ (s.closeWindows d).time = s.time := by
  unfold State.closeWindows
  split <;> simp

/-- Closing the windows a second time does nothing. -/
theorem State.closeWindows_idem (s : State) (d : Nat) : (s.closeWindows d).closeWindows d = s.closeWindows d := by
  refine State.closeWindows_same ?_
  rw [s.closeWindows_win]
  simp [State.stormWindow]

/-- What a report does at a controller that counts the present window. -/
theorem State.reportArrives_eq {s : State} {d : Nat} (h : (s.hcAt d).win = s.stormWindow) (w : Dword) :
    s.reportArrives d w =
      if w.toNat % 16 = 0 ∨ 4 ≤ w.toNat % 16 ∨ 256 ≤ (s.hcAt d).queue.length then s.incSat (hcPage d + 0x50)
      else if !(s.hcAt d).storm && decide (64 < (s.hcAt d).window + 1) then (s.queueReport d w).stormEnters d else s.queueReport d w := by
  simp only [State.reportArrives, State.closeWindows_same h, bits, pow_zero, Nat.div_one, Nat.reducePow, State.queueReport]

theorem exec_faultReportArrival {s : State} (h : s.inReset = false) (die : Fin 24) (w : Dword) :
    exec (.faultReportArrival die w) s = .next (s.reportArrives die.val w) :=
  congrArg Host.Outcome.next (State.whenUp_of_up h _)

theorem exec_stormWindowEnd {s : State} (h : s.inReset = false) (die : Fin 24) :
    exec (.stormWindowEnd die) s = .next (s.closeWindows die.val) :=
  congrArg Host.Outcome.next (State.whenUp_of_up h _)

/-- A report leads to the same state whether or not the windows that have ended are closed first. -/
theorem State.reportArrives_closeWindows (s : State) (d : Nat) (w : Dword) : (s.closeWindows d).reportArrives d w = s.reportArrives d w := by
  simp only [State.reportArrives, s.closeWindows_idem]

/-- The controller with the report waiting. -/
theorem State.queueReport_spec (s : State) (d : Nat) (w : Dword) :
    (s.queueReport d w).hcAt d = { s.hcAt d with queue := (s.hcAt d).queue ++ [(s.time, w)], window := (s.hcAt d).window + 1 } ∧
      ((s.queueReport d w).reg (hcPage d + 0x48)).toNat = min (2 ^ 32 - 1) ((s.reg (hcPage d + 0x48)).toNat + 1) ∧
      (∀ k, k ≠ hcPage d + 0x48 → (s.queueReport d w).reg k = s.reg k) := by
  refine ⟨by simp [State.queueReport], ?_, fun k hk => ?_⟩
  · simp only [State.queueReport, State.incSat_reg, if_true, State.setHc_keeps, BitVec.toNat_ofNat]
    omega
  · simp [State.queueReport, State.incSat_reg, hk]

theorem reportArrivals : Claims.ReportArrivals := by
  intro s die w hup d pg h kind arrive queued now ended quiet
  have harr : arrive = .next (s.reportArrives d w) := exec_faultReportArrival hup die w
  have hend := exec_stormWindowEnd hup die
  have hq := s.queueReport_spec d w
  refine ⟨fun hw => ?_, fun hw => ?_, fun hw hk => ?_, fun hw h1 h3 hroom => ?_, fun hw => ?_⟩
  · refine ⟨_, hend, s.closeWindows_win d, ?_⟩
    rw [harr, exec_faultReportArrival (by simp [hup]), State.reportArrives_closeWindows]
  · rw [hend, State.closeWindows_same hw]
  · rw [harr, State.reportArrives_eq hw, if_pos hk]
  · have hroom' : (s.hcAt d).queue.length < 256 := hroom
    have hkind : ¬ (w.toNat % 16 = 0 ∨ 4 ≤ w.toNat % 16 ∨ 256 ≤ (s.hcAt d).queue.length) := by omega
    rw [harr, State.reportArrives_eq hw, if_neg hkind]
    obtain ⟨hhc, hcount, hreg⟩ := hq
    refine ⟨fun hs => ?_, fun hs hfull => ?_⟩
    · have hno : (!(s.hcAt d).storm && decide (64 < (s.hcAt d).window + 1)) = false := by
        rcases hs with hs | hs
        · simp [show (s.hcAt d).storm = true from hs]
        · simp [show (s.hcAt d).window < 64 from hs]
      rw [if_neg (by rw [hno]; decide)]
      exact ⟨_, rfl, ⟨by rw [hhc], by rw [hhc], by rw [hhc], hcount⟩, by rw [hhc], by simp [State.queueReport], by simp [State.queueReport]⟩
    · have hyes : (!(s.hcAt d).storm && decide (64 < (s.hcAt d).window + 1)) = true := by
        simp [show (s.hcAt d).storm = false from hs, show 64 ≤ (s.hcAt d).window from hfull]
      rw [if_pos hyes]
      obtain ⟨⟨l, b, ht⟩, htc, htb, hte⟩ := (s.queueReport d w).stormEnters_spec die
      rw [hhc] at ht
      refine ⟨_, rfl, ⟨by rw [ht], by rw [ht], by rw [ht], by rw [htc]; exact hcount⟩, by rw [ht], htb, fun he => hte ?_⟩
      rwa [hreg (hcPage d + 0x18) (by omega)]
  · obtain ⟨l, b, ht⟩ := s.windowEnds_hcAt d ended
    have hquiet : (s.hcAt d).quietAfter ended = quiet := rfl
    have hends : exec (.stormWindowEnd die) s = .next (s.windowEnds d ended) := hend.trans (congrArg Host.Outcome.next (State.closeWindows_other hw))
    refine ⟨_, hends, by rw [ht]; rfl, by rw [ht]; rfl, by rw [ht]; rfl, ?_, fun hs => ?_, fun hs hten => ?_, fun hs hten => ?_⟩
    · show _ = if ended = 1 then min (s.hcAt d).window 65535 else 0
      rw [s.windowEnds_rate d ended, BitVec.toNat_ofNat]
      split <;> omega
    · rw [ht]
      simp [Hc.closed, show (s.hcAt d).storm = false from hs]
    · have hon : (s.hcAt d).stormOver ended = false := by simp [Hc.stormOver, hquiet, hten]
      rw [ht]
      simp [Hc.closed, hon, show (s.hcAt d).storm = true from hs, hquiet]
    · have hover : (s.hcAt d).stormOver ended = true := by simp [Hc.stormOver, hquiet, hten, show (s.hcAt d).storm = true from hs]
      refine ⟨?_, s.windowEnds_stormEnd d ended hover⟩
      rw [ht]
      simp [Hc.closed, hover]

end Sys2Proof.Machine
end

section
/-! SUPPORT. The suspect table (08 R275 to R277, R301). -/
namespace Sys2Proof.Machine

@[simp] theorem Hc.setEntry_queue (h : Hc) (e : Nat) (x : Suspect) : (h.setEntry e x).queue = h.queue := rfl
@[simp] theorem Hc.entry_setEntry_same (h : Hc) (e : Nat) (x : Suspect) : (h.setEntry e x).entry e = x := Sparse.get_put_same ..
theorem Hc.entry_setEntry_other (h : Hc) {e f : Nat} (x : Suspect) (hf : f ≠ e) : (h.setEntry e x).entry f = h.entry f :=
  Sparse.get_put_other _ _ _ hf

/-- The entry that is found has the state and the suspect asked for. -/
theorem Hc.find_some {h : Hc} {st : SuspectState} {n e : Nat} (hf : h.find st n = some e) : (h.entry e).st = st ∧ (h.entry e).suspect.toNat = n := by
  simpa using List.find?_some hf

theorem Suspect.accusations_eq (x : Suspect) : x.accusations = (if x.accusers.getLsbD 0 then 1 else 0) + (if x.accusers.getLsbD 1 then 1 else 0) +
    (if x.accusers.getLsbD 2 then 1 else 0) + (if x.accusers.getLsbD 3 then 1 else 0) := by
  simp [Suspect.accusations, List.range_succ, b2n]

/-- The OPEN entry x of a controller with QUORUM q fails: on SELF, or on enough accusations (08 R276). -/
def Suspect.condemned (x : Suspect) (q : Nat) : Prop := x.self = true ∨ q ≤ x.accusations

/-- What firmware does at once with a core that has failed touches neither a controller nor a register. -/
theorem State.declared_core (s : State) (d : Nat) {n : Nat} (hn : n < 2112) :
    (∀ j, (s.declared d n).hcAt j = s.hcAt j) ∧ (∀ k b, (s.declared d n).bit k b = s.bit k b) := by
  rw [State.declared, if_pos hn]
  split <;> exact ⟨fun _ => rfl, fun _ _ => rfl⟩

/-- The state in which entry e is FAILED and DECLARED raised. -/
def State.failEntry (s : State) (d e : Nat) : State :=
  (s.setHc d ((s.hcAt d).setEntry e { (s.hcAt d).entry e with st := .failed, failedAt := s.time })).hcRaise d 1

theorem State.judge_eq (s : State) (d e : Nat) : s.judge d e =
    if ((s.hcAt d).entry e).st = .opened ∧ (((s.hcAt d).entry e).self = true ∨ s.fld (hcPage d + 0x40) 16 3 ≤ ((s.hcAt d).entry e).accusations) then
      (s.failEntry d e).declared d ((s.hcAt d).entry e).suspect.toNat
    else s := rfl

/-- The verdict on an entry of a core: what it leaves, when it leaves everything, and a failure. -/
theorem State.judge_spec (s : State) (d e : Nat) (hn : ((s.hcAt d).entry e).suspect.toNat < 2112) :
    let x := (s.hcAt d).entry e
    let u := s.judge d e
    (u.hcAt d).queue = (s.hcAt d).queue ∧ (∀ f, f ≠ e → (u.hcAt d).entry f = (s.hcAt d).entry f) ∧
      (∀ b, s.bit (hcPage d + 0x10) b = true → u.bit (hcPage d + 0x10) b = true) ∧
      (¬ x.condemned (s.fld (hcPage d + 0x40) 16 3) → u = s) ∧
      (x.st = .opened → x.condemned (s.fld (hcPage d + 0x40) 16 3) →
        (u.hcAt d).entry e = { x with st := .failed, failedAt := s.time } ∧ u.bit (hcPage d + 0x10) 0 = true) := by
  intro x u
  by_cases hc : x.st = .opened ∧ x.condemned (s.fld (hcPage d + 0x40) 16 3)
  · have hu : u = (s.failEntry d e).declared d x.suspect.toNat := (s.judge_eq d e).trans (if_pos hc)
    obtain ⟨hhc, hbit⟩ := (s.failEntry d e).declared_core d hn
    rw [hu]
    refine ⟨?_, fun f hf => ?_, fun b hb => ?_, fun hno => absurd hc.2 hno, fun _ _ => ⟨?_, ?_⟩⟩
    · rw [hhc]
      simp [State.failEntry]
    · rw [hhc]
      simp [State.failEntry, Hc.entry_setEntry_other _ _ hf]
    · rw [hbit]
      exact State.hcRaise_bit_kept _ d b 1 (by simpa using hb)
    · rw [hhc]
      simp [x, State.failEntry]
    · rw [hbit]
      exact State.hcRaise_bit _ d 0 1 (by decide)
  · have hu : u = s := (s.judge_eq d e).trans (if_neg hc)
    rw [hu]
    exact ⟨rfl, fun _ _ => rfl, fun _ hb => hb, fun _ => rfl, fun ho hcond => absurd ⟨ho, hcond⟩ hc⟩

/-- What a report changes in the entry that it folds into. -/
theorem Suspect.fold_spec (x : Suspect) (t0 w : Dword) :
    let kind := w.toNat % 16
    let y := x.fold t0 w
    y.count = min 255 (x.count + 1) ∧ y.accusers = x.accusers ||| (if kind = 1 then 0 else BitVec.ofNat 4 (2 ^ (w.toNat / 2 ^ 48 % 4))) ∧
      y.self = (x.self || decide (kind = 1)) ∧ y.suspect = x.suspect ∧ y.lastTime = t0 ∧ y.firstTime = x.firstTime ∧
      y.codeLast.toNat = w.toNat / 2 ^ 32 % 2 ^ 16 := by
  intro kind y
  have hkind : bits w.toNat 0 4 = kind := by simp [bits, kind]
  refine ⟨rfl, ?_, by simp [y, Suspect.fold, hkind], rfl, rfl, rfl, ?_⟩
  · by_cases h : w.toNat % 16 = 1 <;> simp [y, kind, Suspect.fold, h, bits]
  · simp [y, Suspect.fold, bits]

/-- The entry of a first report. -/
theorem Suspect.new_spec (t0 w : Dword) :
    let kind := w.toNat % 16
    let y := Suspect.new t0 w
    y.st = .opened ∧ y.count = 1 ∧ y.accusers = (if kind = 1 then 0 else BitVec.ofNat 4 (2 ^ (w.toNat / 2 ^ 48 % 4))) ∧ y.self = decide (kind = 1) ∧
      y.suspect.toNat = w.toNat / 16 % 2 ^ 12 ∧ y.firstTime = t0 := by
  intro kind y
  obtain ⟨_, hacc, hself, _⟩ := Suspect.fold_spec Suspect.empty t0 w
  refine ⟨rfl, rfl, ?_, ?_, ?_, rfl⟩
  · show (Suspect.empty.fold t0 w).accusers = _
    rw [hacc]
    simp [Suspect.empty, kind]
  · show (Suspect.empty.fold t0 w).self = _
    rw [hself]
    simp [Suspect.empty, kind]
  · simp [y, Suspect.new, bits]

/-- A report of KIND 1 to 3 at the head of the queue is taken and folded in. -/
theorem exec_report {s : State} (hup : s.inReset = false) (die : Fin 24) {t0 w : Dword} {rest : List (Dword × Dword)}
    (hq : (s.hcAt die.val).queue = (t0, w) :: rest) (h1 : 1 ≤ w.toNat % 16) (h3 : w.toNat % 16 ≤ 3) :
    exec (if w.toNat % 16 = 1 then .reportSelf die false else if w.toNat % 16 = 2 then .reportAccuse die false else .reportLink die false) s =
      .next ((s.setHc die.val { s.hcAt die.val with queue := rest }).foldReport die.val t0 w) := by
  have htake : s.takeReport die.val (w.toNat % 16) = (s.setHc die.val { s.hcAt die.val with queue := rest }).foldReport die.val t0 w := by
    simp [State.takeReport, hq, bits]
  rw [← htake]
  have hk : w.toNat % 16 = 1 ∨ w.toNat % 16 = 2 ∨ w.toNat % 16 = 3 := by omega
  rcases hk with hk | hk | hk <;> rw [hk] <;> exact congrArg Host.Outcome.next (State.whenUp_of_up hup _)

theorem exec_suspectWindowExpiry {s : State} (hup : s.inReset = false) (die : Fin 24) (e : Fin 16) :
    exec (.suspectWindowExpiry die e) s = .next (
      if ((s.hcAt die.val).entry e.val).st = .opened then
        (s.setHc die.val ((s.hcAt die.val).setEntry e.val { (s.hcAt die.val).entry e.val with st := .closed })).hcRaise die.val 2
      else s) := congrArg Host.Outcome.next (State.whenUp_of_up hup _)

/-- Whether HC_RELEASE with a mask frees entry x, number e (08 R301). -/
def Suspect.freed (x : Suspect) (mask : Word) (e : Nat) : Bool := mask.getLsbD e && (decide (x.st = .failed) || decide (x.st = .closed))

/-- Entries that have not come up yet are as they were, and every other is freed where the mask and its state say so. -/
theorem State.release_entry (d : Nat) (mask : Word) (l : List Nat) (hl : l.Nodup) (s : State) (f : Nat) :
    ((l.foldl (fun s e =>
      let h := s.hcAt d
      let x := h.entry e
      if mask.getLsbD e && (decide (x.st = .failed) || decide (x.st = .closed)) then s.setHc d (h.setEntry e Suspect.empty) else s) s).hcAt d).entry f =
      if f ∈ l ∧ ((s.hcAt d).entry f).freed mask f = true then Suspect.empty else (s.hcAt d).entry f := by
  induction l generalizing s with
  | nil => simp
  | cons e l ih =>
    obtain ⟨he, hl⟩ := List.nodup_cons.1 hl
    rw [List.foldl_cons, ih hl]
    by_cases hf : f = e
    · subst hf
      by_cases hfree : ((s.hcAt d).entry f).freed mask f = true
      · have hfree' := hfree
        simp only [Suspect.freed] at hfree'
        simp [he, hfree', Suspect.freed, Suspect.empty]
      · have hfree' := hfree
        simp only [Suspect.freed] at hfree'
        simp [he, hfree, hfree']
    · have hsame : ((if mask.getLsbD e && (decide (((s.hcAt d).entry e).st = .failed) || decide (((s.hcAt d).entry e).st = .closed)) then
          s.setHc d ((s.hcAt d).setEntry e Suspect.empty) else s).hcAt d).entry f = (s.hcAt d).entry f := by
        split
        · simp [Hc.entry_setEntry_other _ _ hf]
        · rfl
      simp only [hsame, List.mem_cons, hf, false_or]

/-! A report and the entry that takes it (08 R275, R277) -/

theorem kind_bits (x : Nat) : bits x 0 4 = x % 16 := by simp [bits]
theorem suspect_bits (x : Nat) : bits x 4 12 = x / 16 % 2 ^ 12 := rfl

section
variable {s : State} {d : Nat} {t0 w : Dword} {e : Nat}

theorem State.foldReport_failed (hf : (s.hcAt d).find .failed (w.toNat / 16 % 2 ^ 12) = some e) :
    s.foldReport d t0 w = s.setHc d ((s.hcAt d).setEntry e (((s.hcAt d).entry e).fold t0 w)) := by
  simp only [State.foldReport, suspect_bits, hf]

theorem State.foldReport_opened (hf : (s.hcAt d).find .failed (w.toNat / 16 % 2 ^ 12) = none)
    (ho : (s.hcAt d).find .opened (w.toNat / 16 % 2 ^ 12) = some e) :
    s.foldReport d t0 w = (s.setHc d ((s.hcAt d).setEntry e (((s.hcAt d).entry e).fold t0 w))).judge d e := by
  simp only [State.foldReport, suspect_bits, hf, ho]

theorem State.foldReport_free (hf : (s.hcAt d).find .failed (w.toNat / 16 % 2 ^ 12) = none)
    (ho : (s.hcAt d).find .opened (w.toNat / 16 % 2 ^ 12) = none) (hr : (s.hcAt d).free = some e) :
    s.foldReport d t0 w = (s.setHc d ((s.hcAt d).setEntry e (Suspect.new t0 w))).judge d e := by
  simp only [State.foldReport, suspect_bits, hf, ho, hr]

/-- A full table drops a report of another core, and counts it. -/
theorem State.foldReport_full (hf : (s.hcAt d).find .failed (w.toNat / 16 % 2 ^ 12) = none)
    (ho : (s.hcAt d).find .opened (w.toNat / 16 % 2 ^ 12) = none) (hr : (s.hcAt d).free = none) (hk : w.toNat % 16 ≠ 1) :
    s.foldReport d t0 w = (s.incSat (hcPage d + 0x50)).hcRaise d 16 := by
  simp only [State.foldReport, kind_bits, suspect_bits, hf, ho, hr, hk, if_false]

/-- A core's report of itself replaces the weakest OPEN entry of a full table. -/
theorem State.foldReport_weakest (hf : (s.hcAt d).find .failed (w.toNat / 16 % 2 ^ 12) = none)
    (ho : (s.hcAt d).find .opened (w.toNat / 16 % 2 ^ 12) = none) (hr : (s.hcAt d).free = none) (hk : w.toNat % 16 = 1)
    (hw : (s.hcAt d).weakest = some e) :
    s.foldReport d t0 w = ((s.setHc d ((s.hcAt d).setEntry e (Suspect.new t0 w))).hcRaise d 16).judge d e := by
  simp only [State.foldReport, kind_bits, suspect_bits, hf, ho, hr, hk, if_true, hw]

/-- The verdict on an OPEN entry y that has just been written: the entry stays OPEN, or fails with DECLARED. -/
theorem State.judge_written (y : Suspect) (hy : y.st = .opened) (hn : y.suspect.toNat < 2112) :
    let u := (s.setHc d ((s.hcAt d).setEntry e y)).judge d e
    (u.hcAt d).queue = (s.hcAt d).queue ∧ (∀ f, f ≠ e → (u.hcAt d).entry f = (s.hcAt d).entry f) ∧
      ∃ at_, (¬ y.condemned (s.fld (hcPage d + 0x40) 16 3) → (u.hcAt d).entry e = { y with failedAt := at_, st := .opened }) ∧
        (y.condemned (s.fld (hcPage d + 0x40) 16 3) →
          (u.hcAt d).entry e = { y with failedAt := at_, st := .failed } ∧ u.bit (hcPage d + 0x10) 0 = true) := by
  intro u
  have hent : ((s.setHc d ((s.hcAt d).setEntry e y)).hcAt d).entry e = y := by simp
  have hj := (s.setHc d ((s.hcAt d).setEntry e y)).judge_spec d e (by rwa [hent])
  simp only [hent, State.setHc_keeps] at hj
  obtain ⟨hqueue, hothers, _, hno, hyes⟩ := hj
  refine ⟨by simpa using hqueue, fun f hf => ?_, ?_⟩
  · rw [hothers f hf]
    simp [Hc.entry_setEntry_other _ _ hf]
  · by_cases hc : y.condemned (s.fld (hcPage d + 0x40) 16 3)
    · exact ⟨s.time, fun h => absurd hc h, fun _ => hyes hy hc⟩
    · refine ⟨y.failedAt, fun _ => ?_, fun h => absurd h hc⟩
      show (u.hcAt d).entry e = _
      rw [show u = _ from hno hc, hent, ← hy]

end

theorem suspectTable : Claims.SuspectTable := by
  intro s die who t0 w rest entry mask hup d pg h kind suspect quorum cmd bit folded fails others
  refine ⟨fun hq h1 h3 hs => ?_, fun ho => ?_, fun ho => ?_, fun hmay => ?_⟩
  · have hcmd : exec cmd s = .next ((s.setHc d { h with queue := rest }).foldReport d t0 w) := exec_report hup die hq h1 h3
    -- the controller once the report has left the queue: its table is as it was
    generalize hs0 : s.setHc d { h with queue := rest } = s0 at hcmd
    have hat : s0.hcAt d = { h with queue := rest } := by rw [← hs0]; simp
    have hqueue : (s0.hcAt d).queue = rest := by rw [hat]
    have hent (f : Nat) : (s0.hcAt d).entry f = h.entry f := by rw [hat]; rfl
    have hfind (st : SuspectState) (n : Nat) : (s0.hcAt d).find st n = h.find st n := by rw [hat]; rfl
    have hfree : (s0.hcAt d).free = h.free := by rw [hat]; rfl
    have hweak : (s0.hcAt d).weakest = h.weakest := by rw [hat]; rfl
    have hquo : s0.fld (hcPage d + 0x40) 16 3 = quorum := by rw [← hs0]; simp [quorum, pg]
    have hfails (x : Suspect) : x.condemned quorum ↔ fails x := by rw [Suspect.condemned, Suspect.accusations_eq]
    refine ⟨fun e hf => ?_, fun e hf ho => ?_, fun e hf ho hr => ?_, fun hf ho hr hk => ?_, fun e hf ho hr hk hw => ?_⟩
    · rw [State.foldReport_failed ((hfind _ _).trans hf)] at hcmd
      refine ⟨_, hcmd, ⟨by simp [hqueue], fun f hfe => by simp [Hc.entry_setEntry_other _ _ hfe, hent]⟩, ?_, ?_⟩
      · rw [State.setHc_hcAt_same, Hc.entry_setEntry_same, hent]
        exact (Hc.find_some hf).1
      · rw [State.setHc_hcAt_same, Hc.entry_setEntry_same, hent]
        exact (h.entry e).fold_spec t0 w
    · rw [State.foldReport_opened ((hfind _ _).trans hf) ((hfind _ _).trans ho), hent] at hcmd
      obtain ⟨hst, hsus⟩ := Hc.find_some ho
      obtain ⟨hu, hothers, at_, hno, hyes⟩ := State.judge_written (s := s0) (d := d) (e := e) ((h.entry e).fold t0 w) hst (by rw [((h.entry e).fold_spec t0 w).2.2.2.1]; omega)
      simp only [hquo, hfails] at hno hyes
      exact ⟨_, { (h.entry e).fold t0 w with failedAt := at_ }, hcmd, ⟨hu.trans hqueue, fun f hfe => (hothers f hfe).trans (hent f)⟩, (h.entry e).fold_spec t0 w, hno, hyes⟩
    · rw [State.foldReport_free ((hfind _ _).trans hf) ((hfind _ _).trans ho) (hfree.trans hr)] at hcmd
      obtain ⟨hst, hcount, hacc, hself, hsus, hfirst⟩ := Suspect.new_spec t0 w
      obtain ⟨hu, hothers, at_, hno, hyes⟩ := State.judge_written (s := s0) (d := d) (e := e) (Suspect.new t0 w) hst (by rw [hsus]; exact hs)
      simp only [hquo, hfails] at hno hyes
      exact ⟨_, { Suspect.new t0 w with failedAt := at_ }, hcmd, ⟨hu.trans hqueue, fun f hfe => (hothers f hfe).trans (hent f)⟩,
        hcount, hacc, hself, hsus, hfirst, hno, hyes⟩
    · rw [State.foldReport_full ((hfind _ _).trans hf) ((hfind _ _).trans ho) (hfree.trans hr) hk] at hcmd
      refine ⟨_, hcmd, ⟨by simp [hqueue], fun f _ => by simp [hent]⟩, ?_, State.hcRaise_bit _ d 4 16 (by decide)⟩
      rw [State.hcRaise_reg, if_neg (by omega), State.incSat_reg, if_pos rfl, ← hs0, BitVec.toNat_ofNat]
      simp only [State.setHc_keeps, pg]
      omega
    · rw [State.foldReport_weakest ((hfind _ _).trans hf) ((hfind _ _).trans ho) (hfree.trans hr) hk (hweak.trans hw)] at hcmd
      obtain ⟨hst, _, _, hself, hsus, _⟩ := Suspect.new_spec t0 w
      generalize hs1 : (s0.setHc d ((s0.hcAt d).setEntry e (Suspect.new t0 w))).hcRaise d 16 = s1 at hcmd
      have hent1 : (s1.hcAt d).entry e = Suspect.new t0 w := by rw [← hs1]; simp
      have hj := s1.judge_spec d e (by rw [hent1, hsus]; exact hs)
      simp only [hent1] at hj
      obtain ⟨hu, hothers, hbits, _, hyes⟩ := hj
      obtain ⟨hfailed, hdeclared⟩ := hyes hst (.inl (by rw [hself]; exact decide_eq_true hk))
      refine ⟨_, hcmd, ⟨?_, fun f hfe => ?_⟩, by rw [hfailed]; exact hsus, by rw [hfailed], hbits 4 ?_, hdeclared⟩
      · rw [hu, ← hs1]
        simp [hqueue]
      · rw [hothers f hfe, ← hs1]
        simp [Hc.entry_setEntry_other _ _ hfe, hent]
      · rw [← hs1]
        exact State.hcRaise_bit _ d 4 16 (by decide)
  · have hx := exec_suspectWindowExpiry hup die entry
    rw [if_pos ho] at hx
    refine ⟨_, hx, by simp [d, h], fun f hf => ?_, State.hcRaise_bit _ d 1 2 (by decide)⟩
    simp [d, h, Hc.entry_setEntry_other _ _ hf]
  · have hx := exec_suspectWindowExpiry hup die entry
    rwa [if_neg ho] at hx
  · refine ⟨s.hcRelease d mask, ?_, fun e he => ?_⟩
    · exact congrArg Host.Outcome.next ((State.whenUp_of_up hup _).trans (State.ctl_of_may hmay _))
    · rw [State.hcRelease, State.release_entry d mask _ List.nodup_range]
      simp [Suspect.freed, he, h]

end Sys2Proof.Machine
end

section
/-! Reports at a health controller. -/
namespace Sys2Proof.Machine

/-- Settles O28: the arrival of reports, and the suspect table that they fill. -/
theorem healthReports : Obligations.HealthReports := ⟨reportArrivals, suspectTable⟩

end Sys2Proof.Machine
end

section
/-! SUPPORT. A reef whose position does not move at once: swapFree asks for a pending FLIP only at the cores that the state
lists, and phase 4 lists the spare by filling its scratchpad. -/
namespace Sys2Proof.Machine

/-- The replay of a domain of core (0, 0) alone, whose base image holds one byte. -/
def oneByteReplay : Replay :=
  { jbase := 0, jsize := 0, rb := 0, domain := [⟨0, 0, 0, 0⟩], slots := [(0, { Slot2.empty with spad := [(0, 1)] })], newer := 0,
    upTo := 0, log := [], redo := [], diverged := false }

/-- Core 0 has FAILED, its owner has a base image for it, and the interface of the spare of column 64, which is otherwise as after
reset, has FLIP_PENDING. -/
def spareFlipPending : State :=
  ((State.reset.setHc 0 { Hc.reset with table := [(0, { Suspect.empty with st := .failed })] }).setReg (niPage 64 + 0x44) 16).setTenant 0
    { Tenant.free with replay := some oneByteReplay }

/-- It meets every condition under which the position is to move at once. -/
theorem spareFlipPending_meets :
    let s := spareFlipPending
    s.inReset = false ∧ s.logOf 0 = some (0, 0) ∧ s.isFailed 0 = true ∧ s.markOf 0 ≠ .removed ∧ s.reefs = [] ∧ s.idleSpare 64 = true ∧
      s.swapFree = true ∧ s.routed 0 = false ∧ (s.region (collarRegion 0)).image = none ∧ (s.tenant (s.niTenant 0).toNat).res.rects = [] ∧
      (s.region (collarRegion 64)).st = .empty := by decide +kernel

/-- Its REEF is carried out up to phase 4. -/
theorem spareFlipPending_reef : exec (.reef ⟨0, 0⟩ true true true) spareFlipPending = .next (spareFlipPending.reef 0 0 0 true true true).reefsGo := rfl

/-- Once the spare is filled no swap is free, and core 0 goes on serving its position. -/
theorem spareFlipPending_stays : (spareFlipPending.reef 0 0 0 true true true).reefsGo.physOf 0 0 = 0 := by decide +kernel

/-- Refutes O29: the position of a reefed core need not move at once where no swap runs before the reef, nothing else is under way
and routing is not up. In spareFlipPending the refill of the spare makes the pending FLIP of its interface count, so that the swap
waits and core (0, 0) stays where it was. -/
theorem not_reefAndRecorder : ¬ Obligations.ReefAndRecorder := by
  intro h
  obtain ⟨hup, hlog, hfailed, hmark, hreefs, hidle, hfree, hrouted, himage, hrects, hst⟩ := spareFlipPending_meets
  obtain ⟨hreefs_claim, _⟩ := h
  obtain ⟨hreef, _⟩ := hreefs_claim spareFlipPending ⟨0, 0⟩ 0 0 true true true hup
  obtain ⟨hspare, _⟩ := hreef hlog hfailed hmark (by rw [hreefs]; simp) (by decide) (by decide)
  obtain ⟨t, ht, _, _, _, _, _, hphys⟩ := hspare 64 true (.inl ⟨hidle, rfl, rfl⟩)
  have ht' : (spareFlipPending.reef 0 0 0 true true true).reefsGo = t := Host.Outcome.next.inj (spareFlipPending_reef.symm.trans ht)
  have h64 := hphys hreefs hfree hrouted himage hrects (by rw [hst]; decide) (by rw [hst]; decide)
  rw [← ht', spareFlipPending_stays] at h64
  exact absurd h64 (by decide)

end Sys2Proof.Machine
end

section
/-! SUPPORT. Fields of registers, keys of pages, and a page's return to its reset values. -/
namespace Sys2Proof.Machine

/-! Fields: bit by bit -/

theorem testBit_bits (x lo w i : Nat) : (bits x lo w).testBit i = (decide (i < w) && x.testBit (lo + i)) := by
  rw [bits, Nat.testBit_mod_two_pow, Nat.testBit_div_two_pow, Nat.add_comm]

/-- A number with a field replaced, put together from what lies above the field, the field and what lies below. -/
theorem setBits_eq (x lo w v : Nat) : setBits x lo w v = 2 ^ lo * (2 ^ w * (x / 2 ^ lo / 2 ^ w) + v % 2 ^ w) + x % 2 ^ lo := by
  have hx := Nat.div_add_mod x (2 ^ lo)
  have hm := Nat.div_add_mod (x / 2 ^ lo) (2 ^ w)
  rw [setBits, bits]
  generalize x / 2 ^ lo = a at *
  generalize a / 2 ^ w = q at *
  generalize a % 2 ^ w = m at *
  generalize x % 2 ^ lo = r at *
  subst hm
  rw [← hx]
  rw [Nat.mul_add, Nat.mul_add, Nat.mul_comm m, Nat.mul_comm (v % 2 ^ w)]
  omega

theorem testBit_setBits (x lo w v i : Nat) :
    (setBits x lo w v).testBit i = if lo ≤ i ∧ i < lo + w then v.testBit (i - lo) else x.testBit i := by
  rw [setBits_eq, Nat.testBit_two_pow_mul_add _ (Nat.mod_lt _ (by positivity)), Nat.testBit_two_pow_mul_add _ (Nat.mod_lt _ (by positivity)),
    Nat.testBit_mod_two_pow, Nat.testBit_mod_two_pow, Nat.testBit_div_two_pow, Nat.testBit_div_two_pow]
  by_cases h1 : i < lo
  · simp [h1, show ¬ lo ≤ i by omega]
  · by_cases h2 : i < lo + w
    · simp [h1, h2, show lo ≤ i by omega, show i - lo < w by omega]
    · simp [h1, h2, show ¬ i - lo < w by omega, show i - lo - w + w + lo = i by omega]

/-- A field that has been set reads the value. -/
theorem bits_setBits_same (x lo w v : Nat) : bits (setBits x lo w v) lo w = v % 2 ^ w := by
  apply Nat.eq_of_testBit_eq
  intro i
  rw [testBit_bits, testBit_setBits, Nat.testBit_mod_two_pow]
  by_cases h : i < w <;> simp [h]

/-- A word with a field replaced is a word. -/
theorem setBits_lt {x lo w : Nat} (v : Nat) (hx : x < 2 ^ 32) (h : lo + w ≤ 32) : setBits x lo w v < 2 ^ 32 := by
  refine Nat.lt_pow_two_of_testBit _ fun i hi => ?_
  rw [testBit_setBits, if_neg (by omega)]
  exact Nat.testBit_lt_two_pow (Nat.lt_of_lt_of_le hx (Nat.pow_le_pow_right (by decide) hi))

section
variable (s : State) (k v : Nat) {lo w : Nat}

theorem State.setFld_toNat (h : lo + w ≤ 32) : ((s.setFld k lo w v).reg k).toNat = setBits (s.reg k).toNat lo w v := by
  rw [State.setFld_reg, if_pos rfl, BitVec.toNat_ofNat, Nat.mod_eq_of_lt (setBits_lt v (s.reg k).isLt h)]

theorem State.setFld_fld_same (h : lo + w ≤ 32) : (s.setFld k lo w v).fld k lo w = v % 2 ^ w := by
  rw [State.fld, State.setFld_toNat _ _ _ h, bits_setBits_same]

theorem State.setFld_bit (h : lo + w ≤ 32) (b : Nat) :
    (s.setFld k lo w v).bit k b = if lo ≤ b ∧ b < lo + w then v.testBit (b - lo) else s.bit k b := by
  rw [State.bit, ← BitVec.testBit_toNat, State.setFld_toNat _ _ _ h, testBit_setBits, State.bit, ← BitVec.testBit_toNat]

end

/-! Keys of pages (17 R505) -/

section
variable {d u p off : Nat}

theorem keyOff_pageAt (ho : off < 4096) : keyOff (pageAt d u p + off) = off := by simp only [keyOff, pageAt]; omega
theorem keyPage_pageAt (hp : p < 16) (ho : off < 4096) : keyPage (pageAt d u p + off) = p := by simp only [keyPage, pageAt]; omega

variable (hu : u < 2 ^ 16) (hp : p < 16) (ho : off < 4096)
include hu hp ho

theorem keyUnit_pageAt : keyUnit (pageAt d u p + off) = u := by simp only [keyUnit, pageAt]; omega
theorem keyDie_pageAt : keyDie (pageAt d u p + off) = d := by simp only [keyDie, pageAt]; omega

theorem keyBlk_pageAt : keyBlk (pageAt d u p + off) = blkAt d u p := by
  rw [keyBlk, keyDie_pageAt hu hp ho, keyUnit_pageAt hu hp ho, keyPage_pageAt hp ho]

/-- The header of a block with one page is the page's own (17 R508). -/
theorem headPage_pageAt {b : Blk} (hb : b ≠ .tsn) : headPage b (pageAt d u p + off) = pageAt d u p := by
  rw [headPage, if_neg hb, keyDie_pageAt hu hp ho, keyUnit_pageAt hu hp ho, keyPage_pageAt hp ho]

end

/-- No block of a core among vector unit, generator, router and network interface. -/
def offCore (x : Option Blk) : Prop := x ≠ some .vec ∧ x ≠ some .rng ∧ x ≠ some .rtr ∧ x ≠ some .ni

theorem offCore_ite {q : Prop} [Decidable q] {x y : Option Blk} (hx : offCore x) (hy : offCore y) : offCore (if q then x else y) := by
  by_cases h : q
  · rwa [if_pos h]
  · rwa [if_neg h]

theorem offCore_blkAt {d u p : Nat} (hn : ¬ (d < 24 ∧ u < 2112)) : offCore (blkAt d u p) := by
  unfold blkAt
  rw [if_neg hn]
  repeat' apply offCore_ite
  all_goals exact ⟨by decide, by decide, by decide, by decide⟩

/-- The vector unit, the generator, the router and the network interface are blocks of cores (17 R510). -/
theorem blkAt_isCore {d u p : Nat} {b : Blk} (h : blkAt d u p = some b) (hb : b = .vec ∨ b = .rng ∨ b = .rtr ∨ b = .ni) : d < 24 ∧ u < 2112 := by
  by_contra hn
  obtain ⟨h1, h2, h3, h4⟩ := h ▸ offCore_blkAt (p := p) hn
  rcases hb with rfl | rfl | rfl | rfl
  · exact h1 rfl
  · exact h2 rfl
  · exact h3 rfl
  · exact h4 rfl

/-! A page at its reset values -/

theorem Sparse.get_filter {α : Type} (d : Nat → α) (m : Map α) (f : Nat → Bool) (k : Nat) :
    Sparse.get d (m.filter (fun p => f p.1)) k = if f k = true then Sparse.get d m k else d k := by
  induction m with
  | nil => simp
  | cons q r ih =>
    by_cases hq : q.1 = k
    · subst hq
      by_cases hf : f q.1 = true
      · simp [Sparse.get, hf]
      · simp [hf, ih]
    · by_cases hf : f q.1 = true <;> simp [Sparse.get, hf, hq, ih]

theorem State.pageReset_reg (s : State) (pg k : Nat) :
    (s.pageReset pg).reg k = if k < pg ∨ pg + 4096 ≤ k ∨ k = pg + 8 then s.reg k else regReset k := by
  have hf := Sparse.get_filter regReset s.regs (fun j => decide (j < pg) || decide (pg + 4096 ≤ j) || decide (j = pg + 8)) k
  simp only [Bool.or_eq_true, decide_eq_true_eq, or_assoc] at hf
  exact hf

end Sys2Proof.Machine
end

section
/-! PROOFS. Control pages: the power states of a block (16 R496 to R498). -/
namespace Sys2Proof.Machine

/-! Requests and ends of transitions -/

section
variable {p : BlkPower}

@[simp] theorem BlkPower.request_on (p : BlkPower) (on : Bool) : (p.request on).on = p.on := by
  rw [BlkPower.request]; split <;> rfl

@[simp] theorem BlkPower.request_want (p : BlkPower) (on : Bool) : (p.request on).want = on := by
  rw [BlkPower.request]; split <;> rfl

theorem BlkPower.request_moving (p : BlkPower) (on : Bool) : (p.request on).moving = (p.moving || decide (p.on ≠ on)) := by
  by_cases hm : p.moving = true
  · simp [BlkPower.request, hm]
  · by_cases ho : p.on = on <;> simp [BlkPower.request, hm, ho]

theorem BlkPower.arrives_next (hd : p.resetDue = false) :
    p.arrives.on = (!p.on) ∧ p.arrives.moving = decide (p.want = p.on) ∧ p.arrives.want = p.want := by
  rw [BlkPower.arrives, hd]
  cases p.on <;> cases p.want <;> exact ⟨rfl, rfl, rfl⟩

theorem BlkPower.arrives_reset (hd : p.resetDue = true) :
    p.arrives = { on := !p.on, moving := false, want := !p.on, pendingOn := false, resetDue := false } := by
  rw [BlkPower.arrives, hd]; rfl

end

section
variable {s : State} {who : Party} {page : PageId} {b : Blk} {pg : Nat} (hu : s.inReset = false) (hb : headBlk page = some b)
  (hk : PageId.key page = pg) (hg : headPage b pg = pg)
include hu hb hk hg

theorem exec_blkEnable (on : Bool) (hw : s.mayWrite who pg = true) :
    exec (.blkEnable who page on) s = .next ((s.requestPower pg on).answerCtl 0) := by
  have h : exec (.blkEnable who page on) s = .next (s.whenUp fun s => s.ctl who (PageId.key page) fun s =>
    match headBlk page with
    | some b => s.requestPower (headPage b (PageId.key page)) on
    | none => s) := rfl
  rw [h, State.whenUp_of_up hu, hk, State.ctl_of_may hw, hb]
  simp only [hg]

theorem exec_softReset (hw : s.mayWrite who pg = true) : exec (.softReset who page) s = .next ((s.softReset b pg).answerCtl 0) := by
  have h : exec (.softReset who page) s = .next (s.whenUp fun s => s.ctl who (PageId.key page) fun s =>
    match headBlk page with
    | some b => s.softReset b (headPage b (PageId.key page))
    | none => s) := rfl
  rw [h, State.whenUp_of_up hu, hk, State.ctl_of_may hw, hb]
  simp only [hg]

theorem exec_powerTransitionEnd : exec (.powerTransitionEnd page) s = .next (s.powerEnds b pg) := by
  have h : exec (.powerTransitionEnd page) s = .next (s.whenUp fun s =>
    match headBlk page with
    | some b => s.powerEnds b (headPage b (PageId.key page))
    | none => s) := rfl
  rw [h, State.whenUp_of_up hu, hk, hb]
  simp only [hg]

end

section
variable (s : State) (b : Blk) (pg : Nat)

theorem State.requestPower_blk (on : Bool) : (s.requestPower pg on).blk pg = (s.blk pg).request on :=
  State.setBlk_blk_same ..

theorem State.powerEnds_still (h : (s.blk pg).moving = false) : s.powerEnds b pg = s := by
  simp [State.powerEnds, h]

theorem State.powerEnds_next (h : (s.blk pg).moving = true) (hd : (s.blk pg).resetDue = false) :
    s.powerEnds b pg = s.setBlk pg (s.blk pg).arrives := by
  simp [State.powerEnds, h, hd]

theorem State.powerEnds_reset (h : (s.blk pg).moving = true) (hd : (s.blk pg).resetDue = true) :
    s.powerEnds b pg = (s.setBlk pg (s.blk pg).arrives).blkReset b pg := by
  simp [State.powerEnds, h, hd]

theorem State.softReset_moving (h : (s.blk pg).moving = true) :
    s.softReset b pg = s.setBlk pg { (s.blk pg) with resetDue := true } := by
  simp [State.softReset, h]

/-- The reset of a vector unit, generator, router or network interface: what it does in the core, then the registers of its page. -/
theorem State.softReset_core (h : (s.blk pg).moving = false) (hb : b = .vec ∨ b = .rng ∨ b = .rtr ∨ b = .ni) (hc : keyDie pg < 24 ∧ keyUnit pg < 2112) :
    s.softReset b pg = (s.coreReset b (keyCore pg) (keyPage pg)).pageReset pg := by
  have h1 : b ≠ .spad := by rcases hb with rfl | rfl | rfl | rfl <;> decide
  have h2 : b ≠ .tsn := by rcases hb with rfl | rfl | rfl | rfl <;> decide
  have h3 : b ≠ .gov := by rcases hb with rfl | rfl | rfl | rfl <;> decide
  have h4 : keptField b pg = none := by rcases hb with rfl | rfl | rfl | rfl <;> rfl
  simp [State.softReset, State.blkReset, h, h1, h2, h3, h4, hc]

theorem State.coreReset_reg_blk (n page : Nat) (hb : b = .vec ∨ b = .rng ∨ b = .rtr ∨ b = .ni) :
    (∀ k, (s.coreReset b n page).reg k = s.reg k) ∧ ∀ k, (s.coreReset b n page).blk k = s.blk k := by
  rcases hb with rfl | rfl | rfl | rfl <;> exact ⟨fun _ => rfl, fun _ => rfl⟩

end

/-- The block that heads a page is the page's block. The function is unfolded before it meets the page: the kernel would otherwise
compute the page's key. -/
theorem keyBlk_of_headBlk {page : PageId} {b : Blk} (hb : headBlk page = some b) : keyBlk (PageId.key page) = some b := by
  obtain ⟨f, hf⟩ : ∃ f, f = headBlk := ⟨_, rfl⟩
  rw [← hf] at hb
  delta headBlk at hf
  rw [hf] at hb
  beta_reduce at hb
  revert hb
  generalize keyBlk (PageId.key page) = o
  intro hb
  cases o with
  | none => cases hb
  | some c =>
    dsimp only at hb
    split_ifs at hb
    exact hb

theorem headBlk_isCore {page : PageId} {b : Blk} {pg : Nat} (hb : headBlk page = some b) (hk : PageId.key page = pg) (hc : b = .vec ∨ b = .rng ∨ b = .rtr ∨ b = .ni) :
    keyDie pg < 24 ∧ keyUnit pg < 2112 :=
  blkAt_isCore (hk ▸ keyBlk_of_headBlk hb) hc

theorem blockPower : Claims.BlockPower := by
  intro s who page on b hu pg p hb hg
  have hk : PageId.key page = pg := rfl
  clear_value pg
  have enable (hw : s.mayWrite who pg = true) : exec (.blkEnable who page on) s = .next ((s.requestPower pg on).answerCtl 0) := exec_blkEnable hu hb hk hg on hw
  have ends : exec (.powerTransitionEnd page) s = .next (s.powerEnds b pg) := exec_powerTransitionEnd hu hb hk hg
  have hblk : (s.requestPower pg on).blk pg = p.request on := State.requestPower_blk s pg on
  refine ⟨fun _ => enable, fun hw hm ho => ⟨_, enable hw, ?_⟩, fun hw hm ho => ⟨_, enable hw, ?_⟩, fun hw hm => ⟨_, enable hw, ?_⟩,
    fun hm => ?_, fun hm hd => ?_, fun hm hd => ⟨_, ends, ?_⟩, fun hm _ hw => ?_, fun hm hc hw => ?_⟩
  · rw [hblk, BlkPower.request_moving, BlkPower.request_on, BlkPower.request_want]
    exact ⟨by simp [ho], rfl, rfl, by simp [State.requestPower]⟩
  · rw [hblk, BlkPower.request_moving, BlkPower.request_on, BlkPower.request_want]
    exact ⟨by simp [hm, ho], rfl, rfl⟩
  · rw [hblk, BlkPower.request_moving, BlkPower.request_on, BlkPower.request_want]
    exact ⟨by simp [hm], rfl, rfl⟩
  · rw [ends, State.powerEnds_still _ _ _ hm]
  · obtain ⟨h1, h2, h3⟩ := BlkPower.arrives_next hd
    refine ⟨_, ends, ?_⟩
    rw [State.powerEnds_next _ _ _ hm hd, State.setBlk_blk_same]
    exact ⟨h1, h2, h3, rfl, rfl⟩
  · rw [State.powerEnds_reset _ _ _ hm hd, BlkPower.arrives_reset hd]
  · rw [exec_softReset hu hb hk hg hw, State.softReset_moving _ _ _ hm]
  · have hr := State.softReset_core s b pg hm hc (headBlk_isCore hb hk hc)
    obtain ⟨hregs, hpower⟩ := State.coreReset_reg_blk s b (keyCore pg) (keyPage pg) hc
    have hreg (k : Nat) : (s.softReset b pg).reg k = if k < pg ∨ pg + 4096 ≤ k ∨ k = pg + 8 then s.reg k else regReset k := by
      rw [hr, State.pageReset_reg, hregs]
    refine ⟨_, exec_softReset hu hb hk hg hw, (hreg _).trans (if_pos (by simp)), ?_, fun off ho hn => (hreg _).trans (if_neg (by omega)), fun key hk => (hreg _).trans (if_pos (by omega))⟩
    calc (s.softReset b pg).blk pg = ((s.coreReset b (keyCore pg) (keyPage pg)).pageReset pg).blk pg := by rw [hr]
      _ = p := hpower pg

end Sys2Proof.Machine
end

section
/-! PROOFS. Control writes that are refused (17 R516). -/
namespace Sys2Proof.Machine

/-- A command that is a control access to a register refuses a party that may not write it. -/
theorem exec_of_refused {s : State} {who : Party} {k : Nat} {i : Instr} {act : State → State} (hu : s.inReset = false)
    (hi : exec i s = .next (s.whenUp fun s => s.ctl who k act)) (hw : s.mayWrite who k = false) :
    exec i s = .next (s.answerCtl (if keyBlk k = none ∧ (who = .firmware ∨ who = .board) then 0x3003 else 0x3002)) := by
  rw [hi, State.whenUp_of_up hu, State.ctl_of_refused hw]
  rfl

theorem refusedWrites : Claims.RefusedWrites := by
  intro s who c page on die v hu n no seq sec
  exact ⟨exec_of_refused hu rfl, exec_of_refused hu rfl, exec_of_refused hu rfl, exec_of_refused hu rfl, exec_of_refused hu rfl,
    exec_of_refused hu rfl, exec_of_refused hu rfl, exec_of_refused hu rfl, exec_of_refused hu rfl, exec_of_refused hu rfl, exec_of_refused hu rfl,
    exec_of_refused hu rfl, exec_of_refused hu rfl, exec_of_refused hu rfl, exec_of_refused hu rfl, exec_of_refused hu rfl, exec_of_refused hu rfl⟩

/-! Pins: what is sent, and nothing else -/

/-- A state that has sent more. -/
def State.sendAll (s : State) (l : List Msg) : State := { s with sent := s.sent ++ l }

/-- The levels of FAULT_N and THERM_N that change between two states. -/
def pinMsgs (a b : State) : List Msg :=
  (if b.faultLow = a.faultLow then [] else [.pin .faultN (b2n (!b.faultLow))]) ++ (if b.thermLow = a.thermLow then [] else [.pin .thermN (b2n (!b.thermLow))])

theorem State.pins_eq (a b : State) : State.pins a b = b.sendAll (pinMsgs a b) := by
  simp only [State.pins, pinMsgs, State.sendAll, State.send]
  by_cases hf : b.faultLow = a.faultLow <;> by_cases ht : b.thermLow = a.thermLow <;> simp [hf, ht]

@[simp] theorem State.pins_reg (a b : State) (k : Nat) : (State.pins a b).reg k = b.reg k := by
  rw [State.pins_eq]; rfl

@[simp] theorem State.pins_fld (a b : State) (k lo w : Nat) : (State.pins a b).fld k lo w = b.fld k lo w := by
  rw [State.fld, State.pins_reg, State.fld]

/-! Writes on the governor's page -/

section
variable (s : State) (v : Word) {off : Nat} (ho : off < 4096)
include ho

/-- The places of a key on the governor's page. -/
theorem govPage_key : keyBlk (govPage + off) = some .gov ∧ keyDie (govPage + off) = 24 ∧ keyUnit (govPage + off) = 0xF090 ∧ blkOff .gov (govPage + off) = off ∧
    headPage .gov (govPage + off) = govPage := by
  have hu : 0xF090 < 2 ^ 16 := by decide
  have hp : 0 < 16 := by decide
  have hb : blkAt 24 0xF090 0 = some .gov := by decide
  exact ⟨(keyBlk_pageAt hu hp ho).trans hb, keyDie_pageAt hu hp ho, keyUnit_pageAt hu hp ho, keyOff_pageAt ho, headPage_pageAt hu hp ho (by decide)⟩

theorem State.writeFields_gov {r : RegSpec} (hr : Blk.find .gov 24 off = some r) :
    s.writeFields .gov (govPage + off) v = (s.clamps govPage off (r.written (s.reg (govPage + off)) v).2).setReg (govPage + off) (r.written (s.reg (govPage + off)) v).1 := by
  obtain ⟨_, hd, _, hoff, hh⟩ := govPage_key ho
  rw [State.writeFields, hd, hoff, hr, hh]

theorem State.writeReg_gov (h40 : 0x40 ≤ off) {r : RegSpec} (hr : Blk.find .gov 24 off = some r) :
    s.writeReg (govPage + off) v = State.pins s (s.writeFields .gov (govPage + off) v) := by
  obtain ⟨hk, hd, hu, hoff, _⟩ := govPage_key ho
  have hl : listed .gov (govPage + off) = true := by rw [listed, hd, hoff, hr]; rfl
  simp only [State.writeReg, hk, hd, hoff, hl, State.writeDie]
  rw [if_neg (by omega), if_neg (by omega), if_neg (by omega), if_neg (by omega), if_pos trivial, if_pos trivial]

end

end Sys2Proof.Machine
end

section
/-! PROOFS. Writes on the governor's page: fields that clamp, bits that a 1 clears, registers that no write changes (00 R17 to
R21). -/
namespace Sys2Proof.Machine

/-- A register that no write changes (00 R17). -/
def RegSpec.isRo (r : RegSpec) : Bool := decide (r.rw = 0) && decide (r.w1c = 0) && decide (r.clamps = [])

theorem and_not_and_zero (x v : Word) : x &&& ~~~(v &&& BitVec.ofNat 32 0) = x := by
  rw [show (BitVec.ofNat 32 0) = 0#32 from rfl, BitVec.and_zero, BitVec.not_zero, BitVec.and_allOnes]

theorem RegSpec.written_ro {r : RegSpec} (h : r.isRo = true) (old v : Word) : r.written old v = (old, 0) := by
  simp only [RegSpec.isRo, Bool.and_eq_true, decide_eq_true_eq, and_assoc] at h
  obtain ⟨h1, h2, h3⟩ := h
  simp only [RegSpec.written, h1, h2, h3, List.foldl_nil, and_not_and_zero, BitVec.ofNat_toNat, BitVec.setWidth_eq]
  rw [show (BitVec.ofNat 32 0) = 0#32 from rfl, BitVec.and_zero, BitVec.or_zero, BitVec.not_zero, BitVec.and_allOnes]

theorem RegSpec.written_w1c {r : RegSpec} (h : r.rw = 0) (hc : r.clamps = []) (old v : Word) :
    r.written old v = (old &&& ~~~(v &&& BitVec.ofNat 32 r.w1c), 0) := by
  simp only [RegSpec.written, h, hc, List.foldl_nil, BitVec.ofNat_toNat, BitVec.setWidth_eq]
  rw [show (BitVec.ofNat 32 0) = 0#32 from rfl, BitVec.and_zero, BitVec.or_zero, BitVec.not_zero, BitVec.and_allOnes]

@[simp] theorem State.irqRise_reg (a b : State) (p k : Nat) : (State.irqRise a b p).reg k = b.reg k := by
  rcases State.irqRise_cases a b p with h | ⟨m, h⟩ <;> rw [h]
  rfl

section
variable (s : State) (v : Word) {off : Nat} (ho : off < 4096)
include ho

/-- A write of an offset of the governor's page that no table lists, or of an RO register, changes no register. -/
theorem State.writeFields_gov_ro (hr : (Blk.find .gov 24 off).all RegSpec.isRo = true) (k : Nat) :
    (s.writeFields .gov (govPage + off) v).reg k = s.reg k := by
  obtain ⟨_, hd, _, hoff, _⟩ := govPage_key ho
  cases hf : Blk.find .gov 24 off with
  | none => rw [State.writeFields, hd, hoff, hf]
  | some r =>
    rw [hf] at hr
    rw [State.writeFields_gov s v ho hf, RegSpec.written_ro hr, State.setReg_reg]
    split
    · next h => rw [h]
    · rfl

theorem State.writeReg_gov_ro (h8 : off ≠ 8 ∧ off ≠ 0x18 ∧ off ≠ 0x1C) (hr : (Blk.find .gov 24 off).all RegSpec.isRo = true) (k : Nat) :
    (s.writeReg (govPage + off) v).reg k = s.reg k := by
  obtain ⟨hk, hd, hu, hoff, hh⟩ := govPage_key ho
  have hro := State.writeFields_gov_ro s v ho hr k
  by_cases h40 : off < 0x40
  · have h : s.writeReg (govPage + off) v = State.irqRise s (s.writeFields .gov (govPage + off) v) govPage := by
      simp only [State.writeReg, hk, hd, hoff, hh, State.writeIrq]
      rw [if_neg (by omega), if_neg (by omega), if_neg (by omega), if_pos h40, if_neg (by decide)]
    rw [h, State.irqRise_reg, hro]
  · cases hf : Blk.find .gov 24 off with
    | none =>
      have hl : listed .gov (govPage + off) = false := by rw [listed, hd, hoff, hf]; rfl
      simp only [State.writeReg, hk, hd, hoff, hl]
      rw [if_neg (by omega), if_neg (by omega), if_neg (by omega), if_neg h40, if_neg (by decide)]
    | some r => rw [State.writeReg_gov s v ho (by omega) hf, State.pins_reg, hro]

end

/-! PG_CAP's clamp and PG_FAULT's W1C bits (16 R503) -/

/-- PG_CAP: 6,000 to 15,000 W. -/
def peakSpec : RegSpec := .w 0x040 0xFFFF 15000 (Clamp.range 0 16 6000 15000)

theorem bits_zero (x w : Nat) : bits x 0 w = x % 2 ^ w := by rw [bits, Nat.pow_zero, Nat.div_one]

/-- A field clamped to lo to hi takes the nearest legal value, and one clamp is counted where that is another value (00 R19). -/
theorem Clamp.range_apply (x lsb w : Nat) {lo hi : Nat} (h0 : 0 < lo) (h1 : lo ≤ hi) (h2 : hi < 2 ^ w) :
    let f := bits x lsb w
    let c := (Clamp.range lsb w lo hi).foldl Clamp.apply (x, 0)
    bits c.1 lsb w = max lo (min hi f) ∧ c.2 = if lo ≤ f ∧ f ≤ hi then 0 else 1 := by
  have hf : bits x lsb w < 2 ^ w := Nat.mod_lt _ (by positivity)
  have hset (v : Nat) (hv : v < 2 ^ w) : bits (setBits x lsb w v) lsb w = v := by rw [bits_setBits_same, Nat.mod_eq_of_lt hv]
  have hr : Clamp.range lsb w lo hi = [⟨lsb, w, hi + 1, 2 ^ w - 1, hi⟩, ⟨lsb, w, 0, lo - 1, lo⟩] := by
    rw [Clamp.range, if_neg (by omega)]; rfl
  simp only [hr, List.foldl_cons, List.foldl_nil, Clamp.apply]
  by_cases hh : hi < bits x lsb w
  · rw [if_pos (show hi + 1 ≤ bits x lsb w ∧ bits x lsb w ≤ 2 ^ w - 1 by omega)]
    dsimp only
    rw [hset hi h2, if_neg (by omega), if_neg (by omega)]
    exact ⟨by rw [hset hi h2]; omega, rfl⟩
  · rw [if_neg (show ¬ (hi + 1 ≤ bits x lsb w ∧ bits x lsb w ≤ 2 ^ w - 1) by omega)]
    dsimp only
    by_cases hl : bits x lsb w < lo
    · rw [if_pos (by omega), if_neg (by omega)]
      exact ⟨by rw [hset lo (by omega)]; omega, rfl⟩
    · rw [if_neg (by omega), if_pos (by omega)]
      exact ⟨by dsimp only; omega, rfl⟩

/-- The low half of a word with its low half replaced. -/
theorem bits_replaced (old v : Word) : bits ((old &&& ~~~(BitVec.ofNat 32 0xFFFF)) ||| (v &&& BitVec.ofNat 32 0xFFFF)).toNat 0 16 = v.toNat % 65536 := by
  apply Nat.eq_of_testBit_eq
  intro i
  rw [testBit_bits, Nat.zero_add, show 65536 = 2 ^ 16 from rfl, Nat.testBit_mod_two_pow, BitVec.testBit_toNat, BitVec.testBit_toNat]
  by_cases hi : i < 16
  · have hm : (BitVec.ofNat 32 0xFFFF).getLsbD i = true := by
      rw [BitVec.getLsbD_ofNat, show 0xFFFF = 2 ^ 16 - 1 from rfl, Nat.testBit_two_pow_sub_one]
      simp [hi]; omega
    simp only [BitVec.getLsbD_or, BitVec.getLsbD_and, BitVec.getLsbD_not, hm, hi]
    simp
  · simp [hi]

theorem peakSpec_written (old v : Word) :
    bits (peakSpec.written old v).1.toNat 0 16 = max 6000 (min 15000 (v.toNat % 65536)) ∧
      (peakSpec.written old v).2 = if 6000 ≤ v.toNat % 65536 ∧ v.toNat % 65536 ≤ 15000 then 0 else 1 := by
  have hr := Clamp.range_apply ((old &&& ~~~(BitVec.ofNat 32 0xFFFF)) ||| (v &&& BitVec.ofNat 32 0xFFFF)).toNat 0 16 (lo := 6000) (hi := 15000)
    (by decide) (by decide) (by decide)
  rw [bits_replaced] at hr
  have hlow (y : Nat) : bits (BitVec.ofNat 32 y).toNat 0 16 = bits y 0 16 := by
    rw [BitVec.toNat_ofNat, bits_zero, bits_zero, Nat.mod_mod_of_dvd _ (by decide)]
  exact ⟨(congrArg (fun x : Word => bits x.toNat 0 16) (and_not_and_zero _ v)).trans ((hlow _).trans hr.1), hr.2⟩

section
variable (s : State) (v : Word)

theorem find_peak : Blk.find .gov 24 0x40 = some peakSpec := by decide
theorem find_fault : Blk.find .gov 24 0x6C = some (.c 0x06C 0xF) := by decide

theorem State.writeReg_peak :
    s.writeReg (govPage + 0x40) v = State.pins s ((s.clamps govPage 0x40 (peakSpec.written (s.reg (govPage + 0x40)) v).2).setReg (govPage + 0x40) (peakSpec.written (s.reg (govPage + 0x40)) v).1) := by
  rw [State.writeReg_gov s v (by decide) (by decide) find_peak, State.writeFields_gov s v (by decide) find_peak]

theorem State.writeReg_peak_fld : (s.writeReg (govPage + 0x40) v).fld (govPage + 0x40) 0 16 = max 6000 (min 15000 (v.toNat % 65536)) := by
  rw [State.writeReg_peak, State.pins_fld, State.fld, State.setReg_reg_same, (peakSpec_written _ v).1]

/-- The clamp record of the governor's page after a write of PG_CAP (17 R514). -/
theorem State.writeReg_peak_clamp : (s.writeReg (govPage + 0x40) v).reg (govPage + 0x1C) =
    if 6000 ≤ v.toNat % 65536 ∧ v.toNat % 65536 ≤ 15000 then s.reg (govPage + 0x1C) else clampEntered (s.reg (govPage + 0x1C)) 0x40 := by
  rw [State.writeReg_peak, State.pins_reg, State.setReg_reg, if_neg (by omega), (peakSpec_written _ v).2]
  split
  · rfl
  · exact State.setReg_reg_same ..

theorem State.writeReg_fault_reg : (s.writeReg (govPage + 0x6C) v).reg (govPage + 0x6C) = s.reg (govPage + 0x6C) &&& ~~~(v &&& BitVec.ofNat 32 0xF) := by
  rw [State.writeReg_gov s v (by decide) (by decide) find_fault, State.writeFields_gov s v (by decide) find_fault, RegSpec.written_w1c rfl rfl, State.pins_reg,
    State.setReg_reg_same]
  rfl

theorem mask_getLsbD (i : Nat) : (BitVec.ofNat 32 0xF).getLsbD i = decide (i < 4) := by
  rw [BitVec.getLsbD_ofNat, show 0xF = 2 ^ 4 - 1 from rfl, Nat.testBit_two_pow_sub_one]
  simp; omega

theorem State.writeReg_fault_bits : (s.writeReg (govPage + 0x6C) v).fld (govPage + 0x6C) 0 4 = (s.reg (govPage + 0x6C) &&& ~~~ v).toNat % 16 := by
  rw [State.fld, State.writeReg_fault_reg]
  apply Nat.eq_of_testBit_eq
  intro i
  rw [testBit_bits, Nat.zero_add, show 16 = 2 ^ 4 from rfl, Nat.testBit_mod_two_pow, BitVec.testBit_toNat, BitVec.testBit_toNat]
  by_cases hi : i < 4 <;> simp [mask_getLsbD, hi, -BitVec.ofNat_eq_ofNat]

theorem State.writeReg_fault_die : (s.writeReg (govPage + 0x6C) v).fld (govPage + 0x6C) 8 5 = s.fld (govPage + 0x6C) 8 5 := by
  rw [State.fld, State.writeReg_fault_reg, State.fld]
  apply Nat.eq_of_testBit_eq
  intro i
  rw [testBit_bits, testBit_bits, BitVec.testBit_toNat, BitVec.testBit_toNat]
  have hn : ¬ 8 + i < 4 := by omega
  simp only [BitVec.getLsbD_and, BitVec.getLsbD_not, mask_getLsbD, hn]
  by_cases hi : i < 5
  · simp [show 8 + i < 32 by omega]
  · simp [hi]

end

end Sys2Proof.Machine
end

section
/-! PROOFS. BLK_ERR and BLK_CLAMP of core pages (17 R513, R514), and register writes by parties (17 R507, R516). -/
namespace Sys2Proof.Machine

/-! The halves of BLK_ERR and BLK_CLAMP -/

section
variable (x v : Word)

theorem halvesCleared_low : (halvesCleared x v).setWidth 16 = if v.setWidth 16 = (0 : BitVec 16) then x.setWidth 16 else (0 : BitVec 16) :=
  low_append ..

/-- The upper half is zero exactly where the word shifted down is. -/
theorem high_eq_zero : ((v >>> 16).setWidth 16 = (0 : BitVec 16)) ↔ v >>> 16 = 0 := by
  have hv := v.isLt
  have hs : (v >>> 16).toNat = v.toNat / 2 ^ 16 := by rw [BitVec.toNat_ushiftRight, Nat.shiftRight_eq_div_pow]
  constructor
  · intro h
    have h' := congrArg BitVec.toNat h
    rw [BitVec.toNat_setWidth, hs, BitVec.ofNat_eq_ofNat, BitVec.toNat_zero] at h'
    apply BitVec.eq_of_toNat_eq
    rw [hs, BitVec.ofNat_eq_ofNat, BitVec.toNat_zero]
    omega
  · intro h
    rw [h]; rfl

theorem halvesCleared_high :
    (halvesCleared x v >>> 16).setWidth 16 = if (v >>> 16).setWidth 16 = (0 : BitVec 16) then (x >>> 16).setWidth 16 else (0 : BitVec 16) := by
  rw [halvesCleared, high_append]
  simp only [high_eq_zero]

theorem high_toNat : ((x >>> 16).setWidth 16 : BitVec 16).toNat = (x >>> 16).toNat := by
  have hx := x.isLt
  rw [BitVec.toNat_setWidth, BitVec.toNat_ushiftRight, Nat.shiftRight_eq_div_pow]
  omega

/-- One code entered into BLK_ERR: it is kept where no code was, and counted (17 R513). -/
theorem errEntered_one (code : BitVec 16) : (errEntered x [code]).setWidth 16 = (if x.setWidth 16 = (0 : BitVec 16) then code else x.setWidth 16) ∧
    (errEntered x [code] >>> 16).setWidth 16 = BitVec.ofNat 16 (min 65535 (((x >>> 16).setWidth 16 : BitVec 16).toNat + 1)) := by
  have hl : lowestCode [code] = code := by simp [lowestCode]
  simp only [errEntered, low_append, high_append, hl, high_toNat, List.length_singleton, and_self]

theorem clampEntered_halves (off : BitVec 16) : (clampEntered x off).setWidth 16 = BitVec.ofNat 16 (min 65535 ((x.setWidth 16 : BitVec 16).toNat + 1)) ∧
    (clampEntered x off >>> 16).setWidth 16 = off := ⟨low_append .., high_append ..⟩

end

/-! A page of a core -/

/-- k is the register at an offset of a page, headed by a block, of a core. -/
structure OnCorePage (pg : Nat) (b : Blk) (off : Nat) : Prop where
  blk : keyBlk (pg + off) = some b
  core : keyDie (pg + off) < 24 ∧ keyUnit (pg + off) < 2112
  off : keyOff (pg + off) = off
  aligned : pg % 4 = 0

theorem onCorePage_of_headBlk {page : PageId} {b : Blk} {pg off : Nat} (hb : headBlk page = some b) (hk : PageId.key page = pg) (hc : b = .vec ∨ b = .rng ∨ b = .rtr ∨ b = .ni)
    (ho : off < 4096) : OnCorePage pg b off := by
  have hblk := keyBlk_of_headBlk hb
  have hcore := headBlk_isCore hb rfl hc
  have hu := page.unit.isLt
  have hp := page.page.isLt
  rw [PageId.key] at hk hblk hcore
  generalize page.die.val = d at *
  generalize page.unit.toNat = u at *
  generalize page.page.toNat = p at *
  have h0 : 0 < 4096 := by decide
  rw [← Nat.add_zero (pageAt d u p)] at hblk hcore
  rw [keyBlk_pageAt hu hp h0] at hblk
  rw [keyDie_pageAt hu hp h0, keyUnit_pageAt hu hp h0] at hcore
  subst hk
  exact ⟨(keyBlk_pageAt hu hp ho).trans hblk, by rwa [keyDie_pageAt hu hp ho, keyUnit_pageAt hu hp ho], keyOff_pageAt ho, by rw [pageAt]; omega⟩

section
variable {s : State} {who : Party} {pg off : Nat} {b : Blk} (v : Word) (hu : s.inReset = false) (hp : OnCorePage pg b off) (ho : off = 0x18 ∨ off = 0x1C)
include hp ho

theorem State.writeReg_halves : s.writeReg (pg + off) v = s.setReg (pg + off) (halvesCleared (s.reg (pg + off)) v) := by
  simp only [State.writeReg, hp.blk, if_pos hp.core, State.writeCorePage, hp.off]
  rw [if_neg (by omega), if_pos ho]

theorem State.partyWrite_halves (hw : s.mayWrite who (pg + off) = true) :
    s.partyWrite who (pg + off) false (v.setWidth 64) = (s.setReg (pg + off) (halvesCleared (s.reg (pg + off)) v)).answerCtl 0 := by
  have ha : ctlAligned (pg + off) false = true := by
    have := hp.aligned
    rw [ctlAligned, decide_eq_true_eq, if_neg (by decide)]
    omega
  have hv : ((v.setWidth 64).setWidth 32 : Word) = v := by simp
  rw [State.partyWrite, if_pos ha, State.ctl_of_may hw]
  simp only [State.writeCtl, hv, State.writeReg_halves v hp ho]
  rfl

end

section
variable {s : State} {who : Party} {page : PageId} {pg : Nat} {b : Blk} (v : Word) (hu : s.inReset = false) (hb : headBlk page = some b)
  (hk : PageId.key page = pg) (hg : headPage b pg = pg) (hc : b = .vec ∨ b = .rng)
include hu hb hk hg hc

/-- BLK_ERR_WRITE: the write, then the codes. -/
theorem exec_blkErrWrite (codes : List (BitVec 16)) (hw : s.mayWrite who (pg + 0x18) = true) :
    exec (.blkErrWrite who page v codes) s = .next
      (let s1 := (s.setReg (pg + 0x18) (halvesCleared (s.reg (pg + 0x18)) v)).answerCtl 0
       if codes = [] then s1 else s1.enterCodes pg codes) := by
  have hp := onCorePage_of_headBlk (off := 0x18) hb hk (by tauto) (by decide)
  have h : exec (.blkErrWrite who page v codes) s = .next (s.whenUp fun s =>
    let s1 := s.partyWrite who ((PageId.key page) + 0x18) false (v.setWidth 64)
    match headBlk page with
    | some b => if codes = [] then s1 else s1.enterCodes (headPage b (PageId.key page)) codes
    | none => s1) := rfl
  rw [h, State.whenUp_of_up hu, hk, hb]
  simp only [hg, State.partyWrite_halves v hp (.inl rfl) hw]

/-- BLK_CLAMP_WRITE: the write, then the clamps. -/
theorem exec_blkClampWrite (clamped : List (BitVec 16)) (hw : s.mayWrite who (pg + 0x1C) = true) :
    exec (.blkClampWrite who page v clamped) s = .next
      (clamped.foldl (fun (s : State) o => s.clampAt pg o.toNat) ((s.setReg (pg + 0x1C) (halvesCleared (s.reg (pg + 0x1C)) v)).answerCtl 0)) := by
  have hp := onCorePage_of_headBlk (off := 0x1C) hb hk (by tauto) (by decide)
  have h : exec (.blkClampWrite who page v clamped) s = .next (s.whenUp fun s =>
    let s1 := s.partyWrite who ((PageId.key page) + 0x1C) false (v.setWidth 64)
    match headBlk page with
    | some b => clamped.foldl (fun (s : State) o => s.clampAt (headPage b (PageId.key page)) o.toNat) s1
    | none => s1) := rfl
  rw [h, State.whenUp_of_up hu, hk, hb]
  simp only [hg, State.partyWrite_halves v hp (.inr rfl) hw]

end

theorem State.answerCtl_reg (s : State) (c : BitVec 16) (k : Nat) : (s.answerCtl c).reg k = s.reg k := rfl

/-! Register writes by parties -/

section
variable {s : State} (hu : s.inReset = false) (w : CtlWrite)
include hu

theorem exec_registerWrite : exec (.registerWrite w) s = .next (s.partyWrite w.who (addrKey w.addr.toNat) w.wide w.data) := by
  have h : exec (.registerWrite w) s = .next (s.whenUp fun s => s.partyWrite w.who (addrKey w.addr.toNat) w.wide w.data) := rfl
  rw [h, State.whenUp_of_up hu]

theorem exec_registerWrite_misaligned (h : addrKey w.addr.toNat % (if w.wide then 8 else 4) ≠ 0) :
    exec (.registerWrite w) s = .next (s.answerCtl 0x3003) := by
  have ha : ctlAligned (addrKey w.addr.toNat) w.wide = false := decide_eq_false h
  rw [exec_registerWrite hu, State.partyWrite, ha]
  rfl

theorem exec_registerWrite_aligned (h : addrKey w.addr.toNat % 4 = 0) (hn : w.wide = false) :
    exec (.registerWrite w) s = .next (s.ctl w.who (addrKey w.addr.toNat) fun s => s.writeReg (addrKey w.addr.toNat) (w.data.setWidth 32)) := by
  have ha : ctlAligned (addrKey w.addr.toNat) w.wide = true := by rw [hn]; exact decide_eq_true h
  rw [exec_registerWrite hu, State.partyWrite, if_pos ha, hn]
  rfl

end

theorem pageWrites : Claims.PageWrites := by
  intro s w page who v code hu key pg low high gov
  have hk : PageId.key page = pg := rfl
  clear_value pg
  refine ⟨exec_registerWrite_misaligned hu w, fun ha hn => ⟨fun hw => ?_, fun _ hw => ?_⟩, ⟨fun h1 h2 => ⟨?_, ?_⟩, fun h1 => ⟨?_, ?_⟩, fun h1 => ?_⟩,
    ⟨State.writeReg_fault_bits s v, State.writeReg_fault_die s v⟩, fun off ho => ?_, ?_, ?_⟩
  · rw [exec_registerWrite_aligned hu w ha hn, State.ctl_of_refused hw]; rfl
  · rw [exec_registerWrite_aligned hu w ha hn, State.ctl_of_may hw]
  · exact (State.writeReg_peak_fld s v).trans (by omega)
  · exact (State.writeReg_peak_clamp s v).trans (if_pos ⟨h1, h2⟩)
  · exact (State.writeReg_peak_fld s v).trans (by omega)
  · exact (State.writeReg_peak_clamp s v).trans (if_neg (by omega))
  · exact (State.writeReg_peak_fld s v).trans (by omega)
  · have hall : ∀ off ∈ [0, 4, 0xC, 0x20, 0x48, 0x54, 0x64, 0x70, 0x74, 0x78, 0x100, 0xFFC], off < 4096 ∧ (off ≠ 8 ∧ off ≠ 0x18 ∧ off ≠ 0x1C) ∧ (Blk.find .gov 24 off).all RegSpec.isRo = true := by
      decide
    obtain ⟨h1, h2, h3⟩ := hall off ho
    exact State.writeReg_gov_ro s v h1 h2 h3 _
  · intro b hb hg hw hc kept kept2
    have hl : (halvesCleared (s.reg (pg + 0x18)) v).setWidth 16 = kept := halvesCleared_low ..
    have hh : (halvesCleared (s.reg (pg + 0x18)) v >>> 16).setWidth 16 = kept2 := halvesCleared_high ..
    refine ⟨⟨_, exec_blkErrWrite v hu hb hk hg hc [] hw, ?_⟩, fun _ => ⟨_, exec_blkErrWrite v hu hb hk hg hc [code] hw, ?_⟩⟩
    · rw [if_pos rfl, State.answerCtl_reg, State.setReg_reg_same]
      exact ⟨hl, hh⟩
    · rw [if_neg (by simp), State.enterCodes, State.setReg_reg_same, State.answerCtl_reg, State.setReg_reg_same, ← hl, ← hh]
      exact errEntered_one ..
  · intro b hb hg hw hc kept kept2
    have hl : (halvesCleared (s.reg (pg + 0x1C)) v).setWidth 16 = kept := halvesCleared_low ..
    have hh : (halvesCleared (s.reg (pg + 0x1C)) v >>> 16).setWidth 16 = kept2 := halvesCleared_high ..
    refine ⟨⟨_, exec_blkClampWrite v hu hb hk hg hc [] hw, ?_⟩, ⟨_, exec_blkClampWrite v hu hb hk hg hc [code] hw, ?_⟩⟩
    · rw [List.foldl_nil, State.answerCtl_reg, State.setReg_reg_same]
      exact ⟨hl, hh⟩
    · rw [List.foldl_cons, List.foldl_nil, State.clampAt, State.setReg_reg_same, State.answerCtl_reg, State.setReg_reg_same, BitVec.ofNat_toNat, BitVec.setWidth_eq, ← hl]
      exact clampEntered_halves ..

/-- Settles O46: block power, register writes and refused control writes, each claim from the equation of its commands. -/
theorem controlPages : Obligations.ControlPages := ⟨blockPower, pageWrites, refusedWrites⟩

end Sys2Proof.Machine
end

section
/-! PROOFS. The governor (16 R491 to R493) and island clocks (16 R488, R504). -/
namespace Sys2Proof.Machine

/-! Steps that change registers of the governor's page alone -/

/-- Among the registers, t differs from s at the given offsets of the governor's page alone; cores, lines, lanes, the half step of the ceiling and the time are
the same. -/
structure State.TouchesGov (l : List Nat) (s t : State) : Prop where
  reg : ∀ k, (∀ off ∈ l, k ≠ govPage + off) → t.reg k = s.reg k
  cores : t.cores = s.cores
  lpddr : t.lpddr = s.lpddr
  lanes : t.lanes = s.lanes
  time : t.time = s.time
  ceilHalf : t.ceilHalf = s.ceilHalf
  hotJunction : t.hotJunction = s.hotJunction
  tenants : t.tenants = s.tenants

namespace State.TouchesGov

theorem refl (l : List Nat) (s : State) : s.TouchesGov l s := ⟨fun _ _ => rfl, rfl, rfl, rfl, rfl, rfl, rfl, rfl⟩

theorem trans {l m : List Nat} {s t u : State} (h : s.TouchesGov l t) (g : t.TouchesGov m u) : s.TouchesGov (l ++ m) u where
  reg := fun k hk => (g.reg k fun off ho => hk off (List.mem_append_right _ ho)).trans (h.reg k fun off ho => hk off (List.mem_append_left _ ho))
  cores := g.cores.trans h.cores
  lpddr := g.lpddr.trans h.lpddr
  lanes := g.lanes.trans h.lanes
  time := g.time.trans h.time
  ceilHalf := g.ceilHalf.trans h.ceilHalf
  hotJunction := g.hotJunction.trans h.hotJunction
  tenants := g.tenants.trans h.tenants

theorem mono {l m : List Nat} {s t : State} (h : s.TouchesGov l t) (hl : ∀ off ∈ l, off ∈ m) : s.TouchesGov m t :=
  { h with reg := fun k hk => h.reg k fun off ho => hk off (hl off ho) }

/-- A register of the page at an offset that is not listed. -/
theorem gov {l : List Nat} {s t : State} (h : s.TouchesGov l t) {off : Nat} (ho : off ∉ l) : t.reg (govPage + off) = s.reg (govPage + off) :=
  h.reg _ fun _ hm he => ho (Nat.add_left_cancel he ▸ hm)

theorem fld {l : List Nat} {s t : State} (h : s.TouchesGov l t) {off : Nat} (ho : off ∉ l) (lo w : Nat) :
    t.fld (govPage + off) lo w = s.fld (govPage + off) lo w := by rw [State.fld, h.gov ho, State.fld]

theorem bit {l : List Nat} {s t : State} (h : s.TouchesGov l t) {off : Nat} (ho : off ∉ l) (b : Nat) :
    t.bit (govPage + off) b = s.bit (govPage + off) b := by rw [State.bit, h.gov ho, State.bit]

theorem setReg (s : State) (off : Nat) (v : Word) : s.TouchesGov [off] (s.setReg (govPage + off) v) where
  reg := fun k hk => by rw [State.setReg_reg, if_neg (hk off List.mem_cons_self)]
  cores := rfl
  lpddr := rfl
  lanes := rfl
  time := rfl
  ceilHalf := rfl
  hotJunction := rfl
  tenants := rfl

theorem setFld (s : State) (off lo w v : Nat) : s.TouchesGov [off] (s.setFld (govPage + off) lo w v) := setReg ..

theorem enterCode (s : State) (c : BitVec 16) : s.TouchesGov [0x18] (s.enterCode govPage c) := setReg ..

theorem sendAll (s : State) (l : List Msg) : s.TouchesGov [] (s.sendAll l) := ⟨fun _ _ => rfl, rfl, rfl, rfl, rfl, rfl, rfl, rfl⟩

theorem pins (a s : State) : s.TouchesGov [] (State.pins a s) := by rw [State.pins_eq]; exact sendAll ..

theorem raiseIrq (s : State) (m : Word) : s.TouchesGov [0x10] (s.raiseIrq govPage m) := by
  rcases State.raiseIrq_cases s govPage m with h | ⟨x, h⟩ <;> rw [h]
  · exact setReg ..
  · exact (setReg s 0x10 _).trans (sendAll _ [x])

theorem pgFault (s : State) (b : Nat) (c : BitVec 16) : s.TouchesGov [0x6C, 0x18, 0x10] (s.pgFault b (some c)) := by
  have h := ((setFld s 0x6C b 1 1).trans (enterCode _ c)).trans (raiseIrq _ 4)
  exact (h.trans (pins s _)).mono (by decide)

theorem setReady (s : State) (b : Nat) (v : Bool) : s.TouchesGov [0x70, 0x10] (s.setReady b v) := by
  rw [State.setReady]
  split
  · exact refl ..
  · exact (setFld s 0x70 b 1 _).trans (raiseIrq _ 8)

theorem inputBand (s : State) (mv : Nat) : s.TouchesGov [0x6C, 0x18, 0x10] (s.inputBand mv) := by
  have h : s.TouchesGov [] { s with inputMv := mv } := ⟨fun _ _ => rfl, rfl, rfl, rfl, rfl, rfl, rfl, rfl⟩
  simp only [State.inputBand]
  split
  · exact h.trans (pgFault ..)
  · exact h.mono (by simp)

theorem started (s : State) : s.TouchesGov [0x70, 0x10] s.started := by
  have h := (setReady s 0 true).trans (setReady _ 11 true)
  simp only [State.started]
  split
  · exact ((h.trans (setReady _ 12 true)).trans (setReady _ 13 _)).mono (by decide)
  · exact (h.trans (setReady _ 13 _)).mono (by decide)

theorem measured (s : State) (mv ma w : Nat) : s.TouchesGov [0x54, 0x58, 0x5C, 0x60] (s.measured mv ma w) :=
  (((setReg s 0x54 _).trans (setReg _ 0x58 _)).trans (setReg _ 0x5C _)).trans (setReg _ 0x60 _)

theorem setStat (s : State) (p t : Bool) : s.TouchesGov [0x48] (s.setStat p t) := setReg ..

theorem stageBegins (old : Nat) (s : State) : s.TouchesGov [0x18, 0x10] (State.stageBegins old s) := by
  rw [State.stageBegins]
  split
  · exact (enterCode s _).trans (raiseIrq _ 1)
  · exact refl ..

end State.TouchesGov

/-! What the governor's steps read and set -/

/-- The governor's scale k in 1/256. -/
def State.scale (s : State) : Nat := s.fld (govPage + 0x50) 0 9

theorem State.scale_lt (s : State) : s.scale < 512 := Nat.mod_lt _ (by decide)

theorem State.ceil2_lt (s : State) : s.ceil2 < 8192 := by
  have h : s.fld (govPage + 0x4C) 0 12 < 4096 := Nat.mod_lt _ (by decide)
  rw [State.ceil2, b2n]
  split <;> omega

section
variable {l : List Nat} {s t : State} (h : s.TouchesGov l t)
include h

theorem State.TouchesGov.ceil2 (hl : 0x4C ∉ l) : t.ceil2 = s.ceil2 := by rw [State.ceil2, h.fld hl, h.ceilHalf, State.ceil2]
theorem State.TouchesGov.scale (hl : 0x50 ∉ l) : t.scale = s.scale := h.fld hl 0 9
theorem State.TouchesGov.overTj (h1 : 0x44 ∉ l) (h2 : 0x64 ∉ l) : t.overTj = s.overTj := by rw [State.overTj, h.fld h1, h.fld h2, State.overTj]
theorem State.TouchesGov.bound (hl : 0x40 ∉ l) (mv : Nat) : t.bound mv = s.bound mv := by rw [State.bound, h.fld hl, State.bound]
theorem State.TouchesGov.stage (h1 : 0x4C ∉ l) (h2 : 0x50 ∉ l) : t.stage = s.stage := by
  rw [State.stage, h.fld h2, h.ceil2 h1, State.stage]

end

theorem State.setReg_fld (s : State) (k v lo w : Nat) (hv : v < 2 ^ 32) : (s.setReg k (BitVec.ofNat 32 v)).fld k lo w = bits v lo w := by
  rw [State.fld, State.setReg_reg_same, BitVec.toNat_ofNat, Nat.mod_eq_of_lt hv]

section
variable (s : State) {g2 k : Nat} (hg : g2 < 8192) (hk : k < 512)

theorem State.setGK_reg (g2 k : Nat) (j : Nat) (h1 : j ≠ govPage + 0x4C) (h2 : j ≠ govPage + 0x50) : (s.setGK g2 k).reg j = s.reg j := by
  calc (s.setGK g2 k).reg j = ((s.setFld (govPage + 0x4C) 0 12 (g2 / 2)).setFld (govPage + 0x50) 0 9 k).reg j := rfl
    _ = s.reg j := by rw [State.setFld_reg, if_neg h2, State.setFld_reg, if_neg h1]

theorem State.setGK_cores (g2 k : Nat) : (s.setGK g2 k).cores = s.cores := by simp [State.setGK]

include hg in
theorem State.setGK_ceil2 : (s.setGK g2 k).ceil2 = g2 := by
  have h : (s.setGK g2 k).fld (govPage + 0x4C) 0 12 = g2 / 2 := by
    calc (s.setGK g2 k).fld (govPage + 0x4C) 0 12 = ((s.setFld (govPage + 0x4C) 0 12 (g2 / 2)).setFld (govPage + 0x50) 0 9 k).fld (govPage + 0x4C) 0 12 := rfl
      _ = (s.setFld (govPage + 0x4C) 0 12 (g2 / 2)).fld (govPage + 0x4C) 0 12 := (State.TouchesGov.setFld _ 0x50 0 9 k).fld (by decide) 0 12
      _ = g2 / 2 := by rw [State.setFld_fld_same _ _ _ (by decide), Nat.mod_eq_of_lt (by omega)]
  have hh : (s.setGK g2 k).ceilHalf = decide (g2 % 2 = 1) := rfl
  rw [State.ceil2, h, hh, b2n]
  by_cases ho : g2 % 2 = 1
  · simp only [ho, decide_true, if_true]; omega
  · simp only [ho, decide_false]; simp; omega

include hk in
theorem State.setGK_scale : (s.setGK g2 k).scale = k := by
  calc (s.setGK g2 k).scale = ((s.setFld (govPage + 0x4C) 0 12 (g2 / 2)).setFld (govPage + 0x50) 0 9 k).fld (govPage + 0x50) 0 9 := rfl
    _ = k := by rw [State.setFld_fld_same _ _ _ (by decide), Nat.mod_eq_of_lt (show k < 2 ^ 9 from hk)]

end

/-- One lowering step (16 R491). -/
theorem State.lower_eq (s : State) : (1800 < s.ceil2 → s.lower.ceil2 = max 1800 (s.ceil2 - 200) ∧ s.lower.scale = s.scale) ∧
    (s.ceil2 ≤ 1800 → s.lower.ceil2 = s.ceil2 ∧ s.lower.scale = max 16 (s.scale - 4)) := by
  have hc := s.ceil2_lt
  have hk := s.scale_lt
  refine ⟨fun h => ?_, fun h => ?_⟩
  · rw [State.lower, if_pos h]
    exact ⟨State.setGK_ceil2 s (by omega), State.setGK_scale s hk⟩
  · rw [State.lower, if_neg (by omega)]
    exact ⟨State.setGK_ceil2 s hc, State.setGK_scale s (show max 16 (s.scale - 4) < 512 by omega)⟩

/-- What a step that sets g and k alone leaves. -/
theorem State.lower_keeps (s : State) : (∀ j, j ≠ govPage + 0x4C → j ≠ govPage + 0x50 → s.lower.reg j = s.reg j) ∧ s.lower.cores = s.cores := by
  rw [State.lower]
  split <;> exact ⟨State.setGK_reg s _ _, State.setGK_cores s _ _⟩

theorem State.raiseGK_eq (s : State) : (s.scale < 256 → s.raiseGK.scale = s.scale + 1 ∧ s.raiseGK.ceil2 = s.ceil2) ∧
    (s.scale = 256 → s.raiseGK.scale = 256 ∧ s.raiseGK.ceil2 = min 4000 (s.ceil2 + 25)) := by
  have hc := s.ceil2_lt
  refine ⟨fun h => ?_, fun h => ?_⟩
  · rw [State.raiseGK, if_pos (show s.fld (govPage + 0x50) 0 9 < 256 from h)]
    exact ⟨State.setGK_scale s (show s.scale + 1 < 512 by omega), State.setGK_ceil2 s hc⟩
  · have hn : ¬ s.fld (govPage + 0x50) 0 9 < 256 := by rw [State.scale] at h; omega
    rw [State.raiseGK, if_neg hn]
    exact ⟨State.setGK_scale s (by decide), State.setGK_ceil2 s (by omega)⟩

theorem State.raiseIrq_bit (s : State) (p : Nat) (m : Word) (b : Nat) : (s.raiseIrq p m).bit (p + 0x10) b = (s.bit (p + 0x10) b || m.getLsbD b) := by
  rw [State.bit, State.raiseIrq_reg, if_pos rfl, BitVec.getLsbD_or, State.bit]

end Sys2Proof.Machine
end

section
/-! PROOFS. The 1 us step of the governor and its raising step (16 R491 to R493). -/
namespace Sys2Proof.Machine

/-! The step's parts -/

/-- The step up to its measurements, the input band and the readiness that it shows. -/
def State.beforeStep (s : State) (mv ma w : Nat) : State :=
  let s1 := (s.measured mv ma w).inputBand mv
  if 1000000 ≤ s1.time.toNat then s1.started else s1

/-- The step from g and k on: PG_STAT, a stage that begins, the time in a stage. -/
def State.afterStep (old : Nat) (s : State) (high warm : Bool) : State :=
  let s4 := State.stageBegins old (s.setStat high warm)
  if s4.stage = 0 then s4 else s4.incSat (govPage + 0x68)

theorem State.govStep_eq (s : State) (mv ma w : Nat) : s.govStep mv ma w =
    let s2 := s.beforeStep mv ma w
    let high := decide (s2.bound mv < w)
    State.afterStep s2.stage (if high || s2.overTj then s2.lower else s2) high s2.overTj := rfl

theorem State.beforeStep_after_measured (s : State) (mv ma w : Nat) : (s.measured mv ma w).TouchesGov [0x6C, 0x18, 0x10, 0x70] (s.beforeStep mv ma w) := by
  have h := State.TouchesGov.inputBand (s.measured mv ma w) mv
  simp only [State.beforeStep]
  split
  · exact (h.trans (State.TouchesGov.started _)).mono (by decide)
  · exact h.mono (by decide)

theorem State.beforeStep_touches (s : State) (mv ma w : Nat) :
    s.TouchesGov [0x54, 0x58, 0x5C, 0x60, 0x6C, 0x18, 0x10, 0x70] (s.beforeStep mv ma w) :=
  (State.TouchesGov.measured s mv ma w).trans (s.beforeStep_after_measured mv ma w)

theorem State.stage_eq (s : State) : s.stage = if s.scale < 256 then 2 else if s.ceil2 < 4000 then 1 else 0 := rfl

theorem State.bound_lt (s : State) (mv : Nat) : s.bound mv < 65536 := by
  have h : s.fld (govPage + 0x40) 0 16 < 65536 := Nat.mod_lt _ (by decide)
  rw [State.bound]; omega

/-- PG_POWER and PG_BOUND after the measurements. -/
theorem State.measured_fld (s : State) (mv ma w : Nat) : (s.measured mv ma w).fld (govPage + 0x5C) 0 16 = min w 65535 ∧
    (s.measured mv ma w).fld (govPage + 0x60) 0 16 = s.bound mv := by
  have hb := s.bound_lt mv
  rw [State.measured]
  constructor
  · rw [(State.TouchesGov.setReg _ 0x60 _).fld (by decide), State.setReg_fld _ _ _ _ _ (by omega), bits_zero]
    omega
  · rw [State.setReg_fld _ _ _ _ _ (by omega), bits_zero]
    omega

theorem State.afterStep_touches (old : Nat) (s : State) (high warm : Bool) : s.TouchesGov [0x48, 0x18, 0x10, 0x68] (State.afterStep old s high warm) := by
  have h := (State.TouchesGov.setStat s high warm).trans (State.TouchesGov.stageBegins old _)
  simp only [State.afterStep]
  split
  · exact h.mono (by decide)
  · exact (h.trans (State.TouchesGov.setReg _ 0x68 _)).mono (by decide)

theorem State.setStat_stage (s : State) (high warm : Bool) : (s.setStat high warm).fld (govPage + 0x48) 0 2 = s.stage := by
  have hs : s.stage < 3 := by rw [State.stage_eq]; split <;> [omega; (split <;> omega)]
  have hc : s.fld (govPage + 0x48) 2 2 < 4 := Nat.mod_lt _ (by decide)
  have hb : b2n high + 2 * b2n warm < 4 := by cases high <;> cases warm <;> decide
  simp only [State.setStat]
  rw [State.setReg_fld _ _ _ _ _ (by split <;> [omega; (split <;> omega)]), bits_zero]
  omega

/-- A stage that begins shows in PG_STAT and raises STRETCH (16 R493). -/
theorem State.afterStep_begins (s : State) (old : Nat) (high warm : Bool) (h : old < s.stage) :
    (State.afterStep old s high warm).fld (govPage + 0x48) 0 2 = s.stage ∧ (State.afterStep old s high warm).bit (govPage + 0x10) 0 = true := by
  have hst : (s.setStat high warm).stage = s.stage := (State.TouchesGov.setStat s high warm).stage (by decide) (by decide)
  have hb : State.stageBegins old (s.setStat high warm) = ((s.setStat high warm).enterCode govPage Code.pwrCap).raiseIrq govPage 1 := by
    rw [State.stageBegins, hst, if_pos h]
  have hbit : (State.stageBegins old (s.setStat high warm)).bit (govPage + 0x10) 0 = true := by
    rw [hb, State.raiseIrq_bit]; simp
  have hfld : (State.stageBegins old (s.setStat high warm)).fld (govPage + 0x48) 0 2 = s.stage := by
    rw [(State.TouchesGov.stageBegins old _).fld (by decide), State.setStat_stage]
  simp only [State.afterStep]
  split
  · exact ⟨hfld, hbit⟩
  · have ht := State.TouchesGov.setReg (State.stageBegins old (s.setStat high warm)) 0x68
    exact ⟨((ht _).fld (by decide) 0 2).trans hfld, ((ht _).bit (by decide) 0).trans hbit⟩

/-! The step -/

section
variable (s : State) (mv ma w : Nat)

/-- Whether the step lowers g or k: the average is over the bound, or a junction over its target. -/
def State.overBound : Bool := decide (s.bound mv < w) || s.overTj

theorem State.govStep_parts : s.govStep mv ma w = State.afterStep (s.beforeStep mv ma w).stage
    (if s.overBound mv w then (s.beforeStep mv ma w).lower else s.beforeStep mv ma w) (decide (s.bound mv < w)) s.overTj := by
  have h := s.beforeStep_touches mv ma w
  rw [State.govStep_eq]
  dsimp only
  rw [h.bound (by decide), h.overTj (by decide) (by decide)]
  rfl

theorem State.govStep_cores : (s.govStep mv ma w).cores = s.cores := by
  rw [State.govStep_parts, (State.afterStep_touches ..).cores]
  split
  · rw [(State.lower_keeps _).2, (s.beforeStep_touches mv ma w).cores]
  · rw [(s.beforeStep_touches mv ma w).cores]

/-- PG_POWER and PG_BOUND are those of the measurements. -/
theorem State.govStep_fld {off : Nat} (ho : off = 0x5C ∨ off = 0x60) (lo n : Nat) :
    (s.govStep mv ma w).fld (govPage + off) lo n = (s.measured mv ma w).fld (govPage + off) lo n := by
  have h1 : off ∉ [0x48, 0x18, 0x10, 0x68] := by rcases ho with rfl | rfl <;> decide
  have h2 : off ∉ [0x6C, 0x18, 0x10, 0x70] := by rcases ho with rfl | rfl <;> decide
  rw [State.govStep_parts, (State.afterStep_touches ..).fld h1, ← (s.beforeStep_after_measured mv ma w).fld h2]
  split
  · rw [State.fld, (State.lower_keeps _).1 _ (by omega) (by omega), State.fld]
  · rfl

/-- Without a cause to lower them the step keeps g and k. -/
theorem State.govStep_keeps (h : s.overBound mv w = false) : (s.govStep mv ma w).ceil2 = s.ceil2 ∧ (s.govStep mv ma w).scale = s.scale := by
  have ha := State.afterStep_touches (s.beforeStep mv ma w).stage (s.beforeStep mv ma w) (decide (s.bound mv < w)) s.overTj
  have hb := s.beforeStep_touches mv ma w
  rw [State.govStep_parts, h, if_neg (by decide), ha.ceil2 (by decide), ha.scale (by decide), hb.ceil2 (by decide), hb.scale (by decide)]
  exact ⟨rfl, rfl⟩

/-- With one it lowers g, and k where g is at its least (16 R491). -/
theorem State.govStep_lowers (h : s.overBound mv w = true) :
    (1800 < s.ceil2 → (s.govStep mv ma w).ceil2 = max 1800 (s.ceil2 - 200) ∧ (s.govStep mv ma w).scale = s.scale) ∧
      (s.ceil2 ≤ 1800 → (s.govStep mv ma w).ceil2 = s.ceil2 ∧ (s.govStep mv ma w).scale = max 16 (s.scale - 4)) := by
  have ha := State.afterStep_touches (s.beforeStep mv ma w).stage (s.beforeStep mv ma w).lower (decide (s.bound mv < w)) s.overTj
  have hb := s.beforeStep_touches mv ma w
  have hl := (s.beforeStep mv ma w).lower_eq
  rw [hb.ceil2 (by decide), hb.scale (by decide)] at hl
  rwa [State.govStep_parts, h, if_pos rfl, ha.ceil2 (by decide), ha.scale (by decide)]

/-- From full speed the step begins a stage. -/
theorem State.govStep_begins (h : s.bound mv < w) (hk : s.scale = 256) (hg : s.ceil2 = 4000) :
    (s.govStep mv ma w).fld (govPage + 0x48) 0 2 = 1 ∧ (s.govStep mv ma w).bit (govPage + 0x10) 0 = true := by
  have hover : s.overBound mv w = true := by rw [State.overBound, decide_eq_true h]; rfl
  have hb := s.beforeStep_touches mv ma w
  have hold : (s.beforeStep mv ma w).stage = 0 := by
    rw [hb.stage (by decide) (by decide), State.stage_eq, if_neg (by omega), if_neg (by omega)]
  obtain ⟨hl, -⟩ := (s.beforeStep mv ma w).lower_eq
  obtain ⟨hc, hs⟩ := hl (by rw [hb.ceil2 (by decide)]; omega)
  rw [hb.ceil2 (by decide)] at hc
  rw [hb.scale (by decide)] at hs
  have hst : (s.beforeStep mv ma w).lower.stage = 1 := by
    rw [State.stage_eq, if_neg (by omega), if_pos (by omega)]
  have hbegin := State.afterStep_begins (s.beforeStep mv ma w).lower 0 (decide (s.bound mv < w)) s.overTj (by omega)
  rw [hst] at hbegin
  rwa [State.govStep_parts, hover, if_pos rfl, hold]

end

theorem exec_governorStep {s : State} (hu : s.inReset = false) (mv ma w : Nat) : exec (.governorStep mv ma w) s = .next (s.govStep mv ma w) := by
  have h : exec (.governorStep mv ma w) s = .next (s.whenUp fun s => s.govStep mv ma w) := rfl
  rw [h, State.whenUp_of_up hu]

theorem exec_governorRaise {s : State} (hu : s.inReset = false) (w : Nat) : exec (.governorRaise w) s =
    .next (if w * 100 < s.fld (govPage + 0x60) 0 16 * 97 ∧ s.overTj = false then s.raiseGK.setStat false false else s) := by
  have h : exec (.governorRaise w) s =
    .next (s.whenUp fun s => if w * 100 < s.fld (govPage + 0x60) 0 16 * 97 ∧ s.overTj = false then s.raiseGK.setStat false false else s) := rfl
  rw [h, State.whenUp_of_up hu]

theorem State.raised_eq (s : State) : ((s.raiseGK).setStat false false).ceil2 = s.raiseGK.ceil2 ∧ ((s.raiseGK).setStat false false).scale = s.raiseGK.scale := by
  have h := State.TouchesGov.setStat s.raiseGK false false
  exact ⟨h.ceil2 (by decide), h.scale (by decide)⟩

end Sys2Proof.Machine
end

section
/-! PROOFS. Junctions, the thermal trip, a lost reference and CLK_ALL (16 R486, R494, R504). -/
namespace Sys2Proof.Machine

/-! A range of entries set at once -/

section
variable {α : Type} (d : Nat → α)

theorem Sparse.get_absent {m : Map α} {k : Nat} (h : ∀ p ∈ m, p.1 ≠ k) : Sparse.get d m k = d k := by
  induction m with
  | nil => rfl
  | cons p r ih =>
    obtain ⟨hp, hr⟩ := List.forall_mem_cons.1 h
    simp [Sparse.get, hp, ih hr]

/-- An entry that only one of two maps holds. -/
theorem Sparse.get_append_right {m : Map α} (n : Map α) {k : Nat} (h : ∀ p ∈ m, p.1 ≠ k) : Sparse.get d (m ++ n) k = Sparse.get d n k := by
  induction m with
  | nil => rfl
  | cons p r ih =>
    obtain ⟨hp, hr⟩ := List.forall_mem_cons.1 h
    simp [Sparse.get, hp, ih hr]

theorem Sparse.get_append_left (m : Map α) {n : Map α} {k : Nat} (h : ∀ p ∈ n, p.1 ≠ k) : Sparse.get d (m ++ n) k = Sparse.get d m k := by
  induction m with
  | nil => exact Sparse.get_absent d h
  | cons p r ih => by_cases hp : p.1 = k <;> simp [Sparse.get, hp, ih]

theorem Sparse.get_range {lo n : Nat} (v : α) {k : Nat} (h : lo ≤ k ∧ k < lo + n) :
    Sparse.get d ((List.range n).map (fun i => (lo + i, v))) k = v := by
  obtain ⟨i, hi, rfl⟩ : ∃ i, i < n ∧ k = lo + i := ⟨k - lo, by omega, by omega⟩
  clear h
  have hl : i ∈ List.range n := List.mem_range.2 hi
  generalize List.range n = l at hl
  induction l with
  | nil => cases hl
  | cons j r ih =>
    by_cases hj : j = i
    · simp [Sparse.get, hj]
    · simp only [List.mem_cons] at hl
      rcases hl with rfl | hl
      · exact absurd rfl hj
      · simp [Sparse.get, hj, ih hl]

end

theorem Sparse.get_putRange {α : Type} [DecidableEq α] (d : α) (m : Map α) (lo n : Nat) (v : α) (k : Nat) :
    Sparse.get (fun _ => d) (Sparse.putRange d m lo n v) k = if lo ≤ k ∧ k < lo + n then v else Sparse.get (fun _ => d) m k := by
  have hlow := Sparse.get_filter (fun _ => d) m (fun i => decide (i < lo)) k
  have hhigh := Sparse.get_filter (fun _ => d) m (fun i => decide (lo + n ≤ i)) k
  have hmid (p : Nat × α) (hp : p ∈ (if v = d then [] else (List.range n).map (fun i => (lo + i, v)))) : lo ≤ p.1 ∧ p.1 < lo + n := by
    split at hp
    · cases hp
    · simp only [List.mem_map, List.mem_range] at hp
      obtain ⟨i, hi, rfl⟩ := hp
      exact ⟨by simp, by simpa using hi⟩
  have hl (p : Nat × α) (hp : p ∈ m.filter (fun p => decide (p.1 < lo))) : p.1 < lo := of_decide_eq_true (List.mem_filter.1 hp).2
  have hh (p : Nat × α) (hp : p ∈ m.filter (fun p => decide (lo + n ≤ p.1))) : lo + n ≤ p.1 := of_decide_eq_true (List.mem_filter.1 hp).2
  rw [Sparse.putRange]
  by_cases h1 : k < lo
  · rw [if_neg (show ¬ (lo ≤ k ∧ k < lo + n) by omega), Sparse.get_append_left _ _ fun p hp => by have := hh p hp; omega,
      Sparse.get_append_left _ _ fun p hp => by have := hmid p hp; omega, hlow, if_pos (decide_eq_true h1)]
  · by_cases h2 : k < lo + n
    · rw [if_pos (show lo ≤ k ∧ k < lo + n by omega), Sparse.get_append_left _ _ fun p hp => by have := hh p hp; omega,
        Sparse.get_append_right _ _ fun p hp => by have := hl p hp; omega]
      split
      · next hv => exact hv.symm
      · exact Sparse.get_range _ v (by omega)
    · rw [if_neg (show ¬ (lo ≤ k ∧ k < lo + n) by omega), List.append_assoc, Sparse.get_append_right _ _ fun p hp => by have := hl p hp; omega,
        Sparse.get_append_right _ _ fun p hp => by have := hmid p hp; omega, hhigh, if_pos (decide_eq_true (by omega))]

/-! CLK_ALL (16 R504) -/

theorem clkClamp_fst (v : Nat) : (clkClamp v).1 = max 900 (min 2000 (v % 4096)) := by
  simp only [clkClamp]
  split_ifs <;> dsimp only <;> omega

theorem State.clkAllSet_clk (s : State) (die v j : Nat) :
    (s.clkAllSet die v).clk j = if j / 2112 = die then max 900 (min 2000 (v % 4096)) else s.clk j := by
  have h : (s.clkAllSet die v).clk j = Sparse.get (fun _ => 900) (Sparse.putRange 900 s.clkSet (die * 2112) 2112 (clkClamp v).1) j := by
    simp only [State.clkAllSet]; split <;> rfl
  rw [h, Sparse.get_putRange, clkClamp_fst]
  by_cases hj : j / 2112 = die
  · rw [if_pos (by omega), if_pos hj]
  · rw [if_neg (by omega), if_neg hj]; rfl

theorem State.clkAllSet_cores (s : State) (die v : Nat) : (s.clkAllSet die v).cores = s.cores := by
  simp only [State.clkAllSet]; split <;> simp

theorem exec_clkAll {s : State} {who : Party} {die : Fin 28} (hu : s.inReset = false) (hw : s.mayWrite who (timePage die.val + 0x90) = true) (v : Word) :
    exec (.clkAll who die v) s = .next ((if die.val < 24 then s.clkAllSet die.val v.toNat else s).answerCtl 0) := by
  have h : exec (.clkAll who die v) s = .next (s.whenUp fun s =>
    s.ctl who (timePage die.val + 0x90) fun s => if die.val < 24 then s.clkAllSet die.val v.toNat else s) := rfl
  rw [h, State.whenUp_of_up hu, State.ctl_of_may hw]

/-! Pins -/

theorem mem_pins_faultN {a b : State} (ha : a.faultLow = false) (hb : b.faultLow = true) : .pin .faultN 0 ∈ (State.pins a b).sent := by
  rw [State.pins_eq, State.sendAll, pinMsgs, ha, hb]
  simp [b2n]

theorem mem_pins_thermN {a b : State} {v : Bool} (ha : a.thermLow = !v) (hb : b.thermLow = v) : .pin .thermN (b2n (!v)) ∈ (State.pins a b).sent := by
  rw [State.pins_eq, State.sendAll, pinMsgs, ha, hb]
  cases v <;> simp

theorem State.pins_cores (a b : State) : (State.pins a b).cores = b.cores := (State.TouchesGov.pins a b).cores

/-! PG_FAULT and PG_READY -/

theorem State.pgFault_bit (s : State) {b : Nat} (hb : b < 32) (c : BitVec 16) : (s.pgFault b (some c)).bit (govPage + 0x6C) b = true := by
  have h : s.pgFault b (some c) = State.pins s (((s.setFld (govPage + 0x6C) b 1 1).enterCode govPage c).raiseIrq govPage 4) := rfl
  rw [h, (State.TouchesGov.pins s _).bit (by decide), (State.TouchesGov.raiseIrq _ 4).bit (by decide), (State.TouchesGov.enterCode _ c).bit (by decide),
    State.setFld_bit _ _ _ (by omega), if_pos (by omega), Nat.sub_self]
  rfl

theorem State.setReady_bit (s : State) {b : Nat} (hb : b < 32) (v : Bool) : (s.setReady b v).bit (govPage + 0x70) b = v := by
  rw [State.setReady]
  split
  · next h => exact h
  · rw [(State.TouchesGov.raiseIrq _ 8).bit (by decide), State.setFld_bit _ _ _ (by omega), if_pos (by omega), Nat.sub_self]
    cases v <;> rfl

theorem State.raiseIrq_bit_kept {s : State} {p b : Nat} (m : Word) (h : s.bit (p + 0x10) b = true) : (s.raiseIrq p m).bit (p + 0x10) b = true := by
  rw [State.raiseIrq_bit, h, Bool.true_or]

theorem State.setReady_irq_kept {s : State} {b : Nat} (c : Nat) (v : Bool) (h : s.bit (govPage + 0x10) b = true) : (s.setReady c v).bit (govPage + 0x10) b = true := by
  rw [State.setReady]
  split
  · exact h
  · exact State.raiseIrq_bit_kept 8 (((State.TouchesGov.setFld s 0x70 c 1 _).bit (by decide) b).trans h)

/-! The hottest junction (16 R494) -/

section
variable (s : State) (tj die : Nat)

/-- PG_TJ shown, and a rise over the target entered. -/
def State.tjJudged : State :=
  let s1 := s.setReg (govPage + 0x64) (BitVec.ofNat 32 (min tj 4095 + die * 65536))
  if s1.overTj && !s.overTj then (s1.enterCode govPage Code.thermal).raiseIrq govPage 2 else s1

/-- 100 °C reached: told to every tenant. -/
def State.tjTold : State :=
  let s3 := { s.tjJudged tj die with hotJunction := decide (800 ≤ tj) }
  if decide (800 ≤ tj) && !s.hotJunction then (s3.raiseIrq govPage 2).eventAll Code.thermal Blk.gov.type (BitVec.ofNat 32 die) else s3

theorem State.junction_eq : s.junction tj die = State.pins s ((s.tjTold tj die).setReady 14 (!decide (800 ≤ tj))) := rfl

theorem State.tjJudged_after : (s.setReg (govPage + 0x64) (BitVec.ofNat 32 (min tj 4095 + die * 65536))).TouchesGov [0x18, 0x10] (s.tjJudged tj die) := by
  simp only [State.tjJudged]
  split
  · exact (State.TouchesGov.enterCode _ _).trans (State.TouchesGov.raiseIrq _ 2)
  · exact State.TouchesGov.refl ..

theorem State.tjJudged_touches : s.TouchesGov [0x64, 0x18, 0x10] (s.tjJudged tj die) :=
  (State.TouchesGov.setReg s 0x64 _).trans (s.tjJudged_after tj die)

theorem State.tjTold_keeps : (s.tjTold tj die).cores = s.cores ∧ (s.tjTold tj die).hotJunction = decide (800 ≤ tj) ∧
    ∀ k < 2 ^ 40, (∀ e, k ≠ edgePage e 0xF030 + 0x10) → k ≠ govPage + 0x10 → (s.tjTold tj die).reg k = (s.tjJudged tj die).reg k := by
  have hj := (s.tjJudged_touches tj die).cores
  simp only [State.tjTold]
  split
  · have hr := State.TouchesGov.raiseIrq ({ s.tjJudged tj die with hotJunction := decide (800 ≤ tj) } : State) 2
    have hl := State.LogsTo.eventAll (({ s.tjJudged tj die with hotJunction := decide (800 ≤ tj) } : State).raiseIrq govPage 2) Code.thermal Blk.gov.type (BitVec.ofNat 32 die)
    exact ⟨hl.cores.trans (hr.cores.trans hj), hl.hotJunction.trans hr.hotJunction, fun k hk he hn => (hl.reg k hk he).trans (hr.reg k (by simpa using hn))⟩
  · exact ⟨hj, rfl, fun _ _ _ _ => rfl⟩

end

end Sys2Proof.Machine
end

section
/-! PROOFS. The governor and the clocks: junctions, trip, reference, and the claim as a whole (16 R486 to R494, R504). -/
namespace Sys2Proof.Machine

/-! Keys apart -/

theorem govPage_lt {off : Nat} (ho : off < 4096) : govPage + off < 2 ^ 40 := by
  simp only [govPage, edgePage, pageAt]; omega

theorem govPage_ne_engine {off : Nat} (ho : off < 4096) (e : Nat) : govPage + off ≠ edgePage e 0xF030 + 0x10 := by
  simp only [govPage, edgePage, pageAt]; omega

theorem lpdPage_lt {ch : Nat} (hc : ch < 96) : lpdPage ch + 0x40 < 2 ^ 40 := by
  simp only [lpdPage, edgePage, pageAt]; omega

theorem lpdPage_ne_engine (ch e : Nat) : lpdPage ch + 0x40 ≠ edgePage e 0xF030 + 0x10 := by
  simp only [lpdPage, edgePage, pageAt]; omega

theorem lpdPage_ne_gov (ch : Nat) {off : Nat} (ho : off < 4096) : lpdPage ch + 0x40 ≠ govPage + off := by
  simp only [lpdPage, govPage, edgePage, pageAt]; omega

theorem timePage_ne_gov (die : Nat) {off o : Nat} (ho : off < 4096) (h : o < 4096) : timePage die + o ≠ govPage + off := by
  simp only [timePage, govPage, edgePage, pageAt]; omega

/-- The key of the interrupt register of lane k's quad. -/
def laneIrq (k : Nat) : Nat := edgePage (k / 16) (0xF200 + k % 16 / 4) + 0x10

theorem laneIrq_ne_gov (k : Nat) {off : Nat} (ho : off < 4096) : govPage + off ≠ laneIrq k := by
  simp only [laneIrq, govPage, edgePage, pageAt]; omega

theorem laneIrq_ne_time (k die : Nat) {off : Nat} (ho : off < 4096) : timePage die + off ≠ laneIrq k := by
  simp only [laneIrq, timePage, edgePage, pageAt]; omega

/-! The hottest junction (16 R494) -/

section
variable (s : State) (tj : Nat) {die : Nat}

/-- The governor's registers after a reading, but for the interrupt register and the readiness map. -/
theorem State.junction_gov {off : Nat} (ho : off < 4096) (h : off ∉ [0x10, 0x70]) : (s.junction tj die).reg (govPage + off) = (s.tjJudged tj die).reg (govPage + off) := by
  have h10 : off ≠ 0x10 := fun e => h (by simp [e])
  have h70 : off ∉ [0x70, 0x10] := fun e => h (by simpa [or_comm] using e)
  obtain ⟨-, -, htold⟩ := s.tjTold_keeps tj die
  rw [State.junction_eq, State.pins_reg, (State.TouchesGov.setReady _ 14 _).gov h70, htold _ (govPage_lt ho) (govPage_ne_engine ho) (by omega)]

theorem State.junction_shown (hd : die < 28) : (s.junction tj die).fld (govPage + 0x64) 0 12 = min tj 4095 ∧ (s.junction tj die).fld (govPage + 0x64) 16 5 = die := by
  have h : (s.junction tj die).reg (govPage + 0x64) = BitVec.ofNat 32 (min tj 4095 + die * 65536) := by
    rw [s.junction_gov tj (by decide) (by decide), (s.tjJudged_after tj die).gov (by decide), State.setReg_reg_same]
  rw [State.fld, State.fld, h, BitVec.toNat_ofNat, Nat.mod_eq_of_lt (by omega)]
  simp only [bits]
  omega

theorem State.junction_cores : (s.junction tj die).cores = s.cores := by
  obtain ⟨hcores, -, -⟩ := s.tjTold_keeps tj die
  rw [State.junction_eq, State.pins_cores, (State.TouchesGov.setReady _ 14 _).cores, hcores]

theorem State.junction_ready : (s.junction tj die).bit (govPage + 0x70) 14 = decide (tj < 800) := by
  rw [State.junction_eq, (State.TouchesGov.pins _ _).bit (by decide), State.setReady_bit _ (by decide), ← decide_not]
  exact decide_eq_decide.2 (by omega)

/-- A reading above the target, where the last was not, raises THERMAL. -/
theorem State.junction_raises (ho : s.overTj = false) (h : s.fld (govPage + 0x44) 8 8 * 8 < min tj 4095) (hd : die < 28) :
    (s.junction tj die).bit (govPage + 0x10) 1 = true := by
  have hs1 : (s.setReg (govPage + 0x64) (BitVec.ofNat 32 (min tj 4095 + die * 65536))).overTj = true := by
    have ht := (State.TouchesGov.setReg s 0x64 (BitVec.ofNat 32 (min tj 4095 + die * 65536))).fld (off := 0x44) (by decide) 8 8
    have hf := State.setReg_fld s (govPage + 0x64) (min tj 4095 + die * 65536) 0 12 (by omega)
    rw [bits_zero, show (min tj 4095 + die * 65536) % 2 ^ 12 = min tj 4095 by omega] at hf
    rw [State.overTj, ht, hf]
    exact decide_eq_true h
  have hjudged : (s.tjJudged tj die).bit (govPage + 0x10) 1 = true := by
    simp only [State.tjJudged, hs1, ho]
    rw [if_pos (by decide), State.raiseIrq_bit]
    simp
  have htold : (s.tjTold tj die).bit (govPage + 0x10) 1 = true := by
    simp only [State.tjTold]
    split
    · rw [State.bit, (State.LogsTo.eventAll ..).reg _ (govPage_lt (by decide)) (govPage_ne_engine (by decide))]
      exact State.raiseIrq_bit_kept 2 hjudged
    · exact hjudged
  rw [State.junction_eq, (State.TouchesGov.pins _ _).bit (by decide)]
  exact State.setReady_irq_kept 14 _ htold

/-- With no LPDDR device hot, THERM_N follows the junctions (16 R494). -/
theorem State.junction_thermN (hl : ∀ ch < 96, s.bit (lpdPage ch + 0x40) 4 = false) {v : Bool} (hv : s.hotJunction = !v) (ht : decide (800 ≤ tj) = v) :
    .pin .thermN (b2n (!v)) ∈ (s.junction tj die).sent := by
  have low (u : State) (h : ∀ ch < 96, u.bit (lpdPage ch + 0x40) 4 = false) : u.thermLow = u.hotJunction := by
    have : (List.range 96).any (fun c => u.bit (lpdPage c + 0x40) 4) = false := by simpa using h
    rw [State.thermLow, this, Bool.or_false]
  obtain ⟨-, hhot, htold⟩ := s.tjTold_keeps tj die
  have hready := State.TouchesGov.setReady (s.tjTold tj die) 14 (!decide (800 ≤ tj))
  rw [State.junction_eq]
  refine mem_pins_thermN ((low s hl).trans hv) ((low _ fun ch hc => ?_).trans (hready.hotJunction.trans (hhot.trans ht)))
  rw [← hl ch hc, State.bit, State.bit, hready.reg _ fun off ho => lpdPage_ne_gov ch (by simp only [List.mem_cons, List.not_mem_nil, or_false] at ho; omega),
    htold _ (lpdPage_lt hc) (lpdPage_ne_engine ch) (lpdPage_ne_gov ch (by decide)),
    (s.tjJudged_touches tj die).reg _ fun off ho => lpdPage_ne_gov ch (by simp only [List.mem_cons, List.not_mem_nil, or_false] at ho; omega)]

end

/-! A lost reference (16 R486) -/

/-- One lane loses lock. -/
def State.lockLost (s : State) (k : Nat) : State :=
  if (s.lane k).lock then (s.setLane k { (s.lane k) with lock := false, prbs := false }).raiseIrq (edgePage (k / 16) (0xF200 + k % 16 / 4)) 1 else s

theorem State.refLostLanes_eq (s : State) : s.refLostLanes = (List.range 64).foldl State.lockLost s := rfl

section
variable (s : State) (k : Nat)

theorem State.lockLost_cores : (s.lockLost k).cores = s.cores := by
  rw [State.lockLost]; split <;> simp

theorem State.lockLost_reg {j : Nat} (h : j ≠ laneIrq k) : (s.lockLost k).reg j = s.reg j := by
  rw [State.lockLost]
  split
  · rw [State.raiseIrq_reg, if_neg (show ¬ j = edgePage (k / 16) (0xF200 + k % 16 / 4) + 0x10 from h)]; rfl
  · rfl

theorem State.lockLost_lock (j : Nat) : ((s.lockLost k).lane j).lock = if j = k then false else (s.lane j).lock := by
  rw [State.lockLost]
  split
  · have h (t : State) (p : Nat) (m : Word) : (t.raiseIrq p m).lane j = t.lane j := by simp
    rw [h, State.setLane_lane]
    split <;> rfl
  · next hl =>
    split
    · next hj => rw [hj]; simpa using hl
    · rfl

theorem State.lockLost_all (l : List Nat) : (l.foldl State.lockLost s).cores = s.cores ∧ (∀ j, (∀ k ∈ l, j ≠ laneIrq k) → (l.foldl State.lockLost s).reg j = s.reg j) ∧
    ∀ j, j ∈ l ∨ (s.lane j).lock = false → ((l.foldl State.lockLost s).lane j).lock = false := by
  induction l generalizing s with
  | nil => exact ⟨rfl, fun _ _ => rfl, fun j h => by simpa using h⟩
  | cons k r ih =>
    obtain ⟨hc, hr, hl⟩ := ih (s.lockLost k)
    refine ⟨hc.trans (s.lockLost_cores k), fun j hj => ?_, fun j hj => hl j ?_⟩
    · obtain ⟨hk, hrest⟩ := List.forall_mem_cons.1 hj
      exact (hr j hrest).trans (s.lockLost_reg k hk)
    · rw [State.lockLost_lock]
      by_cases hk : j = k
      · exact .inr (if_pos hk)
      · rw [if_neg hk]
        simpa [hk] using hj

end

theorem State.holdover_keeps (s : State) : s.holdover.cores = s.cores ∧ (∀ off < 4096, s.holdover.reg (govPage + off) = s.reg (govPage + off)) ∧
    s.holdover.bit (timePage 24 + 0x44) 1 = false ∧ s.holdover.bit (timePage 24 + 0x44) 2 = true := by
  have hirq : timePage 24 + 0x44 ≠ timePage 24 + 0x10 := by omega
  refine ⟨by simp [State.holdover], fun off ho => ?_, ?_, ?_⟩
  · rw [State.holdover, State.raiseIrq_reg, if_neg (timePage_ne_gov 24 ho (by decide)).symm, State.setFld_reg, if_neg (timePage_ne_gov 24 ho (by decide)).symm,
      State.setFld_reg, if_neg (timePage_ne_gov 24 ho (by decide)).symm]
  · rw [State.holdover, State.bit, State.raiseIrq_reg, if_neg hirq, ← State.bit, State.setFld_bit _ _ _ (by decide), if_neg (by decide), State.setFld_bit _ _ _ (by decide),
      if_pos (by decide)]
    rfl
  · rw [State.holdover, State.bit, State.raiseIrq_reg, if_neg hirq, ← State.bit, State.setFld_bit _ _ _ (by decide), if_pos (by decide)]
    rfl

theorem State.refLost_keeps (s : State) : s.refLostLanes.cores = s.cores ∧ (∀ off < 4096, s.refLostLanes.reg (govPage + off) = s.reg (govPage + off)) ∧
    (∀ off < 4096, s.refLostLanes.reg (timePage 24 + off) = s.reg (timePage 24 + off)) ∧ ∀ j < 64, (s.refLostLanes.lane j).lock = false := by
  rw [State.refLostLanes_eq]
  obtain ⟨hc, hr, hl⟩ := s.lockLost_all (List.range 64)
  exact ⟨hc, fun off ho => hr _ fun k _ => laneIrq_ne_gov k ho, fun off ho => hr _ fun k _ => laneIrq_ne_time k 24 ho, fun j hj => hl j (.inl (List.mem_range.2 hj))⟩

/-! Commands -/

section
variable {s : State} (hu : s.inReset = false)
include hu

theorem exec_junctionRead (tj : Nat) (die : Fin 28) : exec (.junctionRead tj die) s = .next (s.junction tj die.val) := by
  have h : exec (.junctionRead tj die) s = .next (s.whenUp fun s => s.junction tj die.val) := rfl
  rw [h, State.whenUp_of_up hu]

theorem exec_thermalTrip (die : Fin 28) : exec (.thermalTrip die) s = .next { s.pgFault 2 (some Code.thermal) with tripped := true } := by
  have h : exec (.thermalTrip die) s = .next (s.whenUp fun s => { s.pgFault 2 (some Code.thermal) with tripped := true }) := rfl
  rw [h, State.whenUp_of_up hu]

theorem exec_refLoss (lane : Bool) : exec (.refLoss lane) s = .next (((s.pgFault 1 (some Code.clkRef)).holdover).refLostLanes) := by
  have h : exec (.refLoss lane) s = .next (s.whenUp fun s => ((s.pgFault 1 (some Code.clkRef)).holdover).refLostLanes) := rfl
  rw [h, State.whenUp_of_up hu]

theorem exec_islandClockChange (c : CoreId) : exec (.islandClockChange c) s = .next (s.setEff (coreNo c) (s.fEff (coreNo c))) := by
  have h : exec (.islandClockChange c) s = .next (s.whenUp fun s => s.setEff (coreNo c) (s.fEff (coreNo c))) := rfl
  rw [h, State.whenUp_of_up hu]

end

/-- A bit of a field that is set keeps the field from being 0. -/
theorem State.faultLow_of_bit {s : State} {b : Nat} (hb : b < 4) (h : s.bit (govPage + 0x6C) b = true) : s.faultLow = true := by
  rw [State.faultLow, decide_eq_true_eq, State.fld]
  intro h0
  have ht : (bits (s.reg (govPage + 0x6C)).toNat 0 4).testBit b = true := by
    rw [testBit_bits, Nat.zero_add, BitVec.testBit_toNat]
    exact Bool.and_eq_true_iff.2 ⟨decide_eq_true hb, h⟩
  rw [h0, Nat.zero_testBit] at ht
  cases ht

theorem State.pgFault_faultN {s : State} {b : Nat} (hb : b < 4) (c : BitVec 16) (h : s.faultLow = false) : .pin .faultN 0 ∈ (s.pgFault b (some c)).sent := by
  have hp : s.pgFault b (some c) = State.pins s (((s.setFld (govPage + 0x6C) b 1 1).enterCode govPage c).raiseIrq govPage 4) := rfl
  have hbit := State.pgFault_bit s (show b < 32 by omega) c
  rw [hp, (State.TouchesGov.pins s _).bit (by decide)] at hbit
  rw [hp]
  exact mem_pins_faultN h (State.faultLow_of_bit hb hbit)

theorem State.overTj_iff (s : State) : s.overTj = true ↔ s.fld (govPage + 0x44) 8 8 * 8 < s.fld (govPage + 0x64) 0 12 := decide_eq_true_iff

theorem State.overBound_iff (s : State) (mv w : Nat) :
    s.overBound mv w = true ↔ s.bound mv < w ∨ s.fld (govPage + 0x44) 8 8 * 8 < s.fld (govPage + 0x64) 0 12 := by
  rw [State.overBound, Bool.or_eq_true, decide_eq_true_eq, State.overTj_iff]

theorem governorAndClocks : Claims.GovernorAndClocks := by
  intro s who mv ma w tj die c v lane hu pg g2 k bound hot n floor2
  have hover : s.overBound mv w = true ↔ bound < w ∨ hot := s.overBound_iff mv w
  refine ⟨⟨_, exec_governorStep hu mv ma w, ?_, ?_, s.govStep_cores mv ma w, fun hw hh => ?_, fun hw => (s.govStep_lowers mv ma w (hover.2 hw)).1, fun hw => (s.govStep_lowers mv ma w (hover.2 hw)).2,
      s.govStep_begins mv ma w⟩,
    ⟨fun hw hh => ⟨_, exec_governorRaise hu w, ?_⟩, fun hw => ?_⟩, exec_islandClockChange hu c, fun hw hd => ?_, fun hw hd => ?_,
    ⟨_, exec_junctionRead hu tj die, (s.junction_shown tj die.isLt).1, (s.junction_shown tj die.isLt).2, s.junction_ready tj, fun hl => ⟨fun h1 h2 => ?_, fun h1 h2 => ?_⟩,
      fun h1 h2 => s.junction_raises tj h1 h2 die.isLt, s.junction_cores tj⟩,
    ⟨_, exec_thermalTrip hu die, rfl, s.pgFault_bit (by decide) _, (State.TouchesGov.pgFault s 2 _).cores, (State.TouchesGov.pgFault s 2 _).lpddr, fun h => ?_⟩,
    ⟨_, exec_refLoss hu lane, ?_⟩⟩
  · exact (s.govStep_fld mv ma w (.inl rfl) 0 16).trans (s.measured_fld mv ma w).1
  · exact ((s.govStep_fld mv ma w (.inr rfl) 0 16).trans (s.measured_fld mv ma w).2).trans (Nat.mod_eq_of_lt (s.bound_lt mv)).symm
  · have hn : ¬ (bound < w ∨ hot) := by rintro (h | h); exacts [by omega, hh h]
    exact s.govStep_keeps mv ma w (Bool.eq_false_iff.2 fun h => hn (hover.1 h))
  · have ho : s.overTj = false := Bool.eq_false_iff.2 fun h => hh (s.overTj_iff.1 h)
    rw [if_pos ⟨hw, ho⟩]
    obtain ⟨hc, hs⟩ := s.raised_eq
    obtain ⟨hbelow, hfull⟩ := s.raiseGK_eq
    refine ⟨fun hk => ?_, fun hk _ => ?_⟩
    · obtain ⟨h1, h2⟩ := hbelow hk
      exact ⟨hs.trans h1, hc.trans h2⟩
    · obtain ⟨h1, h2⟩ := hfull hk
      exact ⟨hs.trans h1, hc.trans h2⟩
  · rw [exec_governorRaise hu, if_neg]
    rintro ⟨h1, h2⟩
    rcases hw with h | h
    · exact absurd h1 (Nat.not_lt.2 h)
    · exact absurd (s.overTj_iff.2 h) (by rw [h2]; decide)
  · refine ⟨_, (exec_clkAll hu hw v).trans (by rw [if_pos hd]), fun j hj => ?_, fun j hj => ?_, s.clkAllSet_cores _ _⟩
    · rw [s.clkAllSet_clk, if_pos (by omega)]
    · rw [s.clkAllSet_clk, if_neg hj]
  · rw [exec_clkAll hu hw, if_neg (by omega)]
  · exact s.junction_thermN tj hl (v := false) h1 (decide_eq_false (by omega))
  · exact s.junction_thermN tj hl (v := true) h1 (decide_eq_true h2)
  · exact State.pgFault_faultN (by decide) _ (decide_eq_false (not_not_intro h))
  · obtain ⟨hc1, hg1, ht1, ht2⟩ := (s.pgFault 1 (some Code.clkRef)).holdover_keeps
    obtain ⟨hc2, hg2, ht3, hl⟩ := (s.pgFault 1 (some Code.clkRef)).holdover.refLost_keeps
    refine ⟨?_, ?_, ?_, hl, (hc2.trans hc1).trans (State.TouchesGov.pgFault s 1 _).cores⟩
    · exact (congrArg (fun x : Word => x.getLsbD 1) ((hg2 0x6C (by decide)).trans (hg1 0x6C (by decide)))).trans (s.pgFault_bit (by decide) _)
    · exact (congrArg (fun x : Word => x.getLsbD 1) (ht3 0x44 (by decide))).trans ht1
    · exact (congrArg (fun x : Word => x.getLsbD 2) (ht3 0x44 (by decide))).trans ht2

end Sys2Proof.Machine
end

section
/-! PROOFS. Reset, the input and the board's ports (16 R483 to R487; 18 R531, R532). -/
namespace Sys2Proof.Machine

/-! A reset -/

/-- The state that a reset of s leaves, but for its pins and the reset lines: every block at its reset values (16 R483). -/
structure State.Fresh (s u : State) : Prop where
  regs : u.regs = []
  cores : u.cores = []
  lpddr : u.lpddr = []
  fram : u.fram = []
  tenants : u.tenants = []
  cfgmem : u.cfgmem = []
  remap : u.remap = []
  time : u.time = 0
  tripped : u.tripped = false
  sec : u.sec = s.sec.afterReset (Config.free s.freeCtr)
  pending : u.pending = s.pending
  jtag : u.jtag = s.jtag

theorem State.Fresh.sendAll {s u : State} (h : s.Fresh u) (l : List Msg) : s.Fresh (u.sendAll l) := { h with }

theorem State.resetPins_eq (a b : State) : ∃ l, State.resetPins a b = b.sendAll l := by
  rw [State.resetPins, State.pins_eq]
  split
  · exact ⟨pinMsgs a b ++ [.pin .cfgDone 0], by simp [State.sendAll, State.send]⟩
  · exact ⟨pinMsgs a b, rfl⟩

theorem cutShort_between (count target d : Nat) : count ≤ cutShort count target d ∧ cutShort count target d ≤ max count target := by
  rw [cutShort]
  split
  · omega
  · have := Nat.mod_lt d (show 0 < target - count + 1 by omega)
    omega

/-- The fused counts after a reset: unchanged without a commit under way, and a firmware count that a commit was raising lies between its old value and the
target (15 R466, R470). -/
theorem Sec.afterReset_counts (x : Sec) (d : Nat) :
    (x.commit = none → (x.afterReset d).svnFw = x.svnFw ∧ (x.afterReset d).svnStatic = x.svnStatic ∧ (x.afterReset d).svnShell = x.svnShell) ∧
      ∀ target, x.commit = some (1, target) → x.svnFw ≤ (x.afterReset d).svnFw ∧ (x.afterReset d).svnFw ≤ max x.svnFw target := by
  refine ⟨fun h => ?_, fun target h => ?_⟩
  · simp [Sec.afterReset, h]
  · simp only [Sec.afterReset, h, if_true]
    exact cutShort_between ..

section
variable (s : State) (mode : Bool)

theorem exec_resetNAssert : ∃ l, exec .resetNAssert s = .next (({ s.afterReset with resetN := false, inReset := true, releaseWaits := false } : State).sendAll l) := by
  obtain ⟨l, h⟩ := State.resetPins_eq s { s.afterReset with resetN := false, inReset := true, releaseWaits := false }
  exact ⟨l, congrArg Host.Outcome.next h⟩

theorem exec_resetNRelease : exec (.resetNRelease mode) s = .next (
    if s.resetN then s
    else if s.pwrOk then { s.afterReset with resetN := true, inReset := false, releaseWaits := false, cfgMode := mode }
    else { s with resetN := true, releaseWaits := true, cfgMode := mode }) := rfl

/-- PWR_OK's rise. -/
def State.powered (s : State) (mv : Nat) : State :=
  { s with pwrOk := true, inputMv := mv, jtag := .idcode, sent := s.sent ++ [.pin .pwrOk 1], inReset := s.inReset && !s.releaseWaits, releaseWaits := false }

theorem exec_pwrOkRise (mv : Nat) (ok : Bool) : exec (.pwrOkRise mv ok) s = .next (
    if s.pwrOk || !ok || decide (mv < 40000) || decide (58000 < mv) then s else s.powered mv) := by
  have h : exec (.pwrOkRise mv ok) s = .next (
    if s.pwrOk || !ok || decide (mv < 40000) || decide (58000 < mv) then s
    else
      let s1 := { s with pwrOk := true, inputMv := mv, jtag := .idcode }.send (.pin .pwrOk 1)
      if s1.releaseWaits then { s1 with inReset := false, releaseWaits := false } else s1) := rfl
  rw [h]
  cases hr : s.releaseWaits <;> simp [State.powered, State.send, hr]

/-- The input fails: a reset as RESET_N's. -/
def State.failed (s : State) (mv : Nat) : State := { s.afterReset with pwrOk := false, inReset := true, releaseWaits := s.resetN, inputMv := mv }

theorem exec_inputPowerDrop (mv : Nat) (falls : Bool) (h : mv < 38000 ∨ falls = true) :
    ∃ l, exec (.inputPowerDrop mv falls) s = .next ((s.failed mv).sendAll l) ∧ (s.pwrOk = true → .pin .pwrOk 0 ∈ l) := by
  have hx : exec (.inputPowerDrop mv falls) s = .next (
    if decide (mv < 38000) || falls then
      let s1 := State.resetPins s (s.failed mv)
      if s.pwrOk then s1.send (.pin .pwrOk 0) else s1
    else s.whenUp fun s => s.inputBand mv) := rfl
  obtain ⟨l, hl⟩ := State.resetPins_eq s (s.failed mv)
  rw [hx, if_pos (by simpa using h)]
  dsimp only
  rw [hl]
  cases hp : s.pwrOk with
  | false => exact ⟨l, rfl, fun h => by cases h⟩
  | true => exact ⟨l ++ [.pin .pwrOk 0], by simp [State.sendAll, State.send], fun _ => by simp⟩

theorem exec_inputPowerDrop_band {mv : Nat} (h : 38000 ≤ mv) : exec (.inputPowerDrop mv false) s = .next (s.whenUp fun s => s.inputBand mv) := by
  have hx : exec (.inputPowerDrop mv false) s = .next (
    if decide (mv < 38000) || false then
      let s1 := State.resetPins s (s.failed mv)
      if s.pwrOk then s1.send (.pin .pwrOk 0) else s1
    else s.whenUp fun s => s.inputBand mv) := rfl
  rw [hx, if_neg (by simpa using h)]

end

/-- A reset that ends with the given lines is fresh. -/
theorem State.fresh_of_reset (s : State) : s.Fresh s.afterReset := ⟨rfl, rfl, rfl, rfl, rfl, rfl, rfl, rfl, rfl, rfl, rfl, rfl⟩

theorem State.Fresh.lines {s u : State} (h : s.Fresh u) (n r w p m : Bool) (mv : Nat) :
    s.Fresh { u with resetN := n, inReset := r, releaseWaits := w, pwrOk := p, cfgMode := m, inputMv := mv } := { h with }

/-- What the claim says of the state after a reset. -/
theorem State.Fresh.says {s u : State} (h : s.Fresh u) :
    u.regs = [] ∧ u.cores = [] ∧ u.lpddr = [] ∧ u.fram = [] ∧ u.tenants = [] ∧ u.cfgmem = [] ∧ u.remap = [] ∧ u.time = 0 ∧ u.tripped = false ∧ u.sec.revokedA = s.sec.revokedA ∧ u.sec.revokedB = s.sec.revokedB ∧
      u.sec.owner = s.sec.owner ∧ u.sec.ready = false ∧ u.sec.keys = [] ∧ u.pending = s.pending ∧ u.jtag = s.jtag ∧
      (s.sec.commit = none → u.sec.svnFw = s.sec.svnFw ∧ u.sec.svnStatic = s.sec.svnStatic ∧ u.sec.svnShell = s.sec.svnShell) ∧
      (∀ target, s.sec.commit = some (1, target) → s.sec.svnFw ≤ u.sec.svnFw ∧ u.sec.svnFw ≤ max s.sec.svnFw target) := by
  obtain ⟨hnone, hsome⟩ := Sec.afterReset_counts s.sec (Config.free s.freeCtr)
  rw [h.sec]
  exact ⟨h.regs, h.cores, h.lpddr, h.fram, h.tenants, h.cfgmem, h.remap, h.time, h.tripped, rfl, rfl, rfl, rfl, rfl, h.pending, h.jtag, hnone, hsome⟩

/-- The warning band of the input (16 R485). -/
theorem State.inputBand_warns (s : State) {mv : Nat} (h38 : 38000 ≤ mv) (h : mv < 40000 ∨ (58000 < mv ∧ mv ≤ 60000)) :
    (s.inputBand mv).bit (govPage + 0x6C) 0 = true ∧ (s.inputBand mv).inputMv = mv := by
  have hb : inBand mv = true := by simp [inBand]; omega
  have hp (t : State) (c : BitVec 16) : (t.pgFault 0 (some c)).inputMv = t.inputMv := by
    have h : t.pgFault 0 (some c) = State.pins t (((t.setFld (govPage + 0x6C) 0 1 1).enterCode govPage c).raiseIrq govPage 4) := rfl
    rw [h, State.pins_eq, State.sendAll]
    simp
  simp only [State.inputBand, hb, Bool.true_and]
  split
  · exact ⟨State.pgFault_bit _ (by decide) _, hp _ _⟩
  · next hn =>
    simp only [Bool.not_eq_true', Bool.not_eq_false, Bool.and_eq_true] at hn
    exact ⟨hn.2, rfl⟩

theorem State.inputBand_cores (s : State) (mv : Nat) : (s.inputBand mv).cores = s.cores := (State.TouchesGov.inputBand s mv).cores

theorem State.inputBand_inside (s : State) {mv : Nat} (h1 : 40000 ≤ mv) (h2 : mv ≤ 58000) : s.inputBand mv = { s with inputMv := mv } := by
  have hb : inBand mv = false := by simp [inBand]; omega
  simp [State.inputBand, hb]

theorem resetAndInput : Claims.ResetAndInput := by
  intro s mode mv f fresh
  have asserted := s.fresh_of_reset.lines false true false s.pwrOk s.cfgMode s.inputMv
  have failed := s.fresh_of_reset.lines s.resetN true s.resetN false s.cfgMode mv
  refine ⟨?_, fun h => ?_, fun h1 h2 => ?_, fun h1 h2 => ?_, fun h1 h2 h3 => ?_, fun h => ?_, ?_, fun falls h => ?_, fun h38 hu => ⟨fun h => ?_, fun h => ?_⟩⟩
  · obtain ⟨l, hl⟩ := exec_resetNAssert s
    exact ⟨_, hl, (asserted.sendAll l).says, rfl, rfl, rfl⟩
  · rw [exec_resetNRelease, if_pos h]
  · exact ⟨_, exec_resetNRelease s mode, by rw [if_neg (by simp [h1]), if_neg (by simp [h2])]; exact ⟨rfl, rfl, rfl⟩⟩
  · have hf := s.fresh_of_reset.lines true false false s.pwrOk mode s.inputMv
    exact ⟨_, exec_resetNRelease s mode, by rw [if_neg (by simp [h1]), if_pos h2]; exact ⟨hf.says, rfl, rfl, rfl⟩⟩
  · refine ⟨s.powered mv, ?_, rfl, rfl, rfl, rfl, fun h => ?_, fun h => ?_, rfl⟩
    · rw [exec_pwrOkRise, if_neg (by simp [h1]; omega)]
    · simp [State.powered, h]
    · simp [State.powered, h]
  · rw [exec_pwrOkRise, if_pos (by simpa [or_assoc] using h)]
  · rw [exec_pwrOkRise, if_pos (by simp)]
  · obtain ⟨l, hl, hp⟩ := exec_inputPowerDrop s mv falls h
    exact ⟨_, hl, (failed.sendAll l).says, rfl, rfl, rfl, fun h => List.mem_append_right _ (hp h)⟩
  · obtain ⟨hbit, hmv⟩ := s.inputBand_warns h38 h
    exact ⟨_, (exec_inputPowerDrop_band s h38).trans (by rw [State.whenUp_of_up hu]), hbit, hmv, s.inputBand_cores mv⟩
  · rw [exec_inputPowerDrop_band s h38, State.whenUp_of_up hu, s.inputBand_inside h.1 h.2]

/-! The reset lines -/

/-- The module is in reset exactly while RESET_N or PWR_OK is 0, and a release waits exactly while RESET_N alone is 1. -/
def State.linesHold (s : State) : Prop := s.inReset = (!s.resetN || !s.pwrOk) ∧ s.releaseWaits = (s.resetN && !s.pwrOk)

theorem State.linesHold_of {s u : State} (h : s.linesHold) (h1 : u.resetN = s.resetN) (h2 : u.pwrOk = s.pwrOk) (h3 : u.inReset = s.inReset) (h4 : u.releaseWaits = s.releaseWaits) :
    u.linesHold := by
  rw [State.linesHold, h1, h2, h3, h4]; exact h

/-- The pins that a reset moves are none of the lines. -/
theorem State.pgFault_lines (s : State) (b : Nat) (c : BitVec 16) (h : s.linesHold) : (s.pgFault b (some c)).linesHold := by
  have hp : s.pgFault b (some c) = (((s.setFld (govPage + 0x6C) b 1 1).enterCode govPage c).raiseIrq govPage 4).sendAll
      (pinMsgs s (((s.setFld (govPage + 0x6C) b 1 1).enterCode govPage c).raiseIrq govPage 4)) := State.pins_eq ..
  rw [hp]
  exact State.linesHold_of h (by simp [State.sendAll]) (by simp [State.sendAll]) (by simp [State.sendAll]) (by simp [State.sendAll])

theorem State.inputBand_lines (s : State) (mv : Nat) (h : s.linesHold) : (s.inputBand mv).linesHold := by
  simp only [State.inputBand]
  split
  · exact State.pgFault_lines _ 0 _ h
  · exact h

theorem resetLines : Claims.ResetLines := by
  refine ⟨⟨rfl, rfl⟩, fun s mode mv ok falls jtag h i hi => ?_⟩
  have hs : s.linesHold := h
  obtain ⟨hr, hw⟩ := h
  simp only [List.mem_cons, List.not_mem_nil, or_false] at hi
  rcases hi with rfl | rfl | rfl | rfl | rfl | rfl
  · obtain ⟨l, hl⟩ := exec_resetNAssert s
    exact ⟨_, hl, rfl, rfl⟩
  · refine ⟨_, exec_resetNRelease s mode, ?_⟩
    split
    · exact hs
    · split
      · next hp => exact ⟨by simp [State.afterReset, hp], by simp [State.afterReset, hp]⟩
      · next hn hp => exact ⟨by simp [hr, hn, hp], by simp [hp]⟩
  · refine ⟨_, exec_pwrOkRise s mv ok, ?_⟩
    split
    · exact hs
    · next hn =>
      have hp : s.pwrOk = false := by simp at hn; exact hn.1.1.1
      exact ⟨by simp [State.powered, hr, hw, hp], by simp [State.powered]⟩
  · by_cases hc : mv < 38000 ∨ falls = true
    · obtain ⟨l, hl, -⟩ := exec_inputPowerDrop s mv falls hc
      exact ⟨_, hl, by simp [State.failed, State.sendAll], by simp [State.failed, State.sendAll, State.afterReset]⟩
    · simp only [not_or, Nat.not_lt, Bool.not_eq_true] at hc
      obtain ⟨h1, rfl⟩ := hc
      refine ⟨_, exec_inputPowerDrop_band s h1, ?_⟩
      cases hu : s.inReset with
      | true => rw [State.whenUp_of_reset hu]; exact hs
      | false => rw [State.whenUp_of_up hu]; exact s.inputBand_lines mv hs
  · exact ⟨_, rfl, hs⟩
  · exact ⟨_, rfl, hs⟩

end Sys2Proof.Machine
end

section
/-! PROOFS. The SMBus target and the test access ports (16 R487; 18 R531, R532). -/
namespace Sys2Proof.Machine

/-! SMBus -/

section
variable (s : State) (pec : Bool) (addr : Dword) (data : Word)

/-- The target takes an access: PEC good, 1 ms since the release, no access under way. -/
def State.smbTakes (pec : Bool) : Bool := pec && s.smbUp && !decide (s.smbStatus = 1)

theorem exec_smbControlWrite : exec (.smbControlWrite pec addr data) s = .next (
    if s.smbTakes pec then
      if s.smbRefusal (addrKey addr.toNat) true ≠ 0 then s.smbEnds (s.smbRefusal (addrKey addr.toNat) true) none
      else (s.writeReg (addrKey addr.toNat) data).smbEnds 0 none
    else s) := by
  have h : exec (.smbControlWrite pec addr data) s = .next (
    if !pec || !s.smbUp || decide (s.smbStatus = 1) then s
    else
      if s.smbRefusal (addrKey addr.toNat) true ≠ 0 then s.smbEnds (s.smbRefusal (addrKey addr.toNat) true) none
      else (s.writeReg (addrKey addr.toNat) data).smbEnds 0 none) := rfl
  rw [h]
  cases pec <;> cases hu : s.smbUp <;> by_cases hs : s.smbStatus = 1 <;> simp [State.smbTakes, hu, hs]

theorem exec_smbControlRead : exec (.smbControlRead pec addr) s = .next (
    if s.smbTakes pec then
      if s.smbRefusal (addrKey addr.toNat) false ≠ 0 then s.smbEnds (s.smbRefusal (addrKey addr.toNat) false) none
      else (s.readReg (addrKey addr.toNat)).1.smbEnds 0 (some (s.readReg (addrKey addr.toNat)).2)
    else s) := by
  have h : exec (.smbControlRead pec addr) s = .next (
    if !pec || !s.smbUp || decide (s.smbStatus = 1) then s
    else
      if s.smbRefusal (addrKey addr.toNat) false ≠ 0 then s.smbEnds (s.smbRefusal (addrKey addr.toNat) false) none
      else (s.readReg (addrKey addr.toNat)).1.smbEnds 0 (some (s.readReg (addrKey addr.toNat)).2)) := rfl
  rw [h]
  cases pec <;> cases hu : s.smbUp <;> by_cases hs : s.smbStatus = 1 <;> simp [State.smbTakes, hu, hs]

theorem exec_smbResultRead : exec (.smbResultRead pec) s = .next (
    if pec && s.smbUp then s.send (.bytes true (leBytes 1 s.smbStatus ++ leBytes 2 s.smbErr.toNat ++ leBytes 4 s.smbData.toNat)) else s) := by
  have h : exec (.smbResultRead pec) s = .next (
    if !pec || !s.smbUp then s
    else s.send (.bytes true (leBytes 1 s.smbStatus ++ leBytes 2 s.smbErr.toNat ++ leBytes 4 s.smbData.toNat))) := rfl
  rw [h]
  cases pec <;> cases hu : s.smbUp <;> simp

end

theorem State.smbUp_iff (s : State) : s.smbUp = true ↔ s.inReset = false ∧ 1000000 ≤ s.time.toNat := by
  simp [State.smbUp]

section
variable {s : State} {k : Nat}

/-- An access to no page, or not aligned, is not delivered. -/
theorem State.smbRefusal_none (h : keyBlk k = none ∨ k % 4 ≠ 0) (write : Bool) : s.smbRefusal k write = 0x3003 := by
  have hc : keyBlk k = none ∨ ctlAligned k false = false := h.imp_right fun h => decide_eq_false h
  rw [State.smbRefusal, if_pos hc]; rfl

theorem State.smbRefusal_write (hb : keyBlk k ≠ none) (ha : k % 4 = 0) : s.smbRefusal k true = if s.mayWrite .board k then 0 else 0x3002 := by
  have hc : ctlAligned k false = true := decide_eq_true ha
  cases hw : s.mayWrite .board k <;> simp [State.smbRefusal, hb, hc, hw, Code.netPartition]

theorem State.smbRefusal_read (hb : keyBlk k ≠ none) (ha : k % 4 = 0) (hc : coversRdata k false = false) : s.smbRefusal k false = 0 := by
  have hal : ctlAligned k false = true := decide_eq_true ha
  simp [State.smbRefusal, hb, hal, hc]

/-- A page that a party may write exists. -/
theorem State.keyBlk_of_mayWrite {who : Party} (h : s.mayWrite who k = true) : keyBlk k ≠ none := by
  intro hn
  simp [State.mayWrite, hn] at h

end

/-! The test access ports -/

/-- The instruction that comes into force. -/
def tapModeOf (mode : Fin 4) : TapMode := match mode with | 0 => .idcode | 1 => .extest | 2 => .clamp | 3 => .highz

theorem tapModeOf_ne_idcode : ∀ mode : Fin 4, mode ≠ 0 → tapModeOf mode ≠ .idcode := by decide

theorem exec_extest (s : State) (mode : Fin 4) : exec (.extest mode) s = .next { s with jtag := tapModeOf mode } := rfl

theorem State.portOk_board {s : State} (h : s.jtag ≠ .idcode) {p : Pusher} (hp : p.board = true) : s.portOk p = false := by
  simp [State.portOk, hp, h]

theorem boardPorts : Claims.BoardPorts := by
  intro s addr data mode key up
  have hup : s.smbUp = true ↔ up := s.smbUp_iff
  have untaken (h : s.smbTakes true = false) : exec (.smbControlWrite true addr data) s = .next s ∧ exec (.smbControlRead true addr) s = .next s := by
    rw [exec_smbControlWrite, exec_smbControlRead, h]; exact ⟨rfl, rfl⟩
  refine ⟨⟨?_, ?_, ?_⟩, fun h => ?_, fun h => ?_, fun h h1 => ?_, fun h h1 => ?_, rfl, ?_⟩
  · rw [exec_smbControlWrite]; rfl
  · rw [exec_smbControlRead]; rfl
  · rw [exec_smbResultRead]; rfl
  · have hu : s.smbUp = false := Bool.eq_false_iff.2 fun hu => h (hup.1 hu)
    obtain ⟨hw, hr⟩ := untaken (by rw [State.smbTakes, hu]; rfl)
    exact ⟨hw, hr, by rw [exec_smbResultRead, hu]; rfl⟩
  · rw [exec_smbResultRead, hup.2 h]; rfl
  · exact untaken (by simp [State.smbTakes, h1])
  · have ht : s.smbTakes true = true := by simp [State.smbTakes, hup.2 h, h1]
    have write : exec (.smbControlWrite true addr data) s = .next (
        if s.smbRefusal key true ≠ 0 then s.smbEnds (s.smbRefusal key true) none else (s.writeReg key data).smbEnds 0 none) := by
      rw [exec_smbControlWrite, if_pos ht]
    have read : exec (.smbControlRead true addr) s = .next (
        if s.smbRefusal key false ≠ 0 then s.smbEnds (s.smbRefusal key false) none else (s.readReg key).1.smbEnds 0 (some (s.readReg key).2)) := by
      rw [exec_smbControlRead, if_pos ht]
    clear_value key
    refine ⟨fun hk => ?_, fun hb ha hw => ?_, fun ha hw => ?_, fun hb ha hc => ?_⟩
    · rw [State.smbRefusal_none hk, if_pos (by decide)] at write read
      exact ⟨_, _, write, rfl, rfl, rfl, read, rfl, rfl, rfl⟩
    · rw [State.smbRefusal_write hb ha, hw, if_neg Bool.false_ne_true, if_pos (by decide)] at write
      exact ⟨_, write, rfl, rfl, rfl⟩
    · rw [State.smbRefusal_write (State.keyBlk_of_mayWrite hw) ha, hw, if_pos rfl, if_neg (by simp)] at write
      exact ⟨_, write, rfl, rfl, rfl⟩
    · rw [State.smbRefusal_read hb ha hc, if_neg (by simp)] at read
      exact ⟨_, read, rfl, rfl, rfl⟩
  · exact ⟨_, exec_extest s mode, fun h => by rw [h]; rfl, fun h => ⟨tapModeOf_ne_idcode mode h, fun p hp => State.portOk_board (tapModeOf_ne_idcode mode h) hp⟩, rfl⟩

end Sys2Proof.Machine
end

section
/-! PROOFS. What a thermal trip and a reset hold (16 R483, R494). -/
namespace Sys2Proof.Machine

section
variable {s : State}

theorem State.onIsland_of_tripped (h : s.tripped = true) (f : State → State) : s.onIsland f = s := by simp [State.onIsland, h]

theorem State.canIssue_of_tripped (h : s.tripped = true) (n : Nat) : s.canIssue n = false := by simp [State.canIssue, h]

theorem State.canIssue_of_reset (h : s.inReset = true) (n : Nat) : s.canIssue n = false := by simp [State.canIssue, h]

/-- A core that cannot issue executes no operation. -/
theorem State.issueOp_held {o : Slot} (h : s.canIssue (coreNo o.core) = false) (slot : Nat) (f : State → Nat → SlotOp) : s.issueOp o slot f = s := by
  simp [State.issueOp, h]

theorem State.atNode_of_reset (h : s.inReset = true) (n : Node) (f : State → State) : s.atNode n f = s := by
  cases n <;> simp [State.atNode, h]

theorem State.onIsland_of_reset (h : s.inReset = true) (f : State → State) : s.onIsland f = s := by simp [State.onIsland, h]

/-- A command that waits for the module to be out of reset changes nothing in reset. -/
theorem exec_held {i : Instr} {f : State → State} (h : s.inReset = true) (hi : exec i s = .next (s.whenUp f)) : exec i s = .next s := by
  rw [hi, State.whenUp_of_reset h]

/-- A command of a core's island that stands still changes nothing. -/
theorem exec_island_held {i : Instr} {f : State → State} (h : s.inReset = true ∨ s.tripped = true) (hi : exec i s = .next (s.onIsland f)) : exec i s = .next s := by
  rw [hi]
  rcases h with h | h
  · rw [State.onIsland_of_reset h]
  · rw [State.onIsland_of_tripped h]

theorem exec_op_held {i : Instr} {o : Slot} {slot : Nat} {f : State → Nat → SlotOp} (h : s.canIssue (coreNo o.core) = false)
    (hi : exec i s = .next (s.issueOp o slot f)) : exec i s = .next s := by
  rw [hi, State.issueOp_held h]

end

/-! A trip -/

theorem Core.stepBegin_pc (c : Core) : c.stepBegin.pc = c.pc := by
  rw [Core.stepBegin]; split <;> rfl

/-- SEQ_CTRL.STEP on a tripped module may arm the sequencer; no bundle issues. -/
theorem exec_step_of_tripped {s : State} (h : s.tripped = true) (who : Party) (c : CoreId) (e : Ecc) :
    ∃ t, exec (.step who c e) s = .next t ∧ (t.core (coreNo c)).pc = (s.core (coreNo c)).pc := by
  have hx : exec (.step who c e) s = .next (s.whenUp fun s => s.ctl who (seqCtrlKey (coreNo c)) fun s =>
    if ((s.modCore (coreNo c) Core.stepBegin).core (coreNo c)).stepping && (s.modCore (coreNo c) Core.stepBegin).canIssue (coreNo c) then
      (s.modCore (coreNo c) Core.stepBegin).fetchBundle (coreNo c) e
    else s.modCore (coreNo c) Core.stepBegin) := rfl
  have hc : (s.modCore (coreNo c) Core.stepBegin).canIssue (coreNo c) = false := State.canIssue_of_tripped (by simpa using h) _
  refine ⟨_, hx, ?_⟩
  cases hu : s.inReset with
  | true => rw [State.whenUp_of_reset hu]
  | false =>
    rw [State.whenUp_of_up hu]
    cases hw : s.mayWrite who (seqCtrlKey (coreNo c)) with
    | false => rw [State.ctl_of_refused hw]; rfl
    | true =>
      rw [State.ctl_of_may hw, hc, Bool.and_false, if_neg Bool.false_ne_true]
      calc ((s.modCore (coreNo c) Core.stepBegin).core (coreNo c)).pc = (s.core (coreNo c)).stepBegin.pc := by rw [State.modCore_core_same]
        _ = (s.core (coreNo c)).pc := Core.stepBegin_pc _

theorem trippedHolds : Claims.TrippedHolds := by
  intro s who c u o k e p h
  have op := State.canIssue_of_tripped h (coreNo o.core)
  exact ⟨exec_op_held op rfl, exec_op_held op rfl, exec_island_held (.inr h) rfl, exec_island_held (.inr h) rfl, exec_island_held (.inr h) rfl, exec_island_held (.inr h) rfl,
    fun line => exec_island_held (.inr h) rfl, exec_island_held (.inr h) rfl, exec_step_of_tripped h who c e⟩

/-! Reset -/

theorem exec_flitReceive (s : State) (n : Node) (port : Fin 4) (fl : Flit) (ok : Bool) : ∃ f, exec (.flitReceive n port fl ok) s = .next (s.atNode n f) := ⟨_, rfl⟩

theorem resetHolds : Claims.ResetHolds := by
  intro s who c o e die t w f q p l ch n port fl h
  have op := State.canIssue_of_reset h (coreNo o.core)
  have flit : exec (.flitReceive n port fl true) s = .next s := by
    obtain ⟨g, hg⟩ := exec_flitReceive s n port fl true
    rw [hg, State.atNode_of_reset h]
  have smb : exec (.smbResultRead true) s = .next s := by
    have hup : s.smbUp = false := by simp [State.smbUp, h]
    rw [exec_smbResultRead, hup]; rfl
  simp only [List.forall_mem_cons]
  exact ⟨exec_op_held op rfl, exec_op_held op rfl, exec_held h rfl, exec_held h rfl, exec_held h rfl, exec_island_held (.inl h) rfl, exec_island_held (.inl h) rfl, flit,
    exec_held h rfl, exec_held h rfl, exec_held h rfl, exec_held h rfl, exec_held h rfl, exec_held h rfl, exec_held h rfl, exec_held h rfl, exec_held h rfl, exec_held h rfl,
    exec_held h rfl, exec_held h rfl, exec_held h rfl, exec_held h rfl, exec_held h rfl, exec_held h rfl, exec_held h rfl, exec_held h rfl, exec_held h rfl, smb,
    fun _ hn => absurd hn List.not_mem_nil⟩

/-! The state right after reset (16 R483) -/

theorem State.reset_reg (k : Nat) : State.reset.reg k = regReset k := rfl

theorem regReset_of_spec {k : Nat} {b : Blk} {r : RegSpec} (hk : k < 2 ^ 40) (hb : keyBlk k = some b) (hr : b.find (keyDie k) (blkOff b k) = some r) :
    regReset k = BitVec.ofNat 32 r.reset := by
  have hs : keySpec k = some r := by rw [keySpec, hb]; exact hr
  rw [regReset, if_neg (by omega), hs]

theorem blkAt_core {d u p : Nat} (hd : d < 24) (hu : u < 2112) (hp : p < 10) : ∃ b, blkAt d u p = some b ∧ b ≠ .tsn := by
  unfold blkAt
  rw [if_pos ⟨hd, hu⟩]
  interval_cases p <;> exact ⟨_, rfl, by decide⟩

section
variable {n p off : Nat} (hn : n < 50688) (hp : p < 10) (ho : off < 4096)
include hn hp ho

/-- The reset value of a register of a core's page, by the block's table. -/
theorem corePage_regReset {b : Blk} {r : RegSpec} (hb : blkAt (n / 2112) (n % 2112) p = some b) (ht : b ≠ .tsn) (hr : b.find (n / 2112) off = some r) :
    regReset (corePage n p + off) = BitVec.ofNat 32 r.reset := by
  have hu : n % 2112 < 2 ^ 16 := by omega
  have hp' : p < 16 := by omega
  have hk : corePage n p + off < 2 ^ 40 := by simp only [corePage, pageAt]; omega
  have hd : keyDie (corePage n p + off) = n / 2112 := keyDie_pageAt hu hp' ho
  have hoff : blkOff b (corePage n p + off) = off := by rw [blkOff, if_neg ht]; exact keyOff_pageAt ho
  exact regReset_of_spec hk ((keyBlk_pageAt hu hp' ho).trans hb) (by rw [hd, hoff, hr])

end

theorem Blk.find_header (b : Blk) (d : Nat) : b.find d 8 = some (.w 0x008 1 1) ∧ b.find d 0x18 = some (.ro 0x018) ∧ b.find d 0x1C = some (.ro 0x01C) := by
  simp [Blk.find, Blk.header, RegSpec.ro, RegSpec.w, RegSpec.c]

/-- ENABLE alone is 1 among the control, error and clamp registers of a core's page (17 R511). -/
theorem corePage_header {n p : Nat} (hn : n < 50688) (hp : p < 10) :
    regReset (corePage n p + 8) = 1 ∧ regReset (corePage n p + 0x18) = 0 ∧ regReset (corePage n p + 0x1C) = 0 := by
  obtain ⟨b, hb, ht⟩ := blkAt_core (d := n / 2112) (u := n % 2112) (by omega) (by omega) hp
  obtain ⟨h1, h2, h3⟩ := b.find_header (n / 2112)
  exact ⟨corePage_regReset hn hp (by decide) hb ht h1, corePage_regReset hn hp (by decide) hb ht h2, corePage_regReset hn hp (by decide) hb ht h3⟩

theorem niTenant_reset {n : Nat} (hn : n < 50688) : State.reset.niTenant n = 0 := by
  have hb : blkAt (n / 2112) (n % 2112) 9 = some .ni := by
    unfold blkAt
    exact if_pos ⟨by omega, by omega⟩
  have hr : Blk.find .ni (n / 2112) 0x40 = some (.w 0x040 0xFF 0 [⟨0, 8, 0x40, 0xFE, 0⟩]) := rfl
  rw [State.niTenant, State.reset_reg, corePage_regReset hn (by decide) (by decide) hb (by decide) hr]
  rfl

theorem govPage_reset : regReset (govPage + 0x40) = 15000 ∧ regReset (govPage + 0x44) = 0x5F01 ∧ regReset (govPage + 0x4C) = 2000 ∧ regReset (govPage + 0x50) = 256 ∧
    regReset (govPage + 0x60) = 15000 ∧ regReset (govPage + 0x6C) = 0 ∧ regReset (govPage + 0x74) = 0x7FFF := by decide +kernel

theorem resetState : Claims.ResetState := by
  obtain ⟨h1, h2, h3, h4, h5, h6, h7⟩ := govPage_reset
  exact ⟨rfl, rfl, fun n => ⟨rfl, rfl, rfl, rfl, fun i => ite_self _, rfl, fun a => rfl⟩, fun n => ⟨rfl, rfl⟩, fun t => rfl,
    fun n hn => niTenant_reset hn, fun ch => rfl, h1, h2, h3, h4, h5, h6, h7, fun n hn p hp => corePage_header hn hp⟩

/-- Settles O45: each claim from the equations of its commands; a reset's pins, the governor's steps and the board's ports have their own files. -/
theorem resetAndBoard : Obligations.ResetAndBoard := ⟨resetState, resetAndInput, resetLines, boardPorts, governorAndClocks, trippedHolds, resetHolds⟩

end Sys2Proof.Machine
end

section
/-! SUPPORT. Elements of a vector register (04 R124): what a read gives after a write, and what an operation on each active element leaves. -/
namespace Sys2Proof.Machine

section
variable (w : Nat) (v : BitVec 1024) (j x : Nat)

theorem testBit_elemOf (i : Nat) : (elemOf w v j).testBit i = (decide (i < w) && v.getLsbD (j * w + i)) := by
  rw [elemOf, testBit_bits, BitVec.testBit_toNat]

theorem getLsbD_setElem {i : Nat} (hi : i < 1024) :
    (setElem w v j x).getLsbD i = if j * w ≤ i ∧ i < j * w + w then x.testBit (i - j * w) else v.getLsbD i := by
  rw [setElem, BitVec.getLsbD_ofNat, testBit_setBits, BitVec.testBit_toNat, decide_eq_true hi, Bool.true_and]

/-- A write to element k leaves every other element of the register. -/
theorem elemOf_setElem (k : Nat) (hj : (j + 1) * w ≤ 1024) :
    elemOf w (setElem w v k x) j = if j = k then x % 2 ^ w else elemOf w v j := by
  rw [Nat.add_one_mul] at hj
  apply Nat.eq_of_testBit_eq
  intro i
  rw [testBit_elemOf]
  by_cases hi : i < w
  · rw [getLsbD_setElem _ _ _ _ (by omega)]
    by_cases hk : j = k
    · subst hk
      simp [hi]
    · have apart : ¬ (k * w ≤ j * w + i ∧ j * w + i < k * w + w) := by
        rcases Nat.lt_or_gt_of_ne hk with h | h <;> have := Nat.mul_le_mul_right w h <;> rw [Nat.succ_mul] at this <;> omega
      rw [if_neg apart, if_neg hk, testBit_elemOf]
  · by_cases hk : j = k <;> simp [hi, hk, testBit_elemOf]

end

/-- One element more: it is written after the others, and its flags join theirs. -/
theorem mapElems_succ (w e : Nat) (old : BitVec 1024) (f : Nat → Nat × Flags) :
    mapElems w (e + 1) old f = (setElem w (mapElems w e old f).1 e (f e).1, (mapElems w e old f).2.1 ||| (f e).2, false) := by
  simp [mapElems, List.range_succ]

/-- The first e elements take the results, the others stay. -/
theorem elemOf_mapElems {w : Nat} (e : Nat) (old : BitVec 1024) (f : Nat → Nat × Flags) {j : Nat} (hj : (j + 1) * w ≤ 1024) :
    elemOf w (mapElems w e old f).1 j = if j < e then (f j).1 % 2 ^ w else elemOf w old j := by
  induction e with
  | zero => rfl
  | succ e ih =>
    rw [mapElems_succ, elemOf_setElem _ _ _ _ _ hj, ih]
    by_cases he : j = e
    · simp [he]
    · simp [he, show (j < e + 1) = (j < e) by simp; omega]

/-- The flags of the results are or-ed together, and no value vanishes. -/
theorem mapElems_flags (w e : Nat) (old : BitVec 1024) (f : Nat → Nat × Flags) :
    (mapElems w e old f).2 = ((List.range e).foldl (fun fl j => fl ||| (f j).2) 0, false) := by
  induction e with
  | zero => rfl
  | succ e ih => rw [mapElems_succ, List.range_succ, List.foldl_append, ih]; rfl

end Sys2Proof.Machine
end

section
/-! SUPPORT. A vector operation of slot 3, issued: its effects, its wait for stores to the generator page, and its fault (04 R136; 05 R173). -/
namespace Sys2Proof.Machine

/-! The fields of MOD (04 R136) -/

theorem modBad_none : ∀ mod : BitVec 4, modBad mod false false false = decide (mod ≠ 0) := by decide
theorem modBad_gen : ∀ mod : BitVec 4, modBad mod false false true = decide (mod.toNat % 8 ≠ 0) := by decide
theorem modBad_rm_gen : ∀ mod : BitVec 4, modBad mod true false true = (decide (mod.toNat % 4 = 3) || mod.getLsbD 2) := by decide
theorem modBad_all : ∀ mod : BitVec 4, modBad mod true true true = decide (mod.toNat % 4 = 3) := by decide
/-- A rounding that neither draws nor takes another field: RM 0 or 1 alone. -/
theorem modBad_rm : ∀ mod : BitVec 4, (modSr mod || modBad mod true false false) = decide (2 ≤ mod.toNat) := by decide

theorem modSr_iff (mod : BitVec 4) : modSr mod = true ↔ mod.toNat % 4 = 2 := decide_eq_true_iff

/-! What an operation draws (05 R172, R176) -/

/-- The random bits of a vector operation's elements. -/
def VecOp.bitsOf (q : VecOp) (s : State) (n : Nat) (mod : BitVec 4) : Nat → BitVec 128 :=
  if q.draws && mod.getLsbD 3 then s.freeDraw n (s.core n).vl (q.count (s.core n).vl) else s.keyedDraw n

/-- The state after what a vector operation draws. -/
def VecOp.drawn (q : VecOp) (s : State) (n : Nat) (mod : BitVec 4) : State :=
  if q.draws then s.afterDraw n (mod.getLsbD 3) (q.count (s.core n).vl) else s

section
variable {q : VecOp} (s : State) (n : Nat) (mod : BitVec 4)

theorem VecOp.bitsOf_of_draws (h : q.draws = true) : q.bitsOf s n mod = s.drawOf n (mod.getLsbD 3) (q.count (s.core n).vl) := by
  funext j
  rw [VecOp.bitsOf, h, Bool.true_and, State.drawOf]
  cases mod.getLsbD 3 <;> rfl

theorem VecOp.bitsOf_of_not_draws (h : q.draws = false) : q.bitsOf s n mod = s.keyedDraw n := by
  rw [VecOp.bitsOf, h]; rfl

theorem VecOp.drawn_of_draws (h : q.draws = true) : q.drawn s n mod = s.afterDraw n (mod.getLsbD 3) (q.count (s.core n).vl) := if_pos h
theorem VecOp.drawn_of_not_draws (h : q.draws = false) : q.drawn s n mod = s := by rw [VecOp.drawn, h]; rfl

/-- The rounding modes that a vector operation finds are those of its MOD field. -/
theorem modRm_eq_roundOf {rnd : Nat → BitVec 128} {e : Nat} (hm : mod.toNat % 4 ≠ 3) (hr : mod.toNat % 4 = 2 → rnd = s.drawOf n (mod.getLsbD 3) e) :
    modRm mod (if s.bit (rngPage n + 0x58) 1 then 3 else 4) rnd = s.roundOf n mod e := by
  funext j
  rw [modRm, State.roundOf]
  obtain h | h | h : mod.toNat % 4 = 0 ∨ mod.toNat % 4 = 1 ∨ mod.toNat % 4 = 2 := by omega
  · simp [h]
  · simp [h]
  · simp [h, hr h]

end

/-! The effects on the core -/

theorem Core.ticks_same (key : Dword) (k : Nat) (c : Core) : SameIssue c (Core.ticks key k c) := by
  induction k generalizing c with
  | zero => exact .refl c
  | succ k ih =>
    obtain ⟨st, pc, loops, stepping⟩ := ih { c with cc := c.cc + 1, fr := _ }
    exact ⟨st, pc, loops, stepping⟩

/-- The flags of the first three that rise when a vector flag register takes f, as a mask of interrupt bits. -/
def flagRises (vf f : Flags) : Nat := (f &&& ~~~vf).toNat % 8

theorem State.setVf_eq (s : State) (n : Nat) (f : Flags) :
    s.setVf n f = if flagRises (s.core n).vf f = 0 then s.modCore n (fun c => { c with vf := f })
      else (s.modCore n (fun c => { c with vf := f })).raiseIrq (corePage n 4) (BitVec.ofNat 32 (flagRises (s.core n).vf f)) := rfl

theorem State.setVf_core (s : State) (n : Nat) (f : Flags) (m : Nat) : (s.setVf n f).core m = (s.modCore n (fun c => { c with vf := f })).core m := by
  rw [State.setVf_eq]
  split
  · rfl
  · simp

/-- The core that a vector operation leaves: vd and the flags are written. -/
def Core.vecDone (c : Core) (i : Nat) (r : BitVec 1024) (fl : Flags) : Core := { c.setV i r with vf := c.vf ||| fl }

theorem Core.vecDone_same (c : Core) (i : Nat) (r : BitVec 1024) (fl : Flags) : SameIssue c (c.vecDone i r fl) := ⟨rfl, rfl, rfl, rfl⟩

/-- The state after a vector operation but for VEC_INSTR: vd, the flags and the vanish counter. -/
def State.vecMarked (s : State) (n i : Nat) (r : BitVec 1024) (fl : Flags) (van : Bool) : State :=
  if van then ((s.modCore n (fun d => d.setV i r)).orVf n fl).incSat (corePage n 4 + 0x44) else (s.modCore n (fun d => d.setV i r)).orVf n fl

theorem State.vecDone_eq (s : State) (n i : Nat) (r : BitVec 1024) (fl : Flags) (van : Bool) :
    s.vecDone n i (r, fl, van) = (s.vecMarked n i r fl van).inc64 (corePage n 4 + 0x48) := rfl

theorem State.vecDone_core (s : State) (n i : Nat) (r : BitVec 1024) (fl : Flags) (van : Bool) (m : Nat) :
    (s.vecDone n i (r, fl, van)).core m = if m = n then (s.core n).vecDone i r fl else s.core m := by
  have h : (s.vecMarked n i r fl van).core m = ((s.modCore n (fun d => d.setV i r)).orVf n fl).core m := by
    rw [State.vecMarked]
    split
    · simp
    · rfl
  rw [State.vecDone_eq, State.core_inc64, h, State.orVf, State.setVf_core, State.modCore_modCore, State.modCore_core, State.modCore_core_same]
  rfl

theorem State.drewKeyed_cores (s : State) (n e : Nat) : (s.drewKeyed n e).cores = s.cores := by
  rw [State.drewKeyed]
  split <;> simp

theorem State.drewKeyed_core (s : State) (n e m : Nat) : (s.drewKeyed n e).core m = s.core m := by
  rw [State.core, State.drewKeyed_cores, State.core]

theorem State.ticked_same (s : State) (n : Nat) : SameIssue (s.core n) ((s.ticked n).core n) := by
  have h : (s.ticked n).core n = Core.ticks (s.hiddenKey n) (s.draw.1 + 1) (s.core n) := State.modCore_core_same ..
  rw [h]
  exact Core.ticks_same ..

theorem VecOp.drawn_same (q : VecOp) (s : State) (n : Nat) (mod : BitVec 4) : SameIssue (s.core n) ((q.drawn s n mod).core n) := by
  unfold VecOp.drawn State.afterDraw
  split
  · split
    · exact s.ticked_same n
    · rw [State.drewKeyed_core]; exact .refl _
  · exact .refl _

theorem vecDone_same {s t : State} {n : Nat} (h : SameIssue (s.core n) (t.core n)) (i : Nat) (r : BitVec 1024 × Flags × Bool) :
    SameIssue (s.core n) ((t.vecDone n i r).core n) := by
  obtain ⟨st, pc, loops, stepping⟩ := h
  obtain ⟨r, fl, van⟩ := r
  rw [State.vecDone_core, if_pos rfl]
  exact ⟨st, pc, loops, stepping⟩

/-! The issue -/

/-- An operation that stalls and does nothing while it waits. -/
theorem issue_stalled {s : State} {o : Slot} {slot : Nat} {f : State → Nat → SlotOp} (h : s.executes o)
    (hi : (f s (coreNo o.core)).illegal = false) (hf : (f s (coreNo o.core)).fault = none)
    (hst : (f s (coreNo o.core)).stall ≠ .none) (hw : (f s (coreNo o.core)).wait s = s) :
    s.issueOp o slot f = s.modCore (coreNo o.core) (fun d => { d with stall := (f s (coreNo o.core)).stall }) := by
  have hp : (s.core (coreNo o.core)).pcOut = none := h.1.1.2.2.2.2.2
  have e : s.issueOp o slot f = s.runBundle (coreNo o.core) [⟨slot, true, f s (coreNo o.core)⟩] := by
    simp [State.issueOp, canIssue_of_atBundle h.1.1, hp, h.2]
  rw [e]
  simp [State.runBundle, bundleFault, bundleStall, bundleWait, hi, hf, hst, hw]

section
variable {s : State} {o : Slot} {i : Instr} {q : VecOp} {vd va vb : BitVec 6} {mod : BitVec 4} (h : s.executes o)
  (hx : exec i s = .next (s.issueOp o 3 (vecOp q vd va vb mod)))
include h hx

/-- A legal vector operation that need not wait has its effects on the state after its draws. -/
theorem vecOp_gives (hi : q.illegal = false) (hw : q.draws = true → mod.getLsbD 3 = false → (s.core (coreNo o.core)).rngPosted = 0) :
    s.gives o i ((q.drawn s (coreNo o.core) mod).vecDone (coreNo o.core) (physV (s.core (coreNo o.core)).rotV vd)
      (q.run (s.vecIn (coreNo o.core) va vb vd mod (q.bitsOf s (coreNo o.core) mod)))) := by
  have hst : (vecOp q vd va vb mod s (coreNo o.core)).stall = .none := by
    refine if_neg fun hc => ?_
    simp only [Bool.and_eq_true, Bool.not_eq_true', decide_eq_true_eq] at hc
    obtain ⟨⟨hd, hg⟩, hp⟩ := hc
    exact hp (hw hd hg)
  rw [State.gives, hx, issueOp_plain h hi rfl hst rfl rfl (vecDone_same (q.drawn_same s _ mod) _ _)]
  rfl

/-- A keyed draw waits for the stores to the core's own generator page (05 R173). -/
theorem vecOp_waits (hi : q.illegal = false) (hd : q.draws = true) (hg : mod.getLsbD 3 = false) (hp : (s.core (coreNo o.core)).rngPosted ≠ 0) :
    exec i s = .next (s.modCore (coreNo o.core) (fun d => { d with stall := .other })) := by
  have hst : (vecOp q vd va vb mod s (coreNo o.core)).stall = .other := if_pos (by rw [hd, hg, decide_eq_true hp]; rfl)
  rw [hx, issue_stalled h hi rfl (by rw [hst]; decide) rfl, hst]

theorem vecOp_illegal (hi : q.illegal = true) : s.faults o i 3 q.op .illegal := by
  rw [State.faults, hx, issue_illegal h.1 hi (fun _ => rfl)]
  rfl

/-- A vector operation that works on the first e elements of w bits. -/
theorem vecOp_lanewise {w e : Nat} {base : State} {g : Nat → Nat × Flags} (hi : q.illegal = false)
    (hw : q.draws = true → mod.getLsbD 3 = false → (s.core (coreNo o.core)).rngPosted = 0) (hb : q.drawn s (coreNo o.core) mod = base)
    (hr : q.run (s.vecIn (coreNo o.core) va vb vd mod (q.bitsOf s (coreNo o.core) mod)) = mapElems w e ((s.core (coreNo o.core)).vr vd) g) :
    s.lanewise o i vd w e base g := by
  refine ⟨(mapElems w e ((s.core (coreNo o.core)).vr vd) g).1, fun j hj => elemOf_mapElems e _ g hj, ?_⟩
  have hg := vecOp_gives h hx hi hw
  rwa [hb, hr, ← Prod.mk.eta (p := mapElems w e ((s.core (coreNo o.core)).vr vd) g), mapElems_flags] at hg

end

end Sys2Proof.Machine
end

section
/-! PROOFS. The floating-point operations rounded once per element, and the rounding rule (03 R100; 04 R136, R137; 05 R159, R173, R179). -/
namespace Sys2Proof.Machine

/-! Commands that round once per element -/

/-- What a vector operation finds, with the rounding that its MOD field names for each of e elements. -/
def State.vecRounded (s : State) (n : Nat) (va vb vd : BitVec 6) (mod : BitVec 4) (e : Nat) : VecIn :=
  { s.vecIn n va vb vd mod (s.keyedDraw n) with rm := s.roundOf n mod e }

/-- Command p.1 is a floating operation of opcode p.2.1 and format p.2.2.1, whose result for each element is p.2.2.2. -/
def State.isFloatOp (s : State) (o : Slot) (vd va : BitVec 6) (mod : BitVec 4) (p : Instr × Nat × Fmt × (Fmt → Nat → Nat × Flags)) : Prop :=
  ∃ (vb : BitVec 6) (g : VecIn → Nat → Nat × Flags), exec p.1 s = .next (s.issueOp o 3 (vecOp (fpOp p.2.1 p.2.2.1 mod g) vd va vb mod)) ∧
    (∀ i rnd, g { i with rnd := rnd } = g i) ∧
    p.2.2.2 p.2.2.1 = g (s.vecRounded (coreNo o.core) va vb vd mod (activeElems (s.core (coreNo o.core)).vl p.2.2.1.width))

section
variable {s : State} {o : Slot} {vd va : BitVec 6} {mod : BitVec 4} {p : Instr × Nat × Fmt × (Fmt → Nat → Nat × Flags)}

theorem fpOp_legal (op : Nat) (f : Fmt) (g : VecIn → Nat → Nat × Flags) (hm : mod.toNat % 4 ≠ 3) (h2 : mod.getLsbD 2 = false) :
    (fpOp op f mod g).illegal = false := by
  have h : (fpOp op f mod g).illegal = (decide (mod.toNat % 4 = 3) || mod.getLsbD 2) := modBad_rm_gen mod
  rw [h, decide_eq_false hm, h2]; rfl

theorem fpOp_illegal (op : Nat) (f : Fmt) (g : VecIn → Nat → Nat × Flags) (h : mod.toNat % 4 = 3 ∨ mod.getLsbD 2 = true) :
    (fpOp op f mod g).illegal = true := by
  have hb : (fpOp op f mod g).illegal = (decide (mod.toNat % 4 = 3) || mod.getLsbD 2) := modBad_rm_gen mod
  rw [hb, Bool.or_eq_true, decide_eq_true_iff]; exact h

variable (h : s.executes o) (hp : s.isFloatOp o vd va mod p)
include h hp

theorem floatOp_lanewise (hm : mod.toNat % 4 ≠ 3) (h2 : mod.getLsbD 2 = false)
    (hw : mod.toNat % 4 = 2 → mod.getLsbD 3 = false → (s.core (coreNo o.core)).rngPosted = 0) :
    s.lanewise o p.1 vd p.2.2.1.width (activeElems (s.core (coreNo o.core)).vl p.2.2.1.width)
      (if mod.toNat % 4 = 2 then s.afterDraw (coreNo o.core) (mod.getLsbD 3) (activeElems (s.core (coreNo o.core)).vl p.2.2.1.width) else s)
      (p.2.2.2 p.2.2.1) := by
  obtain ⟨vb, g, hx, hrnd, hg⟩ := hp
  refine vecOp_lanewise h hx (fpOp_legal _ _ _ hm h2) (fun hd => hw ((modSr_iff mod).1 hd)) ?_ ?_
  · by_cases hd : mod.toNat % 4 = 2
    · rw [if_pos hd, VecOp.drawn_of_draws _ _ _ ((modSr_iff mod).2 hd)]; rfl
    · rw [if_neg hd, VecOp.drawn_of_not_draws _ _ _ (Bool.eq_false_iff.2 (mt (modSr_iff mod).1 hd))]
  · have hr := modRm_eq_roundOf s (coreNo o.core) mod (rnd := (fpOp p.2.1 p.2.2.1 mod g).bitsOf s (coreNo o.core) mod) hm
      (fun hd => VecOp.bitsOf_of_draws _ _ _ ((modSr_iff mod).2 hd))
    have hi : s.vecIn (coreNo o.core) va vb vd mod ((fpOp p.2.1 p.2.2.1 mod g).bitsOf s (coreNo o.core) mod) =
        { s.vecRounded (coreNo o.core) va vb vd mod (activeElems (s.core (coreNo o.core)).vl p.2.2.1.width) with
          rnd := (fpOp p.2.1 p.2.2.1 mod g).bitsOf s (coreNo o.core) mod } := by
      rw [State.vecIn, hr]; rfl
    have hgi : g (s.vecIn (coreNo o.core) va vb vd mod ((fpOp p.2.1 p.2.2.1 mod g).bitsOf s (coreNo o.core) mod)) = p.2.2.2 p.2.2.1 := by
      rw [hi, hrnd]; exact hg.symm
    exact congrArg (mapElems p.2.2.1.width (activeElems (s.core (coreNo o.core)).vl p.2.2.1.width) ((s.core (coreNo o.core)).vr vd)) hgi

theorem floatOp_waits (hd : mod.toNat % 4 = 2) (h2 : mod.getLsbD 2 = false) (hg : mod.getLsbD 3 = false)
    (hw : (s.core (coreNo o.core)).rngPosted ≠ 0) : exec p.1 s = .next (s.modCore (coreNo o.core) (fun d => { d with stall := .other })) := by
  obtain ⟨vb, g, hx, _⟩ := hp
  exact vecOp_waits h hx (fpOp_legal _ _ _ (by omega) h2) ((modSr_iff mod).2 hd) hg hw

theorem floatOp_faults (hm : mod.toNat % 4 = 3 ∨ mod.getLsbD 2 = true) : s.faults o p.1 3 p.2.1 .illegal := by
  obtain ⟨vb, g, hx, _⟩ := hp
  have hf := vecOp_illegal h hx (fpOp_illegal _ _ _ hm)
  exact hf

end

/-- The square roots name no second source. -/
theorem sqrt_faults {s : State} {o : Slot} (h : s.executes o) (vd va : BitVec 6) {vb : BitVec 6} (hb : vb ≠ 0) (mod : BitVec 4) :
    s.faults o (.fsqrtS o vd va vb mod) 3 0x08 .illegal ∧ s.faults o (.fsqrtD o vd va vb mod) 3 0x0E .illegal := by
  have bad : (decide (vb ≠ 0) || modBad mod true false true) = true := by rw [decide_eq_true hb, Bool.true_or]
  exact ⟨vecOp_illegal h (q := opFsqrtS va vb mod) rfl bad, vecOp_illegal h (q := opFsqrtD va vb mod) rfl bad⟩

theorem vectorFloats : Claims.VectorFloats := by
  intro s o vd va vb mod h n c A B D rm p hp
  have hf : s.isFloatOp o vd va mod p := by
    revert p hp
    simp only [List.forall_mem_cons]
    refine ⟨?_, ?_, ?_, ?_, ?_, ?_, ?_, ?_, ?_, ?_, ?_, ?_, ?_, ?_, ?_, ?_, ?_, ?_, fun _ hn => absurd hn List.not_mem_nil⟩
    all_goals exact ⟨_, _, rfl, fun _ _ => rfl, rfl⟩
  exact ⟨floatOp_lanewise h hf, floatOp_waits h hf, floatOp_faults h hf, fun hb => sqrt_faults h vd va hb mod⟩

/-! Rounding (03 R100) -/

/-- Whether a mode rounds m up when d bits that are not 0 are dropped. -/
def Rm.up (m d : Nat) : Rm → Bool
  | .rne => decide (2 ^ d < 2 * (m % 2 ^ d)) || (decide (2 * (m % 2 ^ d) = 2 ^ d) && decide (m / 2 ^ d % 2 = 1))
  | .rto => decide (m / 2 ^ d % 2 = 0)
  | .sr b u => decide (u < m % 2 ^ d * 2 ^ b / 2 ^ d)

section
variable (m d : Nat) (e : Int)

theorem roundAt_exact (h : m % 2 ^ d = 0) (rm : Rm) : roundAt rm m e (e + d) = (m / 2 ^ d, false) := by
  rw [roundAt]
  split
  · have hd : d = 0 := by omega
    subst hd
    simp
  · have hs : (e + (d : Int) - e).toNat = d := by omega
    rw [hs]
    exact if_pos h

theorem roundAt_inexact (h : m % 2 ^ d ≠ 0) (rm : Rm) : roundAt rm m e (e + d) = (if rm.up m d then m / 2 ^ d + 1 else m / 2 ^ d, true) := by
  have hd : d ≠ 0 := fun h0 => h (by rw [h0, Nat.pow_zero, Nat.mod_one])
  have hs : (e + (d : Int) - e).toNat = d := by omega
  rw [roundAt, if_neg (by omega), hs]
  cases rm <;> exact if_neg h

/-- The distances of a value from the two multiples around it. -/
theorem natAbs_below : ((m / 2 ^ d * 2 ^ d : Nat) - (m : Int)).natAbs = m % 2 ^ d := by
  have := Nat.div_add_mod' m (2 ^ d)
  omega

theorem natAbs_above : (((m / 2 ^ d + 1) * 2 ^ d : Nat) - (m : Int)).natAbs = 2 ^ d - m % 2 ^ d := by
  have := Nat.div_add_mod' m (2 ^ d)
  have := Nat.mod_lt m (Nat.two_pow_pos d)
  rw [Nat.add_one_mul]
  omega

end

theorem roundingRule : Claims.RoundingRule := by
  intro m d e b u q lo part
  have hlt : part < 2 ^ d := Nat.mod_lt m (Nat.two_pow_pos d)
  refine ⟨roundAt_exact m d e, fun h0 => ?_, fun h0 => ?_, fun h0 => ?_⟩
  · have hr := roundAt_inexact m d e h0 .rne
    by_cases hup : Rm.up m d .rne = true
    · rw [if_pos hup] at hr
      simp only [Rm.up, Bool.or_eq_true, Bool.and_eq_true, decide_eq_true_eq] at hup
      refine ⟨lo + 1, hr, .inr rfl, ?_⟩
      rw [natAbs_above]
      omega
    · rw [if_neg hup] at hr
      simp only [Rm.up, Bool.or_eq_true, Bool.and_eq_true, decide_eq_true_eq] at hup
      refine ⟨lo, hr, .inl rfl, ?_⟩
      rw [natAbs_below]
      omega
  · have hr := roundAt_inexact m d e h0 .rto
    have hup : Rm.up m d .rto = decide (lo % 2 = 0) := rfl
    by_cases he : lo % 2 = 0
    · exact ⟨lo + 1, hr.trans (by rw [hup, decide_eq_true he]; rfl), .inr rfl, by omega⟩
    · exact ⟨lo, hr.trans (by rw [hup, decide_eq_false he]; rfl), .inl rfl, by omega⟩
  · rw [roundAt_inexact m d e h0 (.sr b u), Rm.up]
    simp only [decide_eq_true_eq]
    rfl

end Sys2Proof.Machine
end

section
/-! PROOFS. CVT, NORM, APX, MXD, RAND, SAMPLE and DROP, element by element (04 R138; 05 R164, R168, R169, R174, R177, R178). -/
namespace Sys2Proof.Machine

section
variable {s : State} {o : Slot} (h : s.executes o) (vd va vb : BitVec 6) (mod : BitVec 4)

/-! CVT (04 R138; 03 R105) -/

/-- The pairs of formats that 03 R105 does not list. -/
theorem cvtIllegal_iff {a b : Nat} (hb : b < 8) :
    cvtIllegal a b = true ↔ (a = 6 ∧ (b = 4 ∨ b = 5 ∨ b = 6 ∨ b = 7)) ∨ (a = 7 ∧ (b = 4 ∨ b = 5 ∨ b = 7)) := by
  simp only [cvtIllegal, Bool.or_eq_true, Bool.and_eq_true, decide_eq_true_eq]
  omega

theorem cvtOp_illegal_iff : (cvtOp vb mod).illegal = true ↔ cvtIllegal (vb.toNat / 8) (vb.toNat % 8) = true ∨ mod.toNat % 4 = 3 := by
  have hi : (cvtOp vb mod).illegal = (cvtIllegal (vb.toNat / 8) (vb.toNat % 8) || modBad mod true true true) := rfl
  rw [hi, modBad_all, Bool.or_eq_true, decide_eq_true_iff]

theorem cvtOp_draws_iff : (cvtOp vb mod).draws = true ↔ mod.toNat % 4 = 2 ∧ cvtExact (vb.toNat / 8) (vb.toNat % 8) = false := by
  have hd : (cvtOp vb mod).draws = (modSr mod && !cvtExact (vb.toNat / 8) (vb.toNat % 8)) := rfl
  rw [hd, Bool.and_eq_true, modSr_iff, Bool.not_eq_true']

theorem and_seven_fields : ∀ mod : BitVec 4, (mod &&& 7).toNat % 4 = mod.toNat % 4 ∧ (mod &&& 7).getLsbD 3 = false := by decide

/-- The roundings of CVT: an exact pair draws nothing, whatever GEN. -/
theorem cvt_rounds (n e : Nat) (he : (cvtOp vb mod).count (s.core n).vl = e) (hm : mod.toNat % 4 ≠ 3) :
    modRm mod (if s.bit (rngPage n + 0x58) 1 then 3 else 4) ((cvtOp vb mod).bitsOf s n mod) =
      s.roundOf n (if cvtExact (vb.toNat / 8) (vb.toNat % 8) then mod &&& 7 else mod) e := by
  cases hx : cvtExact (vb.toNat / 8) (vb.toNat % 8) with
  | true =>
    obtain ⟨hlow, hgen⟩ := and_seven_fields mod
    have hd : (cvtOp vb mod).draws = false := Bool.eq_false_iff.2 fun hd => nomatch hx.symm.trans ((cvtOp_draws_iff vb mod).1 hd).2
    have hr : modRm mod = modRm (mod &&& 7) := by funext b rnd j; rw [modRm, modRm, hlow]
    rw [if_pos rfl, hr, VecOp.bitsOf_of_not_draws _ _ _ hd]
    exact modRm_eq_roundOf s n _ (by rwa [hlow]) (fun _ => by rw [hgen]; rfl)
  | false =>
    rw [if_neg Bool.false_ne_true]
    exact modRm_eq_roundOf s n mod hm fun h2 => by rw [VecOp.bitsOf_of_draws _ _ _ ((cvtOp_draws_iff vb mod).2 ⟨h2, hx⟩), he]

include h

theorem cvt_lanewise (hl : cvtIllegal (vb.toNat / 8) (vb.toNat % 8) ≠ true) (hm : mod.toNat % 4 ≠ 3)
    (hw : mod.toNat % 4 = 2 → cvtExact (vb.toNat / 8) (vb.toNat % 8) = false → mod.getLsbD 3 = false → (s.core (coreNo o.core)).rngPosted = 0)
    {e : Nat} (he : activeElems (s.core (coreNo o.core)).vl (max (cvtWidth (vb.toNat / 8)) (cvtWidth (vb.toNat % 8))) = e) :
    s.lanewise o (.cvt o vd va vb mod) vd (cvtWidth (vb.toNat % 8)) e
      (if mod.toNat % 4 = 2 ∧ cvtExact (vb.toNat / 8) (vb.toNat % 8) = false then s.afterDraw (coreNo o.core) (mod.getLsbD 3) e else s)
      (fun j => cvtElem (vb.toNat / 8) (vb.toNat % 8)
        (s.roundOf (coreNo o.core) (if cvtExact (vb.toNat / 8) (vb.toNat % 8) then mod &&& 7 else mod) e j) (mod.getLsbD 2)
        (elemOf (cvtWidth (vb.toNat / 8)) ((s.core (coreNo o.core)).vr va) j)) := by
  have hi : (cvtOp vb mod).illegal = false := Bool.eq_false_iff.2 (mt (cvtOp_illegal_iff vb mod).1 (not_or.2 ⟨hl, hm⟩))
  refine vecOp_lanewise (q := cvtOp vb mod) h rfl hi (fun hd => ?_) ?_ ?_
  · obtain ⟨h2, hx⟩ := (cvtOp_draws_iff vb mod).1 hd
    exact hw h2 hx
  · by_cases hd : mod.toNat % 4 = 2 ∧ cvtExact (vb.toNat / 8) (vb.toNat % 8) = false
    · rw [if_pos hd, VecOp.drawn_of_draws _ _ _ ((cvtOp_draws_iff vb mod).2 hd), ← he]; rfl
    · rw [if_neg hd, VecOp.drawn_of_not_draws _ _ _ (Bool.eq_false_iff.2 (mt (cvtOp_draws_iff vb mod).1 hd))]
  · rw [← cvt_rounds vb mod (coreNo o.core) e he hm, ← he]
    rfl

/-! NORM (05 R164) -/

omit h in
theorem normOp_legal (hm : mod.toNat < 2) (hb : vb.toNat < 2) : (normOp vb mod).illegal = false := by
  have hi : (normOp vb mod).illegal = (decide (1 < vb.toNat) || modSr mod || modBad mod true false false) := rfl
  rw [hi, Bool.or_assoc, modBad_rm, decide_eq_false (by omega), decide_eq_false (by omega)]; rfl

theorem norm_faults (hb : 2 ≤ mod.toNat ∨ 2 ≤ vb.toNat) : s.faults o (.norm o vd va vb mod) 3 0x23 .illegal := by
  refine vecOp_illegal h (q := normOp vb mod) rfl ?_
  have hi : (normOp vb mod).illegal = (decide (1 < vb.toNat) || modSr mod || modBad mod true false false) := rfl
  rw [hi, Bool.or_assoc, modBad_rm, Bool.or_eq_true, decide_eq_true_iff, decide_eq_true_iff]
  omega

theorem scaleb_lanewise (hm : mod.toNat < 2) :
    s.lanewise o (.norm o vd va 0 mod) vd 32 (s.core (coreNo o.core)).vl s (fun j =>
      scalebLane (s.roundOf (coreNo o.core) mod (s.core (coreNo o.core)).vl j) (Fmt.fp32.unpack (elemOf 32 ((s.core (coreNo o.core)).vr va) j))
        (sIntOf 32 (elemOf 32 ((s.core (coreNo o.core)).vr vd) j))) := by
  refine vecOp_lanewise (q := normOp 0 mod) h rfl (normOp_legal 0 mod hm (by decide)) (fun hd => nomatch hd) rfl ?_
  rw [← modRm_eq_roundOf s (coreNo o.core) mod (rnd := (normOp 0 mod).bitsOf s (coreNo o.core) mod) (by omega) (fun _ => by omega)]
  rfl

theorem mant_lanewise (hm : mod.toNat < 2) :
    s.lanewise o (.norm o vd va 1 mod) vd 32 (s.core (coreNo o.core)).vl s (fun j =>
      mantLane (Fmt.fp32.unpack (elemOf 32 ((s.core (coreNo o.core)).vr va) j))) :=
  vecOp_lanewise (q := normOp 1 mod) h rfl (normOp_legal 1 mod hm (by decide)) (fun hd => nomatch hd) rfl rfl

/-! APX and MXD (05 R168, R169) -/

theorem apx_lanewise (hb : vb.toNat ≤ 0x0C) :
    s.lanewise o (.apx o vd va vb 0) vd 32 (s.core (coreNo o.core)).vl s (fun j => apxLane vb.toNat (elemOf 32 ((s.core (coreNo o.core)).vr va) j)) := by
  have hi : (apxOp vb 0).illegal = (decide (0x0C < vb.toNat) || modBad 0 false false false) := rfl
  exact vecOp_lanewise (q := apxOp vb 0) h rfl (by rw [hi, decide_eq_false (by omega), modBad_none]; rfl) (fun hd => nomatch hd) rfl rfl

theorem apx_faults (hb : mod ≠ 0 ∨ 0x0C < vb.toNat) : s.faults o (.apx o vd va vb mod) 3 0x26 .illegal := by
  have hi : (apxOp vb mod).illegal = (decide (0x0C < vb.toNat) || modBad mod false false false) := rfl
  refine vecOp_illegal h (q := apxOp vb mod) rfl ?_
  rw [hi, modBad_none, Bool.or_eq_true, decide_eq_true_iff, decide_eq_true_iff]
  exact hb.symm

omit h in
/-- The fields that MXQ and MXD take: the element format in vb, and no MOD. -/
theorem mxBad_iff : (decide (vb.toNat % 4 ≠ 0) || decide (5 < vb.toNat / 4) || modBad mod false false false) = true ↔
    mod ≠ 0 ∨ vb.toNat % 4 ≠ 0 ∨ 5 < vb.toNat / 4 := by
  rw [modBad_none]
  simp only [Bool.or_eq_true, decide_eq_true_eq]
  tauto

omit h in
theorem mxBad_of_listed (h4 : vb.toNat % 4 = 0) (h5 : vb.toNat / 4 ≤ 5) :
    (decide (vb.toNat % 4 ≠ 0) || decide (5 < vb.toNat / 4) || modBad 0 false false false) = false := by
  refine Bool.eq_false_iff.2 fun hb => ?_
  obtain hb | hb | hb := (mxBad_iff vb 0).1 hb
  · exact hb rfl
  · exact hb h4
  · omega

theorem mxd_lanewise (h4 : vb.toNat % 4 = 0) (h5 : vb.toNat / 4 ≤ 5) :
    s.lanewise o (.mxd o vd va vb 0) vd 32 32 s (fun j => mxdElem (vb.toNat / 4) (elemOf 8 ((s.core (coreNo o.core)).vr va) 32)
      (elemOf (mxWidth (vb.toNat / 4)) ((s.core (coreNo o.core)).vr va) j)) :=
  vecOp_lanewise (q := mxdOp vb 0) h rfl (mxBad_of_listed vb h4 h5) (fun hd => nomatch hd) rfl rfl

theorem mx_faults (hb : mod ≠ 0 ∨ vb.toNat % 4 ≠ 0 ∨ 5 < vb.toNat / 4) :
    s.faults o (.mxd o vd va vb mod) 3 0x22 .illegal ∧ s.faults o (.mxq o vd va vb mod) 3 0x21 .illegal :=
  ⟨vecOp_illegal h (q := mxdOp vb mod) rfl ((mxBad_iff vb mod).2 hb), vecOp_illegal h (q := mxqOp vb mod) rfl ((mxBad_iff vb mod).2 hb)⟩

/-! RAND, SAMPLE and DROP (05 R174, R177, R178) -/

/-- An operation that draws for each lane. -/
theorem drawOp_lanewise {i : Instr} {op : Nat} {bad : Bool} {g : VecIn → Nat → Nat × Flags}
    (hx : exec i s = .next (s.issueOp o 3 (vecOp (drawOp op mod bad g) vd va vb mod))) (hb : bad = false) (hm : mod.toNat % 8 = 0)
    (hw : mod.getLsbD 3 = false → (s.core (coreNo o.core)).rngPosted = 0) :
    s.lanewise o i vd 32 (s.core (coreNo o.core)).vl (s.afterDraw (coreNo o.core) (mod.getLsbD 3) (s.core (coreNo o.core)).vl)
      (g (s.vecIn (coreNo o.core) va vb vd mod (s.drawOf (coreNo o.core) (mod.getLsbD 3) (s.core (coreNo o.core)).vl))) := by
  have hi : (drawOp op mod bad g).illegal = (bad || modBad mod false false true) := rfl
  refine vecOp_lanewise h hx (by rw [hi, hb, modBad_gen, decide_eq_false (not_not.2 hm)]; rfl) (fun _ => hw) rfl ?_
  rw [VecOp.bitsOf_of_draws _ _ _ rfl]
  rfl

theorem drawOp_faults {i : Instr} {op : Nat} {bad : Bool} {g : VecIn → Nat → Nat × Flags}
    (hx : exec i s = .next (s.issueOp o 3 (vecOp (drawOp op mod bad g) vd va vb mod))) (hb : mod.toNat % 8 ≠ 0 ∨ bad = true) :
    s.faults o i 3 op .illegal := by
  have hi : (drawOp op mod bad g).illegal = (bad || modBad mod false false true) := rfl
  have hf := vecOp_illegal h hx (by rw [hi, modBad_gen, Bool.or_eq_true, decide_eq_true_iff]; exact hb.symm)
  exact hf

end

theorem vectorConversions : Claims.VectorConversions := by
  intro s o vd va vb mod h n c vl A gen low word ready a b E unlisted
  have hu : cvtIllegal a b = true ↔ unlisted := cvtIllegal_iff (Nat.mod_lt _ (by decide))
  refine ⟨fun hl hm hw => cvt_lanewise h vd va vb mod (mt hu.1 hl) hm hw rfl, fun hf => ?_, scaleb_lanewise h vd va mod, mant_lanewise h vd va mod,
    norm_faults h vd va vb mod, apx_lanewise h vd va vb, apx_faults h vd va vb mod, mxd_lanewise h vd va vb, mx_faults h vd va vb mod,
    fun hm hb hw => ?_, fun hm hw => ?_, fun hm hw => ?_, fun hf => ?_, fun hf => ?_, fun hf => ?_⟩
  · exact vecOp_illegal h (q := cvtOp vb mod) rfl ((cvtOp_illegal_iff vb mod).2 (hf.imp_left hu.2))
  · have hg := drawOp_lanewise h vd 0 vb mod (i := .rand o vd 0 vb mod) rfl (by simp [show ¬ 3 < vb.toNat by omega]) hm hw
    rw [← show vb.toNat % 4 = vb.toNat from Nat.mod_eq_of_lt hb]
    exact hg
  · exact drawOp_lanewise h vd va 0 mod (i := .sample o vd va 0 mod) rfl rfl hm hw
  · exact drawOp_lanewise h vd 0 0 mod (i := .drop o vd 0 0 mod) rfl rfl hm hw
  · exact drawOp_faults h vd va vb mod rfl (hf.imp_right fun hf => by simpa using hf)
  · exact drawOp_faults h vd va vb mod rfl (hf.imp_right decide_eq_true)
  · exact drawOp_faults h vd va vb mod rfl (hf.imp_right fun hf => by simpa using hf)

/-- Settles O11: the operations that round once, from what any vector operation of slot 3 does; the rule of rounding; and the conversions and draws. -/
theorem vectorFloatResults : Obligations.VectorFloatResults := ⟨vectorFloats, roundingRule, vectorConversions⟩

end Sys2Proof.Machine
end

section
/-! PROOFS. RED and MXQ with their flags (05 R165, R167, R168). -/
namespace Sys2Proof.Machine

/-! The lowest element alone -/

/-- Element 0 of w bits of register r is x, and the bits above it are those of v. -/
def isFirst (w x : Nat) (v r : BitVec 1024) : Prop := elemOf w r 0 = x % 2 ^ w ∧ ∀ j, w ≤ j → r.getLsbD j = v.getLsbD j

theorem setElem_isFirst {w : Nat} (hw : w ≤ 1024) (v : BitVec 1024) (x : Nat) : isFirst w x v (setElem w v 0 x) := by
  refine ⟨(elemOf_setElem w v 0 x 0 (by omega)).trans (if_pos rfl), fun j hj => ?_⟩
  by_cases h : j < 1024
  · rw [getLsbD_setElem _ _ _ _ h, if_neg (by omega)]
  · rw [BitVec.getLsbD_of_ge _ _ (by omega), BitVec.getLsbD_of_ge _ _ (by omega)]

/-- Elements 0 and 1 written as one element of twice the width (ARGMAX.S). -/
theorem setElem_pair (w : Nat) (v : BitVec 1024) (x y : Nat) :
    setElem w (setElem w v 0 x) 1 y = setElem (2 * w) v 0 (x % 2 ^ w + 2 ^ w * y) := by
  refine BitVec.eq_of_getLsbD_eq fun i hi => ?_
  have hx : x % 2 ^ w + 2 ^ w * y = 2 ^ w * y + x % 2 ^ w := Nat.add_comm ..
  rw [getLsbD_setElem _ _ _ _ hi, getLsbD_setElem _ _ _ _ hi, getLsbD_setElem _ _ _ _ hi, hx,
    Nat.testBit_two_pow_mul_add _ (Nat.mod_lt _ (Nat.two_pow_pos w)), Nat.testBit_mod_two_pow]
  by_cases h1 : i < w
  · simp [h1, show ¬ w ≤ i by omega, show i < 2 * w by omega]
  · by_cases h2 : i < w + w
    · simp [h1, show w ≤ i by omega, h2, show i < 2 * w by omega]
    · simp [h1, h2, show ¬ i < 2 * w by omega]

/-! RED (05 R165) -/

section
variable {s : State} {o : Slot} (h : s.executes o) (vd va vb : BitVec 6) (mod : BitVec 4)

theorem redOp_illegal_iff : (redOp vb mod).illegal = true ↔ 2 ≤ mod.toNat ∨ 8 ≤ vb.toNat := by
  have hi : (redOp vb mod).illegal = (decide (7 < vb.toNat) || modSr mod || modBad mod true false false) := rfl
  rw [hi, Bool.or_assoc, modBad_rm, Bool.or_eq_true, decide_eq_true_iff, decide_eq_true_iff]
  omega

/-- The rounding of a reduction, for each of its additions. -/
def redRm : Rm := if mod = 0 then .rne else .rto

theorem modRm_of_red {mod : BitVec 4} (hm : mod.toNat < 2) (b : Nat) (rnd : Nat → BitVec 128) (j : Nat) : modRm mod b rnd j = redRm mod := by
  obtain h0 | h1 : mod = 0 ∨ mod = 1 := by revert mod; decide
  · subst h0; rfl
  · subst h1; rfl

include h

theorem red_faults (hb : 2 ≤ mod.toNat ∨ 8 ≤ vb.toNat) : s.faults o (.red o vd va vb mod) 3 0x25 .illegal :=
  vecOp_illegal h (q := redOp vb mod) rfl ((redOp_illegal_iff vb mod).2 hb)

/-- RED that writes one element of w bits. -/
theorem red_writes {w : Nat} {x : Nat × Flags} (hm : mod.toNat < 2) (hb : vb.toNat < 8) (hw : w ≤ 1024)
    (hr : redRun { s.vecIn (coreNo o.core) va vb vd mod (s.keyedDraw (coreNo o.core)) with rm := fun _ => redRm mod } =
      (setElem w ((s.core (coreNo o.core)).vr vd) 0 x.1, x.2, false)) :
    ∃ r, isFirst w x.1 ((s.core (coreNo o.core)).vr vd) r ∧
      s.gives o (.red o vd va vb mod) (s.vecDone (coreNo o.core) (physV (s.core (coreNo o.core)).rotV vd) (r, x.2, false)) := by
  have hi : (redOp vb mod).illegal = false := Bool.eq_false_iff.2 fun hi => by have := (redOp_illegal_iff vb mod).1 hi; omega
  have hg := vecOp_gives h (i := .red o vd va vb mod) (q := redOp vb mod) rfl hi (fun hd => nomatch hd)
  have hv : s.vecIn (coreNo o.core) va vb vd mod ((redOp vb mod).bitsOf s (coreNo o.core) mod) =
      { s.vecIn (coreNo o.core) va vb vd mod (s.keyedDraw (coreNo o.core)) with rm := fun _ => redRm mod } := by
    rw [VecOp.bitsOf_of_not_draws _ _ _ rfl, State.vecIn, funext (modRm_of_red hm _ _)]
  have hq : (redOp vb mod).run = redRun := rfl
  rw [VecOp.drawn_of_not_draws _ _ _ rfl, hv, hq, hr] at hg
  exact ⟨_, setElem_isFirst hw _ _, hg⟩

/-! MXQ (05 R168) -/

theorem mxq_writes (h4 : vb.toNat % 4 = 0) (h5 : vb.toNat / 4 ≤ 5) {q : List Nat × Nat × Flags × Bool}
    (hq : mxQuant (vb.toNat / 4) ((List.range 32).map (fun j => Fmt.fp32.unpack (elemOf 32 ((s.core (coreNo o.core)).vr va) j))) = q) :
    ∃ r, isFirst 264 (packElems (mxWidth (vb.toNat / 4)) q.1 + 2 ^ 256 * q.2.1) ((s.core (coreNo o.core)).vr vd) r ∧
      s.gives o (.mxq o vd va vb 0) (s.vecDone (coreNo o.core) (physV (s.core (coreNo o.core)).rotV vd) (r, q.2.2.1, q.2.2.2)) := by
  have hg := vecOp_gives h (i := .mxq o vd va vb 0) (q := mxqOp vb 0) rfl (mxBad_of_listed vb h4 h5) (fun hd => nomatch hd)
  rw [VecOp.drawn_of_not_draws _ _ _ rfl] at hg
  refine ⟨_, setElem_isFirst (by decide) _ _, ?_⟩
  subst hq
  exact hg

end

theorem reductionFlags : Claims.ReductionFlags := by
  intro s o vd va vb mod h n c rm elems lanes first red f
  refine ⟨fun hm => ⟨?_, ?_, ?_, ?_, ?_, ?_, ?_, ?_⟩, red_faults h vd va vb mod, fun h4 h5 => mxq_writes h vd va vb h4 h5 rfl⟩
  case refine_4 =>
    rintro rfl
    exact red_writes h vd va 3 mod hm (by decide) (w := 64) (by decide) (congrArg (·, 0, false) (setElem_pair 32 (c.vr vd) _ _))
  all_goals
    rintro rfl
    exact red_writes h vd va _ mod hm (by decide) (by decide) rfl

end Sys2Proof.Machine
end

section
/-! PROOFS. What the end of a vector operation leaves, and keyed draws (03 R118; 05 R172, R182). -/
namespace Sys2Proof.Machine

/-! Pairs of registers -/

section
variable (s : State) (k : Nat)

theorem Dword.halves (v : Dword) : (v >>> 32).setWidth 32 ++ (v.setWidth 32 : Word) = v := by
  refine BitVec.eq_of_getLsbD_eq fun i hi => ?_
  rw [BitVec.getLsbD_append, BitVec.getLsbD_setWidth, BitVec.getLsbD_setWidth, BitVec.getLsbD_ushiftRight]
  by_cases h : i < 32
  · simp [h]
  · simp [h, show i - 32 < 32 by omega, show 32 + (i - 32) = i by omega]

theorem State.setReg64_reg64_same (v : Dword) : (s.setReg64 k v).reg64 k = v := by
  rw [State.reg64, State.setReg64_reg, State.setReg64_reg, if_pos rfl, if_neg (by omega), if_pos rfl, Dword.halves]

/-- A pair keeps its value where neither of its registers is written. -/
theorem State.setReg64_reg64_other (v : Dword) {j : Nat} (h : j + 4 < k ∨ k + 4 < j) : (s.setReg64 k v).reg64 j = s.reg64 j := by
  rw [State.reg64, State.setReg64_reg, State.setReg64_reg, if_neg (by omega), if_neg (by omega), if_neg (by omega), if_neg (by omega), State.reg64]

theorem State.setReg64_reg_other (v : Dword) {j : Nat} (h : j ≠ k ∧ j ≠ k + 4) : (s.setReg64 k v).reg j = s.reg j := by
  rw [State.setReg64_reg, if_neg h.2, if_neg h.1]

end

/-! The end of a vector operation (05 R182; 03 R118) -/

/-- Of the first three flags, those rise that are new. -/
theorem flagRises_getLsbD (vf fl : Flags) (b : Fin 3) :
    (BitVec.ofNat 32 (flagRises vf (vf ||| fl))).getLsbD b.val = (fl.getLsbD b.val && !vf.getLsbD b.val) := by
  have hb : b.val < 32 ∧ b.val < 3 ∧ b.val < 5 := by omega
  rw [flagRises, BitVec.getLsbD_ofNat, show (8 : Nat) = 2 ^ 3 from rfl, Nat.testBit_mod_two_pow, BitVec.testBit_toNat, BitVec.getLsbD_and, BitVec.getLsbD_or,
    BitVec.getLsbD_not]
  simp only [hb, decide_true, Bool.true_and]
  cases fl.getLsbD b.val <;> cases vf.getLsbD b.val <;> rfl

/-- Flags or-ed into the vector flag register change BLK_IRQ_STAT alone among the registers. -/
theorem State.orVf_reg (s : State) (n : Nat) (fl : Flags) (j : Nat) : (s.orVf n fl).reg j =
    if j = corePage n 4 + 0x10 then s.reg j ||| BitVec.ofNat 32 (flagRises (s.core n).vf ((s.core n).vf ||| fl)) else s.reg j := by
  rw [State.orVf, State.setVf_eq]
  split
  case isTrue h => rw [h]; split <;> simp
  case isFalse h =>
    rw [State.raiseIrq_reg]
    split
    case isTrue hj => rw [hj]; rfl
    case isFalse => rfl

section
variable (s : State) (n i : Nat) (r : BitVec 1024) (fl : Flags) (van : Bool)

/-- The registers before VEC_INSTR counts: the interrupt bits of flags that rise, and the count of a vanish. -/
theorem State.vecMarked_reg (j : Nat) : (s.vecMarked n i r fl van).reg j =
    if van = true ∧ j = corePage n 4 + 0x44 then BitVec.ofNat 32 (min 0xFFFFFFFF ((s.reg j).toNat + 1))
    else if j = corePage n 4 + 0x10 then s.reg j ||| BitVec.ofNat 32 (flagRises (s.core n).vf ((s.core n).vf ||| fl))
    else s.reg j := by
  have hv (k : Nat) : ((s.modCore n (fun d => d.setV i r)).orVf n fl).reg k =
      if k = corePage n 4 + 0x10 then s.reg k ||| BitVec.ofNat 32 (flagRises (s.core n).vf ((s.core n).vf ||| fl)) else s.reg k := by
    rw [State.orVf_reg, State.modCore_core_same]; rfl
  rw [State.vecMarked]
  cases van with
  | false => rw [if_neg Bool.false_ne_true, if_neg (fun hc => nomatch hc.1), hv]
  | true =>
    rw [if_pos rfl, State.incSat_reg]
    by_cases hj : j = corePage n 4 + 0x44
    · rw [if_pos hj, if_pos ⟨rfl, hj⟩, hv, if_neg (by omega), hj]
    · rw [if_neg hj, if_neg (fun hc => hj hc.2), hv]

theorem State.vecDone_reg {j : Nat} (h : j ≠ corePage n 4 + 0x48 ∧ j ≠ corePage n 4 + 0x48 + 4) :
    (s.vecDone n i (r, fl, van)).reg j = (s.vecMarked n i r fl van).reg j := by
  rw [State.vecDone_eq, State.inc64, State.setReg64_reg_other _ _ _ h]

/-- VEC_INSTR counts every vector operation. -/
theorem State.vecDone_instr : (s.vecDone n i (r, fl, van)).reg64 (corePage n 4 + 0x48) = s.reg64 (corePage n 4 + 0x48) + 1 := by
  have hv {k : Nat} (hk : k ≠ corePage n 4 + 0x10 ∧ k ≠ corePage n 4 + 0x44) : (s.vecMarked n i r fl van).reg k = s.reg k := by
    rw [State.vecMarked_reg, if_neg (fun hc => hk.2 hc.2), if_neg hk.1]
  rw [State.vecDone_eq, State.inc64, State.setReg64_reg64_same, State.reg64, hv (by omega), hv (by omega)]
  rfl

end

theorem vectorEffects : Claims.VectorEffects := by
  intro s k i r fl van n c pg t
  refine ⟨?_, fun m hm => ?_, fun b => ?_, s.vecDone_instr n i r fl van, ?_⟩
  · exact (s.vecDone_core n i r fl van n).trans (if_pos rfl)
  · exact (s.vecDone_core n i r fl van m).trans (if_neg hm)
  · rw [State.bit, s.vecDone_reg n i r fl van (by omega), State.vecMarked_reg, if_neg (by omega), if_pos rfl, BitVec.getLsbD_or, flagRises_getLsbD]
    rfl
  · rw [s.vecDone_reg n i r fl van (by omega), State.vecMarked_reg]
    cases van with
    | false => rw [if_neg (fun hc => nomatch hc.1), if_neg (by omega), if_neg Bool.false_ne_true]
    | true => rw [if_pos ⟨rfl, rfl⟩, if_pos rfl, BitVec.toNat_ofNat, Nat.mod_eq_of_lt (by omega)]; rfl

/-! Keyed draws (05 R172) -/

section
variable (s : State) (n e : Nat)

/-- RNG_BASE after a draw of e elements. -/
def State.baseAfter : Dword :=
  if s.bit (rngPage n + 0x58) 0 then s.reg64 (rngPage n + 0x50) + BitVec.ofNat 64 e else s.reg64 (rngPage n + 0x50)

theorem State.drewKeyed_base : (s.drewKeyed n e).reg64 (rngPage n + 0x50) = s.baseAfter n e := by
  rw [State.drewKeyed, State.baseAfter]
  split
  · rw [State.setReg64_reg64_same]
  · rw [State.inc64, State.setReg64_reg64_other _ _ _ (by omega)]

theorem State.drewKeyed_draws : (s.drewKeyed n e).reg64 (rngPage n + 0x64) = s.reg64 (rngPage n + 0x64) + BitVec.ofNat 64 e := by
  rw [State.drewKeyed]
  split
  · rw [State.setReg64_reg64_other _ _ _ (by omega), State.inc64, State.setReg64_reg64_same]
  · rw [State.inc64, State.setReg64_reg64_same]

/-- A draw writes RNG_BASE and RNG_DRAWS alone. -/
theorem State.drewKeyed_reg {k : Nat} (hb : k ≠ rngPage n + 0x50 ∧ k ≠ rngPage n + 0x50 + 4) (hd : k ≠ rngPage n + 0x64 ∧ k ≠ rngPage n + 0x64 + 4) :
    (s.drewKeyed n e).reg k = s.reg k := by
  rw [State.drewKeyed]
  split
  · rw [State.setReg64_reg_other _ _ _ hb, State.inc64, State.setReg64_reg_other _ _ _ hd]
  · rw [State.inc64, State.setReg64_reg_other _ _ _ hd]

/-- With AUTO = 1 the draws go on where the last instruction ended. -/
theorem State.keyedDraw_drewKeyed (ha : s.bit (rngPage n + 0x58) 0 = true) (j : Nat) : (s.drewKeyed n e).keyedDraw n j = s.keyedDraw n (e + j) := by
  have hseed : (s.drewKeyed n e).reg64 (rngPage n + 0x40) = s.reg64 (rngPage n + 0x40) := by
    rw [State.reg64, State.drewKeyed_reg _ _ _ (by omega) (by omega), State.drewKeyed_reg _ _ _ (by omega) (by omega), State.reg64]
  rw [State.keyedDraw, State.keyedDraw, hseed, State.drewKeyed_base, State.baseAfter, if_pos ha, State.drewKeyed_reg _ _ _ (by omega) (by omega),
    State.drewKeyed_reg _ _ _ (by omega) (by omega), BitVec.ofNat_add, BitVec.add_assoc]

end

theorem rngPage_aligned (n : Nat) : rngPage n % 2 ^ 12 = 0 := by
  simp only [rngPage, corePage, pageAt]; omega

theorem keyedDraws : Claims.KeyedDraws := by
  intro s c e j n pg t
  have hp := rngPage_aligned n
  refine ⟨s.drewKeyed_base n e, s.drewKeyed_draws n e, fun ha => s.keyedDraw_drewKeyed n e ha j, fun k hk => ?_, s.drewKeyed_cores n e⟩
  exact s.drewKeyed_reg n e (by omega) (by omega)

/-- Settles O14: RED and MXQ from what any vector operation of slot 3 does; what its end leaves in the core and the registers; and the generator's advance. -/
theorem vectorEffectsAndDraws : Obligations.VectorEffectsAndDraws := ⟨reductionFlags, vectorEffects, keyedDraws⟩

end Sys2Proof.Machine
end

section
/-! PROOFS. Slot words and the decoder (04 R125, R126, R128 to R137). -/
namespace Sys2Proof.Machine

/-! Fields of a concatenation -/

section
variable {m n : Nat} (a : BitVec m) (b : BitVec n) {lo k : Nat}

theorem bits_append_low (h : lo + k ≤ n) : bits (a ++ b).toNat lo k = bits b.toNat lo k := by
  apply Nat.eq_of_testBit_eq
  intro i
  simp only [testBit_bits, BitVec.testBit_toNat, BitVec.getLsbD_append]
  by_cases hi : i < k
  · simp [show lo + i < n by omega]
  · simp [hi]

theorem bits_append_high (h : n ≤ lo) : bits (a ++ b).toNat lo k = bits a.toNat (lo - n) k := by
  apply Nat.eq_of_testBit_eq
  intro i
  simp only [testBit_bits, BitVec.testBit_toNat, BitVec.getLsbD_append]
  simp [show ¬ (lo + i < n) by omega, show lo + i - n = lo - n + i by omega]

theorem bits_whole : bits b.toNat 0 n = b.toNat := by
  simp [bits, Nat.mod_eq_of_lt b.isLt]
end

/-- Bits of a mask lie in both halves of a concatenation. -/
theorem and_append_eq_zero {m n : Nat} (a : BitVec m) (b : BitVec n) (k : Nat) :
    (a ++ b).toNat &&& k = 0 ↔ a.toNat &&& (k / 2 ^ n) = 0 ∧ b.toNat &&& (k % 2 ^ n) = 0 := by
  have low : ((a ++ b).toNat &&& k) % 2 ^ n = b.toNat &&& (k % 2 ^ n) := by
    have hb : (a ++ b).toNat % 2 ^ n = b.toNat := by
      rw [BitVec.toNat_append, ← Nat.shiftLeft_add_eq_or_of_lt b.isLt, Nat.shiftLeft_eq, Nat.add_comm, Nat.add_mul_mod_self_right, Nat.mod_eq_of_lt b.isLt]
    rw [Nat.and_mod_two_pow, hb]
  have high : ((a ++ b).toNat &&& k) / 2 ^ n = a.toNat &&& (k / 2 ^ n) := by
    have ha : (a ++ b).toNat / 2 ^ n = a.toNat := by
      rw [BitVec.toNat_append, ← Nat.shiftLeft_add_eq_or_of_lt b.isLt, Nat.shiftLeft_eq, Nat.add_comm, Nat.add_mul_div_right _ _ (Nat.two_pow_pos n),
        Nat.div_eq_of_lt b.isLt, Nat.zero_add]
    rw [Nat.and_div_two_pow, ha]
  rw [← low, ← high]
  have split := Nat.div_add_mod ((a ++ b).toNat &&& k) (2 ^ n)
  constructor
  · intro h; rw [h, Nat.zero_mod, Nat.zero_div]; exact ⟨rfl, rfl⟩
  · rintro ⟨h1, h2⟩; rw [← split, h1, h2, Nat.mul_zero]

/-! The fields of a slot word (04 R126) -/

section
variable (o : Slot) (op : BitVec 6) (arg : BitVec 22) {lo k : Nat}

theorem slotCode_op : bits (slotCode o op arg).toNat 22 6 = op.toNat := by
  rw [slotCode, bits_append_high _ _ (by omega), bits_append_low _ _ (by omega), bits_whole]

theorem slotCode_bits (h : lo + k ≤ 22) : bits (slotCode o op arg).toNat lo k = bits arg.toNat lo k := bits_append_low _ _ h

theorem slotCode_testBit {j : Nat} (h : j < 22) : (slotCode o op arg).toNat.testBit j = decide (bits arg.toNat j 1 = 1) := by
  rw [← slotCode_bits o op arg (k := 1) h, Nat.testBit_eq_decide_div_mod_eq, bits, pow_one]

theorem slotCode_low : (slotCode o op arg).toNat % 2 ^ 22 = arg.toNat := by
  have h := slotCode_bits o op arg (lo := 0) (k := 22) le_rfl
  rw [bits_whole] at h
  simpa [bits] using h

/-- Of an operation that does not use every operand bit the other bits must be 0 (04 R128). -/
theorem usedBits_slotCode (used : Nat) (f : State → Nat → SlotOp) :
    usedBits (slotCode o op arg).toNat used f = if arg.toNat &&& (2 ^ 22 - 1 - used) = 0 then f else badOp op.toNat := by
  rw [usedBits, slotCode_low, slotCode_op]

theorem slotCode_pred : (slotCode o op arg).toNat / 2 ^ 29 = o.pred.toNat := by
  have h : bits (slotCode o op arg).toNat 29 3 = o.pred.toNat := by
    rw [slotCode, bits_append_high _ _ (by omega), bits_append_high _ _ (by omega), bits_append_high _ _ (by omega)]
    exact bits_whole _
  have := (slotCode o op arg).isLt
  rw [← h, bits, Nat.mod_eq_of_lt (by omega)]

theorem slotCode_neg : (slotCode o op arg).toNat / 2 ^ 28 % 2 = b2n o.neg := by
  have h : bits (slotCode o op arg).toNat 28 1 = (BitVec.ofBool o.neg).toNat := by
    rw [slotCode, bits_append_high _ _ (by omega), bits_append_high _ _ (by omega), bits_append_low _ _ (by omega)]
    exact bits_whole _
  refine h.trans ?_
  cases o.neg <;> rfl
end

/-! The decoder by the class of the opcode (04 R129 to R131, R133, R137) -/

section
variable {o : Slot} {op : BitVec 6} {arg : BitVec 22} {slot : Nat} {e : Ecc}

theorem decodeSlot_nop : decodeSlot slot (slotCode o 0 arg).toNat e = usedBits (slotCode o 0 arg).toNat 0 nopOp := by
  simp only [decodeSlot, slotCode_op, BitVec.reduceToNat, if_true]

theorem decodeSlot_control (h1 : op.toNat ≠ 0) (h2 : op.toNat < 0x10) :
    decodeSlot 0 (slotCode o op arg).toNat e = decodeControl (slotCode o op arg).toNat e := by
  simp only [decodeSlot, slotCode_op, h1, h2, if_true, if_false]

theorem decodeSlot_scalar (hs : slot < 2) (h1 : 0x10 ≤ op.toNat) (h2 : op.toNat < 0x30) :
    decodeSlot slot (slotCode o op arg).toNat e = decodeScalar (slotCode o op arg).toNat := by
  have h0 : op.toNat ≠ 0 := by omega
  obtain rfl | rfl : slot = 0 ∨ slot = 1 := by omega
  · simp only [decodeSlot, slotCode_op, h0, Nat.not_lt.2 h1, if_false]
  · simp only [decodeSlot, slotCode_op, h0, h2, Nat.not_lt.2 h1, if_true, if_false]

theorem decodeSlot_gen (h1 : 0x30 ≤ op.toNat) : decodeSlot 1 (slotCode o op arg).toNat e = decodeGen (slotCode o op arg).toNat := by
  have h0 : op.toNat ≠ 0 := by omega
  have h2 : ¬ op.toNat < 0x10 := by omega
  simp only [decodeSlot, slotCode_op, h0, h2, Nat.not_lt.2 h1, if_false]

theorem decodeSlot_mem (h1 : op.toNat ≠ 0) : decodeSlot 2 (slotCode o op arg).toNat e = decodeMem (slotCode o op arg).toNat e := by
  simp only [decodeSlot, slotCode_op, h1, if_false]

theorem decodeSlot_vector (h1 : op.toNat ≠ 0) : decodeSlot 3 (slotCode o op arg).toNat e = decodeVector (slotCode o op arg).toNat := by
  simp only [decodeSlot, slotCode_op, h1, if_false]
end

/-! Every operation -/

theorem decide_ofBool (b : Bool) : decide ((BitVec.ofBool b).toNat = 1) = b := by cases b <;> rfl

/-- What the decoder reads in the slot word of an operation is that operation. -/
theorem exec_decoded {s : State} {i : Instr} {o : Slot} {slot : Nat} {e : Ecc} {op : BitVec 6} {arg : BitVec 22}
    (h : slotFields i = some (o, slot, e, op, arg)) :
    exec i s = .next (s.issueOp o slot (decodeSlot slot (slotCode o op arg).toNat e)) := by
  cases i <;> cases h <;> refine congrArg (fun f => done (s.issueOp _ _ f)) ?_
  case' nop.refl => rw [decodeSlot_nop]
  case' br.refl | brr.refl | call.refl | loop.refl | loopi.refl | issue.refl | wait.refl | fence.refl | mfs.refl | mts.refl | clr.refl | clw.refl |
    event.refl | halt.refl => rw [decodeSlot_control (by decide) (by decide), decodeControl, slotCode_op]
  case' add.refl | sub.refl | and.refl | or.refl | xor.refl | shl.refl | shr.refl | sha.refl | mul.refl | smin.refl | smax.refl | cmplt.refl | cmpltu.refl |
    cmpeq.refl | plog.refl | addi.refl | andi.refl | ori.refl | xori.refl | shli.refl | shri.refl | shai.refl | cmplti.refl | cmpeqi.refl | movi.refl |
    shlor.refl => rw [decodeSlot_scalar (Fin.isLt _) (by decide) (by decide), decodeScalar, slotCode_op]
  case' seta.refl | setm.refl | setb.refl | setl.refl | setmd.refl | geta.refl => rw [decodeSlot_gen (by decide), decodeGen, slotCode_op]
  case' ldb.refl | ldh.refl | ldw.refl | ldd.refl | ldv.refl | ldvb.refl | stb.refl | sth.refl | stw.refl | std.refl | stv.refl | vpush.refl |
    vpull.refl => rw [decodeSlot_mem (by decide), decodeMem, slotCode_op]
  case' faddS.refl | fsubS.refl | fmulS.refl | fmaS.refl | fminS.refl | fmaxS.refl | fdivS.refl | fsqrtS.refl | faddD.refl | fsubD.refl | fmulD.refl |
    fmaD.refl | fdivD.refl | fsqrtD.refl | haddB.refl | hmulB.refl | hfmaB.refl | haddH.refl | hmulH.refl | hfmaH.refl | fcmpltS.refl | fcmpeqS.refl |
    fcmpleS.refl | sel.refl | iadd.refl | isub.refl | vand.refl | vor.refl | vxor.refl | cvt.refl | mxq.refl | mxd.refl | norm.refl | getexp.refl |
    red.refl | apx.refl | rand.refl | sample.refl | drop.refl | bcast.refl | perm.refl => rw [decodeSlot_vector (by decide), decodeVector, slotCode_op]
  all_goals simp (disch := omega) only [sf, usedBits_slotCode, and_append_eq_zero, slotCode_bits, slotCode_testBit, bits_append_low, bits_append_high,
    bits_whole, decide_ofBool, BitVec.reduceToNat, Nat.reduceSub, Nat.reduceDiv, Nat.reduceMod, Nat.reducePow, Nat.and_zero, Nat.zero_and, and_self, if_true,
    BitVec.ofNat_toNat, BitVec.setWidth_eq]

/-- The encoding tables name slots 0 to 3. -/
theorem slotFields_slot_lt {i : Instr} {o : Slot} {slot : Nat} {e : Ecc} {op : BitVec 6} {arg : BitVec 22}
    (h : slotFields i = some (o, slot, e, op, arg)) : slot < 4 := by
  cases i <;> cases h <;> omega

/-- Settles O59: the decoder on the word of each operation, class by class; PRED and PNEG are the word's top bits. -/
theorem slotWordsDecode : Obligations.SlotWordsDecode := by
  intro s i o slot e op arg h w
  exact ⟨exec_decoded h, slotCode_pred o op arg, slotCode_neg o op arg, slotFields_slot_lt h⟩

end Sys2Proof.Machine
end

section
/-! PROOFS. The scalar and generator operations (04 R130, R131). -/
namespace Sys2Proof.Machine

section
variable {s : State} {o : Slot} {i : Instr} {slot op : Nat} (h : s.executes o)
include h

theorem gOp_gives {gd : BitVec 5} {f : Core → Dword} {v : Dword} (hx : exec i s = .next (s.issueOp o slot (gOp op gd false f)))
    (hv : f (s.core (coreNo o.core)) = v) : s.gives o i (s.setGr (coreNo o.core) gd v) := by
  rw [State.gives, hx, issue_gOp h, hv]

theorem gOp_faults {gd : BitVec 5} {bad : Bool} {f : Core → Dword} (hx : exec i s = .next (s.issueOp o slot (gOp op gd bad f))) (hb : bad = true) :
    s.faults o i slot op .illegal := by
  rw [State.faults, hx, issue_illegal h.1 hb (fun _ => rfl)]
  rfl

theorem pOp_gives {pd : BitVec 3} {f : Core → Bool} {b : Bool} (hx : exec i s = .next (s.issueOp o slot (pOp op pd f)))
    (hb : f (s.core (coreNo o.core)) = b) : s.gives o i (s.setPr (coreNo o.core) pd b) := by
  rw [State.gives, hx, issue_pOp h, hb]

/-- An operation whose one effect is a change of the core that the issue does not depend on. -/
theorem coreOp_gives {f : State → Nat → SlotOp} {g : Core → Core} (hx : exec i s = .next (s.issueOp o slot f))
    (hi : (f s (coreNo o.core)).illegal = false) (hf : (f s (coreNo o.core)).fault = none) (hst : (f s (coreNo o.core)).stall = .none)
    (hj : (f s (coreNo o.core)).jump = .none) (hh : (f s (coreNo o.core)).halt = false) (hp : (f s (coreNo o.core)).pre s = s)
    (ha : (f s (coreNo o.core)).act s = s.modCore (coreNo o.core) g) (hs : SameIssue (s.core (coreNo o.core)) (g (s.core (coreNo o.core)))) :
    s.gives o i (s.modCore (coreNo o.core) g) := by
  rw [State.gives, hx, issue_core h hi hf hst hj hh hp ha hs]

theorem op_illegal {f : State → Nat → SlotOp} (hx : exec i s = .next (s.issueOp o slot f)) (hi : (f s (coreNo o.core)).illegal = true)
    (hf : (f s (coreNo o.core)).fault = none) (hop : (f s (coreNo o.core)).op = op) : s.faults o i slot op .illegal := by
  rw [State.faults, hx, issue_illegal h.1 hi (by rw [hf]; exact nofun), hop]

end

/-! Shift immediates: bits [11:6] must be 0 (04 R128) -/

theorem shiftImm_of_lt {imm : BitVec 12} (h : imm.toNat < 64) : shiftImm imm = false := decide_eq_false (Nat.not_le.2 h)
theorem shiftImm_of_le {imm : BitVec 12} (h : 64 ≤ imm.toNat) : shiftImm imm = true := decide_eq_true h

theorem scalarOperations : Claims.ScalarResults := by
  intro s o k gd ga gb pd pa pb tt imm big h n c x y i sh
  refine ⟨gOp_gives h rfl rfl, gOp_gives h rfl rfl, gOp_gives h rfl rfl, gOp_gives h rfl rfl, gOp_gives h rfl rfl, gOp_gives h rfl rfl,
    gOp_gives h rfl rfl, gOp_gives h rfl rfl, gOp_gives h rfl ?mul, gOp_gives h rfl ?smin, gOp_gives h rfl ?smax, pOp_gives h rfl rfl,
    pOp_gives h rfl rfl, pOp_gives h rfl rfl, pOp_gives h rfl ?plog, gOp_gives h rfl rfl, gOp_gives h rfl rfl, gOp_gives h rfl rfl,
    gOp_gives h rfl rfl, fun hi => ?shifts, fun hi => ?badShifts, pOp_gives h rfl rfl, pOp_gives h rfl rfl, gOp_gives h rfl rfl,
    fun hb => ?shlor, fun hb => gOp_faults h rfl hb⟩
  case mul => exact BitVec.mul_def
  case smin => simp only [sLt, decide_eq_true_eq, ← not_le, ite_not]; rfl
  case smax => simp only [sLt, decide_eq_true_eq, ← not_le, ite_not]; rfl
  case plog => cases c.pr pa <;> cases c.pr pb <;> rfl
  case shifts =>
    have hs := shiftImm_of_lt hi
    exact ⟨gOp_gives h (by rw [← hs]; rfl) rfl, gOp_gives h (by rw [← hs]; rfl) rfl, gOp_gives h (by rw [← hs]; rfl) rfl⟩
  case badShifts =>
    have hs := shiftImm_of_le hi
    exact ⟨gOp_faults h rfl hs, gOp_faults h rfl hs, gOp_faults h rfl hs⟩
  case shlor => exact gOp_gives h (by rw [← hb]; rfl) rfl

/-! Generators -/

/-- The bits of a register with one bit replaced. -/
theorem getLsbD_setBit (m : BitVec 8) (n : BitVec 3) (v : Nat) (j : Fin 8) :
    (BitVec.ofNat 8 (setBits m.toNat n.toNat 1 v)).getLsbD j.val = if j.val = n.toNat then v.testBit 0 else m.getLsbD j.val := by
  rw [BitVec.getLsbD_ofNat, testBit_setBits, BitVec.testBit_toNat, decide_eq_true j.isLt, Bool.true_and]
  by_cases hj : j.val = n.toNat
  · rw [if_pos ⟨hj.ge, by omega⟩, if_pos hj, hj, Nat.sub_self]
  · rw [if_neg (by omega), if_neg hj]

theorem genLen_zero_or_above {v : Dword} : (v = 0 ∨ 2 ^ 20 < v.toNat) ↔ (v.toNat = 0 ∨ 2 ^ 20 < v.toNat) := by
  rw [BitVec.toNat_eq]
  rfl

theorem generatorResults : Claims.GeneratorResults := by
  intro s o n ga imm h k c v
  refine ⟨coreOp_gives h rfl rfl rfl rfl rfl rfl rfl rfl ⟨rfl, rfl, rfl, rfl⟩, coreOp_gives h rfl rfl rfl rfl rfl rfl rfl rfl ⟨rfl, rfl, rfl, rfl⟩,
    coreOp_gives h rfl rfl rfl rfl rfl rfl rfl rfl ⟨rfl, rfl, rfl, rfl⟩, fun h0 h1 => ?setl, fun hb => ?badLen, fun hg hi => ?setmd, fun hb => ?badMode,
    fun hi => ?geta, fun hi => gOp_faults h rfl (decide_eq_true hi)⟩
  case setl =>
    have hf : ¬ (v = 0 ∨ 2 ^ 20 < v.toNat) := by rw [genLen_zero_or_above]; omega
    exact coreOp_gives h rfl rfl (if_neg hf) rfl rfl rfl rfl rfl ⟨rfl, rfl, rfl, rfl⟩
  case badLen =>
    exact congrArg Host.Outcome.next (issue_fault (f := opSetl n ga imm) h rfl (if_pos (genLen_zero_or_above.2 hb)) rfl)
  case setmd =>
    have hl : (decide (ga ≠ 0) || decide (1 < imm.toNat)) = false := by simp [hg, hi]
    refine ⟨_, fun j => (getLsbD_setBit c.mode n (imm.toNat % 2) j).trans ?_, coreOp_gives h rfl hl rfl rfl rfl rfl rfl rfl ⟨rfl, rfl, rfl, rfl⟩⟩
    rw [Nat.testBit_zero, Nat.mod_mod, ← Nat.testBit_zero]
    rfl
  case badMode =>
    have hl : (decide (ga ≠ 0) || decide (1 < imm.toNat)) = true := by simpa using hb
    exact op_illegal h rfl hl rfl rfl
  case geta => exact gOp_gives h (by rw [hi]; rfl) rfl

/-- Settles O2: each operation from what an operation that writes one register does when it is issued. -/
theorem scalarResults : Obligations.ScalarResults := ⟨scalarOperations, generatorResults⟩

end Sys2Proof.Machine
end

section
/-! PROOFS. Registers: reads after writes, and the rotating names (04 R122, R140). -/
namespace Sys2Proof.Machine

/-! The physical register of a name -/

theorem physG_inj (r : BitVec 4) {i j : BitVec 5} : physG r i = physG r j ↔ i = j := by
  rw [BitVec.toNat_eq, physG, physG]
  have := r.isLt
  split <;> split <;> omega

theorem physG_eq_zero (r : BitVec 4) {i : BitVec 5} : physG r i = 0 ↔ i = 0 := by
  rw [BitVec.toNat_eq, physG, show (0 : BitVec 5).toNat = 0 from rfl]
  split <;> omega

theorem physG_fixed (r : BitVec 4) {i : Nat} (hi : i < 16) : physG r (BitVec.ofNat 5 i) = i := by
  have e : i % 2 ^ 5 = i := by omega
  rw [physG, BitVec.toNat_ofNat, e, if_pos hi]

theorem physG_rotating (r : BitVec 4) {i : Nat} (hi : i < 16) : physG r (BitVec.ofNat 5 (16 + i)) = 16 + (i + 16 - r.toNat) % 16 := by
  have e : (16 + i) % 2 ^ 5 = 16 + i := by omega
  rw [physG, BitVec.toNat_ofNat, e, if_neg (by omega), Nat.add_sub_cancel_left]

theorem physV_fixed (r : BitVec 5) {i : Nat} (hi : i < 32) : physV r (BitVec.ofNat 6 i) = i := by
  have e : i % 2 ^ 6 = i := by omega
  rw [physV, BitVec.toNat_ofNat, e, if_pos hi]

theorem physV_rotating (r : BitVec 5) {i : Nat} (hi : i < 32) : physV r (BitVec.ofNat 6 (32 + i)) = 32 + (i + 32 - r.toNat) % 32 := by
  have e : (32 + i) % 2 ^ 6 = 32 + i := by omega
  rw [physV, BitVec.toNat_ofNat, e, if_neg (by omega), Nat.add_sub_cancel_left]

/-- When a trip ends each rotating register is read under the next name. -/
theorem physG_next (r : BitVec 4) {i : Nat} (hi : i < 15) : physG (r + 1) (BitVec.ofNat 5 (17 + i)) = physG r (BitVec.ofNat 5 (16 + i)) := by
  have e : 17 + i = 16 + (i + 1) := by omega
  have := r.isLt
  rw [e, physG_rotating _ (by omega), physG_rotating _ (by omega), BitVec.toNat_add, show (1 : BitVec 4).toNat = 1 from rfl]
  omega

/-! Reads after writes -/

section
variable (c : Core)

theorem Core.setG_gPhys (i j : Nat) (v : Dword) : (c.setG i v).gPhys j = if j = 0 then 0 else if j = i then v else c.gPhys j := by
  by_cases hj : j = 0
  · rw [Core.gPhys, if_pos hj, if_pos hj]
  · rw [if_neg hj, Core.setG]
    by_cases hi : i = 0
    · rw [if_pos hi, if_neg (by omega)]
    · rw [if_neg hi, Core.gPhys, if_neg hj, Sparse.get_put, Core.gPhys, if_neg hj]

@[simp] theorem Core.setG_rotG (i : Nat) (v : Dword) : (c.setG i v).rotG = c.rotG := by
  rw [Core.setG]
  split <;> rfl

/-- What a logical g register reads after a write to a logical g register. -/
theorem Core.setG_gr (i j : BitVec 5) (v : Dword) :
    (c.setG (physG c.rotG i) v).gr j = if j = 0 then 0 else if j = i then v else c.gr j := by
  simp only [Core.gr, Core.setG_rotG, Core.setG_gPhys, physG_eq_zero, physG_inj]

theorem Core.setP_pr (p q : BitVec 3) (b : Bool) : (c.setP p b).pr q = if q = 0 then true else if q = p then b else c.pr q := by
  by_cases hq : q = 0
  · rw [Core.pr, decide_eq_true hq, Bool.true_or, if_pos hq]
  · rw [if_neg hq, Core.setP]
    by_cases hp : p = 0
    · rw [if_pos hp, if_neg (by rw [hp]; exact hq)]
    · have hlt : q.toNat < 8 := q.isLt
      rw [if_neg hp, Core.pr, Core.pr, decide_eq_false hq, Bool.false_or, Bool.false_or, BitVec.getLsbD_ofNat, testBit_setBits, BitVec.testBit_toNat,
        decide_eq_true hlt, Bool.true_and]
      by_cases e : q = p
      · subst e
        cases b <;> simp [b2n]
      · have ne : q.toNat ≠ p.toNat := fun h => e (BitVec.eq_of_toNat_eq h)
        rw [if_neg (by omega), if_neg e]

end

theorem State.setGr_gr (s : State) (n : Nat) (i j : BitVec 5) (v : Dword) :
    ((s.setGr n i v).core n).gr j = if j = 0 then 0 else if j = i then v else (s.core n).gr j := by
  rw [State.setGr, State.core_modCore_same, Core.setG_gr]

theorem registerWrites : Claims.RegisterWrites := by
  intro s n i j v p q b
  refine ⟨s.setGr_gr n i j v, ?_⟩
  rw [State.setPr, State.core_modCore_same, Core.setP_pr]

theorem rotatingNames : Claims.RotatingNames := by
  refine ⟨fun r i hi => ⟨physG_fixed r hi, ?_⟩, fun r i hi => ⟨physV_fixed r hi, ?_⟩, fun c i v hi => ?_⟩
  · have := r.isLt
    rw [physG_rotating r hi]
    omega
  · have := r.isLt
    rw [physV_rotating r hi]
    omega
  · intro d
    have reads : ({ d with rotG := d.rotG + 1 } : Core).gr (BitVec.ofNat 5 (17 + i)) = d.gPhys (physG (d.rotG + 1) (BitVec.ofNat 5 (17 + i))) := rfl
    rw [reads, Core.setG_rotG, physG_next _ hi, Core.setG_gPhys, physG_rotating _ (by omega), if_neg (by omega), if_pos rfl]

/-- Settles O3: the names of the registers are told apart by their physical registers. -/
theorem namesOfRegisters : Obligations.NamesOfRegisters := ⟨registerWrites, rotatingNames⟩

end Sys2Proof.Machine
end

section
/-! PROOFS. The issue of an operation that sends control elsewhere (04 R127, R139 to R143, R149). -/
namespace Sys2Proof.Machine

/-! The end of a trip of the innermost loop (04 R139 to R141) -/

/-- A rotating loop turns at the end of a trip: the rotation advances and the stage predicates are those of the next trip. -/
def LoopEntry.turn (l : LoopEntry) (c : Core) : Core :=
  if l.rot then stagePreds l (l.done + 1) { c with rotG := c.rotG + 1, rotV := c.rotV + 1 } else c

theorem tripEnds_nil (fuel : Nat) (b : BitVec 20) {c : Core} (h : c.loops.reverse = []) : tripEnds (fuel + 1) b c = (c, none) := by
  rw [tripEnds, h]

theorem tripEnds_cons (fuel : Nat) (b : BitVec 20) {c : Core} {l : LoopEntry} {below : List LoopEntry} (h : c.loops.reverse = l :: below) :
    tripEnds (fuel + 1) b c =
      if l.last = b then
        if l.done + 1 < l.trips then ({ l.turn c with loops := (({ l with done := l.done + 1 } : LoopEntry) :: below).reverse }, some l.first)
        else tripEnds fuel b { l.turn c with loops := below.reverse }
      else (c, none) := by
  obtain ⟨first, last, stages, rot, n, done⟩ := l
  rw [tripEnds, h]
  cases rot <;> rfl

/-! What the end of a bundle may change -/

/-- d is c but for what the control flow of a bundle changes: loops, predicates, rotation, pc. -/
def Core.Flows (c d : Core) : Prop :=
  ∃ loops p rotG rotV pc pcOut, d = { c with loops := loops, p := p, rotG := rotG, rotV := rotV, pc := pc, pcOut := pcOut }

namespace Core.Flows

theorem refl (c : Core) : c.Flows c := ⟨_, _, _, _, _, _, rfl⟩

theorem trans {c d e : Core} (h : c.Flows d) (g : d.Flows e) : c.Flows e := by
  obtain ⟨_, _, _, _, _, _, rfl⟩ := h
  obtain ⟨_, _, _, _, _, _, rfl⟩ := g
  exact ⟨_, _, _, _, _, _, rfl⟩

theorem setP (c : Core) (i : BitVec 3) (b : Bool) : c.Flows (c.setP i b) := by
  unfold Core.setP
  split
  · exact refl c
  · exact ⟨_, _, _, _, _, _, rfl⟩

theorem goto (c : Core) (a : Int) : c.Flows (c.goto a) := by
  unfold Core.goto
  split <;> exact ⟨_, _, _, _, _, _, rfl⟩

theorem stagePreds (l : LoopEntry) (t : Nat) (c : Core) : c.Flows (stagePreds l t c) := by
  unfold Machine.stagePreds
  induction List.range l.stages generalizing c with
  | nil => exact refl c
  | cons k r ih => exact (setP ..).trans (ih _)

theorem turn (l : LoopEntry) (c : Core) : c.Flows (l.turn c) := by
  unfold LoopEntry.turn
  split
  · exact trans ⟨_, _, _, _, _, _, rfl⟩ (stagePreds ..)
  · exact refl c

theorem tripEnds (fuel : Nat) (b : BitVec 20) (c : Core) : c.Flows (tripEnds fuel b c).1 := by
  induction fuel generalizing c with
  | zero => exact refl c
  | succ fuel ih =>
    cases hl : c.loops.reverse with
    | nil => rw [tripEnds_nil _ _ hl]; exact refl c
    | cons l below =>
      rw [tripEnds_cons _ _ hl]
      split
      · split
        · exact (turn l c).trans ⟨_, _, _, _, _, _, rfl⟩
        · exact ((turn l c).trans ⟨_, _, _, _, _, _, rfl⟩).trans (ih _)
      · exact refl c

theorem advance (c : Core) (j : Jump) : c.Flows (c.advance j) := by
  unfold Core.advance
  split
  · refine trans ?_ (goto _ _)
    split
    · exact ⟨_, _, _, _, _, _, rfl⟩
    · exact refl c
  · exact goto _ _
  · next l =>
    have pushed : c.Flows { c with loops := c.loops ++ [l] } := ⟨_, _, _, _, _, _, rfl⟩
    refine trans ?_ (goto _ _)
    split
    · exact pushed.trans (stagePreds ..)
    · exact pushed
  · have ended := tripEnds 4 c.pc c
    dsimp only
    split
    · next h => rw [h] at ended; exact ended.trans (goto _ _)
    · next h => rw [h] at ended; exact ended.trans (goto _ _)

end Core.Flows

/-! The issue -/

/-- The stall ends, and of the plane reads the given ones stay. -/
def Core.resumed (c : Core) (reads : List SeqRead) : Core := { c with stall := .none, seqReads := reads }

/-- A running core after a bundle with a jump: control, loops and loop buffer, with the stall ended and the plane reads given up. -/
def Core.went (c : Core) (j : Jump) : Core := (c.bufferKept (c.advance j)).resumed c.dropReads

theorem Core.goesOn_afterBundle {c : Core} (hr : c.st = .running) (hs : c.stepping = false) (j : Jump) :
    (Core.readsUsed (c.afterBundle j)).goesOn = c.went j := by
  have hi : c.st.issuing = true := by rw [hr]; rfl
  obtain ⟨loops, p, rotG, rotV, pc, pcOut, e⟩ := Core.Flows.advance c j
  rw [Core.afterBundle, if_pos hi, Core.went, Core.bufferKept, e]
  split <;> simp [Core.readsUsed, Core.goesOn, Core.dropReads, Core.resumed, hr, hs]

section
variable {s : State} {o : Slot} {slot : Nat} {f : State → Nat → SlotOp} (h : s.atBundle (coreNo o.core))
include h

theorem issueOp_bundle : s.issueOp o slot f =
    s.runBundle (coreNo o.core) [⟨slot, (s.core (coreNo o.core)).pred o, f s (coreNo o.core)⟩] := by
  obtain ⟨_, _, _, _, _, hp⟩ := id h
  simp [State.issueOp, canIssue_of_atBundle h, hp]

/-- The fault of an operation that its predicate lets execute. -/
theorem issueOp_faulted {x : Flt} (hp : (s.core (coreNo o.core)).pred o = true) (hi : (f s (coreNo o.core)).illegal = false)
    (hf : (f s (coreNo o.core)).fault = some x) (ho : (f s (coreNo o.core)).onFault s = s) :
    s.issueOp o slot f = s.seqFault (coreNo o.core) slot (f s (coreNo o.core)).op x := by
  rw [issueOp_bundle h, hp]
  simp [State.runBundle, bundleFault, hi, hf, ho]

/-- What an operation that neither faults nor stalls nor halts leaves: its effects, and control where its jump sends it. -/
theorem issueOp_went {g : Core → Core} (hp : (s.core (coreNo o.core)).pred o = true) (hi : (f s (coreNo o.core)).illegal = false)
    (hf : (f s (coreNo o.core)).fault = none) (hst : (f s (coreNo o.core)).stall = .none) (hh : (f s (coreNo o.core)).halt = false)
    (ha : ∀ k, ((f s (coreNo o.core)).act ((f s (coreNo o.core)).pre s)).modCore (coreNo o.core) k = s.modCore (coreNo o.core) (fun d => k (g d)))
    (hr : (g (s.core (coreNo o.core))).st = (s.core (coreNo o.core)).st) (hs : (g (s.core (coreNo o.core))).stepping = (s.core (coreNo o.core)).stepping) :
    s.issueOp o slot f = (s.modCore (coreNo o.core) (fun d => (g d).went (f s (coreNo o.core)).jump)).inc64 (corePage (coreNo o.core) 0 + 0x68) := by
  obtain ⟨_, _, hrun, hstep, _, _⟩ := id h
  have hj : bundleJump [⟨slot, true, f s (coreNo o.core)⟩] = (f s (coreNo o.core)).jump := by
    cases hjj : (f s (coreNo o.core)).jump <;> simp [bundleJump, hjj]
  have e := Core.goesOn_afterBundle (hr.trans hrun) (hs.trans hstep) (f s (coreNo o.core)).jump
  rw [issueOp_bundle h, hp]
  simp [State.runBundle, bundleFault, bundleStall, hj, bundleActs, hi, hf, hst, hh, State.settle, -State.modCore_modCore]
  rw [State.inc64_modCore, ha, State.modCore_modCore, State.modCore_modCore, State.modCore, e, State.modCore]

/-- A NOP changes nothing of its own, whatever its predicate. -/
theorem issueOp_nop : s.issueOp o slot nopOp = (s.modCore (coreNo o.core) (fun d => d.went .none)).inc64 (corePage (coreNo o.core) 0 + 0x68) := by
  obtain ⟨_, _, hrun, hstep, _, _⟩ := id h
  have e := Core.goesOn_afterBundle hrun hstep .none
  rw [issueOp_bundle h]
  simp [State.runBundle, bundleFault, bundleStall, bundleJump, bundleActs, nopOp, State.settle, -State.modCore_modCore]
  rw [State.inc64_modCore, State.modCore_modCore, State.modCore_modCore, State.modCore, e, State.modCore]

end

end Sys2Proof.Machine
end

section
/-! PROOFS. Branches (04 R129, R142). -/
namespace Sys2Proof.Machine

/-! Where control goes -/

/-- pc at an address of the scratchpad. -/
def Core.atPc (c : Core) (a : BitVec 20) : Core := { c with pc := a, pcOut := none }

theorem State.issuedTo_eq (s : State) (n : Nat) (a : BitVec 20) :
    s.issuedTo n a = (s.modCore n (fun d => (d.atPc a).resumed d.dropReads)).inc64 (corePage n 0 + 0x68) := rfl

section
variable (c d : Core) {a : Int}

theorem Core.goto_inside (h0 : 0 ≤ a) (h1 : a < 2 ^ 20) : c.goto a = c.atPc (BitVec.ofInt 20 a) := if_pos ⟨h0, h1⟩

theorem Core.goto_outside (h : a < 0 ∨ 2 ^ 20 ≤ a) : c.goto a = { c with pc := BitVec.ofInt 20 a, pcOut := some (BitVec.ofInt 64 a) } :=
  if_neg (by omega)

@[simp] theorem Core.bufferKept_dropReads : (c.bufferKept d).dropReads = d.dropReads := by
  rw [Core.bufferKept]
  split <;> rfl

@[simp] theorem Core.bufferKept_gr (i : BitVec 5) : (c.bufferKept d).gr i = d.gr i := by
  rw [Core.bufferKept]
  split <;> rfl

@[simp] theorem Core.resumed_gr (reads : List SeqRead) (i : BitVec 5) : (c.resumed reads).gr i = c.gr i := rfl

@[simp] theorem Core.goto_gr (a : Int) (i : BitVec 5) : (c.goto a).gr i = c.gr i := by
  rw [Core.goto]
  split <;> rfl

theorem Core.goto_loops (a : Int) : (c.goto a).loops = c.loops := by
  rw [Core.goto]
  split <;> rfl

theorem Core.bufferKept_goto (a : Int) : c.bufferKept (d.goto a) = (c.bufferKept d).goto a := by
  rw [Core.bufferKept, Core.goto_loops, Core.bufferKept]
  split
  · rfl
  · rw [Core.goto, Core.goto]
    split <;> rfl

theorem Core.bufferKept_self : c.bufferKept c = c := c.bufferKept_same c rfl

/-- A jump that leaves the loop stack as it is. -/
theorem Core.went_goto {j : Jump} (h : c.advance j = c.goto a) : c.went j = (c.goto a).resumed c.dropReads := by
  rw [Core.went, h, Core.bufferKept_goto, Core.bufferKept_self]

/-- A taken branch that can pop loops. -/
theorem Core.went_pops : c.went (.branch a true) = ((c.bufferKept { c with loops := popLoops a c.loops }).goto a).resumed c.dropReads := by
  rw [Core.went, Core.advance, if_pos rfl, Core.bufferKept_goto]

end

/-! The loops that a branch pops -/

/-- The loops that stay when control goes to x: of those above the topmost that holds x none stays. -/
def KeptLoops (ls : List LoopEntry) (x : Int) (kept : List LoopEntry) : Prop :=
  ∃ gone, ls = kept ++ gone ∧ (∀ l ∈ gone, l.holds x = false) ∧ ∀ l, kept.getLast? = some l → l.holds x = true

theorem popLoops_kept (x : Int) (ls : List LoopEntry) : KeptLoops ls x (popLoops x ls) := by
  refine ⟨(ls.reverse.takeWhile (fun l => !l.holds x)).reverse, ?_, fun l hl => ?_, fun l hl => ?_⟩
  · rw [popLoops, ← List.reverse_append, List.takeWhile_append_dropWhile, List.reverse_reverse]
  · have holds := List.mem_takeWhile_imp (List.mem_reverse.1 hl)
    simpa using holds
  · rw [popLoops, List.getLast?_reverse] at hl
    have holds := List.head?_dropWhile_not (fun l => !LoopEntry.holds l x) ls.reverse
    rw [hl] at holds
    simpa using holds

/-! Branches, issued -/

section
variable {s : State} {o : Slot} {i : Instr} {op : Nat} {a : Int} {f : State → Nat → SlotOp}
  (h : s.atBundle (coreNo o.core)) (hp : (s.core (coreNo o.core)).pred o = true) (hx : exec i s = .next (s.issueOp o 0 f))
include h hp hx

/-- An operation of slot 0 with no effect but its jump. -/
theorem exec_jump {j : Jump} (hf : f s (coreNo o.core) = { op := op, jump := j }) :
    exec i s = .next ((s.modCore (coreNo o.core) (fun d => d.went j)).inc64 (corePage (coreNo o.core) 0 + 0x68)) := by
  rw [hx, issueOp_went (g := id) h hp (by rw [hf]) (by rw [hf]) (by rw [hf]) (by rw [hf]) (by rw [hf]; exact fun _ => rfl) rfl rfl, hf]
  rfl

theorem exec_pops (hf : f s (coreNo o.core) = { op := op, jump := .branch a true }) (h0 : 0 ≤ a) (h1 : a < 2 ^ 20) :
    ∃ kept, KeptLoops (s.core (coreNo o.core)).loops a kept ∧
      exec i s = .next ((s.modCore (coreNo o.core) (fun d => d.bufferKept { d with loops := kept })).issuedTo (coreNo o.core) (BitVec.ofInt 20 a)) := by
  refine ⟨_, popLoops_kept a _, ?_⟩
  rw [exec_jump h hp hx hf, State.issuedTo_eq, State.modCore_modCore, State.modCore, Core.went_pops, Core.goto_inside _ h0 h1, State.modCore]
  simp only [Core.bufferKept_dropReads]
  rfl

end

/-- CALL writes the return address to g15 and pops no loop. -/
theorem exec_call {s : State} {o : Slot} (imm : BitVec 22) (h : s.atBundle (coreNo o.core)) (hp : (s.core (coreNo o.core)).pred o = true) :
    exec (.call o imm) s = .next (((s.setGr (coreNo o.core) 15 ((s.core (coreNo o.core)).pc.setWidth 64 + 16)).modCore (coreNo o.core)
      (fun d => (d.goto (brTarget (s.core (coreNo o.core)) imm)).resumed d.dropReads)).inc64 (corePage (coreNo o.core) 0 + 0x68)) := by
  have same := Core.setG_same (s.core (coreNo o.core)) 15 ((s.core (coreNo o.core)).pc.setWidth 64 + 16)
  have e := issueOp_went (slot := 0) (f := opCall imm) h hp rfl rfl rfl rfl (fun _ => State.modCore_modCore ..) same.st same.stepping
  simp only [opCall, Core.went_goto _ (j := .branch _ false) rfl] at e
  rw [State.setGr, State.modCore_modCore]
  exact congrArg Host.Outcome.next e

theorem brr_faults {s : State} {o : Slot} {ga : BitVec 5} {x : Flt} (h : s.atBundle (coreNo o.core)) (hp : (s.core (coreNo o.core)).pred o = true)
    (hf : (opBrr ga s (coreNo o.core)).fault = some x) : s.faults o (.brr o ga) 0 0x02 x :=
  congrArg Host.Outcome.next (issueOp_faulted (f := opBrr ga) h hp rfl hf rfl)

theorem branchResults : Claims.BranchResults := by
  intro s o imm ga n c t v popped h hp
  refine ⟨fun h0 h1 => ⟨exec_pops h hp rfl rfl h0 h1, ?_⟩, fun ho => ⟨⟨_, exec_jump h hp rfl rfl, ?_⟩, ⟨_, exec_call imm h hp, ?_, ?_⟩⟩,
    fun h0 h1 => ?_, fun h0 h1 => ?_, fun h0 h1 => ?_, fun h0 h1 => .inl ?_⟩
  · rw [exec_call imm h hp, State.issuedTo_eq]
    simp only [Core.goto_inside _ (a := t) h0 h1, t, n, c, brTarget]
  · rw [State.core_inc64, State.core_modCore_same, Core.went_pops, Core.goto_outside _ (a := brTarget (s.core (coreNo o.core)) imm) ho]
    rfl
  · rw [State.core_inc64, State.core_modCore_same, Core.goto_outside _ (a := brTarget (s.core (coreNo o.core)) imm) ho]
    rfl
  · rw [State.core_inc64, State.core_modCore_same, Core.resumed_gr, Core.goto_gr, State.setGr_gr, if_neg (by decide), if_pos rfl]
  · have e := exec_pops (i := .brr o ga) (a := (v.toNat : Int)) (f := opBrr ga) h hp rfl (by rw [opBrr, if_neg (not_not.2 h0), if_neg (Nat.not_le.2 h1)]) (by omega) (by omega)
    rwa [BitVec.ofInt_natCast, BitVec.ofNat_toNat] at e
  · exact brr_faults h hp (if_pos h0)
  · exact brr_faults h hp ((if_neg (not_not.2 h0)).trans (if_pos h1))
  · exact brr_faults h hp (if_pos h0)

end Sys2Proof.Machine
end

section
/-! PROOFS. Hardware loops (04 R139 to R143). -/
namespace Sys2Proof.Machine

/-! Stage predicates (04 R141) -/

theorem b2n_testBit (b : Bool) : (b2n b).testBit 0 = b := by cases b <;> rfl

/-- Setting p4 on, one predicate after the other. -/
theorem stages_spec (k : Nat) (hk : k ≤ 4) (f : Nat → Bool) (c : Core) : ∃ p : BitVec 8,
    (∀ q : Fin 8, p.getLsbD q.val = if 4 ≤ q.val ∧ q.val < 4 + k then f (q.val - 4) else c.p.getLsbD q.val) ∧
    (List.range k).foldl (fun c st => c.setP (BitVec.ofNat 3 (4 + st)) (f st)) c = { c with p := p } := by
  induction k with
  | zero => exact ⟨c.p, fun q => (if_neg (by omega)).symm, rfl⟩
  | succ k ih =>
    obtain ⟨p, hp, e⟩ := ih (by omega)
    have hn : (BitVec.ofNat 3 (4 + k)).toNat = 4 + k := by rw [BitVec.toNat_ofNat]; omega
    have h0 : BitVec.ofNat 3 (4 + k) ≠ 0 := fun h => by
      rw [h, show (0 : BitVec 3).toNat = 0 from rfl] at hn
      omega
    refine ⟨BitVec.ofNat 8 (setBits p.toNat (BitVec.ofNat 3 (4 + k)).toNat 1 (b2n (f k))), fun q => ?_, ?_⟩
    · rw [getLsbD_setBit, hn, b2n_testBit, hp]
      by_cases hq : q.val = 4 + k
      · rw [if_pos hq, if_pos (by omega), hq, Nat.add_sub_cancel_left]
      · rw [if_neg hq]
        exact if_congr (by omega) rfl rfl
    · rw [List.range_succ, List.foldl_append, e, List.foldl_cons, List.foldl_nil, Core.setP, if_neg h0]

/-- The stage predicates of a loop at trip index t: those of its stages alone change. -/
theorem stagePreds_spec {l : LoopEntry} (hl : l.stages ≤ 4) (t : Nat) (c : Core) : ∃ p : BitVec 8,
    (∀ q : Fin 8, p.getLsbD q.val = if 4 ≤ q.val ∧ q.val < 4 + l.stages then decide (q.val - 4 ≤ t ∧ t - (q.val - 4) < l.n) else c.p.getLsbD q.val) ∧
    stagePreds l t c = { c with p := p } := by
  obtain ⟨p, hp, e⟩ := stages_spec l.stages hl (fun st => decide (st ≤ t) && decide (t - st < l.n)) c
  exact ⟨p, fun q => by rw [hp q, Bool.decide_and], e⟩

/-! LOOP and LOOPI -/

/-- Why a loop of bl bundles cannot start: a full stack, a second rotating loop, a body outside the enclosing one (04 R139, R143). -/
def Core.LoopBlocked (c : Core) (bl : Nat) (rot : Bool) : Prop :=
  4 ≤ c.loops.length ∨ (rot = true ∧ ∃ l ∈ c.loops, l.rot = true) ∨
    ∃ l, c.loops.getLast? = some l ∧ ¬ (l.first.toNat ≤ c.pc.toNat + 16 ∧ c.pc.toNat + 16 * bl ≤ l.last.toNat)

section
variable {op N bl st : Nat} {rot : Bool} {s : State} {n : Nat}

theorem loopOp_fault : (loopOp op N bl st rot s n).fault = some .loop ∧ (s.core n).LoopBlocked bl rot ∨
    (loopOp op N bl st rot s n).fault = none ∧ ¬ (s.core n).LoopBlocked bl rot := by
  have key : ∀ b : Bool, (b = true ↔ (s.core n).LoopBlocked bl rot) → (if b = true then some Flt.loop else none) = some .loop ∧ (s.core n).LoopBlocked bl rot ∨
      (if b = true then some Flt.loop else none) = none ∧ ¬ (s.core n).LoopBlocked bl rot := by
    intro b hb
    cases b
    · exact .inr ⟨rfl, fun h => absurd (hb.2 h) (by decide)⟩
    · exact .inl ⟨rfl, hb.1 rfl⟩
  refine key _ ?_
  rw [Core.LoopBlocked, List.getLast?_eq_head?_reverse]
  cases (s.core n).loops.reverse <;> simp [or_assoc, imp_iff_not_or]

theorem loopOp_illegal : (loopOp op N bl st rot s n).illegal = (decide (1 < st) && !rot) := rfl

theorem loopOp_jump_skip (h : N = 0) : (loopOp op N bl st rot s n).jump = .skip (((s.core n).pc.toNat + 16 * (bl + 1) : Nat) : Int) := if_pos h

theorem loopOp_jump_push (h : N ≠ 0) : (loopOp op N bl st rot s n).jump =
    .push ⟨BitVec.ofNat 20 ((s.core n).pc.toNat + 16), BitVec.ofNat 20 ((s.core n).pc.toNat + 16 * bl), st, rot, N, 0⟩ := if_neg h

end

/-- The core after a loop has been pushed: its first trip's stage predicates, an empty loop buffer. -/
theorem Core.went_push {c : Core} {l : LoopEntry} (hl : l.stages ≤ 4) (h0 : l.n ≠ 0) (hpc : c.pc.toNat + 16 < 2 ^ 20) : ∃ p : BitVec 8,
    (∀ q : Fin 8, p.getLsbD q.val = if l.rot = true ∧ 4 ≤ q.val ∧ q.val < 4 + l.stages then decide (q.val = 4) else c.p.getLsbD q.val) ∧
    c.went (.push l) = ({ c with p := p, loopBuf := [], loops := c.loops ++ [l] } : Core).next := by
  have hne : ¬ (c.loops ++ [l]).length = c.loops.length := by simp
  have hpc' : BitVec.ofInt 20 ((c.pc.toNat : Int) + 16) = c.pc + 16 := by
    apply BitVec.eq_of_toNat_eq
    rw [BitVec.toNat_add, BitVec.toNat_ofInt, show (16 : BitVec 20).toNat = 16 from rfl]
    omega
  obtain ⟨p, hp, e⟩ := stagePreds_spec hl 0 { c with loops := c.loops ++ [l] }
  cases hr : l.rot
  · refine ⟨c.p, fun q => (if_neg (by simp)).symm, ?_⟩
    rw [Core.went, Core.advance, if_neg (by rw [hr]; decide), Core.goto_inside _ (by omega) (by omega), hpc', Core.bufferKept]
    exact congrArg (Core.resumed · _) (if_neg hne)
  · refine ⟨p, fun q => ?_, ?_⟩
    · rw [hp q]
      by_cases hq : 4 ≤ q.val ∧ q.val < 4 + l.stages
      · rw [if_pos hq, if_pos ⟨rfl, hq⟩]
        exact decide_eq_decide.2 (by omega)
      · rw [if_neg hq, if_neg (fun x => hq x.2)]
    · rw [Core.went, Core.advance, if_pos hr, e, Core.goto_inside _ (by omega) (by omega), hpc', Core.bufferKept]
      exact congrArg (Core.resumed · _) (if_neg hne)

section
variable {s : State} {o : Slot} {i : Instr} {op N bl st : Nat} {rot : Bool} {f : State → Nat → SlotOp}
  (h : s.executes o) (hx : exec i s = .next (s.issueOp o 0 f)) (hf : f s (coreNo o.core) = loopOp op N bl st rot s (coreNo o.core))
include h hx hf

theorem loop_illegal (h1 : 1 < st) (hr : rot = false) : s.faults o i 0 op .illegal := by
  have hi : (f s (coreNo o.core)).illegal = true := by rw [hf, loopOp_illegal, hr, decide_eq_true h1]; rfl
  rw [State.faults, hx, issue_illegal h.1 hi (fun _ => by rw [hf]; rfl), hf]
  rfl

variable (hl : 1 < st → rot = true)
include hl

omit h hx in
theorem loop_legal : (f s (coreNo o.core)).illegal = false := by
  rw [hf, loopOp_illegal]
  cases rot
  · have : ¬ 1 < st := fun h1 => absurd (hl h1) (by decide)
    simpa using this
  · simp

theorem loop_blocked (hb : (s.core (coreNo o.core)).LoopBlocked bl rot) : s.faults o i 0 op .loop := by
  have hfault : (f s (coreNo o.core)).fault = some .loop := by
    rw [hf]
    exact loopOp_fault.elim And.left fun x => absurd hb x.2
  rw [State.faults, hx, issue_fault h (loop_legal hf hl) hfault (by rw [hf]; rfl), hf]
  rfl

variable (hb : ¬ (s.core (coreNo o.core)).LoopBlocked bl rot)
include hb

theorem loop_went : exec i s =
    .next ((s.modCore (coreNo o.core) (fun d => d.went (loopOp op N bl st rot s (coreNo o.core)).jump)).inc64 (corePage (coreNo o.core) 0 + 0x68)) := by
  have hfault : (f s (coreNo o.core)).fault = none := by
    rw [hf]
    exact loopOp_fault.elim (fun x => absurd x.2 hb) And.left
  rw [hx, issueOp_went (g := id) h.1.1 h.2 (loop_legal hf hl) hfault (by rw [hf]; rfl) (by rw [hf]; rfl) (fun _ => by rw [hf]; rfl) rfl rfl, hf]
  rfl

theorem loop_skips (h0 : N = 0) (ha : (s.core (coreNo o.core)).pc.toNat + 16 * (bl + 1) < 2 ^ 20) :
    exec i s = .next (s.issuedTo (coreNo o.core) (BitVec.ofNat 20 ((s.core (coreNo o.core)).pc.toNat + 16 * (bl + 1)))) := by
  rw [loop_went h hx hf hl hb, loopOp_jump_skip h0, State.issuedTo_eq, State.modCore, Core.went_goto _ (j := .skip _) rfl,
    Core.goto_inside _ (by omega) (by omega), BitVec.ofInt_natCast]
  rfl

theorem loop_skips_outside (h0 : N = 0) (ha : 2 ^ 20 ≤ (s.core (coreNo o.core)).pc.toNat + 16 * (bl + 1)) :
    ∃ u, exec i s = .next u ∧ (u.core (coreNo o.core)).pcOut = some (BitVec.ofNat 64 ((s.core (coreNo o.core)).pc.toNat + 16 * (bl + 1))) ∧
      (u.core (coreNo o.core)).loops = (s.core (coreNo o.core)).loops := by
  refine ⟨_, loop_went h hx hf hl hb, ?_⟩
  rw [State.core_inc64, State.core_modCore_same, loopOp_jump_skip h0, Core.went_goto _ (j := .skip _) rfl, Core.goto_outside _ (by omega), BitVec.ofInt_natCast]
  exact ⟨rfl, rfl⟩

theorem loop_pushes (h0 : 0 < N) (hst : st ≤ 4) : ∃ p : BitVec 8,
    (∀ q : Fin 8, p.getLsbD q.val = if rot = true ∧ 4 ≤ q.val ∧ q.val < 4 + st then decide (q.val = 4) else (s.core (coreNo o.core)).p.getLsbD q.val) ∧
    s.gives o i (s.modCore (coreNo o.core) (fun d => { d with p := p, loopBuf := [], loops := d.loops ++
      [LoopEntry.mk (BitVec.ofNat 20 ((s.core (coreNo o.core)).pc.toNat + 16)) (BitVec.ofNat 20 ((s.core (coreNo o.core)).pc.toNat + 16 * bl)) st rot N 0] })) := by
  obtain ⟨p, hp, e⟩ := Core.went_push (c := s.core (coreNo o.core)) (l := ⟨BitVec.ofNat 20 ((s.core (coreNo o.core)).pc.toNat + 16),
    BitVec.ofNat 20 ((s.core (coreNo o.core)).pc.toNat + 16 * bl), st, rot, N, 0⟩) hst (by simp only; omega) h.1.2.1
  refine ⟨p, hp, ?_⟩
  rw [State.gives, loop_went h hx hf hl hb, loopOp_jump_push (by omega), State.modCore, e, State.issued, State.modCore_modCore]
  rfl

end

theorem loopResults : Claims.LoopResults := by
  intro s o ga trips blm1 sm1 rot n c b bl st full second outside h i op N hi
  have hst : st ≤ 4 := by have := sm1.isLt; omega
  obtain ⟨f, hx, hf⟩ : ∃ f : State → Nat → SlotOp, exec i s = .next (s.issueOp o 0 f) ∧ f s n = loopOp op N bl st rot s n := by
    obtain ⟨rfl, rfl, rfl⟩ | ⟨rfl, rfl, rfl⟩ := hi
    · exact ⟨opLoop ga blm1 sm1 rot, rfl, rfl⟩
    · exact ⟨opLoopi trips blm1 sm1 rot, rfl, rfl⟩
  exact ⟨loop_illegal h hx hf, fun hl hb => loop_blocked h hx hf hl hb, fun hl hb => ⟨loop_skips h hx hf hl hb, loop_skips_outside h hx hf hl hb,
    fun h0 => loop_pushes h hx hf hl hb h0 hst⟩⟩

end Sys2Proof.Machine
end

section
/-! PROOFS. The end of a trip (04 R139 to R142). -/
namespace Sys2Proof.Machine

/-- The core after the rotation of a trip's end, and with the stage predicates p. -/
def Core.turned (c : Core) (rot : Bool) (p : BitVec 8) : Core :=
  { c with p := p, rotG := if rot then c.rotG + 1 else c.rotG, rotV := if rot then c.rotV + 1 else c.rotV }

theorem LoopEntry.turn_spec {l : LoopEntry} (hl : l.stages ≤ 4) (c : Core) : ∃ p : BitVec 8,
    (∀ q : Fin 8, p.getLsbD q.val = if l.rot = true ∧ 4 ≤ q.val ∧ q.val < 4 + l.stages then
      decide (q.val - 4 ≤ l.done + 1 ∧ l.done + 1 - (q.val - 4) < l.n) else c.p.getLsbD q.val) ∧ l.turn c = c.turned l.rot p := by
  cases hr : l.rot
  · exact ⟨c.p, fun q => (if_neg (by simp)).symm, by rw [LoopEntry.turn, hr]; rfl⟩
  · obtain ⟨p, hp, e⟩ := stagePreds_spec hl (l.done + 1) { c with rotG := c.rotG + 1, rotV := c.rotV + 1 }
    refine ⟨p, fun q => by rw [hp q]; exact if_congr (by simp) rfl rfl, ?_⟩
    rw [LoopEntry.turn, if_pos hr, e]
    rfl

/-- The core with the loops ls. -/
def Core.withLoops (c : Core) (ls : List LoopEntry) : Core := { c with loops := ls }

/-- The core with an empty loop buffer. -/
def Core.unbuffered (c : Core) : Core := { c with loopBuf := [] }

section
variable {c : Core} {l : LoopEntry} {below : List LoopEntry} {p : BitVec 8} (hl : c.loops = below ++ [l]) (hp : l.last = c.pc)
  (ht : l.turn c = c.turned l.rot p)
include hl hp ht

/-- With trips left the loop stays with one trip more done, and control goes to its first bundle. -/
theorem tripEnds_again (h : l.done + 1 < l.trips) :
    tripEnds 4 c.pc c = ((c.turned l.rot p).withLoops (below ++ [{ l with done := l.done + 1 }]), some l.first) := by
  rw [tripEnds_cons 3 c.pc (l := l) (below := below.reverse) (by simp [hl]), if_pos hp, if_pos h, ht]
  simp [Core.withLoops]

/-- After its last trip the loop is popped, and no other loop ends. -/
theorem tripEnds_last (h : ¬ l.done + 1 < l.trips) (hb : ∀ x ∈ below, x.last ≠ c.pc) :
    tripEnds 4 c.pc c = ((c.turned l.rot p).withLoops below, none) := by
  rw [tripEnds_cons 3 c.pc (l := l) (below := below.reverse) (by simp [hl]), if_pos hp, if_neg h, ht, List.reverse_reverse]
  exact tripEnds_none 3 c.pc ((c.turned l.rot p).withLoops below) fun x hx => hb x hx

theorem went_again (h : l.done + 1 < l.trips) :
    c.went .none = (((c.turned l.rot p).withLoops (below ++ [{ l with done := l.done + 1 }])).atPc l.first).resumed c.dropReads := by
  have hlen : (below ++ [{ l with done := l.done + 1 }]).length = c.loops.length := by simp [hl]
  rw [Core.went, Core.advance, tripEnds_again hl hp ht h]
  dsimp only
  rw [Core.goto_inside _ (by omega) (by omega), BitVec.ofInt_natCast, BitVec.ofNat_toNat, BitVec.setWidth_eq, Core.bufferKept]
  exact congrArg (Core.resumed · _) (if_pos hlen)

theorem went_last (h : ¬ l.done + 1 < l.trips) (hb : ∀ x ∈ below, x.last ≠ c.pc) (hpc : c.pc.toNat + 16 < 2 ^ 20) :
    c.went .none = (((c.turned l.rot p).withLoops below).unbuffered).next := by
  have hlen : ¬ below.length = c.loops.length := by simp [hl]
  have hpc' : BitVec.ofInt 20 ((c.pc.toNat : Int) + 16) = c.pc + 16 := by
    apply BitVec.eq_of_toNat_eq
    rw [BitVec.toNat_add, BitVec.toNat_ofInt, show (16 : BitVec 20).toNat = 16 from rfl]
    omega
  rw [Core.went, Core.advance, tripEnds_last hl hp ht h hb]
  dsimp only
  rw [Core.goto_inside _ (by omega) (by omega), hpc', Core.bufferKept]
  exact congrArg (Core.resumed · _) (if_neg hlen)

end

theorem tripEnds_ends : Claims.TripEnds := by
  intro s o k l below n c t last h hl hp hb hn h1 h4 hpc
  obtain ⟨p, spec, ht⟩ := LoopEntry.turn_spec h4 c
  have left : l.done + 1 < l.trips ↔ ¬ last := by
    simp only [LoopEntry.trips, last, t]
    omega
  have e : exec (.nop o k) s = .next ((s.modCore n (fun d => d.went .none)).inc64 (corePage n 0 + 0x68)) :=
    congrArg Host.Outcome.next (issueOp_nop h)
  refine ⟨p, spec, fun hlast => ?_, fun hlast => ?_⟩
  · rw [e, State.issuedTo_eq, State.modCore, went_again hl hp ht (left.2 hlast), State.modCore, State.setCore_setCore, State.core_setCore_same]
    rfl
  · rw [e, State.modCore, went_last hl hp ht (fun x => left.1 x hlast) hn hpc, State.issued, State.modCore, State.setCore_setCore, State.core_setCore_same]
    rfl

/-- Settles O4: a branch pops the loops above the topmost that holds its target, a loop is blocked or pushed whatever its count is, and the
end of a trip turns, repeats or pops the innermost loop. -/
theorem branchesAndLoops : Obligations.BranchesAndLoops := ⟨branchResults, loopResults, tripEnds_ends⟩

end Sys2Proof.Machine
end

section
/-! PROOFS. The control operations of slot 0 and the special registers (04 R123, R129, R146, R147). -/
namespace Sys2Proof.Machine

section
variable {s : State} {o : Slot} {i : Instr} {slot : Nat} {f : State → Nat → SlotOp} (h : s.executes o) (hx : exec i s = .next (s.issueOp o slot f))
include h hx

/-- An operation that leads from s to t, with no effect before the other slots'. -/
theorem op_gives {t : State} (hi : (f s (coreNo o.core)).illegal = false) (hf : (f s (coreNo o.core)).fault = none)
    (hst : (f s (coreNo o.core)).stall = .none) (hj : (f s (coreNo o.core)).jump = .none) (hh : (f s (coreNo o.core)).halt = false)
    (hp : (f s (coreNo o.core)).pre s = s) (ha : (f s (coreNo o.core)).act s = t) (hs : SameIssue (s.core (coreNo o.core)) (t.core (coreNo o.core))) :
    s.gives o i t := by
  have e := issueOp_plain (slot := slot) h hi hf hst hj hh (by rwa [hp, ha])
  rw [State.gives, hx, e, hp, ha]

/-- An operation that does nothing where its condition holds. -/
theorem nothing_gives {op : Nat} (hf : f s (coreNo o.core) = { op := op }) : s.gives o i s :=
  op_gives h hx (by rw [hf]) (by rw [hf]) (by rw [hf]) (by rw [hf]) (by rw [hf]) (by rw [hf]) (by rw [hf]) (.refl _)

/-- A stalled bundle changes nothing but the stall. -/
theorem op_stalls {st : Stall} (hi : (f s (coreNo o.core)).illegal = false) (hf : (f s (coreNo o.core)).fault = none)
    (hst : (f s (coreNo o.core)).stall = st) (hne : st ≠ .none) (hw : (f s (coreNo o.core)).wait s = s) :
    exec i s = .next (s.modCore (coreNo o.core) (fun d => { d with stall := st })) := by
  rw [hx, issue_stalled h hi hf (by rwa [hst]) hw, hst]

end

/-! HALT -/

/-- Reads that have been given up are given up once. -/
theorem Core.dropReads_of {c d : Core} (h : d.seqReads = c.dropReads) : d.dropReads = c.dropReads := by
  rw [Core.dropReads, h, Core.dropReads, List.filter_map, List.map_map, List.filter_filter]
  congr 2
  funext r
  simp

theorem Core.rest_halted {d : Core} (e1 : d.st = .running) (e2 : d.stepping = false) (e3 : d.reads = false) (hl : ∀ l ∈ d.loops, l.last ≠ d.pc)
    (hp : d.pc.toNat + 16 < 2 ^ 20) : (Core.readsUsed (Core.afterBundle .none d)).rest .halted = { d.next with st := .halted } := by
  have e4 : d.st.issuing = true := by rw [e1]; rfl
  rw [Core.afterBundle, if_pos e4, Core.advance_plain d hl hp, Core.bufferKept_same d { d with pc := d.pc + 16, pcOut := none } rfl, Core.rest, if_neg]
  · rw [Core.dropReads_of (c := d) rfl]
    simp only [Core.readsUsed, Core.next, Core.dropReads, e2]
  · rintro (e | e)
    · rw [Core.readsUsed] at e
      exact absurd (e1.symm.trans e) (by decide)
    · exact absurd (e3.symm.trans e) (by decide)

theorem exec_halt {s : State} {o : Slot} (h : s.executes o) : exec (.halt o) s =
    .next (((s.modCore (coreNo o.core) (fun d => { d.next with st := .halted })).inc64 (corePage (coreNo o.core) 0 + 0x68)).raiseIrq (corePage (coreNo o.core) 0) 1) := by
  obtain ⟨⟨hb, hpc, hl⟩, hp⟩ := h
  obtain ⟨_, _, h3, h4, h5, _⟩ := id hb
  have e := Core.rest_halted h3 h4 h5 hl hpc
  refine congrArg Host.Outcome.next ((issueOp_bundle (f := opHalt) hb).trans ?_)
  rw [hp]
  simp [State.runBundle, bundleFault, bundleStall, bundleJump, bundleActs, opHalt, State.settle, -State.modCore_modCore]
  rw [State.inc64_modCore, State.modCore_modCore, State.modCore_modCore, State.modCore, e, State.modCore]

/-! WAIT -/

theorem Core.countersOk_iff {c : Core} {mask lim : BitVec 4} :
    c.countersOk mask lim = true ↔ ∀ j, j < 4 → mask.getLsbD j = true → c.ctr j ≤ lim.toNat := by
  simp [Core.countersOk, imp_iff_not_or]

theorem controlResults : Claims.ControlResults := by
  intro s o k ga gd mask lim time idx code h n c v stalls over_
  have waits : (c.countersOk mask lim && (!time || decide (v.toNat ≤ s.time.toNat))) = true ↔ over_ := by
    rw [Bool.and_eq_true, Core.countersOk_iff]
    cases time <;> simp [over_]
  refine ⟨nothing_gives h rfl rfl, fun hw => ?_, fun hw => ?_, fun hp => ?_, fun hp => ?_, fun hs => ⟨?_, ?_⟩, fun hs => ⟨?_, ?_⟩,
    fun he => ?_, fun he => ?_, exec_halt h⟩
  · exact nothing_gives h (f := opWait mask lim time ga) rfl (by rw [opWait, if_pos (waits.2 hw)])
  · exact op_stalls h (f := opWait mask lim time ga) rfl rfl rfl (if_neg fun x => hw (waits.1 x)) (by decide) rfl
  · exact nothing_gives h (f := opFence) rfl (by rw [opFence, if_pos hp])
  · exact op_stalls h (f := opFence) rfl rfl rfl (if_neg hp) (by decide) rfl
  · exact coreOp_gives h (f := opClr gd idx) rfl rfl rfl rfl rfl rfl rfl (if_pos hs) (Core.setG_same ..)
  · exact op_gives h (f := opClw ga idx) rfl rfl rfl rfl rfl rfl rfl (if_pos hs) (.refl _)
  · exact op_gives h (f := opClr gd idx) rfl rfl rfl rfl rfl rfl rfl (if_neg (by rw [hs]; decide))
      (modCore_same (s := s) (f := fun d => { d with colReads := d.colReads ++ [.seq (BitVec.ofNat 5 (physG c.rotG gd))] }) ⟨rfl, rfl, rfl, rfl⟩)
  · exact op_gives h (f := opClw ga idx) rfl rfl rfl rfl rfl rfl rfl (if_neg (by rw [hs]; decide)) (.refl _)
  · exact coreOp_gives h (f := opEvent code) rfl rfl rfl (if_neg (Nat.not_le.2 he)) rfl rfl rfl rfl ⟨rfl, rfl, rfl, rfl⟩
  · exact op_stalls h (f := opEvent code) rfl rfl rfl (if_pos he) (by decide) rfl

/-! Special registers -/

/-! The clock (04 R123; assumption 1) -/

theorem Core.ticks_cc (key : Dword) (k : Nat) (c : Core) : (Core.ticks key k c).cc = c.cc + BitVec.ofNat 64 k := by
  induction k generalizing c with
  | zero => exact (BitVec.add_zero _).symm
  | succ k ih =>
    rw [Core.ticks, ih, BitVec.add_assoc, BitVec.add_comm 1, BitVec.ofNat_add]
    rfl

theorem Core.ticks_rotG (key : Dword) (k : Nat) (c : Core) : (Core.ticks key k c).rotG = c.rotG := by
  induction k generalizing c with
  | zero => rfl
  | succ k ih => rw [Core.ticks, ih]

theorem State.ticked_core (s : State) (n : Nat) : (s.ticked n).core n = Core.ticks (s.hiddenKey n) (s.draw.1 + 1) (s.core n) :=
  State.modCore_core_same ..

section
variable {s : State} {o : Slot} {gd ga : BitVec 5} (h : s.executes o)
include h

/-- MFS of a register whose value the spec gives. -/
theorem mfs_reads {i : BitVec 6} {x : Nat} (hi : i.toNat < 0x0D) (h8 : i ≠ 0x08) (hx : s.special (coreNo o.core) i.toNat = some x) :
    s.gives o (.mfs o gd i) (s.setGr (coreNo o.core) gd (BitVec.ofNat 64 x)) := by
  refine coreOp_gives h (f := opMfs gd i) rfl (decide_eq_false (by omega)) rfl rfl rfl rfl rfl ?_ (Core.setG_same ..)
  exact (if_neg h8).trans (by rw [hx])

/-- MFS of cc reads the clock at the cycle of its issue. -/
theorem mfs_cc : s.gives o (.mfs o gd 0x08) ((s.ticked (coreNo o.core)).setGr (coreNo o.core) gd ((s.ticked (coreNo o.core)).core (coreNo o.core)).cc) := by
  refine op_gives h (f := opMfs gd 0x08) rfl rfl rfl rfl rfl rfl rfl ?_ ?_
  · have same : ((s.ticked (coreNo o.core)).core (coreNo o.core)).rotG = (s.core (coreNo o.core)).rotG := by rw [State.ticked_core, Core.ticks_rotG]
    rw [State.setGr, same]
    simp only [opMfs, ↓reduceIte]
  · obtain ⟨st, pc, loops, stepping⟩ := s.ticked_same (coreNo o.core)
    obtain ⟨st', pc', loops', stepping'⟩ := Core.setG_same ((s.ticked (coreNo o.core)).core (coreNo o.core))
      (physG ((s.ticked (coreNo o.core)).core (coreNo o.core)).rotG gd) ((s.ticked (coreNo o.core)).core (coreNo o.core)).cc
    rw [State.setGr, State.core_modCore_same]
    exact ⟨st'.trans st, pc'.trans pc, loops'.trans loops, stepping'.trans stepping⟩

theorem mfs_illegal {i : BitVec 6} (hi : 0x0D ≤ i.toNat) : s.faults o (.mfs o gd i) 0 0x09 .illegal :=
  op_illegal h (f := opMfs gd i) rfl (decide_eq_true hi) rfl rfl

theorem mts_illegal {i : BitVec 6} (h0 : i ≠ 0) (h1 : i ≠ 1) (hc : i ≠ 0x0C) : s.faults o (.mts o ga i) 0 0x0A .illegal :=
  op_illegal h (f := opMts ga i) rfl (by simpa [opMts] using ⟨⟨h0, h1⟩, hc⟩) rfl rfl

theorem mts_gives {i : BitVec 6} {t : State} (hi : i = 0 ∨ i = 1 ∨ i = 0x0C)
    (ht : s.setSpecial (coreNo o.core) i.toNat ((s.core (coreNo o.core)).gr ga) = t) (hs : SameIssue (s.core (coreNo o.core)) (t.core (coreNo o.core))) :
    s.gives o (.mts o ga i) t :=
  op_gives h (f := opMts ga i) rfl (by rcases hi with rfl | rfl | rfl <;> rfl) rfl rfl rfl rfl rfl ht hs

end

/-- The level of the rotating loop and the bit that marks it. -/
theorem Core.lsReg_eq (c : Core) : c.lsReg = c.loops.length + (match c.loops.findIdx? (fun l => l.rot) with | some i => 2 ^ 6 + i * 2 ^ 3 | none => 0) := by
  rw [Core.lsReg, Core.rotLevel]
  cases c.loops.findIdx? (fun l => l.rot)
  · rfl
  · exact congrArg (c.loops.length + ·) (Nat.add_comm ..)

theorem State.special_xy {s : State} {n x y : Nat} (h : s.logOf n = some (x, y)) : s.special n 0x0A = some (x + y * 2 ^ 16) := by
  rw [State.special, h]
  rfl

theorem setVf_same (s : State) (n : Nat) (f : Flags) : SameIssue (s.core n) ((s.setVf n f).core n) := by
  rw [State.setVf_core]
  exact modCore_same ⟨rfl, rfl, rfl, rfl⟩

theorem specialRegisters : Claims.SpecialRegisters := by
  intro s o gd ga h n c v reads left rotating
  have read {i : BitVec 6} {x : Nat} := mfs_reads (gd := gd) (i := i) (x := x) h
  refine ⟨read (by decide) (by decide) rfl, read (by decide) (by decide) rfl, read (by decide) (by decide) (congrArg some c.lsReg_eq),
    read (by decide) (by decide) rfl, read (by decide) (by decide) rfl, read (by decide) (by decide) rfl, read (by decide) (by decide) rfl,
    read (by decide) (by decide) rfl, ⟨s.draw.1 + 1, Nat.succ_pos _, ?cc⟩, mfs_cc h, read (by decide) (by decide) rfl,
    fun x y hxy => read (by decide) (by decide) (State.special_xy hxy), read (by decide) (by decide) rfl, read (by decide) (by decide) rfl,
    fun i hi => mfs_illegal h hi, mts_gives h (by decide) rfl (modCore_same ⟨rfl, rfl, rfl, rfl⟩), mts_gives h (by decide) rfl (modCore_same ⟨rfl, rfl, rfl, rfl⟩),
    mts_gives h (by decide) rfl (setVf_same ..), fun i h0 h1 hc => mts_illegal h h0 h1 hc⟩
  case cc => rw [State.ticked_core, Core.ticks_cc]

/-- Settles O5: each operation is issued with its effect, stalled, halted or illegal, and each special register is read as its definition says. -/
theorem controlAndSpecials : Obligations.ControlAndSpecials := ⟨controlResults, specialRegisters⟩

end Sys2Proof.Machine
end

section
/-! PROOFS. The words of a bundle and the illegal words (04 R125, R126, R128 to R137). -/
namespace Sys2Proof.Machine

/-! Little-endian numbers of consecutive bytes -/

theorem leNat_drop (l : List Byte) (i : Nat) : leNat (l.drop i) = leNat l / 2 ^ (8 * i) := by
  induction i generalizing l with
  | zero => rw [List.drop_zero, Nat.mul_zero, Nat.pow_zero, Nat.div_one]
  | succ i ih =>
    cases l with
    | nil => exact (Nat.zero_div _).symm
    | cons b l =>
      have := b.isLt
      rw [List.drop_succ_cons, ih, leNat, Nat.mul_succ, Nat.pow_add, Nat.mul_comm (2 ^ (8 * i)), ← Nat.div_div_eq_div_mul]
      congr 1
      omega

theorem leNat_take (l : List Byte) (j : Nat) : leNat (l.take j) = leNat l % 2 ^ (8 * j) := by
  induction j generalizing l with
  | zero => rw [List.take_zero, Nat.mul_zero, Nat.pow_zero, Nat.mod_one, leNat]
  | succ j ih =>
    cases l with
    | nil => exact (Nat.zero_mod _).symm
    | cons b l =>
      have := b.isLt
      have hdiv : (b.toNat + 256 * leNat l) / 2 ^ 8 = leNat l := by omega
      have hmod : (b.toNat + 256 * leNat l) % 2 ^ 8 = b.toNat := by omega
      rw [List.take_succ_cons, leNat, ih, leNat, Nat.mul_succ, Nat.pow_add, Nat.mul_comm (2 ^ (8 * j)), Nat.mod_mul, hdiv, hmod]

/-- A field of whole bytes of a number is the number of these bytes. -/
theorem bits_leNat (l : List Byte) (i j : Nat) : bits (leNat l) (8 * i) (8 * j) = leNat ((l.drop i).take j) := by
  rw [leNat_take, leNat_drop, bits]

theorem leNat_lt (l : List Byte) : leNat l < 2 ^ (8 * l.length) := by
  have h := leNat_take l l.length
  rw [List.take_length] at h
  rw [h]
  exact Nat.mod_lt _ (Nat.two_pow_pos _)

theorem Memory.readN_drop_take (m : List Host.Cell) (a i j k : Nat) : ((Memory.readN m a (i + (j + k))).drop i).take j = Memory.readN m (a + i) j := by
  apply List.ext_getElem?
  intro x
  by_cases hx : x < j
  · rw [List.getElem?_take_of_lt hx, List.getElem?_drop, Memory.readN_getElem? _ _ _ _ (by omega), Memory.readN_getElem? _ _ _ _ hx, Nat.add_assoc]
  · rw [List.getElem?_eq_none (by simp; omega), List.getElem?_eq_none (by simp; omega)]

/-- The word of slot k in the 16 bytes at pc. -/
theorem Core.bundleWord_slot (c : Core) {k : Nat} (hk : k < 4) :
    bits c.bundleWord.toNat (32 * k) 32 = leNat (Memory.readN c.spad (c.pc.toNat + 4 * k) 4) := by
  have h16 := leNat_lt (Memory.readN c.spad c.pc.toNat 16)
  have e := Memory.readN_drop_take c.spad c.pc.toNat (4 * k) 4 (12 - 4 * k)
  rw [Memory.readN_length] at h16
  rw [show 4 * k + (4 + (12 - 4 * k)) = 16 by omega] at e
  rw [Core.bundleWord, Core.spadBytes, BitVec.toNat_ofNat, Nat.mod_eq_of_lt h16, ← e, ← bits_leNat, show 8 * (4 * k) = 32 * k by omega]

theorem bundleSlots : Claims.BundleSlots := by
  intro s n k e hk c w
  have hw : bits c.bundleWord.toNat (32 * k) 32 = w := c.bundleWord_slot hk
  refine ⟨⟨k, (s.core n).pr (sf w 29 3) ^^ w.testBit 28, decodeSlot k w e s n⟩, ?_, rfl, ?_, rfl⟩
  · rw [State.bundleAt, State.bundleOf, List.getElem?_map, List.getElem?_range hk, Option.map_some]
    exact congrArg (fun w => some (SlotIn.mk k ((s.core n).pr (sf w 29 3) ^^ w.testBit 28) (decodeSlot k w e s n))) hw
  · have h3 : sf w 29 3 = BitVec.ofNat 3 (w / 2 ^ 29) := by
      apply BitVec.eq_of_toNat_eq
      rw [BitVec.toNat_ofNat, BitVec.toNat_ofNat, bits, Nat.mod_mod]
    rw [h3, Nat.testBit_eq_decide_div_mod_eq]

/-! Operand fields that shall be 0 (04 R128) -/

theorem bits_and (x y lo k : Nat) : bits (x &&& y) lo k = bits x lo k &&& bits y lo k := by
  apply Nat.eq_of_testBit_eq
  intro i
  rw [Nat.testBit_and, testBit_bits, testBit_bits, testBit_bits, Nat.testBit_and]
  cases decide (i < k) <;> simp

/-- A nonzero operand bit outside the used ones makes the word illegal. -/
theorem usedBits_bad {w used lo k : Nat} {f : State → Nat → SlotOp} (hm : bits (2 ^ 22 - 1 - used) lo k = 2 ^ k - 1) (h : bits (w % 2 ^ 22) lo k ≠ 0) :
    usedBits w used f = badOp (bits w 22 6) := by
  refine if_neg fun h0 => h ?_
  have e := bits_and (w % 2 ^ 22) (2 ^ 22 - 1 - used) lo k
  rw [h0, hm, Nat.and_two_pow_sub_one_eq_mod, bits, bits, Nat.mod_mod, Nat.zero_div, Nat.zero_mod] at e
  exact e.symm

/-! Opcodes that no table lists -/

section
variable {w : Nat}

theorem decodeControl_unlisted (e : Ecc) (h : bits w 22 6 = 0x0F) : decodeControl w e = badOp 0x0F := by
  rw [decodeControl, h]
  rfl

theorem decodeScalar_unlisted (h : bits w 22 6 = 0x1F ∨ 0x2B ≤ bits w 22 6) : decodeScalar w = badOp (bits w 22 6) := by
  unfold decodeScalar
  generalize bits w 22 6 = op at h
  split
  rotate_right
  · rfl
  all_goals omega

theorem decodeGen_unlisted (h : 0x36 ≤ bits w 22 6) : decodeGen w = badOp (bits w 22 6) := by
  unfold decodeGen
  generalize bits w 22 6 = op at h
  split
  rotate_right
  · rfl
  all_goals omega

theorem decodeMem_unlisted (e : Ecc) (h : 0x0E ≤ bits w 22 6) : decodeMem w e = badOp (bits w 22 6) := by
  unfold decodeMem
  generalize bits w 22 6 = op at h
  split
  rotate_right
  · rfl
  all_goals omega

theorem decodeVector_unlisted (h : bits w 22 6 = 0x0F ∨ bits w 22 6 = 0x1F ∨ 0x2C ≤ bits w 22 6) : decodeVector w = badOp (bits w 22 6) := by
  unfold decodeVector
  generalize bits w 22 6 = op at h
  split
  rotate_right
  · rfl
  all_goals omega

/-! The used operand bits of the opcodes of one form -/

theorem decodeControl_none (e : Ecc) (h : bits w 22 6 = 8 ∨ bits w 22 6 = 0x0E) : ∃ f, decodeControl w e = usedBits w 0 f := by
  obtain h | h := h <;> rw [decodeControl, h] <;> exact ⟨_, rfl⟩

theorem decodeControl_brr (e : Ecc) (h : bits w 22 6 = 2) : ∃ f, decodeControl w e = usedBits w 0x01F000 f := by
  rw [decodeControl, h]
  exact ⟨_, rfl⟩

theorem decodeScalar_R (h0 : 0x10 ≤ bits w 22 6) (h1 : bits w 22 6 ≤ 0x1A) : ∃ f, decodeScalar w = usedBits w 0x3FFF80 f := by
  unfold decodeScalar
  interval_cases bits w 22 6 <;> exact ⟨_, rfl⟩

theorem decodeScalar_compareR (h0 : 0x1B ≤ bits w 22 6) (h1 : bits w 22 6 ≤ 0x1D) : ∃ f, decodeScalar w = usedBits w 0x0FFF80 f := by
  unfold decodeScalar
  interval_cases bits w 22 6 <;> exact ⟨_, rfl⟩

theorem decodeGen_listed (h0 : 0x30 ≤ bits w 22 6) (h1 : bits w 22 6 ≤ 0x35) : ∃ f, decodeGen w = usedBits w 0x39FFFF f := by
  unfold decodeGen
  interval_cases bits w 22 6 <;> exact ⟨_, rfl⟩

theorem decodeMem_collar (e : Ecc) (h : bits w 22 6 = 0x0C ∨ bits w 22 6 = 0x0D) : ∃ f, decodeMem w e = usedBits w 0x3F0001 f := by
  obtain h | h := h <;> rw [decodeMem, h] <;> exact ⟨_, rfl⟩

end

/-! The decoder of a slot -/

section
variable {w : Nat} {e : Ecc} 

theorem decodeSlot_of_nop {slot : Nat} (h : bits w 22 6 = 0) : decodeSlot slot w e = usedBits w 0 nopOp := if_pos h

theorem decodeSlot_of_control (h0 : bits w 22 6 ≠ 0) (h : bits w 22 6 < 0x10) : decodeSlot 0 w e = decodeControl w e := by
  rw [decodeSlot, if_neg h0]
  exact if_pos h

theorem decodeSlot_of_scalar {slot : Nat} (hs : slot ≤ 1) (h0 : 0x10 ≤ bits w 22 6) (h1 : slot = 1 → bits w 22 6 < 0x30) : decodeSlot slot w e = decodeScalar w := by
  have hne : bits w 22 6 ≠ 0 := by omega
  have hc : ¬ bits w 22 6 < 0x10 := by omega
  interval_cases slot
  · rw [decodeSlot, if_neg hne]
    exact if_neg hc
  · rw [decodeSlot, if_neg hne]
    exact (if_neg hc).trans (if_pos (h1 rfl))

theorem decodeSlot_of_gen (h : 0x30 ≤ bits w 22 6) : decodeSlot 1 w e = decodeGen w := by
  rw [decodeSlot, if_neg (by omega)]
  exact (if_neg (by omega)).trans (if_neg (by omega))

theorem decodeSlot_one_control (h0 : bits w 22 6 ≠ 0) (h : bits w 22 6 < 0x10) : decodeSlot 1 w e = badOp (bits w 22 6) := by
  rw [decodeSlot, if_neg h0]
  exact if_pos h

theorem decodeSlot_of_mem (h0 : bits w 22 6 ≠ 0) : decodeSlot 2 w e = decodeMem w e := if_neg h0

theorem decodeSlot_of_vector (h0 : bits w 22 6 ≠ 0) : decodeSlot 3 w e = decodeVector w := if_neg h0

end

/-! Illegal words, by what is illegal in them -/

section
variable {slot w : Nat} (e : Ecc)

theorem word_nop (h : bits w 22 6 = 0) (hne : w % 2 ^ 22 ≠ 0) : decodeSlot slot w e = badOp (bits w 22 6) := by
  rw [decodeSlot_of_nop h]
  exact usedBits_bad (lo := 0) (k := 22) (by decide) (by rwa [bits_zero, Nat.mod_mod])

theorem word_unlisted0 (hs : slot = 0) (h : bits w 22 6 = 0x0F ∨ bits w 22 6 = 0x1F ∨ 0x2B ≤ bits w 22 6) : decodeSlot slot w e = badOp (bits w 22 6) := by
  subst hs
  obtain h | h := h
  · rw [decodeSlot_of_control (by omega) (by omega), decodeControl_unlisted e h, h]
  · rw [decodeSlot_of_scalar (by decide) (by omega) (by omega), decodeScalar_unlisted h]

theorem word_unlisted1 (hs : slot = 1) (h : (1 ≤ bits w 22 6 ∧ bits w 22 6 ≤ 0x0F) ∨ bits w 22 6 = 0x1F ∨ (0x2B ≤ bits w 22 6 ∧ bits w 22 6 ≤ 0x2F) ∨ 0x36 ≤ bits w 22 6) :
    decodeSlot slot w e = badOp (bits w 22 6) := by
  subst hs
  by_cases hc : bits w 22 6 < 0x10
  · rw [decodeSlot_one_control (by omega) hc]
  · by_cases hg : bits w 22 6 < 0x30
    · rw [decodeSlot_of_scalar (by decide) (by omega) (fun _ => hg), decodeScalar_unlisted (by omega)]
    · rw [decodeSlot_of_gen (by omega), decodeGen_unlisted (by omega)]

theorem word_unlisted2 (hs : slot = 2) (h : 0x0E ≤ bits w 22 6) : decodeSlot slot w e = badOp (bits w 22 6) := by
  subst hs
  rw [decodeSlot_of_mem (by omega), decodeMem_unlisted e h]

theorem word_unlisted3 (hs : slot = 3) (h : bits w 22 6 = 0x0F ∨ bits w 22 6 = 0x1F ∨ 0x2C ≤ bits w 22 6) : decodeSlot slot w e = badOp (bits w 22 6) := by
  subst hs
  rw [decodeSlot_of_vector (by omega), decodeVector_unlisted h]

theorem word_none (hs : slot = 0) (h : bits w 22 6 = 8 ∨ bits w 22 6 = 0x0E) (hne : w % 2 ^ 22 ≠ 0) : decodeSlot slot w e = badOp (bits w 22 6) := by
  subst hs
  obtain ⟨f, hf⟩ := decodeControl_none e h
  rw [decodeSlot_of_control (by omega) (by omega), hf]
  exact usedBits_bad (lo := 0) (k := 22) (by decide) (by rwa [bits_zero, Nat.mod_mod])

theorem word_brr (hs : slot = 0) (h : bits w 22 6 = 2) (hf : w % 2 ^ 22 % 4096 ≠ 0 ∨ 2 ^ 17 ≤ w % 2 ^ 22) : decodeSlot slot w e = badOp (bits w 22 6) := by
  subst hs
  obtain ⟨f, hd⟩ := decodeControl_brr e h
  rw [decodeSlot_of_control (by omega) (by omega), hd]
  obtain hf | hf := hf
  · exact usedBits_bad (lo := 0) (k := 12) (by decide) (by rwa [bits_zero])
  · exact usedBits_bad (lo := 17) (k := 5) (by decide) (by rw [bits]; omega)

theorem word_R (hs : slot ≤ 1) (h0 : 0x10 ≤ bits w 22 6) (h1 : bits w 22 6 ≤ 0x1A) (hf : w % 2 ^ 22 % 128 ≠ 0) : decodeSlot slot w e = badOp (bits w 22 6) := by
  obtain ⟨f, hd⟩ := decodeScalar_R h0 h1
  rw [decodeSlot_of_scalar hs h0 (by omega), hd]
  exact usedBits_bad (lo := 0) (k := 7) (by decide) (by rwa [bits_zero])

theorem word_compareR (hs : slot ≤ 1) (h0 : 0x1B ≤ bits w 22 6) (h1 : bits w 22 6 ≤ 0x1D) (hf : w % 2 ^ 22 % 128 ≠ 0 ∨ 2 ^ 20 ≤ w % 2 ^ 22) :
    decodeSlot slot w e = badOp (bits w 22 6) := by
  obtain ⟨f, hd⟩ := decodeScalar_compareR h0 h1
  rw [decodeSlot_of_scalar hs (by omega) (by omega), hd]
  obtain hf | hf := hf
  · exact usedBits_bad (lo := 0) (k := 7) (by decide) (by rwa [bits_zero])
  · exact usedBits_bad (lo := 20) (k := 2) (by decide) (by rw [bits]; omega)

theorem word_gen (hs : slot = 1) (h0 : 0x30 ≤ bits w 22 6) (h1 : bits w 22 6 ≤ 0x35) (hf : w % 2 ^ 22 / 2 ^ 17 % 4 ≠ 0) : decodeSlot slot w e = badOp (bits w 22 6) := by
  subst hs
  obtain ⟨f, hd⟩ := decodeGen_listed h0 h1
  rw [decodeSlot_of_gen h0, hd]
  exact usedBits_bad (lo := 17) (k := 2) (by decide) (by rwa [bits])

theorem word_collar (hs : slot = 2) (h : bits w 22 6 = 0x0C ∨ bits w 22 6 = 0x0D) (hf : w % 2 ^ 22 / 2 % 2 ^ 15 ≠ 0) : decodeSlot slot w e = badOp (bits w 22 6) := by
  subst hs
  obtain ⟨f, hd⟩ := decodeMem_collar e h
  rw [decodeSlot_of_mem (by omega), hd]
  exact usedBits_bad (lo := 1) (k := 15) (by decide) (by rwa [bits, Nat.pow_one])

end

theorem illegalWords : Claims.IllegalWords := by
  intro s n slot op arg e ho ha bad
  have hop : bits (op * 2 ^ 22 + arg) 22 6 = op := by
    rw [bits]
    omega
  have hlow : (op * 2 ^ 22 + arg) % 2 ^ 22 = arg := by omega
  have bad_of (h : decodeSlot slot (op * 2 ^ 22 + arg) e = badOp op) : bad := ⟨by rw [h]; rfl, by rw [h]; rfl⟩
  have nop := word_nop (slot := slot) (w := op * 2 ^ 22 + arg) e
  have unlisted0 := word_unlisted0 (slot := slot) (w := op * 2 ^ 22 + arg) e
  have unlisted1 := word_unlisted1 (slot := slot) (w := op * 2 ^ 22 + arg) e
  have unlisted2 := word_unlisted2 (slot := slot) (w := op * 2 ^ 22 + arg) e
  have unlisted3 := word_unlisted3 (slot := slot) (w := op * 2 ^ 22 + arg) e
  have none := word_none (slot := slot) (w := op * 2 ^ 22 + arg) e
  have brr := word_brr (slot := slot) (w := op * 2 ^ 22 + arg) e
  have formR := word_R (slot := slot) (w := op * 2 ^ 22 + arg) e
  have compareR := word_compareR (slot := slot) (w := op * 2 ^ 22 + arg) e
  have gen := word_gen (slot := slot) (w := op * 2 ^ 22 + arg) e
  have collar := word_collar (slot := slot) (w := op * 2 ^ 22 + arg) e
  rw [hop, hlow] at nop none brr formR compareR gen collar
  rw [hop] at unlisted0 unlisted1 unlisted2 unlisted3
  exact ⟨fun h0 hne => bad_of (nop h0 hne), fun hs h => bad_of (unlisted0 hs h), fun hs h => bad_of (unlisted1 hs h), fun hs h => bad_of (unlisted2 hs h),
    fun hs h => bad_of (unlisted3 hs h), fun hs h hne => bad_of (none hs h hne), fun hs h hf => bad_of (brr hs h hf),
    fun hs h0 h1 hf => bad_of (formR hs h0 h1 hf), fun hs h0 h1 hf => bad_of (compareR hs h0 h1 hf), fun hs h0 h1 hf => bad_of (gen hs h0 h1 hf),
    fun hs h hf => bad_of (collar hs h hf)⟩

end Sys2Proof.Machine
end

section
/-! PROOFS. Precise faults (04 R149, R150, R155). -/
namespace Sys2Proof.Machine

/-! Pages of cores -/

section
variable {n p off : Nat} (hn : n < 50688) (hp : p < 10) (ho : off < 4096)

include hn hp ho in
theorem corePage_lt : corePage n p + off < 2 ^ 40 := by
  simp only [corePage, pageAt]
  omega

include hp ho in
theorem corePage_ne_engine (e : Nat) : corePage n p + off ≠ edgePage e 0xF030 + 0x10 := by
  simp only [corePage, edgePage, pageAt]
  omega

end

theorem coreNo_lt (c : CoreId) : coreNo c < 50688 := by
  have := c.die.isLt
  have := c.idx.isLt
  simp only [coreNo]
  omega

/-- Events reach no register of a core's pages. -/
theorem State.LogsTo.coreReg {s t : State} (h : s.LogsTo t) {n p off : Nat} (hn : n < 50688) (hp : p < 10) (ho : off < 4096) :
    t.reg (corePage n p + off) = s.reg (corePage n p + off) :=
  h.reg _ (corePage_lt hn hp ho) (corePage_ne_engine hp ho)

/-! A fault -/

theorem Core.rest_at_once {c : Core} (st : SeqState) (hs : c.st ≠ .stopping) (hr : c.reads = false) :
    c.rest st = { c with st := st, stall := .none, stepping := false, seqReads := c.dropReads } :=
  if_neg (by simp [hs, hr])

section
variable (s : State) (n slot op : Nat) (f : Flt)

/-- The state after a fault has been held, entered and raised. -/
def State.faultEntered : State :=
  ((s.holdFault n slot op f (s.core n).pc).enterCode (corePage n 0) f.code).raiseIrq (corePage n 0) 2

theorem State.holdFault_cores : (s.holdFault n slot op f (s.core n).pc).cores = s.cores := by
  simp only [State.holdFault]
  split
  · rfl
  · simp

/-- After a fault has been entered the owner is told, and the sequencer comes to rest. -/
theorem State.seqFault_after : ∃ u, (s.faultEntered n slot op f).LogsTo u ∧
    (s.seqFault n slot op f = u.modCore n (fun c => c.rest .faulted) ∨ ∃ m, s.seqFault n slot op f = (u.send m).modCore n (fun c => c.rest .faulted)) := by
  refine ⟨(s.faultEntered n slot op f).coreEvent n f.code .seq ((s.core n).pc.setWidth 32), State.LogsTo.event .., ?_⟩
  by_cases hc : f.cause = 7
  · exact .inr ⟨_, by rw [State.seqFault]; simp only [if_pos hc]; rfl⟩
  · exact .inl (by rw [State.seqFault]; simp only [if_neg hc]; rfl)

theorem State.seqFault_core (m : Nat) : (s.seqFault n slot op f).core m = if m = n then (s.core n).rest .faulted else s.core m := by
  obtain ⟨u, hu, h⟩ := s.seqFault_after n slot op f
  have core (k : Nat) : u.core k = s.core k := by
    have cores : (s.faultEntered n slot op f).cores = s.cores := by
      rw [State.faultEntered]
      simp only [State.raiseIrq_keeps, State.enterCode_keeps, State.holdFault_cores]
    rw [State.core, hu.cores, cores, State.core]
  obtain h | ⟨x, h⟩ := h <;> rw [h, State.modCore_core]
  · rw [core, core]
  · rw [show (u.send x).core n = u.core n from rfl, show (u.send x).core m = u.core m from rfl, core, core]

variable {n}

/-- A register of the core after a fault. -/
theorem State.seqFault_reg (hn : n < 50688) {off : Nat} (ho : off < 4096) : (s.seqFault n slot op f).reg (corePage n 0 + off) =
    (s.faultEntered n slot op f).reg (corePage n 0 + off) := by
  obtain ⟨u, hu, h⟩ := s.seqFault_after n slot op f
  rw [← hu.coreReg hn (by decide) ho]
  obtain h | ⟨x, h⟩ := h <;> rw [h] <;> rfl

/-- SEQ_FAULT, SEQ_FAULT_PC and SEQ_FAULT_ADDR are written where the fault is held. -/
theorem State.seqFault_held (hn : n < 50688) {off : Nat} (ho : off < 4096) (h10 : off ≠ 0x10) (h18 : off ≠ 0x18) :
    (s.seqFault n slot op f).reg (corePage n 0 + off) = (s.holdFault n slot op f (s.core n).pc).reg (corePage n 0 + off) := by
  rw [State.seqFault_reg _ _ _ _ hn ho, State.faultEntered, State.raiseIrq_reg, if_neg (by omega), State.enterCode, State.enterCodes_reg, if_neg (by omega)]

theorem State.holdFault_of_free (h : s.bit (corePage n 0 + 0x4C) 0 = false) (pc : BitVec 20) : s.holdFault n slot op f pc =
    ((s.setReg (corePage n 0 + 0x4C) (BitVec.ofNat 32 (1 + f.cause * 2 + slot * 32 + op * 65536))).setReg (corePage n 0 + 0x50) (pc.setWidth 32)).setReg64
      (corePage n 0 + 0x54) (f.addr.getD 0) := if_neg (by rw [h]; decide)

theorem State.holdFault_of_held (h : s.bit (corePage n 0 + 0x4C) 0 = true) (pc : BitVec 20) : s.holdFault n slot op f pc = s := if_pos h

end

theorem State.reg64_eq (s : State) (k : Nat) : s.reg64 k = s.reg (k + 4) ++ s.reg k := rfl

theorem preciseFault : Claims.PreciseFault := by
  intro s c slot op f n hb hs ho hc _ t pg
  have hn : n < 50688 := coreNo_lt c
  obtain ⟨_, _, hst, _, hreads, _⟩ := hb
  refine ⟨?_, fun m hm => ?_, fun h => ?_, fun h => ?_, ?_, fun h => ?_⟩
  · rw [State.seqFault_core, if_pos rfl, Core.rest_at_once _ (by rw [hst]; decide) hreads]
  · rw [State.seqFault_core, if_neg hm]
  · have held {off : Nat} := s.seqFault_held slot op f hn (off := off)
    rw [State.holdFault_of_free _ _ _ _ h] at held
    have h4C : t.reg (pg + 0x4C) = BitVec.ofNat 32 (1 + f.cause * 2 + slot * 32 + op * 65536) := by
      rw [held (by decide) (by decide) (by decide), State.setReg64_reg, if_neg (by omega), if_neg (by omega), State.setReg_reg, if_neg (by omega), State.setReg_reg, if_pos rfl]
    refine ⟨?_, ?_, ?_, ?_, ?_, ?_⟩
    · rw [State.bit, h4C, ← BitVec.testBit_toNat, BitVec.toNat_ofNat, Nat.testBit_zero, decide_eq_true_eq]
      omega
    · rw [State.fld, h4C, BitVec.toNat_ofNat, bits]
      omega
    · rw [State.fld, h4C, BitVec.toNat_ofNat, bits]
      omega
    · rw [State.fld, h4C, BitVec.toNat_ofNat, bits]
      omega
    · rw [held (by decide) (by decide) (by decide), State.setReg64_reg, if_neg (by omega), if_neg (by omega), State.setReg_reg, if_pos rfl]
    · rw [State.reg64_eq, Nat.add_assoc, held (by decide) (by decide) (by decide), held (by decide) (by decide) (by decide), ← Nat.add_assoc, ← State.reg64_eq, State.setReg64_reg64_same]
  · have held {off : Nat} := s.seqFault_held slot op f hn (off := off)
    rw [State.holdFault_of_held _ _ _ _ h] at held
    refine ⟨held (by decide) (by decide) (by decide), held (by decide) (by decide) (by decide), ?_⟩
    rw [State.reg64_eq, State.reg64_eq, Nat.add_assoc, held (by decide) (by decide) (by decide), held (by decide) (by decide) (by decide)]
  · rw [State.bit, State.seqFault_reg _ _ _ _ hn (by decide), ← State.bit, State.faultEntered, State.raiseIrq_bit]
    exact Bool.or_true _
  · have same : (s.holdFault n slot op f (s.core n).pc).reg (pg + 0x18) = s.reg (pg + 0x18) := by
      cases hh : s.bit (pg + 0x4C) 0
      · rw [State.holdFault_of_free _ _ _ _ hh, State.setReg64_reg, if_neg (by omega), if_neg (by omega), State.setReg_reg, if_neg (by omega), State.setReg_reg, if_neg (by omega)]
      · rw [State.holdFault_of_held _ _ _ _ hh]
    rw [State.seqFault_reg _ _ _ _ hn (by decide), State.faultEntered, State.raiseIrq_reg, if_neg (by omega), State.enterCode, State.enterCodes_reg, if_pos rfl, same,
      (errEntered_one _ _).1, if_pos h]

/-- Settles O6: a bundle's words are read off its bytes, each illegal word falls to an unlisted opcode or a nonzero unused field, and a fault
changes its core and its fault registers alone. -/
theorem bundlesAndFaults : Obligations.BundlesAndFaults :=
  ⟨bundleSlots, illegalWords, fun _ _ _ _ h hp hi => issueOp_off h hp hi, preciseFault⟩

end Sys2Proof.Machine
end

section
/-! PROOFS. A load or store as an operation of its bundle (04 R132 to R134), and its faults (R150). -/
namespace Sys2Proof.Machine

/-! The issue of an operation with findings and with work while it waits -/

section
variable {s : State} {o : Slot} {slot : Nat} {f : State → Nat → SlotOp} (h : s.executes o) (hi : (f s (coreNo o.core)).illegal = false)
include h hi

/-- A fault after what the checks have found. -/
theorem issueOp_fault {x : Flt} (hf : (f s (coreNo o.core)).fault = some x) :
    s.issueOp o slot f = ((f s (coreNo o.core)).onFault s).seqFault (coreNo o.core) slot (f s (coreNo o.core)).op x := by
  rw [issueOp_bundle h.1.1, h.2]
  simp [State.runBundle, bundleFault, hi, hf]

/-- A stall, with what the operation does while it alone makes the bundle wait. -/
theorem issueOp_waits {st : Stall} (hf : (f s (coreNo o.core)).fault = none) (hst : (f s (coreNo o.core)).stall = st) (hne : st ≠ .none) :
    s.issueOp o slot f = ((f s (coreNo o.core)).wait s).modCore (coreNo o.core) (fun d => { d with stall := st }) := by
  rw [issueOp_bundle h.1.1, h.2]
  simp [State.runBundle, bundleFault, bundleStall, bundleWait, hi, hf, hst, hne]

end

/-! The operation of an access -/

section
variable {s : State} {n : Nat} {k : MemKind} {r : BitVec 6} {g : BitVec 3} {am : BitVec 2} {off : BitVec 11} {e : Ecc}

theorem memOp_op : (memOp k r g am off e s n).op = k.op := by
  unfold memOp
  dsimp only
  split <;> rfl

theorem memOp_illegal : (memOp k r g am off e s n).illegal = true ↔ ¬ k.legal r am := by
  have bad : (memOp k r g am off e s n).illegal = (decide (am = 3) || (!k.usesV && r.getLsbD 5)) := by
    unfold memOp
    dsimp only
    split <;> rfl
  rw [bad, MemKind.legal]
  cases k.usesV <;> simp [imp_iff_not_or]

theorem memOp_legal (hl : k.legal r am) : (memOp k r g am off e s n).illegal = false :=
  Bool.eq_false_iff.2 fun x => memOp_illegal.1 x hl

theorem memOp_jump : (memOp k r g am off e s n).jump = .none := by
  unfold memOp
  dsimp only
  split <;> rfl

theorem memOp_halt : (memOp k r g am off e s n).halt = false := by
  unfold memOp
  dsimp only
  split <;> rfl

theorem memOp_pre (t : State) : (memOp k r g am off e s n).pre t = t := by
  unfold memOp
  dsimp only
  split <;> rfl

theorem memOp_agu (ha : (s.core n).agu g am off k.size = none) :
    (memOp k r g am off e s n).fault = some .agu ∧ ∀ t, (memOp k r g am off e s n).onFault t = t := by
  unfold memOp
  dsimp only
  rw [ha]
  exact ⟨rfl, fun t => rfl⟩

variable {a : Dword} {u : Option Dword} (ha : (s.core n).agu g am off k.size = some (a, u))
include ha

theorem memOp_fault : (memOp k r g am off e s n).fault = (s.memDo n k r a e).fault := by simp only [memOp, ha]
theorem memOp_onFault : (memOp k r g am off e s n).onFault = (s.memDo n k r a e).onFault := by simp only [memOp, ha]
theorem memOp_wait : (memOp k r g am off e s n).wait = (s.memDo n k r a e).wait := by simp only [memOp, ha]
theorem memOp_stall : (memOp k r g am off e s n).stall = if (s.memDo n k r a e).stalls then .other else .none := by simp only [memOp, ha]
theorem memOp_act (t : State) : (memOp k r g am off e s n).act t = ((s.memDo n k r a e).act t).postMod n g u := by
  simp only [memOp, ha]
  cases u <;> rfl

end

/-! No access faults as an illegal operation -/

theorem answerFault_ne_illegal (a : Dword) (status : BitVec 16) : some (answerFault a status) ≠ some Flt.illegal := by
  unfold answerFault
  split
  · exact nofun
  · split <;> exact nofun

section
variable (s : State) (n : Nat) (k : MemKind) (r : BitVec 6) (a : Dword) (e : Ecc)

theorem memSpad_ne_illegal : (s.memSpad n k r a e).fault ≠ some .illegal := by
  unfold State.memSpad
  dsimp only
  split
  · exact nofun
  · split
    · exact nofun
    · split
      · dsimp only
        split <;> exact nofun
      · exact nofun

theorem memLpddr_ne_illegal : (s.memLpddr n k r a e).fault ≠ some .illegal := by
  unfold State.memLpddr
  dsimp only
  split
  · exact nofun
  · split
    · exact nofun
    · split
      · exact nofun
      · split
        · exact answerFault_ne_illegal _ _
        · split
          · exact nofun
          · split
            · split
              · exact nofun
              · dsimp only
                split <;> exact nofun
            · exact nofun

theorem planeLoad_ne_illegal (op : Nat) (data : Dword → Nat → BitVec 16 × List Byte → List Byte) (failed : BitVec 16 → Bool) :
    (s.planeLoad n op k r a data failed).fault ≠ some .illegal := by
  unfold State.planeLoad
  dsimp only
  split
  · exact nofun
  · split
    · exact nofun
    · split
      · exact nofun
      · split
        · exact answerFault_ne_illegal _ _
        · exact nofun

theorem memFram_ne_illegal : (s.memFram n k r a).fault ≠ some .illegal := by
  unfold State.memFram
  dsimp only
  split
  · exact nofun
  · split
    · exact nofun
    · split
      · exact planeLoad_ne_illegal _ _ _ _ _ _ _ _
      · exact nofun

theorem memCtl_ne_illegal : (s.memCtl n k r a).fault ≠ some .illegal := by
  unfold State.memCtl
  dsimp only
  split
  · exact nofun
  · split
    · exact nofun
    · split
      · split
        · exact nofun
        · split
          · exact nofun
          · split
            · exact nofun
            · split
              · split <;> exact nofun
              · split <;> exact nofun
      · split
        · exact nofun
        · split
          · exact planeLoad_ne_illegal _ _ _ _ _ _ _ _
          · exact nofun

theorem memDo_ne_illegal : (s.memDo n k r a e).fault ≠ some .illegal := by
  unfold State.memDo
  split
  · exact nofun
  · split
    · exact memSpad_ne_illegal _ _ _ _ _ _
    · exact memLpddr_ne_illegal _ _ _ _ _ _
    · exact memFram_ne_illegal _ _ _ _ _
    · exact memCtl_ne_illegal _ _ _ _ _
    · exact nofun

end

/-! An access, issued -/

section
variable {s : State} {o : Slot} {i : Instr} {k : MemKind} {r : BitVec 6} {g : BitVec 3} {am : BitVec 2} {off : BitVec 11} {e : Ecc}
  (h : s.executes o) (hx : exec i s = .next (s.issueOp o 2 (memOp k r g am off e)))
include h hx

theorem access_illegal (hl : ¬ k.legal r am) : s.faults o i 2 k.op .illegal := by
  have hn : (memOp k r g am off e s (coreNo o.core)).fault ≠ some .illegal := by
    cases ha : (s.core (coreNo o.core)).agu g am off k.size with
    | none => rw [(memOp_agu ha).1]; exact nofun
    | some q => rw [memOp_fault (a := q.1) (u := q.2) ha]; exact memDo_ne_illegal _ _ _ _ _ _
  rw [State.faults, hx, issue_illegal h.1 (memOp_illegal.2 hl) (fun x => absurd x hn), memOp_op]

variable (hl : k.legal r am)
include hl

theorem access_agu (ha : (s.core (coreNo o.core)).agu g am off k.size = none) : s.faults o i 2 k.op .agu := by
  obtain ⟨hf, ho⟩ := memOp_agu (r := r) (e := e) ha
  rw [State.faults, hx, issueOp_fault h (memOp_legal hl) hf, ho, memOp_op]

variable {a : Dword} {u : Option Dword} (ha : (s.core (coreNo o.core)).agu g am off k.size = some (a, u)) {d : MemDo}
  (hd : s.memDo (coreNo o.core) k r a e = d)
include ha hd

theorem access_faults {x : Flt} (hf : d.fault = some x) : exec i s = .next ((d.onFault s).seqFault (coreNo o.core) 2 k.op x) := by
  rw [hx, issueOp_fault h (memOp_legal hl) (by rw [memOp_fault ha, hd, hf]), memOp_op, memOp_onFault ha, hd]

theorem access_stalls (hf : d.fault = none) (hs : d.stalls = true) :
    exec i s = .next ((d.wait s).modCore (coreNo o.core) (fun d => { d with stall := .other })) := by
  rw [hx, issueOp_waits h (memOp_legal hl) (by rw [memOp_fault ha, hd, hf]) (by rw [memOp_stall ha, hd, if_pos hs]) (by decide), memOp_wait ha, hd]

theorem access_gives {t : State} (hf : d.fault = none) (hs : d.stalls = false) (ht : d.act s = t)
    (same : SameIssue (s.core (coreNo o.core)) (t.core (coreNo o.core))) : s.gives o i (t.postMod (coreNo o.core) g u) := by
  refine op_gives h hx (memOp_legal hl) (by rw [memOp_fault ha, hd, hf]) (by rw [memOp_stall ha, hd, hs]; rfl) memOp_jump memOp_halt (memOp_pre s)
    (by rw [memOp_act ha, hd, ht]) ?_
  obtain ⟨st, pc, loops, stepping⟩ := same
  cases u with
  | none => exact ⟨st, pc, loops, stepping⟩
  | some v =>
    rw [State.postMod, State.core_modCore_same]
    exact ⟨st, pc, loops, stepping⟩

end

/-! The commands of slot 2 -/

section
variable {s : State} {o : Slot} {r : BitVec 6} {g : BitVec 3} {am : BitVec 2} {off : BitVec 11} {e : Ecc} {p : Instr × MemKind}

theorem exec_of_load (hp : p ∈ loadsOf o r g am off e) : exec p.1 s = .next (s.issueOp o 2 (memOp p.2 r g am off e)) ∧ p.2.load = true := by
  simp only [loadsOf, List.mem_cons, List.not_mem_nil, or_false] at hp
  rcases hp with rfl | rfl | rfl | rfl | rfl | rfl <;> exact ⟨rfl, rfl⟩

theorem exec_of_store (hp : p ∈ storesOf o r g am off) : exec p.1 s = .next (s.issueOp o 2 (memOp p.2 r g am off ⟨[], []⟩)) ∧ p.2.load = false ∧ p.2.bcast = false := by
  simp only [storesOf, List.mem_cons, List.not_mem_nil, or_false] at hp
  rcases hp with rfl | rfl | rfl | rfl | rfl <;> exact ⟨rfl, rfl, rfl⟩

/-- Each access is one of slot 2, with some bit errors found. -/
theorem exec_of_access (hp : p ∈ loadsOf o r g am off e ++ storesOf o r g am off) : ∃ e', exec p.1 s = .next (s.issueOp o 2 (memOp p.2 r g am off e')) := by
  rw [List.mem_append] at hp
  obtain hp | hp := hp
  · exact ⟨_, (exec_of_load hp).1⟩
  · exact ⟨_, (exec_of_store hp).1⟩

end

end Sys2Proof.Machine
end

section
/-! PROOFS. The addresses of the generators and the checks of an access (04 R132, R134, R150). -/
namespace Sys2Proof.Machine

/-! Addresses -/

/-- The address of the space of a at offset y, modulo 2^56. -/
def putAddr (a : Dword) (y : Int) : Nat := a.toNat / 2 ^ 56 * 2 ^ 56 + (y % 2 ^ 56).toNat

theorem inSpace_toNat (a : Dword) (y : Int) : (inSpace a (y % 2 ^ 56).toNat).toNat = putAddr a y := by
  have := a.isLt
  rw [inSpace, BitVec.toNat_ofNat, putAddr]
  omega

/-- Where a generator's address lies: anywhere, or in its buffer. -/
def Core.wrapped (c : Core) (n : BitVec 3) (y : Int) : Int :=
  if c.mode.getLsbD n.toNat = false then y else (c.baseOf n).toNat + (y - (c.baseOf n).toNat) % ((c.lenOf n).toNat : Int)

section
variable {c : Core} {n : BitVec 3}

/-- A generator gives an address unless it is circular with length 0. -/
def Core.agOk (c : Core) (n : BitVec 3) : Prop := c.mode.getLsbD n.toNat = true → c.lenOf n ≠ 0

theorem wrapAddr_ok (h : c.agOk n) (y : Int) : c.wrapAddr n y = some (c.wrapped n y % 2 ^ 56).toNat := by
  rw [Core.wrapAddr, Core.wrapped]
  cases hm : c.mode.getLsbD n.toNat
  · rfl
  · have h0 : ((c.lenOf n).toNat : Int) ≠ 0 := fun x => h hm (BitVec.eq_of_toNat_eq (by simpa using x))
    dsimp only
    rw [if_neg Bool.noConfusion, if_neg h0, if_neg Bool.noConfusion]

theorem wrapAddr_empty (hm : c.mode.getLsbD n.toNat = true) (h0 : c.lenOf n = 0) (y : Int) : c.wrapAddr n y = none := by
  rw [Core.wrapAddr, hm, if_neg (by decide)]
  exact if_pos (by rw [h0]; rfl)

variable {am : BitVec 2} {off : BitVec 11} {size : Nat}

theorem agu_empty (hm : c.mode.getLsbD n.toNat = true) (h0 : c.lenOf n = 0) : c.agu n am off size = none := by
  simp only [Core.agu, wrapAddr_empty hm h0]
  exact ite_self _

/-- The offset that an access adds to its generator's address, or the step of its post-modify. -/
def Core.agStep (c : Core) (n : BitVec 3) (am : BitVec 2) (off : BitVec 11) (size : Nat) : Int := if am = 1 then (c.mr n).toInt else off.toInt * size

theorem agu_ok (h : c.agOk n) : ∃ e u, c.agu n am off size = some (e, u) ∧
    e.toNat = putAddr (c.ar n) (c.wrapped n (if am = 0 then ((c.ar n).toNat % 2 ^ 56 : Nat) + c.agStep n am off size else ((c.ar n).toNat % 2 ^ 56 : Nat))) ∧
    (am = 0 → u = none) ∧
    (am ≠ 0 → ∃ y, u = some y ∧ y.toNat = putAddr (c.ar n) (c.wrapped n (((c.ar n).toNat % 2 ^ 56 : Nat) + c.agStep n am off size))) := by
  by_cases h0 : am = 0
  · subst h0
    refine ⟨_, _, ?_, inSpace_toNat .., fun _ => rfl, fun x => absurd rfl x⟩
    rw [Core.agu, if_pos rfl, wrapAddr_ok h]
    rfl
  · refine ⟨inSpace (c.ar n) (c.wrapped n ((c.ar n).toNat % 2 ^ 56 : Nat) % 2 ^ 56).toNat, _, ?_, ?_, fun x => absurd x h0, fun _ => ⟨_, rfl, inSpace_toNat ..⟩⟩
    · rw [Core.agu, if_neg h0]
      simp only [wrapAddr_ok h]
      rfl
    · rw [if_neg h0]
      exact inSpace_toNat ..

end

theorem generatorAddresses : Claims.GeneratorAddresses := by
  intro c n am off size _ a x step first put
  refine ⟨fun hm => ?_, fun hm h0 => agu_empty hm h0, fun hm h0 => ?_⟩
  · have e := agu_ok (n := n) (am := am) (off := off) (size := size) (c := c) (fun x => absurd (hm.symm.trans x) (by decide))
    simp only [Core.wrapped, if_pos hm] at e
    exact e
  · have e := agu_ok (n := n) (am := am) (off := off) (size := size) (c := c) (fun _ => h0)
    simp only [Core.wrapped, hm, Bool.true_eq_false, if_false] at e
    exact e

/-! The checks of an access -/

section
variable {s : State} {n : Nat} {k : MemKind} {r : BitVec 6} {a : Dword} {e : Ecc}

theorem memDo_misaligned (ha : a.toNat % k.align ≠ 0) : s.memDo n k r a e = { fault := some (.misaligned a) } := if_pos ha

section
variable (ha : a.toNat % k.align = 0)
include ha

theorem memDo_spad (hs : spaceOf a.toNat = 0) : s.memDo n k r a e = s.memSpad n k r a e := by
  rw [State.memDo, if_neg (not_not.2 ha), hs]
  rfl

theorem memDo_lpddr (hs : spaceOf a.toNat = 1) : s.memDo n k r a e = s.memLpddr n k r a e := by
  rw [State.memDo, if_neg (not_not.2 ha), hs]
  rfl

theorem memDo_fram (hs : spaceOf a.toNat = 2) : s.memDo n k r a e = s.memFram n k r a := by
  rw [State.memDo, if_neg (not_not.2 ha), hs]
  rfl

theorem memDo_ctl (hs : spaceOf a.toNat = 3) : s.memDo n k r a e = s.memCtl n k r a := by
  rw [State.memDo, if_neg (not_not.2 ha), hs]
  rfl

theorem memDo_beyond (hs : 4 ≤ spaceOf a.toNat) : s.memDo n k r a e = { fault := some (.access a) } := by
  rw [State.memDo, if_neg (not_not.2 ha)]
  generalize spaceOf a.toNat = x at hs
  split
  rotate_right
  · rfl
  all_goals omega

end

theorem memSpad_past (h : 2 ^ 20 < a.toNat % 2 ^ 20 + k.size) : s.memSpad n k r a e = { fault := some (.access a) } := if_pos h

theorem memCtl_narrow (h : k.usesV = true ∨ k.size < 4) : s.memCtl n k r a = { fault := some (.access a) } := if_pos (by simpa using h)

end

theorem accessFaults : Claims.AccessFaults := by
  intro s o r g am off e a u h p hp n c
  obtain ⟨e', hx⟩ := exec_of_access (s := s) hp
  refine ⟨access_illegal h hx, fun hl ha => access_agu h hx hl ha, fun hl ha => ?_⟩
  have faults {x : Flt} (hd : s.memDo n p.2 r a e' = { fault := some x }) : s.faults o p.1 2 p.2.op x := access_faults h hx hl ha hd rfl
  refine ⟨fun hm => faults (memDo_misaligned hm), fun hm => ⟨fun hs hp => faults ?_, fun hs => faults (memDo_beyond hm hs), fun hs hk => faults ?_⟩⟩
  · rw [memDo_spad hm hs, memSpad_past hp]
  · rw [memDo_ctl hm hs, memCtl_narrow hk]

/-- Settles O8: a generator's address is its offset brought into its buffer, and each check of an access comes before its effects. -/
theorem generatorAccesses : Obligations.GeneratorAccesses := ⟨generatorAddresses, accessFaults⟩

end Sys2Proof.Machine
end

section
/-! PROOFS. Loads of the own scratchpad (04 R124, R133, R134; 06 R190). -/
namespace Sys2Proof.Machine

/-! What a load delivers -/

section
variable {c d : Core} {k : MemKind} {r : BitVec 6} {l : List Byte}

theorem deliver_g (hk : k.usesV = false) : k.deliver c r l d = d.setG (physG c.rotG (r.setWidth 5)) (BitVec.ofNat 64 (leNat l)) := by
  rw [MemKind.deliver, hk]
  exact if_neg Bool.noConfusion

/-- The register of a vector load: the active lanes replaced by those of v. -/
def lanesLoaded (old : BitVec 1024) (vl v : Nat) : BitVec 1024 := BitVec.ofNat 1024 (setBits old.toNat 0 (32 * min 32 vl) v)

/-- The same word in each of m lanes. -/
def wordInLanes (w m : Nat) : Nat := (List.range m).foldl (fun x j => x + w * 2 ^ (32 * j)) 0

theorem deliver_v (hk : k.usesV = true) :
    k.deliver c r l d = d.setV (physV c.rotV r) (lanesLoaded (c.vr r) c.vl (if k.bcast then wordInLanes (leNat l) 32 else leNat l)) := by
  rw [MemKind.deliver, hk]
  rfl

theorem deliver_same : SameIssue d (k.deliver c r l d) := by
  cases hk : k.usesV
  · rw [deliver_g hk]
    exact Core.setG_same ..
  · rw [deliver_v hk]
    exact ⟨rfl, rfl, rfl, rfl⟩

end

/-- Lanes below vl take those of v, the others stay. -/
theorem elemOf_lanesLoaded (old : BitVec 1024) (vl v : Nat) {j : Nat} (hj : j < 32) :
    elemOf 32 (lanesLoaded old vl v) j = if j < vl then bits v (32 * j) 32 else elemOf 32 old j := by
  apply Nat.eq_of_testBit_eq
  intro i
  rw [testBit_elemOf, apply_ite (Nat.testBit · i), testBit_bits, testBit_elemOf]
  by_cases hi : i < 32
  · rw [lanesLoaded, BitVec.getLsbD_ofNat, testBit_setBits, BitVec.testBit_toNat, Nat.sub_zero, Nat.mul_comm j 32,
      decide_eq_true (show 32 * j + i < 1024 by omega), Bool.true_and]
    by_cases h : j < vl
    · rw [if_pos h, if_pos (by omega)]
    · rw [if_neg h, if_neg (by omega)]
  · simp [hi]

theorem wordInLanes_succ (w m : Nat) : wordInLanes w (m + 1) = wordInLanes w m + w * 2 ^ (32 * m) := by
  rw [wordInLanes, List.range_succ, List.foldl_append]
  rfl

theorem wordInLanes_lt {w : Nat} (hw : w < 2 ^ 32) (m : Nat) : wordInLanes w m < 2 ^ (32 * m) := by
  induction m with
  | zero => exact Nat.one_pos
  | succ m ih =>
    rw [wordInLanes_succ, Nat.mul_succ, Nat.pow_add, Nat.mul_comm (2 ^ (32 * m))]
    calc wordInLanes w m + w * 2 ^ (32 * m) < 2 ^ (32 * m) + w * 2 ^ (32 * m) := Nat.add_lt_add_right ih _
      _ = (w + 1) * 2 ^ (32 * m) := by ring
      _ ≤ 2 ^ 32 * 2 ^ (32 * m) := Nat.mul_le_mul_right _ hw

theorem bits_wordInLanes {w : Nat} (hw : w < 2 ^ 32) {j m : Nat} (hj : j < m) : bits (wordInLanes w m) (32 * j) 32 = w := by
  induction m with
  | zero => omega
  | succ m ih =>
    rw [wordInLanes_succ, bits, Nat.mul_comm w]
    by_cases h : j = m
    · subst h
      rw [Nat.add_mul_div_left _ _ (Nat.two_pow_pos _), Nat.div_eq_of_lt (wordInLanes_lt hw j), Nat.zero_add, Nat.mod_eq_of_lt hw]
    · obtain ⟨q, rfl⟩ : ∃ q, m = j + 1 + q := ⟨m - j - 1, by omega⟩
      rw [show 32 * (j + 1 + q) = 32 * j + (32 + 32 * q) by omega, Nat.pow_add 2 (32 * j), Nat.mul_assoc, Nat.add_mul_div_left _ _ (Nat.two_pow_pos _),
        Nat.pow_add, Nat.mul_assoc, Nat.add_mul_mod_self_left]
      exact ih (by omega)

theorem bytesAt_of_le {l : List Byte} {o n : Nat} (h : o + n ≤ l.length) : bytesAt l o n = (l.drop o).take n := by
  have e : n - ((l.drop o).take n).length = 0 := by simp; omega
  rw [bytesAt, e, List.replicate_zero, List.append_nil]

theorem loadedValues : Claims.LoadedValues := by
  intro c d r l j hj
  refine ⟨fun k hk => deliver_g ?_, fun hl => ⟨_, deliver_v rfl, ?_⟩, fun hl => ⟨_, deliver_v rfl, ?_⟩⟩
  · simp only [List.mem_cons, List.not_mem_nil, or_false] at hk
    rcases hk with rfl | rfl | rfl | rfl <;> rfl
  · rw [elemOf_lanesLoaded _ _ _ hj]
    by_cases h : j < c.vl
    · rw [if_pos h, if_pos h, bytesAt_of_le (by omega), ← bits_leNat, show 8 * (4 * j) = 32 * j by omega]
      rfl
    · rw [if_neg h, if_neg h]
  · have hw : leNat l < 2 ^ 32 := by simpa [hl] using leNat_lt l
    rw [elemOf_lanesLoaded _ _ _ hj]
    exact if_congr Iff.rfl (bits_wordInLanes hw hj) rfl

/-! The bit errors that a read finds change no register of the core -/

theorem spadUnc_core (s : State) (n w : Nat) :
    (s.spadUnc n w).core n = { s.core n with poison := Sparse.put (fun _ => false) (s.core n).poison w true } := by
  have cores : (s.spadUnc n w).cores = (s.modCore n (fun c => { c with poison := Sparse.put (fun _ => false) c.poison w true })).cores := by
    unfold State.spadUnc State.selfReport
    dsimp only
    split <;> simp
  have core : (s.spadUnc n w).core n = (s.modCore n (fun c => { c with poison := Sparse.put (fun _ => false) c.poison w true })).core n := by
    rw [State.core, cores, State.core]
  rw [core, State.core_modCore_same]

theorem spadUnc_same (s : State) (n w : Nat) : SameIssue (s.core n) ((s.spadUnc n w).core n) := by
  rw [spadUnc_core]
  exact ⟨rfl, rfl, rfl, rfl⟩

theorem SameIssue.trans {c d e : Core} (h : SameIssue c d) (g : SameIssue d e) : SameIssue c e :=
  ⟨g.st.trans h.st, g.pc.trans h.pc, g.loops.trans h.loops, g.stepping.trans h.stepping⟩

theorem eccFound_same (s : State) (n : Nat) (ws : List Nat) (e : Ecc) : SameIssue (s.core n) ((s.eccFound n ws e).core n) := by
  have each (l : List Nat) (t : State) : SameIssue (t.core n) ((l.foldl (fun s w => s.spadUnc n w) t).core n) := by
    induction l generalizing t with
    | nil => exact .refl _
    | cons w l ih => exact (spadUnc_same t n w).trans (ih _)
  refine SameIssue.trans ?_ (each ..)
  split
  · exact .refl _
  · simp [State.core]
    exact .refl _

/-! Loads -/

section
variable {s : State} {n : Nat} {k : MemKind} {r : BitVec 6} {a : Dword} {e : Ecc} (hin : a.toNat % 2 ^ 20 + k.size ≤ 2 ^ 20)
  (hw : (s.core n).spadWaits = false)
include hin hw

theorem memSpad_load (hk : k.load = true) : s.memSpad n k r a e =
    { fault := if (s.core n).readPoisoned (a.toNat % 2 ^ 20) (k.moved (s.core n)) e then some (.poison a) else none,
      act := fun t => (t.eccFound n (wordsOf (a.toNat % 2 ^ 20) (k.moved (s.core n))) e).modCore n
        (k.deliver (s.core n) r ((s.core n).spadBytes (a.toNat % 2 ^ 20) (k.moved (s.core n)))),
      onFault := fun t => t.eccFound n (wordsOf (a.toNat % 2 ^ 20) (k.moved (s.core n))) e } := by
  unfold State.memSpad
  dsimp only
  rw [if_neg (Nat.not_lt.2 hin), hw, hk, if_neg Bool.noConfusion, if_pos rfl]

theorem memSpad_store (hk : k.load = false) : s.memSpad n k r a e = { act := fun t => t.spadWrite n (a.toNat % 2 ^ 20) (k.source (s.core n) r) } := by
  unfold State.memSpad
  dsimp only
  rw [if_neg (Nat.not_lt.2 hin), hw, hk, if_neg Bool.noConfusion, if_neg Bool.noConfusion]

end

theorem scratchpadLoads : Claims.ScratchpadLoads := by
  intro s o r g am off e a u h p hp n c x len hl ha hm hs hin hw
  obtain ⟨hx, hk⟩ := exec_of_load (s := s) hp
  have hd := (memDo_spad hm hs).trans (memSpad_load (r := r) (e := e) hin hw hk)
  refine ⟨fun hq => ?_, fun hq => ?_⟩
  · exact access_gives h hx hl ha hd (if_neg (by rw [hq]; decide)) rfl rfl
      ((eccFound_same s n (wordsOf x len) e).trans (modCore_same deliver_same))
  · exact access_faults h hx hl ha hd (if_pos hq)

end Sys2Proof.Machine
end

section
/-! PROOFS. Stores to the own scratchpad, and a load after a store (04 R133 to R135; 06 R190). -/
namespace Sys2Proof.Machine

/-! Bytes written -/

theorem writeBE_all (m : List Host.Cell) (a : Nat) (l : List Byte) : Memory.writeBE m a (l.map (fun b => (true, b))) = Memory.writeN m a l := by
  induction l generalizing m a with
  | nil => rfl
  | cons b l ih => exact ih _ _

theorem leBytes_getD {n i : Nat} (h : i < n) (x : Nat) : (leBytes n x).getD i 0 = BitVec.ofNat 8 (x / 2 ^ (8 * i)) := by
  induction n generalizing i x with
  | zero => omega
  | succ n ih =>
    cases i with
    | zero => rw [leBytes, List.getD_cons_zero, Nat.mul_zero, Nat.pow_zero, Nat.div_one]
    | succ i => rw [leBytes, List.getD_cons_succ, ih (by omega), Nat.div_div_eq_div_mul, Nat.mul_succ, Nat.pow_add, Nat.mul_comm]

theorem mem_wordsOf {off len w : Nat} (h0 : off ≤ 8 * w) (h1 : 8 * w + 8 ≤ off + len) : w ∈ wordsOf off len := by
  rw [wordsOf, if_neg (by omega), List.mem_map]
  exact ⟨w - off / 8, List.mem_range.2 (by omega), by omega⟩

/-- Marks that are taken away from the chosen entries of a list. -/
theorem get_cleared (f : Nat → Bool) (l : List Nat) (m : List (Nat × Bool)) (w : Nat) :
    Sparse.get (fun _ => false) (l.foldl (fun m w => if f w then Sparse.put (fun _ => false) m w false else m) m) w =
      (Sparse.get (fun _ => false) m w && !(decide (w ∈ l) && f w)) := by
  induction l generalizing m with
  | nil => simp
  | cons x l ih =>
    rw [List.foldl_cons, ih]
    by_cases hx : w = x
    · subst hx
      cases hf : f w <;> simp
    · have other : Sparse.get (fun _ => false) (if f x = true then Sparse.put (fun _ => false) m x false else m) w = Sparse.get (fun _ => false) m w := by
        split
        · rw [Sparse.get_put, if_neg hx]
        · rfl
      rw [other, decide_eq_decide.2 (show w ∈ x :: l ↔ w ∈ l by simp [hx])]

section
variable (c : Core) (off : Nat) (l : List Byte)

theorem spadWrite_read (y : Nat) :
    Memory.read (c.spadWrite off l).spad y = if off ≤ y ∧ y < off + l.length then l.getD (y - off) 0 else Memory.read c.spad y := by
  rw [← Memory.read_writeN, ← writeBE_all]
  rfl

/-- A word that is written whole loses its mark, the others keep theirs. -/
theorem spadWrite_poison (w : Nat) :
    (c.spadWrite off l).wordPoisoned w = (c.wordPoisoned w && !(decide (off ≤ 8 * w) && decide (8 * w + 8 ≤ off + l.length))) := by
  have full (w : Nat) : (((l.map (fun b => (true, b))).drop (8 * w - off)).take 8).all (fun p => p.1) = true := by
    rw [List.all_eq_true]
    intro p hp
    obtain ⟨b, _, rfl⟩ := List.mem_map.1 (List.mem_of_mem_drop (List.mem_of_mem_take hp))
    rfl
  have e := get_cleared (fun w => decide (off ≤ 8 * w) && decide (8 * w + 8 ≤ off + l.length)) (wordsOf off l.length) c.poison w
  have h : (c.spadWrite off l).wordPoisoned w = (c.wordPoisoned w && !(decide (w ∈ wordsOf off l.length) && (decide (off ≤ 8 * w) && decide (8 * w + 8 ≤ off + l.length)))) := by
    rw [Core.wordPoisoned, Core.spadWrite, Core.spadWriteBE]
    simp only [full, List.length_map, Bool.and_true]
    exact e
  rw [h]
  by_cases hw : off ≤ 8 * w ∧ 8 * w + 8 ≤ off + l.length
  · rw [decide_eq_true (mem_wordsOf hw.1 hw.2), Bool.true_and]
  · have none : (decide (off ≤ 8 * w) && decide (8 * w + 8 ≤ off + l.length)) = false := by simpa using hw
    rw [none, Bool.and_false]

end

/-! Stores -/

section
variable {s : State} {o : Slot} {i : Instr} {k : MemKind} {r : BitVec 6} {g : BitVec 3} {am : BitVec 2} {off : BitVec 11} {e : Ecc} {a : Dword} {u : Option Dword}

/-- A store of the own scratchpad, issued. -/
theorem store_gives (h : s.executes o) (hx : exec i s = .next (s.issueOp o 2 (memOp k r g am off e))) (hk : k.load = false) (hl : k.legal r am)
    (ha : (s.core (coreNo o.core)).agu g am off k.size = some (a, u)) (hm : a.toNat % k.align = 0) (hs : spaceOf a.toNat = 0)
    (hin : a.toNat % 2 ^ 20 + k.size ≤ 2 ^ 20) (hw : (s.core (coreNo o.core)).spadWaits = false) :
    s.gives o i ((s.spadWrite (coreNo o.core) (a.toNat % 2 ^ 20) (k.source (s.core (coreNo o.core)) r)).postMod (coreNo o.core) g u) :=
  access_gives h hx hl ha ((memDo_spad hm hs).trans (memSpad_store hin hw hk)) rfl rfl rfl (modCore_same ⟨rfl, rfl, rfl, rfl⟩)

end

theorem source_eq {k : MemKind} (c : Core) (r : BitVec 6) : k.source c r =
    leBytes (if k.vec then 4 * min 32 c.vl else k.size) (if k.vec then (c.vr r).toNat else (c.gr (r.setWidth 5)).toNat) := by
  rw [MemKind.source, MemKind.moved]
  cases k.vec <;> rfl

theorem scratchpadStores : Claims.ScratchpadStores := by
  intro s o r g am off a u h p hp n c x v len hl ha hm hs hin hw
  obtain ⟨hx, hk, _⟩ := exec_of_store (s := s) hp
  have src : p.2.source c r = leBytes len v := source_eq c r
  have gives := store_gives h hx hk hl ha hm hs hin hw
  refine ⟨(c.spadWrite x (p.2.source c r)).spad, (c.spadWrite x (p.2.source c r)).poison, fun y => ?_, fun w => ?_, gives⟩
  · rw [spadWrite_read, src, leBytes_length]
    by_cases hy : x ≤ y ∧ y < x + len
    · rw [if_pos hy, if_pos hy, leBytes_getD (by omega)]
    · rw [if_neg hy, if_neg hy]
  · have e := spadWrite_poison c x (p.2.source c r) w
    rwa [src, leBytes_length, ← src] at e

/-! A load after a store -/

theorem eccFound_nil (s : State) (n : Nat) (ws : List Nat) : s.eccFound n ws ⟨[], []⟩ = s := by
  simp [State.eccFound]

/-- The store's eight bytes are read back, unpoisoned. -/
theorem spadWrite_readN (c : Core) (off : Nat) (l : List Byte) : (c.spadWrite off l).spadBytes off l.length = l := by
  refine Eq.trans ?_ (Memory.readN_writeN c.spad off l)
  rw [← writeBE_all]
  rfl

theorem spadWrite_clean (c : Core) {off : Nat} {l : List Byte} (h8 : off % 8 = 0) (hl : l.length = 8) :
    (c.spadWrite off l).readPoisoned off 8 ⟨[], []⟩ = false := by
  rw [Core.readPoisoned, wordsOf, if_neg (by decide), show (off + 8 - 1) / 8 - off / 8 + 1 = 1 by omega]
  have clean := spadWrite_poison c off l (off / 8)
  rw [decide_eq_true (show off ≤ 8 * (off / 8) by omega), decide_eq_true (show 8 * (off / 8) + 8 ≤ off + l.length by omega), Bool.true_and, Bool.not_true, Bool.and_false] at clean
  simp [clean]

/-- The core of a store of 8 bytes, at its next bundle. -/
def Core.stored8 (c : Core) (x : Nat) (v : Dword) : Core := (c.spadWrite x (leBytes 8 v.toNat)).next

/-- A core that has issued a bundle without an effect on the issue can issue the next. -/
theorem executes_issued {s t : State} {o : Slot} {f : Core → Core} (h : s.executes o) (hpc : (s.core (coreNo o.core)).pc.toNat + 32 < 2 ^ 20)
    (hl : ∀ l ∈ (s.core (coreNo o.core)).loops, l.last ≠ (s.core (coreNo o.core)).pc + 16) (hf : SameIssue (s.core (coreNo o.core)) (f (s.core (coreNo o.core))))
    (hp : (f (s.core (coreNo o.core))).pred o = (s.core (coreNo o.core)).pred o) (hr : (f (s.core (coreNo o.core))).reads = (s.core (coreNo o.core)).reads)
    (ht : t = (s.modCore (coreNo o.core) f).issued (coreNo o.core)) : t.executes o := by
  obtain ⟨⟨⟨h1, h2, h3, h4, h5, _⟩, h7, _⟩, hpred⟩ := h
  obtain ⟨st, pc, loops, stepping⟩ := hf
  have core : t.core (coreNo o.core) = (f (s.core (coreNo o.core))).next := by
    rw [ht, State.issued, State.core_inc64, State.core_modCore_same, State.core_modCore_same]
  have pc' : ((f (s.core (coreNo o.core))).pc + 16).toNat = (s.core (coreNo o.core)).pc.toNat + 16 := by
    rw [pc, BitVec.toNat_add, show (16 : BitVec 20).toNat = 16 from rfl]
    omega
  have up : t.inReset = s.inReset ∧ t.tripped = s.tripped := by simp [ht, State.issued]
  refine ⟨⟨⟨up.1.trans h1, up.2.trans h2, ?_, ?_, ?_, ?_⟩, ?_, ?_⟩, ?_⟩ <;> rw [core]
  · exact st.trans h3
  · exact stepping.trans h4
  · exact hr.trans h5
  · rfl
  · show ((f (s.core (coreNo o.core))).pc + 16).toNat + 16 < 2 ^ 20
    rw [pc']
    omega
  · show ∀ l ∈ (f (s.core (coreNo o.core))).loops, l.last ≠ (f (s.core (coreNo o.core))).pc + 16
    rw [loops, pc]
    exact hl
  · exact hp.trans hpred

theorem Core.next_gr (c : Core) (i : BitVec 5) : c.next.gr i = c.gr i := rfl

section
variable (c : Core) (x : Nat) (v : Dword)

theorem stored8_agu (g : BitVec 3) (am : BitVec 2) (off : BitVec 11) (size : Nat) : (c.stored8 x v).agu g am off size = c.agu g am off size := rfl

theorem stored8_spadWaits : (c.stored8 x v).spadWaits = c.spadWaits := rfl

theorem stored8_spadBytes : (c.stored8 x v).spadBytes x 8 = leBytes 8 v.toNat := by
  have e := spadWrite_readN c x (leBytes 8 v.toNat)
  rwa [leBytes_length] at e

theorem stored8_clean (h8 : x % 8 = 0) : (c.stored8 x v).readPoisoned x 8 ⟨[], []⟩ = false :=
  spadWrite_clean c h8 (leBytes_length ..)

end

theorem storeThenLoad : Claims.StoreThenLoad := by
  intro s t o ra rb g a n c h hpc hloops hra hrb ha hm hs hw ht
  have hx : a.toNat % 2 ^ 20 + 8 ≤ 2 ^ 20 := by omega
  have st := store_gives (i := .std o ra g 0 0) (k := .std) h rfl rfl ⟨by decide, .inr hra⟩ ha hm hs hx hw
  have et : t = (s.modCore n (fun d => d.spadWrite (a.toNat % 2 ^ 20) (leBytes 8 (c.gr (ra.setWidth 5)).toNat))).issued n :=
    Host.Outcome.next.inj (ht.symm.trans st)
  have core : t.core n = c.stored8 (a.toNat % 2 ^ 20) (c.gr (ra.setWidth 5)) := by
    rw [et, State.issued, State.core_inc64, State.core_modCore_same, State.core_modCore_same]
    rfl
  have ex : t.executes o := executes_issued (f := fun d => d.spadWrite (a.toNat % 2 ^ 20) (leBytes 8 (c.gr (ra.setWidth 5)).toNat)) h hpc hloops ⟨rfl, rfl, rfl, rfl⟩ rfl rfl et
  obtain ⟨gives, _⟩ := scratchpadLoads t o rb g 0 0 ⟨[], []⟩ a none ex (.ldd o rb g 0 0 ⟨[], []⟩, .ldd) (by simp [loadsOf]) ⟨by decide, .inr hrb⟩
    (by rw [core, stored8_agu]; exact ha) hm hs hx (by rw [core, stored8_spadWaits]; exact hw)
  refine ⟨_, gives (by rw [core]; exact stored8_clean c _ _ (by omega)), fun hne => ?_⟩
  rw [eccFound_nil, State.postMod, State.issued, State.core_inc64, State.core_modCore_same, State.core_modCore_same, core, deliver_g rfl, Core.next_gr, Core.setG_gr, if_neg hne, if_pos rfl]
  have bytes : (c.stored8 (a.toNat % 2 ^ 20) (c.gr (ra.setWidth 5))).spadBytes (a.toNat % 2 ^ 20) (MemKind.ldd.moved (c.stored8 (a.toNat % 2 ^ 20) (c.gr (ra.setWidth 5)))) =
      leBytes 8 (c.gr (ra.setWidth 5)).toNat := stored8_spadBytes ..
  rw [bytes, leNat_leBytes, Nat.mod_eq_of_lt (show _ < 256 ^ 8 from (c.gr (ra.setWidth 5)).isLt), BitVec.ofNat_toNat, BitVec.setWidth_eq]

/-- Settles O7: an access of the own scratchpad reads or writes its bytes, and a read of the bytes just written finds them unpoisoned. -/
theorem scratchpadAccesses : Obligations.ScratchpadAccesses := ⟨scratchpadLoads, loadedValues, scratchpadStores, storeThenLoad⟩

end Sys2Proof.Machine
end

section
/-! PROOFS. Accesses of LPDDR through the remote-line buffer (04 R134; 06 R196, R197). -/
namespace Sys2Proof.Machine

/-! The line buffer -/

theorem State.core_incWrap (s : State) (k m n : Nat) : (s.incWrap k m).core n = s.core n := rfl

section
variable (n line : Nat)

theorem rlbUse_missing {s : State} (h : (s.core n).rlbFind line = none) : s.rlbUse n line = s := by
  rw [State.rlbUse, h]

theorem rlbUse_held {s : State} {l : RlbLine} (h : (s.core n).rlbFind line = some l) :
    s.rlbUse n line = if l.fresh then s.modCore n (fun c => c.rlbSet { l with fresh := false })
      else (s.modCore n (fun c => c.rlbSet { l with fresh := false })).incWrap (spadPage n + 0x68) := by
  rw [State.rlbUse, h]

theorem rlbUse_same (s : State) : SameIssue (s.core n) ((s.rlbUse n line).core n) := by
  cases h : (s.core n).rlbFind line with
  | none => rw [rlbUse_missing n line h]; exact .refl _
  | some l =>
    have set : SameIssue (s.core n) ((s.modCore n (fun c => c.rlbSet { l with fresh := false })).core n) := modCore_same ⟨rfl, rfl, rfl, rfl⟩
    rw [rlbUse_held n line h]
    split
    · exact set
    · rw [State.core_incWrap]
      exact set

/-- Uses of lines after the core has been written as it was. -/
theorem rlbUses_unchanged (lines : List Nat) (s : State) :
    lines.foldl (fun t l => t.rlbUse n l) (s.modCore n id) = lines.foldl (fun t l => t.rlbUse n l) s ∨
      lines.foldl (fun t l => t.rlbUse n l) (s.modCore n id) = (lines.foldl (fun t l => t.rlbUse n l) s).modCore n id := by
  induction lines generalizing s with
  | nil => exact .inr rfl
  | cons x lines ih =>
    have core : (s.modCore n id).core n = s.core n := State.core_modCore_same ..
    cases h : (s.core n).rlbFind x with
    | none =>
      rw [List.foldl_cons, List.foldl_cons, rlbUse_missing n x h, rlbUse_missing n x (by rwa [core])]
      exact ih s
    | some l =>
      rw [List.foldl_cons, List.foldl_cons, rlbUse_held n x h, rlbUse_held n x (by rwa [core]), State.modCore_modCore]
      exact .inl rfl

end

theorem rlbUses_modCore (n : Nat) (lines : List Nat) (s : State) (f : Core → Core) :
    (lines.foldl (fun t l => t.rlbUse n l) (s.modCore n id)).modCore n f = (lines.foldl (fun t l => t.rlbUse n l) s).modCore n f := by
  obtain e | e := rlbUses_unchanged n lines s
  · rw [e]
  · rw [e, State.modCore_modCore]
    rfl

theorem rlbUses_same (n : Nat) (lines : List Nat) (s : State) : SameIssue (s.core n) ((lines.foldl (fun t l => t.rlbUse n l) s).core n) := by
  induction lines generalizing s with
  | nil => exact .refl _
  | cons x lines ih => exact (rlbUse_same n x s).trans (ih _)

theorem rlbStore_same (c : Core) (o : Nat) (l : List (Bool × Byte)) : SameIssue c (c.rlbStore o l) := by
  unfold Core.rlbStore
  induction linesOf o l.length generalizing c with
  | nil => exact .refl c
  | cons x lines ih =>
    refine SameIssue.trans ?_ (ih _)
    dsimp only
    split
    · exact .refl c
    · exact ⟨rfl, rfl, rfl, rfl⟩

/-- A read that finds no bit errors leaves the lines as they are. -/
theorem rlbEcc_nil (s : State) (n o len : Nat) : s.rlbEcc n o len ⟨[], []⟩ = s.modCore n id := by
  simp [State.rlbEcc]
  rfl

/-! An access of a window -/

section
variable {s : State} {n : Nat} {k : MemKind} {r : BitVec 6} {a : Dword} {u : Option Dword} (hs : spaceOf a.toNat = 1) (hb : bits a.toNat 41 15 = 0)
  (hin : a.toNat % 2 ^ 41 + k.size ≤ 2 ^ 41)
include hs hb hin

omit hb hin in
theorem offOf_window : offOf a.toNat = a.toNat % 2 ^ 41 := by
  rw [offOf, hs]
  exact bits_zero ..

theorem window_inside : ¬ (addrBad a.toNat = true ∨ 2 ^ 41 < offOf a.toNat + k.size) := by
  rw [addrBad, hs, offOf_window hs]
  simp only [hb, ne_eq, not_true_eq_false, decide_false, Bool.false_eq_true, false_or, not_lt]
  exact hin

theorem memLpddr_refused (h : s.admits n ⟨1, 0, 0, 0, a.toNat % 2 ^ 41⟩ k.size = false) (e : Ecc) : s.memLpddr n k r a e = { fault := some (.refused a) } := by
  unfold State.memLpddr
  dsimp only
  rw [if_neg (window_inside hs hb hin), offOf_window hs, h]
  rfl

variable (h : s.admits n ⟨1, 0, 0, 0, a.toNat % 2 ^ 41⟩ k.size = true) (hr : (s.core n).retention = .on) (hm : ∀ m ∈ (s.core n).misses, m.status = 0)
include h hr hm

omit hs hb hin h hr in
/-- No miss of a line has failed. -/
theorem failed_none (lines : List Nat) : (s.core n).misses.filter (fun m => lines.contains m.line && decide (m.status ≠ 0)) = [] := by
  rw [List.filter_eq_nil_iff]
  intro m hmem
  simp [hm m hmem]

theorem memLpddr_missing (hl : ∃ l ∈ linesOf (a.toNat % 2 ^ 41) (k.moved (s.core n)), (s.core n).rlbServes (!k.load) l = false) (e : Ecc) :
    s.memLpddr n k r a e = { stalls := true, wait := fun t => (linesOf (a.toNat % 2 ^ 41) (k.moved (s.core n))).foldl (fun t l => t.rlbMiss n (!k.load) l) t } := by
  have all : (!(linesOf (a.toNat % 2 ^ 41) (k.moved (s.core n))).all ((s.core n).rlbServes (!k.load))) = true := by
    simpa using hl
  unfold State.memLpddr
  dsimp only
  rw [if_neg (window_inside hs hb hin), offOf_window hs, h, hr, failed_none hm, all]
  rfl

variable (hl : ∀ l ∈ linesOf (a.toNat % 2 ^ 41) (k.moved (s.core n)), (s.core n).rlbServes (!k.load) l = true)
include hl

theorem memLpddr_store (hk : k.load = false) (e : Ecc) : s.memLpddr n k r a e =
    { act := fun t => ((linesOf (a.toNat % 2 ^ 41) (k.moved (s.core n))).foldl (fun t l => t.rlbUse n l) t).modCore n
        (fun d => d.rlbStore (a.toNat % 2 ^ 41) ((k.source (s.core n) r).map (fun b => (true, b)))) } := by
  have all : (!(linesOf (a.toNat % 2 ^ 41) (k.moved (s.core n))).all ((s.core n).rlbServes (!k.load))) = false := by
    simpa using hl
  unfold State.memLpddr
  dsimp only
  rw [if_neg (window_inside hs hb hin), offOf_window hs, h, hr, failed_none hm, all, hk]
  rfl

theorem memLpddr_load (hk : k.load = true) (hp : ∀ l ∈ (s.core n).rlb, l.poisoned = false) : s.memLpddr n k r a ⟨[], []⟩ =
    { act := fun t => ((linesOf (a.toNat % 2 ^ 41) (k.moved (s.core n))).foldl (fun t l => t.rlbUse n l) (t.modCore n id)).modCore n
        (k.deliver (s.core n) r ((s.core n).rlbBytes (a.toNat % 2 ^ 41) (k.moved (s.core n)))), onFault := fun t => t.modCore n id } := by
  have all : (!(linesOf (a.toNat % 2 ^ 41) (k.moved (s.core n))).all ((s.core n).rlbServes (!k.load))) = false := by
    simpa using hl
  have clean (l : Nat) : (match (s.core n).rlbFind l with | some x => x.poisoned | none => false) = false := by
    cases hf : (s.core n).rlbFind l with
    | none => rfl
    | some x => exact hp x (List.mem_of_find?_eq_some hf)
  unfold State.memLpddr
  dsimp only
  simp only [rlbEcc_nil, State.core_modCore_same, id]
  rw [if_neg (window_inside hs hb hin), offOf_window hs, h, hr, failed_none hm, all, hk]
  simp
  exact fun l _ => clean l

end

theorem remoteAccesses : Claims.RemoteAccesses := by
  intro s o r g am off a u h n c x p hp lines hl ha hm hs hb hin
  have hx : exec p.1 s = .next (s.issueOp o 2 (memOp p.2 r g am off ⟨[], []⟩)) := by
    obtain hp | hp := List.mem_append.1 hp
    · exact (exec_of_load hp).1
    · exact (exec_of_store hp).1
  have at_ {d : MemDo} (hd : s.memLpddr n p.2 r a ⟨[], []⟩ = d) : s.memDo n p.2 r a ⟨[], []⟩ = d := (memDo_lpddr hm hs).trans hd
  refine ⟨fun hr => access_faults h hx hl ha (at_ (memLpddr_refused hs hb hin hr _)) rfl, fun hr hret hmis => ⟨fun serve clean => ⟨fun hk => ?_, fun hk => ?_⟩, fun miss => ?_⟩⟩
  · exact access_gives h hx hl ha (at_ (memLpddr_load hs hb hin hr hret hmis serve hk clean)) rfl rfl (rlbUses_modCore n lines s _)
      ((rlbUses_same n lines s).trans (modCore_same deliver_same))
  · exact access_gives h hx hl ha (at_ (memLpddr_store hs hb hin hr hret hmis serve hk _)) rfl rfl rfl ((rlbUses_same n lines s).trans (modCore_same (rlbStore_same ..)))
  · exact access_stalls h hx hl ha (at_ (memLpddr_missing hs hb hin hr hret hmis miss _)) rfl rfl

end Sys2Proof.Machine
end

section
/-! PROOFS. Accesses over the memory planes (04 R135; 06 R184, R185; 07 R261). -/
namespace Sys2Proof.Machine

/-! The pieces of an access -/

theorem pieces_length {a : Dword} {len : Nat} (h : len ≠ 0) : (pieces a len).length = (a.toNat % 64 + len - 1) / 64 + 1 := by
  simp [pieces, h]

theorem pieces_length_le {a : Dword} {len : Nat} (h : len ≤ 128) : (pieces a len).length ≤ 3 := by
  by_cases h0 : len = 0
  · simp [pieces, h0]
  · rw [pieces_length h0]
    omega

theorem pieces_ne_nil {a : Dword} {len : Nat} (h : 0 < len) : pieces a len ≠ [] := by
  intro e
  have l := pieces_length (a := a) (Nat.ne_of_gt h)
  rw [e, List.length_nil] at l
  omega

/-! Requests -/

/-- The request messages of a list of pieces: length, tag, address, data. -/
def planeMsgs (s : State) (n op : Nat) (l : List (Nat × BitVec 12 × Dword × List Byte)) : List Msg :=
  l.map (fun q => Msg.plane op (s.seqReq n op q.2.1 q.2.2.1 q.1) q.2.2.2 false)

theorem sendAll_nil (s : State) : s.sendAll [] = s := by
  rw [State.sendAll, List.append_nil]

theorem send_sendAll (s : State) (m : Msg) (l : List Msg) : (s.send m).sendAll l = s.sendAll (m :: l) := by
  rw [State.send, State.sendAll, State.sendAll, List.append_assoc]
  rfl

theorem foldl_send {β : Type} (f : β → Msg) (l : List β) (s : State) : l.foldl (fun t x => t.send (f x)) s = s.sendAll (l.map f) := by
  induction l generalizing s with
  | nil => exact (sendAll_nil s).symm
  | cons x l ih =>
    rw [List.foldl_cons, ih, send_sendAll, List.map_cons]

theorem sendAll_modCore (s : State) (l : List Msg) (n : Nat) (f : Core → Core) : (s.sendAll l).modCore n f = (s.modCore n f).sendAll l := rfl

theorem core_sendAll (s : State) (l : List Msg) (n : Nat) : (s.sendAll l).core n = s.core n := rfl

/-- The counts of posted stores after k more. -/
def Core.postedMore (c : Core) (own : Bool) (k : Nat) : Core :=
  { c with posted := c.posted + k, rngPosted := if own then c.rngPosted + k else c.rngPosted }

theorem Core.postedMore_succ (c : Core) (own : Bool) (k : Nat) :
    ({ c with posted := c.posted + 1, rngPosted := c.rngPosted + b2n own } : Core).postedMore own k = c.postedMore own (k + 1) := by
  cases own <;> simp [Core.postedMore, b2n, Nat.add_assoc, Nat.add_comm 1]

/-- Stores that leave one after the other, followed by any change of the core. -/
theorem foldl_posted {β : Type} (n : Nat) (own : Bool) (f : β → Msg) (l : List β) (s : State) (g : Core → Core) :
    (l.foldl (fun t x => (t.modCore n (fun c => { c with posted := c.posted + 1, rngPosted := c.rngPosted + b2n own })).send (f x)) s).modCore n g =
      ((s.sendAll (l.map f)).modCore n (fun c => c.postedMore own l.length)).modCore n g := by
  induction l generalizing s with
  | nil =>
    rw [List.foldl_nil, List.map_nil, sendAll_nil, State.modCore_modCore]
    cases own <;> rfl
  | cons x l ih =>
    rw [List.foldl_cons, ih]
    simp only [send_sendAll, State.modCore_modCore, sendAll_modCore, Core.postedMore_succ]
    rfl

/-! A store over a plane -/

section
variable {s : State} {n op : Nat} {k : MemKind} {r : BitVec 6} {a : Dword} {own : Bool}

/-- What the stores of an access send. -/
def storeMsgs (s : State) (n op : Nat) (k : MemKind) (r : BitVec 6) (a : Dword) (own : Bool) : List Msg :=
  planeMsgs s n op ((pieces a (k.moved (s.core n))).map (fun p => (p.2, if own then 0xFFE else 0xFFD, p.1, bytesAt (k.source (s.core n) r) (p.1 - a).toNat p.2)))

/-- The stores of an access, followed by any change of the core. -/
theorem planeStore_act (g : Core → Core) : ((s.planeStore n op k r a own).act s).modCore n g =
    ((s.sendAll (storeMsgs s n op k r a own)).modCore n (fun c => c.postedMore own (pieces a (k.moved (s.core n))).length)).modCore n g := by
  rw [storeMsgs, planeMsgs, List.map_map]
  exact foldl_posted n own _ _ s g

end

/-! A load over a plane -/

section
variable {s : State} {n op : Nat} {k : MemKind} {r : BitVec 6} {a : Dword} {data : Dword → Nat → BitVec 16 × List Byte → List Byte} {failed : BitVec 16 → Bool}

/-- The tags that a core with no read out gives its reads. -/
def freshTags : List (BitVec 12) := (List.range 12).map (fun i => BitVec.ofNat 12 (0xFF0 + i))

theorem readTags_fresh {c : Core} (h : c.seqReads = []) : c.readTags = freshTags := by
  simp [Core.readTags, h, freshTags]

theorem zip_freshTags {α : Type} {l : List α} (h : l.length ≤ 12) : l.zip freshTags = l.zipIdx.map (fun q => (q.1, BitVec.ofNat 12 (0xFF0 + q.2))) := by
  apply List.ext_getElem
  · simp [freshTags, h]
  · intro i h1 h2
    simp [freshTags]

/-- What the first try of a load sends. -/
def loadMsgs (s : State) (n op : Nat) (ps : List (Dword × Nat)) : List Msg :=
  planeMsgs s n op (ps.zipIdx.map (fun q => (q.1.2, BitVec.ofNat 12 (0xFF0 + q.2), q.1.1, [])))

/-- The reads that a load waits for after its first try. -/
def loadReads (ps : List (Dword × Nat)) : List SeqRead := ps.zipIdx.map (fun q => ⟨q.1.1, BitVec.ofNat 12 (0xFF0 + q.2), false, none⟩)

/-- The reads of a load, sent with their tags. -/
def asks (s : State) (n op : Nat) (rs : List ((Dword × Nat) × BitVec 12)) (t : State) : State :=
  rs.foldl (fun t p => t.send (.plane op (s.seqReq n op p.2 p.1.1 p.1.2) [] false))
    (t.modCore n (fun c => { c with seqReads := c.seqReads ++ rs.map (fun p => { addr := p.1.1, tag := p.2, dropped := false, ans := none }) }))

theorem asks_eq {ps : List (Dword × Nat)} (h : ps.length ≤ 12) (t : State) : asks s n op (ps.zip freshTags) t =
    (t.modCore n (fun c => { c with seqReads := c.seqReads ++ loadReads ps })).sendAll (loadMsgs s n op ps) := by
  rw [asks, foldl_send, zip_freshTags h, List.map_map, List.map_map, loadMsgs, planeMsgs, List.map_map]
  rfl

/-- A load with no earlier store or read out sends its reads and waits. -/
theorem planeLoad_asks (hp : (s.core n).posted = 0) (hr : (s.core n).seqReads = []) (h0 : 0 < k.moved (s.core n)) (h1 : k.moved (s.core n) ≤ 128) :
    s.planeLoad n op k r a data failed = { stalls := true, wait := asks s n op ((pieces a (k.moved (s.core n))).zip freshTags) } := by
  have room : (pieces a (k.moved (s.core n))).length ≤ freshTags.length := (pieces_length_le h1).trans (by decide)
  have unsent : ((pieces a (k.moved (s.core n))).all (fun p => ((s.core n).seqReads.filter (fun x => !x.dropped)).any (fun x => decide (x.addr = p.1)))) = false := by
    obtain ⟨p, hp⟩ := List.exists_mem_of_ne_nil _ (pieces_ne_nil h0)
    rw [List.all_eq_false]
    exact ⟨p, hp, by simp [hr]⟩
  unfold State.planeLoad
  dsimp only
  rw [if_neg (not_not.2 hp), unsent, Bool.not_false, if_pos rfl, readTags_fresh hr, if_pos room]
  rfl

end

/-! The checks of an access -/

section
variable {s : State} {n : Nat} {k : MemKind} {r : BitVec 6} {a : Dword}

/-- An address of fabric RAM that breaks no field and lies in it. -/
def inFram (a : Dword) (size : Nat) : Prop := spaceOf a.toNat = 2 ∧ bits a.toNat 26 30 = 0 ∧ a.toNat % 2 ^ 24 + size ≤ 0xC00000

section
variable (h : inFram a k.size)
include h

theorem fram_inside : ¬ (addrBad a.toNat = true ∨ spaceEnd 2 < offOf a.toNat + k.size) := by
  obtain ⟨hs, hb, hin⟩ := h
  rw [addrBad, offOf, hs]
  simp only [hb, ne_eq, not_true_eq_false, decide_false, Bool.false_eq_true, false_or, not_lt, bits_zero]
  exact hin

theorem fram_offset : offOf a.toNat = a.toNat % 2 ^ 24 := by
  rw [offOf, h.1]
  exact bits_zero ..

theorem memFram_eq : s.memFram n k r a = if s.admits n ⟨2, 0, 0, edgeOf a.toNat, a.toNat % 2 ^ 24⟩ k.size then
    if k.load then s.planeLoad n 5 k r a (fun p len v => bytesAt v.2 (p.toNat % 64) len) (fun st => decide (st ≠ 0)) else s.planeStore n 6 k r a
    else { fault := some (.refused a) } := by
  unfold State.memFram
  dsimp only
  rw [if_neg (fram_inside h), fram_offset h]
  cases s.admits n ⟨2, 0, 0, edgeOf a.toNat, a.toNat % 2 ^ 24⟩ k.size <;> rfl

end

/-- A control access of a word or a pair, of another unit. -/
def atControl (k : MemKind) (a : Dword) : Prop := spaceOf a.toNat = 3 ∧ bits a.toNat 44 12 = 0 ∧ k.usesV = false ∧ 4 ≤ k.size

theorem bits_zero_sub {x lo w lo' w' : Nat} (h : bits x lo w = 0) (h0 : lo ≤ lo') (h1 : lo' + w' ≤ lo + w) : bits x lo' w' = 0 := by
  apply Nat.eq_of_testBit_eq
  intro i
  have b := congrArg (Nat.testBit · (lo' - lo + i)) h
  simp only [testBit_bits, Nat.zero_testBit, Bool.and_eq_false_iff, decide_eq_false_iff_not] at b ⊢
  by_cases hi : i < w'
  · refine .inr (b.elim (fun x => absurd (by omega) x) fun x => ?_)
    rwa [show lo + (lo' - lo + i) = lo' + i by omega] at x
  · exact .inl hi

/-- Whether the sending check lets a core's control access out (07 R261). -/
def State.ctlOut (s : State) (n : Nat) (a : Dword) : Bool :=
  decide (s.niTenant n ≠ 0) && (decide (s.niTenant n = 0xFF) || s.mayRead (s.corePartyOf n) (addrKey (a.toNat % 2 ^ 44)))

theorem memCtl_eq (h : atControl k a) : ∃ failed, s.memCtl n k r a = if s.ctlOut n a then
    if k.load then s.planeLoad n 7 k r a (fun _ len v => bytesAt v.2 0 len) failed
    else s.planeStore n 8 k r a (decide (addrKey (a.toNat % 2 ^ 44) / 4096 * 4096 = rngPage n))
    else { fault := some (.refused a) } := by
  obtain ⟨hs, hb, hv, h4⟩ := h
  have self : selfOf a.toNat = false := decide_eq_false (by rw [bits_zero_sub hb (by decide) (by decide)]; decide)
  have b11 : bits a.toNat 44 11 = 0 := bits_zero_sub hb (by decide) (by decide)
  have out : (s.niTenant n = 0 ∨ decide (s.niTenant n = 0xFF) = false ∧ s.mayRead (s.corePartyOf n) (addrKey (a.toNat % 2 ^ 44)) = false) ↔ ¬ s.ctlOut n a = true := by
    simp [State.ctlOut, or_iff_not_imp_left]
  have wide : (k.usesV || decide (k.size < 4)) = false := by rw [hv, decide_eq_false (by omega)]; rfl
  refine ⟨fun st => decide (st ≠ 0) && !(decide (s.niTenant n = 0xFF) && decide (st = Code.netRouteNone)), ?_⟩
  unfold State.memCtl
  dsimp only
  rw [self, wide, b11]
  simp only [Bool.false_eq_true, if_false, ne_eq, not_true_eq_false, false_and, or_self, out, ite_not]

end

/-! Accesses over the planes, issued -/

section
variable {s : State} {o : Slot} {i : Instr} {k : MemKind} {r : BitVec 6} {g : BitVec 3} {am : BitVec 2} {off : BitVec 11} {e : Ecc} {a : Dword} {u : Option Dword}
  {op : Nat} (h : s.executes o) (hx : exec i s = .next (s.issueOp o 2 (memOp k r g am off e))) (hl : k.legal r am)
  (ha : (s.core (coreNo o.core)).agu g am off k.size = some (a, u))
include h hx hl ha

/-- Stores leave and do not wait. -/
theorem stores_leave {own : Bool} (hd : s.memDo (coreNo o.core) k r a e = s.planeStore (coreNo o.core) op k r a own) :
    s.gives o i (((s.sendAll (storeMsgs s (coreNo o.core) op k r a own)).modCore (coreNo o.core)
      (fun c => c.postedMore own (pieces a (k.moved (s.core (coreNo o.core)))).length)).postMod (coreNo o.core) g u) := by
  have act := planeStore_act (s := s) (n := coreNo o.core) (op := op) (k := k) (r := r) (a := a) (own := own)
  have core : ((s.planeStore (coreNo o.core) op k r a own).act s).core (coreNo o.core) =
      (s.core (coreNo o.core)).postedMore own (pieces a (k.moved (s.core (coreNo o.core)))).length := by
    have e := congrArg (State.core · (coreNo o.core)) (act id)
    simpa only [State.core_modCore_same, id, core_sendAll] using e
  have gives := access_gives h hx hl ha hd rfl rfl rfl (by rw [core]; exact ⟨rfl, rfl, rfl, rfl⟩)
  rw [State.gives] at gives ⊢
  rw [gives]
  cases u with
  | none => rw [State.postMod, State.postMod, State.issued, act, State.issued]
  | some v => rw [State.postMod, State.postMod, act]

/-- A load with no earlier store or read out leaves its requests and stalls. -/
theorem load_asks {data : Dword → Nat → BitVec 16 × List Byte → List Byte} {failed : BitVec 16 → Bool}
    (hd : s.memDo (coreNo o.core) k r a e = s.planeLoad (coreNo o.core) op k r a data failed) (hp : (s.core (coreNo o.core)).posted = 0)
    (hr : (s.core (coreNo o.core)).seqReads = []) (h0 : 0 < k.moved (s.core (coreNo o.core))) (h1 : k.moved (s.core (coreNo o.core)) ≤ 128) :
    exec i s = .next ((s.sendAll (loadMsgs s (coreNo o.core) op (pieces a (k.moved (s.core (coreNo o.core)))))).modCore (coreNo o.core)
      (fun d => { d with stall := .other, seqReads := loadReads (pieces a (k.moved (s.core (coreNo o.core)))) })) := by
  rw [access_stalls h hx hl ha (hd.trans (planeLoad_asks hp hr h0 h1)) rfl rfl]
  dsimp only
  rw [asks_eq ((pieces_length_le h1).trans (by decide)), sendAll_modCore, State.modCore_modCore, sendAll_modCore, State.modCore, hr, List.nil_append]
  rfl

end

/-- No access moves more than 128 bytes, and one that names a g register moves what it counts by. -/
theorem moved_le {o : Slot} {r : BitVec 6} {g : BitVec 3} {am : BitVec 2} {off : BitVec 11} {e : Ecc} {p : Instr × MemKind}
    (hp : p ∈ loadsOf o r g am off e ++ storesOf o r g am off) (c : Core) : p.2.moved c ≤ 128 := by
  have size : p.2.size ≤ 128 := by
    simp only [loadsOf, storesOf, List.cons_append, List.nil_append, List.mem_cons, List.not_mem_nil, or_false] at hp
    rcases hp with rfl | rfl | rfl | rfl | rfl | rfl | rfl | rfl | rfl | rfl | rfl <;> dsimp only <;> decide
  rw [MemKind.moved]
  split
  · omega
  · exact size

theorem moved_of_g {k : MemKind} (h : k.usesV = false) (c : Core) : k.moved c = k.size := by
  rw [MemKind.usesV, Bool.or_eq_false_iff] at h
  rw [MemKind.moved, h.1]
  exact if_neg Bool.noConfusion

theorem planeAccesses : Claims.PlaneAccesses := by
  intro s o r g am off a u h p hp n c x ps fram framOk ctl ctlOk own leaves stored asked hl ha hm
  have hx : exec p.1 s = .next (s.issueOp o 2 (memOp p.2 r g am off ⟨[], []⟩)) := by
    obtain hp | hp := List.mem_append.1 hp
    · exact (exec_of_load hp).1
    · exact (exec_of_store hp).1
  have inside (hf : fram) := (memDo_fram (s := s) (n := n) (k := p.2) (r := r) (e := ⟨[], []⟩) hm hf.1).trans (memFram_eq (k := p.2) hf)
  have control (hc : ctl) : ∃ failed, s.memDo n p.2 r a ⟨[], []⟩ = _ := (memCtl_eq (s := s) (n := n) (k := p.2) (r := r) (a := a) hc).imp fun _ hd =>
    (memDo_ctl (e := ⟨[], []⟩) hm hc.1).trans hd
  refine ⟨fun hf hok => ?_, fun hc hok => ?_, fun hk hf hok => ?_, fun hk hc hok => ?_, fun hk h0 hr hmv hf hok => ?_, fun hk h0 hr hc hok => ?_⟩
  · exact access_faults h hx hl ha ((inside hf).trans (if_neg (ne_true_of_eq_false hok))) rfl
  · obtain ⟨failed, hd⟩ := control hc
    exact access_faults h hx hl ha (hd.trans (if_neg (ne_true_of_eq_false hok))) rfl
  · have notOwn : own = false := by simp [own, hf.1]
    have gives := stores_leave h hx hl ha (own := own) ((inside hf).trans ((if_pos hok).trans ((if_neg (ne_true_of_eq_false hk)).trans (by rw [notOwn]))))
    exact gives
  · obtain ⟨failed, hd⟩ := control hc
    have isOwn : own = decide (addrKey (a.toNat % 2 ^ 44) / 4096 * 4096 = rngPage n) := by simp [own, hc.1]
    have gives := stores_leave h hx hl ha (own := own) (hd.trans ((if_pos hok).trans ((if_neg (ne_true_of_eq_false hk)).trans (by rw [isOwn]))))
    exact gives
  · exact load_asks h hx hl ha ((inside hf).trans ((if_pos hok).trans (if_pos hk))) h0 hr hmv (moved_le hp c)
  · obtain ⟨failed, hd⟩ := control hc
    have hmv : 0 < p.2.moved c := by
      rw [moved_of_g hc.2.2.1]
      exact Nat.lt_of_lt_of_le (by decide) hc.2.2.2
    exact load_asks h hx hl ha (hd.trans ((if_pos hok).trans (if_pos hk))) h0 hr hmv (moved_le hp c)

/-- Settles O9: an access passes its checks, and then uses the lines it holds, asks for those it lacks, or sends its requests. -/
theorem otherSpaces : Obligations.OtherSpaces := ⟨remoteAccesses, planeAccesses⟩

end Sys2Proof.Machine
end

section
/-! PROOFS. The order of the binary32 values (03 R96, R99; 05 R160). -/
namespace Sys2Proof.Machine

/-! The values of the 32 bits of x: sign and magnitude field -/

/-- Whether the 32 bits x are negative, and their magnitude field. -/
def negOf (x : Nat) : Bool := decide (2 ^ 31 ≤ x)
def magOf (x : Nat) : Nat := x % 2 ^ 31

/-- The magnitude field of an infinity; a NaN's is above it. -/
def infMag : Nat := 2 ^ 31 - 2 ^ 23

/-- Significand and exponent of a finite magnitude field. -/
def sigOf (t : Nat) : Nat := if t < 2 ^ 23 then t else 2 ^ 23 + t % 2 ^ 23
def expOf (t : Nat) : Int := if t < 2 ^ 23 then -149 else (t / 2 ^ 23 : Nat) - 150

section
variable {x : Nat} (hx : x < 2 ^ 32)
include hx

theorem sign_bit : decide (x / 2 ^ 31 % 2 = 1) = negOf x := decide_eq_decide.2 (by omega)

theorem unpack_nan (h : infMag < magOf x) :
    Fmt.fp32.unpack x = .nan (decide (x % 2 ^ 23 < 2 ^ 22)) (negOf x) (x % 2 ^ 23 * 2 ^ 29) := by
  have he : x / 2 ^ 23 % 2 ^ 8 = 2 ^ 8 - 1 := by rw [infMag, magOf] at h; omega
  have hm : x % 2 ^ 23 ≠ 0 := by rw [infMag, magOf] at h; omega
  have sg : (Fmt.fp32 ≠ Fmt.e5m2) := by decide
  rw [Fmt.unpack]
  refine (if_pos ⟨rfl, he⟩).trans ((if_neg hm).trans ?_)
  have low : decide (Fmt.fp32 ≠ Fmt.e5m2 ∧ x % 2 ^ 23 < 2 ^ 22) = decide (x % 2 ^ 23 < 2 ^ 22) := decide_eq_decide.2 (and_iff_right sg)
  rw [← sign_bit hx, ← low]
  rfl

theorem unpack_inf (h : magOf x = infMag) : Fmt.fp32.unpack x = .inf (negOf x) := by
  have he : x / 2 ^ 23 % 2 ^ 8 = 2 ^ 8 - 1 := by rw [infMag, magOf] at h; omega
  have hm : x % 2 ^ 23 = 0 := by rw [infMag, magOf] at h; omega
  rw [Fmt.unpack]
  exact (if_pos ⟨rfl, he⟩).trans ((if_pos hm).trans (by rw [← sign_bit hx]; rfl))

theorem unpack_fin (h : magOf x < infMag) : Fmt.fp32.unpack x = .fin (negOf x) (sigOf (magOf x)) (expOf (magOf x)) := by
  have he : ¬ x / 2 ^ 23 % 2 ^ 8 = 2 ^ 8 - 1 := by rw [infMag, magOf] at h; omega
  have sg : decide (x / 2 ^ (23 + 8) % 2 = 1) = negOf x := sign_bit hx
  rw [Fmt.unpack]
  refine (if_neg fun e => he e.2).trans ((if_neg fun e => Special.noConfusion e.1).trans ?_)
  by_cases h0 : x / 2 ^ 23 % 2 ^ 8 = 0
  · have hs : magOf x < 2 ^ 23 := by rw [magOf]; omega
    have hm : x % 2 ^ 23 = magOf x := by rw [magOf]; omega
    rw [sigOf, expOf, if_pos hs, if_pos hs, ← hm, ← sg]
    exact if_pos h0
  · have hs : ¬ magOf x < 2 ^ 23 := by rw [magOf]; omega
    have hm : x % 2 ^ 23 = magOf x % 2 ^ 23 := by rw [magOf]; omega
    have hE : x / 2 ^ 23 % 2 ^ 8 = magOf x / 2 ^ 23 := by rw [magOf]; omega
    rw [sigOf, expOf, if_neg hs, if_neg hs, ← hm, ← hE, ← sg]
    refine (if_neg h0).trans ?_
    have exponent : ((x / 2 ^ 23 % 2 ^ 8 : Nat) : Int) - 127 - 23 = (x / 2 ^ 23 % 2 ^ 8 : Nat) - 150 := by omega
    rw [← exponent]
    rfl

end

/-! The value of a magnitude field grows with the field -/

/-- The value of a finite magnitude field, in units of the smallest. -/
def unitsOf (t : Nat) : Nat := if t < 2 ^ 23 then t else (2 ^ 23 + t % 2 ^ 23) * 2 ^ (t / 2 ^ 23 - 1)

theorem unitsOf_lt {t u : Nat} (h : t < u) : unitsOf t < unitsOf u := by
  have ht := Nat.div_add_mod t (2 ^ 23)
  have hu := Nat.div_add_mod u (2 ^ 23)
  have hm := Nat.mod_lt t (Nat.two_pow_pos 23)
  rw [unitsOf, unitsOf]
  by_cases h1 : u < 2 ^ 23
  · rwa [if_pos h1, if_pos (by omega)]
  · rw [if_neg h1]
    have one : 1 ≤ 2 ^ (u / 2 ^ 23 - 1) := Nat.one_le_two_pow
    by_cases h0 : t < 2 ^ 23
    · rw [if_pos h0]
      calc t < 2 ^ 23 * 1 := by omega
        _ ≤ (2 ^ 23 + u % 2 ^ 23) * 2 ^ (u / 2 ^ 23 - 1) := Nat.mul_le_mul (by omega) one
    · rw [if_neg h0]
      by_cases he : t / 2 ^ 23 = u / 2 ^ 23
      · rw [he]
        exact Nat.mul_lt_mul_of_pos_right (by omega) one
      · have step : 2 * 2 ^ (t / 2 ^ 23 - 1) ≤ 2 ^ (u / 2 ^ 23 - 1) := by
          rw [← Nat.pow_succ']
          exact Nat.pow_le_pow_right (by decide) (by omega)
        calc (2 ^ 23 + t % 2 ^ 23) * 2 ^ (t / 2 ^ 23 - 1) < 2 ^ 23 * 2 * 2 ^ (t / 2 ^ 23 - 1) := Nat.mul_lt_mul_of_pos_right (by omega) Nat.one_le_two_pow
          _ = 2 ^ 23 * (2 * 2 ^ (t / 2 ^ 23 - 1)) := Nat.mul_assoc ..
          _ ≤ (2 ^ 23 + u % 2 ^ 23) * 2 ^ (u / 2 ^ 23 - 1) := Nat.mul_le_mul (by omega) step

theorem unitsOf_lt_iff {t u : Nat} : unitsOf t < unitsOf u ↔ t < u := by
  refine ⟨fun h => ?_, unitsOf_lt⟩
  by_contra hn
  obtain rfl | hlt := Nat.eq_or_lt_of_le (Nat.not_lt.1 hn)
  · exact Nat.lt_irrefl _ h
  · exact Nat.lt_asymm h (unitsOf_lt hlt)

theorem expOf_ge (t : Nat) : -149 ≤ expOf t := by
  rw [expOf]
  split <;> omega

/-- A finite value at a lower exponent, in units of the smallest. -/
theorem sigOf_units {t : Nat} {e : Int} (h0 : -149 ≤ e) (h1 : e ≤ expOf t) : sigOf t * 2 ^ (expOf t - e).toNat * 2 ^ (e + 149).toNat = unitsOf t := by
  rw [Nat.mul_assoc, ← Nat.pow_add, sigOf, unitsOf]
  have sum : (expOf t - e).toNat + (e + 149).toNat = (expOf t + 149).toNat := by omega
  rw [sum, expOf]
  by_cases h : t < 2 ^ 23
  · rw [if_pos h, if_pos h, if_pos h]
    simp
  · rw [if_neg h, if_neg h, if_neg h, show (((t / 2 ^ 23 : Nat) : Int) - 150 + 149).toNat = t / 2 ^ 23 - 1 by omega]

/-! The order -/

/-- The place of a number in the order, -0 below +0. -/
def orderOf (x : Nat) : Int := if negOf x then -(magOf x : Int) - 1 else magOf x

/-- Magnitudes at one exponent are ordered as their fields. -/
theorem scaled_lt_iff {t u : Nat} : sigOf t * 2 ^ (expOf t - min (expOf t) (expOf u)).toNat < sigOf u * 2 ^ (expOf u - min (expOf t) (expOf u)).toNat ↔ t < u := by
  have ht := sigOf_units (t := t) (e := min (expOf t) (expOf u)) (le_min (expOf_ge t) (expOf_ge u)) (min_le_left ..)
  have hu := sigOf_units (t := u) (e := min (expOf t) (expOf u)) (le_min (expOf_ge t) (expOf_ge u)) (min_le_right ..)
  rw [← unitsOf_lt_iff (t := t), ← ht, ← hu]
  exact (Nat.mul_lt_mul_right (Nat.two_pow_pos _)).symm

theorem sigOf_eq_zero {t : Nat} : sigOf t = 0 ↔ t = 0 := by
  rw [sigOf]
  split <;> omega

theorem scaled_eq_zero {t k : Nat} : sigOf t * 2 ^ k = 0 ↔ t = 0 := by
  rw [Nat.mul_eq_zero, sigOf_eq_zero]
  exact or_iff_left (Nat.ne_of_gt (Nat.two_pow_pos k))

/-- Two finite numbers, by their signs. -/
theorem fLess_fin (n m : Bool) (t u : Nat) : fLess (.fin n (sigOf t) (expOf t)) (.fin m (sigOf u) (expOf u)) =
    decide ((if n then -(t : Int) - 1 else t) < if m then -(u : Int) - 1 else u) := by
  have lt := scaled_lt_iff (t := t) (u := u)
  have gt := scaled_lt_iff (t := u) (u := t)
  have zt := scaled_eq_zero (t := t) (k := (expOf t - min (expOf t) (expOf u)).toNat)
  have zu := scaled_eq_zero (t := u) (k := (expOf u - min (expOf t) (expOf u)).toNat)
  rw [min_comm] at gt
  rw [fLess]
  generalize sigOf t * 2 ^ (expOf t - min (expOf t) (expOf u)).toNat = X at *
  generalize sigOf u * 2 ^ (expOf u - min (expOf t) (expOf u)).toNat = Y at *
  cases n <;> cases m <;> simp <;> omega

theorem fLess_fin_inf (n y : Bool) (m : Nat) (e : Int) : fLess (.fin n m e) (.inf y) = !y := rfl
theorem fLess_inf_fin (x n : Bool) (m : Nat) (e : Int) : fLess (.inf x) (.fin n m e) = x := rfl
theorem fLess_inf_inf (x y : Bool) : fLess (.inf x) (.inf y) = (x && !y) := rfl

section
variable {x y : Nat} (hx : x < 2 ^ 32) (hy : y < 2 ^ 32) (h : magOf x ≤ infMag) (g : magOf y ≤ infMag)
include hx hy h g

theorem fLess_numbers : fLess (Fmt.fp32.unpack x) (Fmt.fp32.unpack y) = decide (orderOf x < orderOf y) := by
  rw [orderOf, orderOf]
  obtain hx' | hx' := Nat.lt_or_eq_of_le h <;> obtain hy' | hy' := Nat.lt_or_eq_of_le g
  · rw [unpack_fin hx hx', unpack_fin hy hy', fLess_fin]
  · rw [unpack_fin hx hx', unpack_inf hy hy', fLess_fin_inf]
    cases negOf x <;> cases negOf y <;> simp <;> omega
  · rw [unpack_inf hx hx', unpack_fin hy hy', fLess_inf_fin]
    cases negOf x <;> cases negOf y <;> simp <;> omega
  · rw [unpack_inf hx hx', unpack_inf hy hy', fLess_inf_inf]
    cases negOf x <;> cases negOf y <;> simp <;> omega

end

/-! NaN, signalling, zero -/

section
variable {x : Nat} (hx : x < 2 ^ 32)
include hx

theorem isNan_unpack : (Fmt.fp32.unpack x).isNan = decide (infMag < magOf x) := by
  obtain h | h | h := Nat.lt_trichotomy (magOf x) infMag
  · rw [unpack_fin hx h, decide_eq_false (by omega)]
    rfl
  · rw [unpack_inf hx h, decide_eq_false (by omega)]
    rfl
  · rw [unpack_nan hx h, decide_eq_true h]
    rfl

theorem isSig_unpack : (Fmt.fp32.unpack x).isSig = (decide (infMag < magOf x) && decide (x % 2 ^ 23 < 2 ^ 22)) := by
  obtain h | h | h := Nat.lt_trichotomy (magOf x) infMag
  · rw [unpack_fin hx h, decide_eq_false (by omega)]
    rfl
  · rw [unpack_inf hx h, decide_eq_false (by omega)]
    rfl
  · rw [unpack_nan hx h, decide_eq_true h]
    rfl

omit hx in
theorem isZero_fin {n : Bool} {m : Nat} {e : Int} : (FVal.fin n m e).isZero = decide (m = 0) := by
  cases m <;> rfl

theorem isZero_unpack : (Fmt.fp32.unpack x).isZero = decide (magOf x = 0) := by
  obtain h | h | h := Nat.lt_trichotomy (magOf x) infMag
  · rw [unpack_fin hx h, isZero_fin, decide_eq_decide.2 sigOf_eq_zero]
  · rw [unpack_inf hx h, h]
    rfl
  · rw [unpack_nan hx h, decide_eq_false (p := magOf x = 0) (by omega)]
    rfl

/-- A NaN made quiet: the top bit of its mantissa field is set. -/
theorem nanBits_unpack (h : infMag < magOf x) : Fmt.fp32.nanBits (Fmt.fp32.unpack x) = if x % 2 ^ 23 < 2 ^ 22 then x + 2 ^ 22 else x := by
  have quiet : 2 ^ 22 ||| x % 2 ^ 23 = if x % 2 ^ 23 < 2 ^ 22 then 2 ^ 22 + x % 2 ^ 23 else x % 2 ^ 23 := by
    by_cases hm : x % 2 ^ 23 < 2 ^ 22
    · have e := Nat.two_pow_add_eq_or_of_lt hm 1
      rw [Nat.mul_one] at e
      rw [if_pos hm, e]
    · have split : x % 2 ^ 23 = 2 ^ 22 ||| x % 2 ^ 22 := by
        have lt : x % 2 ^ 22 < 2 ^ 22 := Nat.mod_lt _ (Nat.two_pow_pos _)
        have e := Nat.two_pow_add_eq_or_of_lt lt 1
        rw [Nat.mul_one] at e
        rw [← e]
        omega
      rw [if_neg hm, split, ← Nat.or_assoc, Nat.or_self]
  have pay : x % 2 ^ 23 * 2 ^ 29 / 2 ^ (52 - 23) % 2 ^ 23 = x % 2 ^ 23 := by
    rw [show 52 - 23 = 29 from rfl, Nat.mul_div_cancel _ (Nat.two_pow_pos 29), Nat.mod_mod]
  have bits : Fmt.fp32.nanBits (Fmt.fp32.unpack x) = Fmt.fp32.signed (negOf x) ((2 ^ 8 - 1) * 2 ^ 23 + (2 ^ 22 ||| x % 2 ^ 23)) := by
    rw [unpack_nan hx h, Fmt.nanBits]
    refine (if_pos (.inl rfl)).trans ?_
    exact congrArg (fun p => Fmt.fp32.signed (negOf x) ((2 ^ 8 - 1) * 2 ^ 23 + (2 ^ 22 ||| p))) pay
  rw [infMag, magOf] at h
  rw [bits, quiet, Fmt.signed, negOf]
  by_cases hs : 2 ^ 31 ≤ x
  · rw [decide_eq_true hs, if_pos rfl]
    show 2 ^ 31 + _ = _
    split <;> omega
  · rw [decide_eq_false hs, if_neg Bool.noConfusion]
    split <;> omega

end

theorem fLess_nan_left {a : FVal} (b : FVal) (h : a.isNan = true) : fLess a b = false := by
  cases a with
  | nan _ _ _ => rfl
  | inf _ => exact absurd h Bool.noConfusion
  | fin _ _ _ => exact absurd h Bool.noConfusion

theorem fLess_nan_right (a : FVal) {b : FVal} (h : b.isNan = true) : fLess a b = false := by
  cases b with
  | nan _ _ _ => cases a <;> rfl
  | inf _ => exact absurd h Bool.noConfusion
  | fin _ _ _ => exact absurd h Bool.noConfusion

end Sys2Proof.Machine
end

section
/-! PROOFS. The integer, logic, moving and compare operations of the vector unit, and its minima and maxima (04 R137; 05 R160, R162). -/
namespace Sys2Proof.Machine

theorem elemOf_lt (w : Nat) (v : BitVec 1024) (j : Nat) : elemOf w v j < 2 ^ w := Nat.mod_lt _ (Nat.two_pow_pos w)

section
variable {s : State} {o : Slot} {vd va vb : BitVec 6} (h : s.executes o)
include h

omit h in
/-- Results that agree in each element's bits and flags. -/
theorem lanewise_congr {i : Instr} {w e : Nat} {base : State} {g g' : Nat → Nat × Flags} (hl : s.lanewise o i vd w e base g)
    (hg : ∀ j, (g j).1 % 2 ^ w = (g' j).1 % 2 ^ w ∧ (g j).2 = (g' j).2) : s.lanewise o i vd w e base g' := by
  obtain ⟨r, hr, gives⟩ := hl
  refine ⟨r, fun j hj => ?_, ?_⟩
  · rw [hr j hj, (hg j).1]
  · have flags : (fun (f : Flags) j => f ||| (g j).2) = fun f j => f ||| (g' j).2 := by
      funext f j
      rw [(hg j).2]
    rwa [flags] at gives

/-- An operation on 32-bit lanes that takes no field of MOD: its results for MOD = 0, its fault for any other. -/
theorem laneOp_rule {f : BitVec 4 → Instr} {op : Nat} {g : VecIn → Nat → Nat × Flags} {g' : Nat → Nat × Flags}
    (hx : ∀ m, exec (f m) s = .next (s.issueOp o 3 (vecOp (laneOp op m g) vd va vb m)))
    (hg : ∀ j, (g (s.vecIn (coreNo o.core) va vb vd 0 (s.keyedDraw (coreNo o.core))) j).1 % 2 ^ 32 = (g' j).1 % 2 ^ 32 ∧
      (g (s.vecIn (coreNo o.core) va vb vd 0 (s.keyedDraw (coreNo o.core))) j).2 = (g' j).2) :
    s.lanewise o (f 0) vd 32 (s.core (coreNo o.core)).vl s g' ∧ ∀ m, m ≠ 0 → s.faults o (f m) 3 op .illegal := by
  refine ⟨lanewise_congr (vecOp_lanewise h (hx 0) rfl (fun hd => nomatch hd) rfl rfl) hg, fun m hm => ?_⟩
  have bad : (laneOp op m g).illegal = modBad m false false false := Bool.false_or _
  have faults := vecOp_illegal h (hx m) (by rw [bad, modBad_none, decide_eq_true hm])
  exact faults

end

theorem agree {p q : Nat × Flags} (h : p = q) : p.1 % 2 ^ 32 = q.1 % 2 ^ 32 ∧ p.2 = q.2 := by
  rw [h]
  exact ⟨rfl, rfl⟩

/-! Compares -/

/-- The place of a number in the order in which -0 equals +0. -/
def valueOf (x : Nat) : Int := if x < 2 ^ 31 then (x : Int) else -((x % 2 ^ 31 : Nat) : Int)

section
variable {x y : Nat} (hx : x < 2 ^ 32) (hy : y < 2 ^ 32)
include hx hy

/-- A number's two orders: they differ at the zeros alone. -/
theorem orderOf_lt_iff : valueOf x < valueOf y ↔ orderOf x < orderOf y ∧ ¬ (magOf x = 0 ∧ magOf y = 0) := by
  simp only [valueOf, orderOf, negOf, magOf, decide_eq_true_eq]
  split <;> split <;> split <;> split <;> omega

theorem numLess_unpack : numLess (Fmt.fp32.unpack x) (Fmt.fp32.unpack y) =
    (!decide (infMag < magOf x) && !decide (infMag < magOf y) && decide (valueOf x < valueOf y)) := by
  by_cases nx : infMag < magOf x
  · rw [numLess, fLess_nan_left _ (by rw [isNan_unpack hx, decide_eq_true nx]), decide_eq_true nx]
    rfl
  · by_cases ny : infMag < magOf y
    · rw [numLess, fLess_nan_right _ (by rw [isNan_unpack hy, decide_eq_true ny]), decide_eq_true ny, Bool.not_true, Bool.and_false]
      rfl
    · rw [numLess, fLess_numbers hx hy (Nat.not_lt.1 nx) (Nat.not_lt.1 ny), isZero_unpack hx, isZero_unpack hy, Bool.eq_iff_iff]
      simp [nx, ny, orderOf_lt_iff hx hy]

theorem fEq_unpack : fEq (Fmt.fp32.unpack x) (Fmt.fp32.unpack y) =
    (!decide (infMag < magOf x) && !decide (infMag < magOf y) && decide (valueOf x = valueOf y)) := by
  rw [fEq, isNan_unpack hx, isNan_unpack hy, isZero_unpack hx, isZero_unpack hy]
  by_cases nx : infMag < magOf x
  · rw [decide_eq_true nx, decide_eq_false (p := magOf x = 0) (by omega)]
    rfl
  · by_cases ny : infMag < magOf y
    · rw [decide_eq_true ny, decide_eq_false (p := magOf y = 0) (by omega), Bool.not_true, Bool.and_false, Bool.and_false]
      rfl
    · have eq : valueOf x = valueOf y ↔ ¬ orderOf x < orderOf y ∧ ¬ orderOf y < orderOf x ∨ magOf x = 0 ∧ magOf y = 0 := by
        have lt := orderOf_lt_iff hx hy
        have gt := orderOf_lt_iff hy hx
        have zero : magOf x = 0 ∧ magOf y = 0 → valueOf x = valueOf y := by
          simp only [valueOf, magOf]
          split <;> split <;> omega
        omega
      rw [fLess_numbers hx hy (Nat.not_lt.1 nx) (Nat.not_lt.1 ny), fLess_numbers hy hx (Nat.not_lt.1 ny) (Nat.not_lt.1 nx), Bool.eq_iff_iff]
      simp [nx, ny, eq]

omit hx hy in
/-- A compare of two lanes, by what its test and its invalid operands are. -/
theorem cmpLane_unpack {anyNan : Bool} {p : FVal → FVal → Bool} {b inv : Bool} (hp : p (Fmt.fp32.unpack x) (Fmt.fp32.unpack y) = b)
    (hi : (if anyNan then (Fmt.fp32.unpack x).isNan || (Fmt.fp32.unpack y).isNan else (Fmt.fp32.unpack x).isSig || (Fmt.fp32.unpack y).isSig) = inv) :
    cmpLane anyNan p (Fmt.fp32.unpack x) (Fmt.fp32.unpack y) = (if b then 2 ^ 32 - 1 else 0, if inv then fInvalid else 0) := by
  rw [cmpLane, hp, hi]
  rfl

end

theorem vectorLanes : Claims.VectorLanes := by
  intro s o vd va vb h c A B D nan sig ones inv pos
  have hA (j : Nat) : A j < 2 ^ 32 := elemOf_lt ..
  have hB (j : Nat) : B j < 2 ^ 32 := elemOf_lt ..
  have sub (j : Nat) : (2 ^ 32 + A j - B j) % 2 ^ 32 % 2 ^ 32 = (A j + (2 ^ 32 - B j)) % 2 ^ 32 := by
    have := hB j
    rw [Nat.mod_mod]
    congr 1
    omega
  have nans (j : Nat) : ((Fmt.fp32.unpack (A j)).isNan || (Fmt.fp32.unpack (B j)).isNan) = (nan (A j) || nan (B j)) := by
    rw [isNan_unpack (hA j), isNan_unpack (hB j)]
    rfl
  have sigs (j : Nat) : ((Fmt.fp32.unpack (A j)).isSig || (Fmt.fp32.unpack (B j)).isSig) = (sig (A j) || sig (B j)) := by
    rw [isSig_unpack (hA j), isSig_unpack (hB j)]
    rfl
  have le (j : Nat) : (numLess (Fmt.fp32.unpack (A j)) (Fmt.fp32.unpack (B j)) || fEq (Fmt.fp32.unpack (A j)) (Fmt.fp32.unpack (B j))) =
      (!nan (A j) && !nan (B j) && decide (pos (A j) ≤ pos (B j))) := by
    rw [numLess_unpack (hA j) (hB j), fEq_unpack (hA j) (hB j), ← Bool.and_or_distrib_left, ← Bool.decide_or, decide_eq_decide.2 (Int.le_iff_lt_or_eq).symm]
    rfl
  have lt (j : Nat) := cmpLane_unpack (anyNan := true) (numLess_unpack (hA j) (hB j)) (nans j)
  have lte (j : Nat) := cmpLane_unpack (anyNan := true) (p := fun a b => numLess a b || fEq a b) (le j) (nans j)
  have eq (j : Nat) := cmpLane_unpack (anyNan := false) (fEq_unpack (hA j) (hB j)) (sigs j)
  refine ⟨?_, fun hb => ?_, fun m hm => ?_⟩
  · simp only [List.forall_mem_cons]
    refine ⟨laneOp_rule h (fun _ => rfl) fun j => ⟨Nat.mod_mod _ _, rfl⟩, laneOp_rule h (fun _ => rfl) fun j => ⟨sub j, rfl⟩,
      laneOp_rule h (fun _ => rfl) fun j => ⟨rfl, rfl⟩, laneOp_rule h (fun _ => rfl) fun j => ⟨rfl, rfl⟩, laneOp_rule h (fun _ => rfl) fun j => ⟨rfl, rfl⟩,
      laneOp_rule h (fun _ => rfl) fun j => ⟨rfl, rfl⟩, laneOp_rule h (fun _ => rfl) fun j => ⟨rfl, rfl⟩,
      laneOp_rule h (fun _ => rfl) fun j => agree (lt j), laneOp_rule h (fun _ => rfl) fun j => agree (lte j), laneOp_rule h (fun _ => rfl) fun j => agree (eq j),
      fun _ hn => absurd hn List.not_mem_nil⟩
  · have legal : (opBcast va vb 0).illegal = (decide (31 < vb.toNat) || modBad 0 false false false) := rfl
    exact vecOp_lanewise (q := opBcast va vb 0) h rfl (by rw [legal, decide_eq_false (by omega), modBad_none]; rfl) (fun hd => nomatch hd) rfl rfl
  · have legal : (opBcast va vb m).illegal = (decide (31 < vb.toNat) || modBad m false false false) := rfl
    refine vecOp_illegal (q := opBcast va vb m) h rfl ?_
    rw [legal, modBad_none, Bool.or_eq_true, decide_eq_true_iff, decide_eq_true_iff]
    exact hm

/-! Minima and maxima -/

/-- The flag of signalling operands, by their bits. -/
theorem sigFlag_unpack {x y : Nat} {b : Bool} (h : ((Fmt.fp32.unpack x).isSig || (Fmt.fp32.unpack y).isSig) = b) :
    sigFlag [Fmt.fp32.unpack x, Fmt.fp32.unpack y] = if b then fInvalid else 0 := by
  rw [sigFlag, ← h]
  simp

theorem minmax_unpack {x y : Nat} (hx : x < 2 ^ 32) (hy : y < 2 ^ 32) (isMax : Bool) : Fmt.fp32.minmax isMax x y =
    (if decide (infMag < magOf x) && decide (infMag < magOf y) then (if x % 2 ^ 23 < 2 ^ 22 then x + 2 ^ 22 else x)
      else if decide (infMag < magOf x) then y else if decide (infMag < magOf y) then x
      else if isMax then (if orderOf x < orderOf y then y else x) else (if orderOf y < orderOf x then y else x),
      sigFlag [Fmt.fp32.unpack x, Fmt.fp32.unpack y]) := by
  rw [Fmt.minmax, isNan_unpack hx, isNan_unpack hy]
  by_cases nx : infMag < magOf x
  · by_cases ny : infMag < magOf y
    · simp [nx, ny, nanBits_unpack hx nx]
    · simp [nx, ny]
  · by_cases ny : infMag < magOf y
    · simp [nx, ny]
    · cases isMax <;> simp [nx, ny, fLess_numbers hx hy (Nat.not_lt.1 nx) (Nat.not_lt.1 ny), fLess_numbers hy hx (Nat.not_lt.1 ny) (Nat.not_lt.1 nx)]

theorem orderOf_eq {x : Nat} (hx : x < 2 ^ 32) : orderOf x = if x < 2 ^ 31 then (x : Int) else -((x % 2 ^ 31 : Nat) : Int) - 1 := by
  simp only [orderOf, negOf, magOf, decide_eq_true_eq]
  split <;> split <;> omega

theorem vectorMinMax : Claims.VectorMinMax := by
  intro s o vd va vb h c A B nan sig quiet order pick fl
  have hA (j : Nat) : A j < 2 ^ 32 := elemOf_lt ..
  have hB (j : Nat) : B j < 2 ^ 32 := elemOf_lt ..
  have result (isMax : Bool) (j : Nat) : Fmt.fp32.minmax isMax (A j) (B j) = (pick isMax (A j) (B j), fl (A j) (B j)) := by
    rw [minmax_unpack (hA j) (hB j), orderOf_eq (hA j), orderOf_eq (hB j), sigFlag_unpack (by rw [isSig_unpack (hA j), isSig_unpack (hB j)])]
    rfl
  have minima := laneOp_rule h (f := fun m => .fminS o vd va vb m) (fun _ => rfl) fun j => agree (result false j)
  have maxima := laneOp_rule h (f := fun m => .fmaxS o vd va vb m) (fun _ => rfl) fun j => agree (result true j)
  exact ⟨minima.1, maxima.1, fun m hm => ⟨minima.2 m hm, maxima.2 m hm⟩⟩

/-- Settles O10: each operation maps a function of two lanes, and the binary32 order is that of the signed magnitudes. -/
theorem vectorIntegers : Obligations.VectorIntegers := ⟨vectorLanes, vectorMinMax⟩

end Sys2Proof.Machine
end

section
/-! PROOFS. ISSUE of a descriptor at a bad offset (04 R144, R150; 06 R190). -/
namespace Sys2Proof.Machine

/-- A fault of the sequencer changes no register of the core's other pages. -/
theorem State.seqFault_otherPage (s : State) {n : Nat} (slot op : Nat) (f : Flt) (hn : n < 50688) {p off : Nat} (h0 : 0 < p) (hp : p < 10) (ho : off < 4096) :
    (s.seqFault n slot op f).reg (corePage n p + off) = s.reg (corePage n p + off) := by
  have other {k : Nat} (hk : k < 4096) : corePage n p + off ≠ corePage n 0 + k := by
    simp only [corePage, pageAt]
    omega
  have held : (s.holdFault n slot op f (s.core n).pc).reg (corePage n p + off) = s.reg (corePage n p + off) := by
    cases hh : s.bit (corePage n 0 + 0x4C) 0
    · rw [State.holdFault_of_free _ _ _ _ hh, State.setReg64_reg, if_neg (other (by decide)), Nat.add_assoc, if_neg (other (by decide)), State.setReg_reg,
        if_neg (other (by decide)), State.setReg_reg, if_neg (other (by decide))]
    · rw [State.holdFault_of_held _ _ _ _ hh]
  have entered : (s.faultEntered n slot op f).reg (corePage n p + off) = s.reg (corePage n p + off) := by
    rw [State.faultEntered, State.raiseIrq_reg, if_neg (other (by decide)), State.enterCode, State.enterCodes_reg, if_neg (other (by decide)), held]
  obtain ⟨u, hu, h⟩ := s.seqFault_after n slot op f
  rw [← entered, ← hu.coreReg hn hp ho]
  obtain h | ⟨x, h⟩ := h <;> rw [h] <;> rfl

/-- The operation of ISSUE at a bad offset faults, and it has read the descriptor there. -/
theorem opIssue_misplaced {s : State} {n : Nat} {cls ctr : BitVec 2} {ga : BitVec 5} {e : Ecc} {off : Nat} (ho : ((s.core n).gr ga).toNat % 2 ^ 20 = off)
    (hp : off % 64 ≠ 0) : (opIssue cls ctr ga e s n).fault = some .issue ∧
      (opIssue cls ctr ga e s n).onFault s = s.eccFound n (wordsOf off ((s.core n).descBytes cls.toNat off)) e := by
  subst ho
  exact ⟨if_pos (.inr hp), rfl⟩

/-- Core 0 RUNNING after reset, with g1 = 1: no multiple of 64. -/
def oddOffset : State := State.reset.modCore 0 (fun c => { c.setG 1 1 with st := .running })

/-- A slot of core 0 that always executes. -/
def slotOf0 : Slot := ⟨⟨0, 0⟩, 0, false⟩

theorem oddOffset_executes : oddOffset.executes slotOf0 := by
  unfold State.executes State.issues State.atBundle
  decide

/-- The read finds a correctable error in the word at 0, which is counted. -/
theorem oddOffset_counts : oddOffset.reg (spadPage 0 + 0x54) = 0 ∧ (oddOffset.eccFound 0 (wordsOf 1 ((oddOffset.core 0).descBytes 1 1)) ⟨[0], []⟩).reg (spadPage 0 + 0x54) = 1 := by
  decide

/-- Refutes O15: an ISSUE fault of a bad offset is not the fault alone. In oddOffset the descriptor at offset 1 is read all the same, and the single-bit
error that the read finds in the word at 0 is counted. -/
theorem not_issueResults : ¬ Obligations.IssueResults := by
  intro h
  obtain ⟨_, hbad, _⟩ := h oddOffset slotOf0 1 0 1 ⟨[0], []⟩ oddOffset_executes
  have alone : oddOffset.faults slotOf0 (.issue slotOf0 1 0 1 ⟨[0], []⟩) 0 0x06 .issue := hbad (by decide) (by decide)
  obtain ⟨hf, ho⟩ := opIssue_misplaced (s := oddOffset) (n := 0) (cls := 1) (ctr := 0) (ga := 1) (e := ⟨[0], []⟩) (off := 1) (by decide) (by decide)
  have run := issueOp_fault (slot := 0) (f := opIssue 1 0 1 ⟨[0], []⟩) oddOffset_executes rfl hf
  have same := Host.Outcome.next.inj ((congrArg Host.Outcome.next run.symm).trans alone)
  obtain ⟨before, after⟩ := oddOffset_counts
  have counted : oddOffset.reg (spadPage 0 + 0x54) = 1 :=
    calc oddOffset.reg (spadPage 0 + 0x54) = (oddOffset.seqFault 0 0 0x06 .issue).reg (spadPage 0 + 0x54) :=
          (State.seqFault_otherPage oddOffset 0 0x06 .issue (by decide) (by decide) (by decide) (by decide)).symm
      _ = (((opIssue 1 0 1 ⟨[0], []⟩ oddOffset 0).onFault oddOffset).seqFault 0 0 0x06 .issue).reg (spadPage 0 + 0x54) :=
          congrArg (fun t => t.reg (spadPage 0 + 0x54)) same.symm
      _ = ((opIssue 1 0 1 ⟨[0], []⟩ oddOffset 0).onFault oddOffset).reg (spadPage 0 + 0x54) :=
          State.seqFault_otherPage _ 0 0x06 .issue (by decide) (by decide) (by decide) (by decide)
      _ = 1 := (congrArg (fun t => t.reg (spadPage 0 + 0x54)) ho).trans after
  exact absurd (before.symm.trans counted) (by decide)

end Sys2Proof.Machine
end

section
/-! PROOFS. The collar's streams and register accesses (04 R147; 10 R336, R338, R342; 11 R348). -/
namespace Sys2Proof.Machine

theorem State.onIsland_of_up {s : State} (hr : s.inReset = false) (ht : s.tripped = false) (f : State → State) : s.onIsland f = f s := by
  rw [State.onIsland, hr, ht, if_neg (by decide)]

/-! Beats of a vector register -/

/-- The four beats of a vector register, lanes 8b to 8b + 7 on beat b. -/
theorem beats_eq (v : BitVec 1024) : (List.range 4).map (fun b => (BitVec.ofNat 2 b, (v >>> (256 * b)).setWidth 256)) =
    [(0, v.extractLsb' 0 256), (1, v.extractLsb' 256 256), (2, v.extractLsb' 512 256), (3, v.extractLsb' 768 256)] := by
  have part (b : Nat) : (v >>> (256 * b)).setWidth 256 = v.extractLsb' (256 * b) 256 := by
    apply BitVec.eq_of_getLsbD_eq
    intro i hi
    simp [hi]
  simp only [List.range, List.range.loop, List.map_cons, List.map_nil, part]
  rfl

/-- Four beats, the first lowest, put together. -/
theorem toNat_beats {w : Nat} (b0 b1 b2 b3 : BitVec w) (rest : List (BitVec w)) : (b3 ++ b2 ++ b1 ++ b0 : BitVec (w + w + w + w)).toNat =
    (List.range 4).foldl (fun x b => x + ((b0 :: b1 :: b2 :: b3 :: rest).getD b 0).toNat * 2 ^ (w * b)) 0 := by
  have append {u : Nat} (x : BitVec u) (y : BitVec w) : (x ++ y).toNat = x.toNat * 2 ^ w + y.toNat := by
    rw [BitVec.toNat_append, ← Nat.shiftLeft_add_eq_or_of_lt y.isLt, Nat.shiftLeft_eq]
  simp only [append, List.range, List.range.loop, List.foldl_cons, List.foldl_nil, List.getD_cons_zero, List.getD_cons_succ, Nat.pow_mul]
  ring

section
variable {c d : Core} (st : Bool) (h : SameIssue c d)
include h

theorem setOb_same (l : List (BitVec 2 × BitVec 256)) : SameIssue c (d.setOb st l) := by
  obtain ⟨e1, e2, e3, e4⟩ := h
  cases st <;> exact ⟨e1, e2, e3, e4⟩

theorem setIb_same (l : List (BitVec 256)) : SameIssue c (d.setIb st l) := by
  obtain ⟨e1, e2, e3, e4⟩ := h
  cases st <;> exact ⟨e1, e2, e3, e4⟩

end

section
variable {s : State} {o : Slot} {r : BitVec 6} {st : Bool} (h : s.executes o)
include h

theorem vpush_stalls (hb : s.shrouded (coreNo o.core) = true ∨ 4 < ((s.core (coreNo o.core)).ob st).length) :
    exec (.vpush o r st) s = .next (s.modCore (coreNo o.core) (fun d => { d with stall := .vpush })) :=
  op_stalls h (f := opVpush r st) rfl rfl rfl (if_pos (by rw [Bool.or_eq_true, decide_eq_true_eq]; exact hb)) (by decide) rfl

theorem vpull_stalls (hb : s.shrouded (coreNo o.core) = true ∨ ((s.core (coreNo o.core)).ib st).length < 4) :
    exec (.vpull o r st) s = .next (s.modCore (coreNo o.core) (fun d => { d with stall := .vpull })) :=
  op_stalls h (f := opVpull r st) rfl rfl rfl (if_pos (by rw [Bool.or_eq_true, decide_eq_true_eq]; exact hb)) (by decide) rfl

variable (ho : s.shrouded (coreNo o.core) = false)
include ho

theorem vpush_gives (hl : ((s.core (coreNo o.core)).ob st).length ≤ 4) : s.gives o (.vpush o r st) (s.modCore (coreNo o.core) (fun d => d.setOb st (d.ob st ++
    [(0, ((s.core (coreNo o.core)).vr r).extractLsb' 0 256), (1, ((s.core (coreNo o.core)).vr r).extractLsb' 256 256),
      (2, ((s.core (coreNo o.core)).vr r).extractLsb' 512 256), (3, ((s.core (coreNo o.core)).vr r).extractLsb' 768 256)]))) := by
  rw [← beats_eq]
  exact op_gives h (f := opVpush r st) rfl rfl rfl (if_neg (by rw [ho, Bool.false_or, decide_eq_true_eq]; omega)) rfl rfl rfl rfl
    (modCore_same (setOb_same st (.refl _) _))

theorem vpull_gives {b0 b1 b2 b3 : BitVec 256} {rest : List (BitVec 256)} (hl : (s.core (coreNo o.core)).ib st = b0 :: b1 :: b2 :: b3 :: rest) :
    s.gives o (.vpull o r st) (s.modCore (coreNo o.core) (fun d => (d.setIb st rest).setV (physV (s.core (coreNo o.core)).rotV r)
      ((b3 ++ b2 ++ b1 ++ b0 : BitVec (256 + 256 + 256 + 256)).setWidth 1024))) := by
  have act : (opVpull r st s (coreNo o.core)).act s = s.modCore (coreNo o.core) (fun d => (d.setIb st rest).setV (physV (s.core (coreNo o.core)).rotV r)
      ((b3 ++ b2 ++ b1 ++ b0 : BitVec (256 + 256 + 256 + 256)).setWidth 1024)) := by
    rw [← BitVec.ofNat_toNat, toNat_beats b0 b1 b2 b3 rest, opVpull]
    dsimp only
    rw [hl]
    rfl
  refine op_gives h (f := opVpull r st) rfl rfl rfl (if_neg ?_) rfl rfl rfl act (modCore_same ?_)
  · rw [ho, Bool.false_or, decide_eq_true_eq, hl]
    simp
  · obtain ⟨e1, e2, e3, e4⟩ := setIb_same st (.refl (s.core (coreNo o.core))) rest
    exact ⟨e1, e2, e3, e4⟩

end

theorem collarStreams : Claims.CollarStreams := by
  intro s o k r st beat
  refine ⟨fun h => ⟨vpush_stalls h, vpull_stalls h, fun hb => vpush_gives h (Bool.eq_false_iff.2 hb), fun hb b0 b1 b2 b3 rest => vpull_gives h (Bool.eq_false_iff.2 hb)⟩,
    fun hr ht ho => ⟨fun b x rest hl => ?_, fun hl => ?_, fun hl => ?_, fun hl => ?_⟩⟩ <;>
    refine congrArg Host.Outcome.next ((State.whenUp_of_up hr _).trans ?_)
  · rw [ht, if_neg Bool.noConfusion, State.outBeat, hl]
    cases st <;> exact if_neg (ne_true_of_eq_false ho)
  · rw [ht, if_neg Bool.noConfusion, State.outBeat, hl]
  · dsimp only
    rw [ht, ho, if_neg (by decide), if_neg (Nat.not_le.2 hl)]
  · dsimp only
    rw [ht, ho, if_neg (by decide), if_pos hl]

/-! Reads that have timed out -/

theorem dropSeqRead_of {before : List ColRead} {g : BitVec 5} {rest : List ColRead} (h : ∀ x ∈ before, ∀ h, x ≠ .seq h) :
    dropSeqRead (before ++ .seq g :: rest) = some (g, before ++ .dropped :: rest) := by
  induction before with
  | nil => rfl
  | cons x l ih =>
    have tail := ih fun y hy => h y (List.mem_cons_of_mem _ hy)
    cases x with
    | seq g' => exact absurd rfl (h _ List.mem_cons_self g')
    | host | pair | cmd | dropped => simp [dropSeqRead, tail]

theorem dropHostRead_of {before : List ColRead} {rest : List ColRead} (h : ∀ x ∈ before, x = .dropped ∨ ∃ h, x = .seq h) :
    dropHostRead (before ++ .host :: rest) = some (.host, before ++ .dropped :: rest) := by
  induction before with
  | nil => rfl
  | cons x l ih =>
    have tail := ih fun y hy => h y (List.mem_cons_of_mem _ hy)
    obtain rfl | ⟨g, rfl⟩ := h x List.mem_cons_self <;> simp [dropHostRead, tail]

theorem regAnswer_of {s : State} {n : Nat} {q : ColRead} {rest : List ColRead} {v : Word} (h : (s.core n).colReads = q :: rest) :
    s.regAnswer n v = (s.modCore n (fun d => { d with colReads := rest, colAnswer := v })).readReturns n q v := by
  rw [State.regAnswer, h]

theorem collarRegisters : Claims.CollarRegisters := by
  intro s k who v hr n c key idx
  refine ⟨fun ht ho => ?_, fun before g rest ht hl hb => ?_, fun before rest ht hl hb => ?_, fun hm => ⟨fun ho => ⟨?_, ?_⟩, fun ho => ⟨?_, ?_⟩⟩⟩
  · have answered {q : ColRead} {rest : List ColRead} (hl : c.colReads = q :: rest) :
        exec (.regRvalid k v) s = .next ((s.modCore n (fun d => { d with colReads := rest, colAnswer := v })).readReturns n q v) := by
      refine congrArg Host.Outcome.next ((State.whenUp_of_up hr _).trans ?_)
      rw [ht, show s.shrouded (coreNo k) = false from ho, if_neg (by decide), ← regAnswer_of hl]
    refine ⟨fun g rest hl => (answered hl).trans ?_, fun rest hl => answered hl, fun rest hl => answered hl⟩
    rw [State.readReturns, State.modCore_modCore]
  · refine congrArg Host.Outcome.next ((State.onIsland_of_up hr ht _).trans ?_)
    dsimp only
    rw [hl, dropSeqRead_of hb]
  · refine congrArg Host.Outcome.next ((State.onIsland_of_up hr ht _).trans ?_)
    dsimp only
    rw [hl, dropHostRead_of hb]
    rfl
  · refine congrArg Host.Outcome.next ((State.whenUp_of_up hr _).trans ((if_pos hm).trans ?_))
    exact if_neg (ne_true_of_eq_false ho)
  · refine congrArg Host.Outcome.next ((State.whenUp_of_up hr _).trans ((State.ctl_of_may hm _).trans ?_))
    exact congrArg (fun t : State => t.answerCtl 0) (if_neg (ne_true_of_eq_false ho))
  · refine congrArg Host.Outcome.next ((State.whenUp_of_up hr _).trans ((if_pos hm).trans ?_))
    exact if_pos ho
  · refine congrArg Host.Outcome.next ((State.whenUp_of_up hr _).trans ((State.ctl_of_may hm _).trans ?_))
    exact congrArg (fun t : State => t.answerCtl 0) (if_pos ho)

/-- Settles O16: the streams of a collar, and its register reads and writes with their answers and timeouts. -/
theorem collarPorts : Obligations.CollarPorts := ⟨collarStreams, collarRegisters⟩

end Sys2Proof.Machine
end

section
/-! PROOFS. START, STOP, the end of STOPPING, and STEP (04 R143, R151, R152). -/
namespace Sys2Proof.Machine

/-- What a change of a core makes of it is all that counts. -/
theorem modCore_congr {s : State} {n : Nat} {f g : Core → Core} (h : f (s.core n) = g (s.core n)) : s.modCore n f = s.modCore n g := by
  rw [State.modCore, h, State.modCore]

section
variable {s t : State} {i : Instr} {act : State → State}

/-- A control access whose effect is t. -/
theorem acts_of {who : Party} {k : Nat} (hx : exec i s = .next (s.whenUp fun s => s.ctl who k act)) (ha : act s = t) : s.acts who k i t := by
  intro hr hm
  rw [hx, State.whenUp_of_up hr, State.ctl_of_may hm, ha]

/-- A command of a core whose effect is t. -/
theorem runs_of (hx : exec i s = .next (s.onIsland act)) (ha : act s = t) : s.runs i t := by
  intro hr ht
  rw [hx, State.onIsland_of_up hr ht, ha]

end

theorem held_iff {st : SeqState} : st.held = true ↔ st = .idle ∨ st = .stopped ∨ st = .halted ∨ st = .faulted := by
  cases st <;> simp [SeqState.held]

theorem not_held {st : SeqState} (h : st = .stopping ∨ st = .saving ∨ st = .restoring) : st.held = false ∧ st ≠ .running := by
  rcases h with rfl | rfl | rfl <;> decide

/-! What START, STOP and the end of STOPPING make of a core -/

section
variable {c : Core}

theorem Core.start_held (h : c.st.held = true) : c.start = { c with st := .running, stall := .none, stepping := false } := if_pos h

theorem Core.start_queued (h : c.st = .stopping ∨ c.st = .saving ∨ c.st = .restoring) : c.start = { c with pendStart := true } := by
  obtain ⟨held, running⟩ := not_held h
  rw [Core.start, if_neg (ne_true_of_eq_false held), if_neg running]

theorem Core.stop_running (h : c.st = .running) (hs : c.stall = .other) : c.stop = { c with st := .stopping, after := .stopped, stepping := false } := by
  rw [Core.stop, if_pos h, if_pos hs]

theorem Core.stop_stalled (h : c.st = .running) (hs : c.stall ≠ .other) :
    c.stop = { c with st := .stopping, after := .stopped, stepping := false, stall := .none, seqReads := c.dropReads } := by
  rw [Core.stop, if_pos h, if_neg hs]

section
variable (h : c.st = .stopping) (hs : c.stall ≠ .other) (hr : c.reads = false)
include h hs hr

theorem Core.stoppingEnds_eq : c.stoppingEnds =
    if c.pendSave then { c with st := .saving, back := c.after, pendStart := c.pendStart && decide (c.after ≠ SeqState.faulted), pendSave := false, ctx := none }
    else if c.pendStart && decide (c.after ≠ SeqState.faulted) then { c with st := .running, pendStart := false, stall := .none, stepping := false }
    else { c with st := c.after, pendStart := c.pendStart && decide (c.after ≠ SeqState.faulted) } := by
  have drained : ¬ (c.st ≠ .stopping ∨ c.stall = .other ∨ c.reads = true) := by simp [h, hs, hr]
  rw [Core.stoppingEnds, if_neg drained]

theorem Core.stoppingEnds_save (hv : c.pendSave = true) : c.stoppingEnds =
    { c with st := .saving, back := c.after, pendStart := c.pendStart && decide (c.after ≠ SeqState.faulted), pendSave := false, ctx := none } := by
  rw [Core.stoppingEnds_eq h hs hr, if_pos hv]

theorem Core.stoppingEnds_start (hv : c.pendSave = false) (hp : c.pendStart = true) (ha : c.after ≠ .faulted) :
    c.stoppingEnds = { c with st := .running, pendStart := false, stall := .none, stepping := false } := by
  rw [Core.stoppingEnds_eq h hs hr, if_neg (ne_true_of_eq_false hv), if_pos (by rw [hp, decide_eq_true ha]; rfl)]

theorem Core.stoppingEnds_rest (hv : c.pendSave = false) (hp : c.pendStart = false ∨ c.after = .faulted) :
    c.stoppingEnds = { c with st := c.after, pendStart := false } := by
  have dropped : (c.pendStart && decide (c.after ≠ SeqState.faulted)) = false := by simpa [imp_iff_not_or] using hp
  rw [Core.stoppingEnds_eq h hs hr, if_neg (ne_true_of_eq_false hv), if_neg (ne_true_of_eq_false dropped), dropped]

end

end

theorem sequencerControl : Claims.SequencerControl := by
  intro s k who n c key rests start stop
  have starts {f : Core → Core} (h : c.start = f c) : s.acts who key start (s.modCore n f) :=
    acts_of (act := fun s => s.modCore n Core.start) rfl (modCore_congr h)
  have stops {f : Core → Core} (h : c.stop = f c) : s.acts who key stop (s.modCore n f) :=
    acts_of (act := fun s => s.modCore n Core.stop) rfl (modCore_congr h)
  have ends {f : Core → Core} (h : c.stoppingEnds = f c) : s.runs (.stoppingEnd k) (s.modCore n f) :=
    runs_of (act := fun s => s.modCore n Core.stoppingEnds) rfl (modCore_congr h)
  exact ⟨fun h => starts (Core.start_held (held_iff.2 h)), fun h => starts (Core.start_queued h), fun h hs => stops (Core.stop_stalled h hs),
    fun h hs => stops (Core.stop_running h hs), fun h hs hr => ⟨fun hv => ends (Core.stoppingEnds_save h hs hr hv),
      fun hv hp ha => ends (Core.stoppingEnds_start h hs hr hv hp ha), fun hv hp => ends (Core.stoppingEnds_rest h hs hr hv hp)⟩⟩

/-! A bundle of four NOP words -/

theorem decodeSlot_zero (slot : Nat) (e : Ecc) : decodeSlot slot 0 e = nopOp := (decodeSlot_of_nop (by decide)).trans (if_pos (by decide))

/-- The core after a stepped bundle that does nothing. -/
theorem rest_stepped {d : Core} (e1 : d.st = .running) (e2 : d.stepping = true) (e3 : d.reads = false) (hl : ∀ l ∈ d.loops, l.last ≠ d.pc)
    (hp : d.pc.toNat + 16 < 2 ^ 20) : (Core.readsUsed (Core.afterBundle .none d)).goesOn = { d.next with st := .stopped, stepping := false } := by
  have e4 : d.st.issuing = true := by rw [e1]; rfl
  rw [Core.afterBundle, if_pos e4, Core.advance_plain d hl hp, Core.bufferKept_same d { d with pc := d.pc + 16, pcOut := none } rfl, Core.goesOn,
    if_pos (by simp [Core.readsUsed, e2]), Core.rest, if_neg]
  · rw [Core.dropReads_of (c := d) rfl]
    simp only [Core.readsUsed, Core.next, Core.dropReads]
  · rintro (e | e)
    · exact absurd (e1.symm.trans e) (by decide)
    · exact absurd (e3.symm.trans e) (by decide)

/-- A bundle whose slots do nothing. -/
theorem runBundle_idle (t : State) (n : Nat) (on : Nat → Bool) : t.runBundle n ((List.range 4).map (fun k => ⟨k, on k, { op := 0 }⟩)) =
    (((t.modCore n (Core.afterBundle .none)).modCore n Core.readsUsed).inc64 (corePage n 0 + 0x68)).settle n false := by
  simp [List.range, List.range.loop, State.runBundle, bundleFault, bundleStall, bundleJump, bundleActs, -State.modCore_modCore]

theorem bundleOf_zero (t : State) (n : Nat) (e : Ecc) : ∃ on : Nat → Bool, t.bundleOf n 0 e = (List.range 4).map (fun k => ⟨k, on k, { op := 0 }⟩) := by
  have words (k : Nat) : bits (0 : BitVec 128).toNat (32 * k) 32 = 0 := (congrArg (· % 2 ^ 32) (Nat.zero_div _)).trans (Nat.zero_mod _)
  refine ⟨fun k => (t.core n).pr (sf (bits (0 : BitVec 128).toNat (32 * k) 32) 29 3) ^^ (bits (0 : BitVec 128).toNat (32 * k) 32).testBit 28, ?_⟩
  rw [State.bundleOf]
  refine List.map_congr_left fun k _ => ?_
  dsimp only
  rw [words, decodeSlot_zero, nopOp]

section
variable {t : State} {n : Nat} (e1 : (t.core n).st = .running) (e2 : (t.core n).stepping = true) (e3 : (t.core n).reads = false)
  (hl : ∀ l ∈ (t.core n).loops, l.last ≠ (t.core n).pc) (hp : (t.core n).pc.toNat + 16 < 2 ^ 20)
include e1 e2 e3 hl hp

theorem runBundle_nops (e : Ecc) : t.runBundle n (t.bundleOf n 0 e) =
    (t.modCore n (fun d => { d.next with st := .stopped, stepping := false })).inc64 (corePage n 0 + 0x68) := by
  obtain ⟨on, slots⟩ := bundleOf_zero t n e
  rw [slots, runBundle_idle, State.settle, if_neg Bool.noConfusion, State.inc64_modCore, State.modCore_modCore, State.modCore_modCore]
  exact congrArg (fun x : State => x.inc64 (corePage n 0 + 0x68)) (modCore_congr (rest_stepped e1 e2 e3 hl hp))

end

/-! STEP -/

/-- A core that begins a step. -/
def Core.stepped (c : Core) : Core := { c with st := .running, stall := .none, stepping := true }

theorem Core.stepBegin_held {c : Core} (h : c.st.held = true) : c.stepBegin = c.stepped := if_pos h

/-- A core that has begun a step and keeps its bundle differs from one that keeps it at rest in what a step changes alone. -/
theorem Core.stepped_keepBundle (c : Core) : c.stepped.keepBundle = c.keepBundle.stepped := by
  have trip : c.stepped.innerTrip = c.innerTrip := rfl
  rw [Core.keepBundle, trip, Core.keepBundle]
  split <;> rfl

theorem Core.stepped_next (c : Core) : { c.stepped.next with st := .stopped, stepping := false } = { c.next with st := .stopped, stepping := false } := rfl

/-- Keeping a bundle changes the loop buffer alone. -/
theorem Core.keepBundle_eq (c : Core) : ∃ buf, c.keepBundle = { c with loopBuf := buf } := by
  unfold Core.keepBundle
  split <;> exact ⟨_, rfl⟩

section
variable {s : State} {k : CoreId} {who : Party} (hr : s.inReset = false) (ht : s.tripped = false) (hm : s.mayWrite who (corePage (coreNo k) 0 + 0x40) = true)
  (hh : (s.core (coreNo k)).st.held = true) (hq : (s.core (coreNo k)).reads = false)
include hr ht hm hh hq

/-- A STEP of a sequencer at rest fetches the bundle at pc. -/
theorem exec_step (e : Ecc) : exec (.step who k e) s = .next (((s.modCore (coreNo k) Core.stepBegin).fetchBundle (coreNo k) e).answerCtl 0) := by
  have core : (s.modCore (coreNo k) Core.stepBegin).core (coreNo k) = (s.core (coreNo k)).stepped := (State.core_modCore_same ..).trans (Core.stepBegin_held hh)
  have goes : (((s.modCore (coreNo k) Core.stepBegin).core (coreNo k)).stepping && (s.modCore (coreNo k) Core.stepBegin).canIssue (coreNo k)) = true := by
    rw [State.canIssue, core]
    simp [Core.stepped, Core.reads] at hq ⊢
    exact ⟨⟨hr, ht⟩, hq⟩
  exact congrArg Host.Outcome.next ((State.whenUp_of_up hr _).trans ((State.ctl_of_may hm _).trans (congrArg (fun t : State => t.answerCtl 0) (if_pos goes))))

variable (hl : ∀ l ∈ (s.core (coreNo k)).loops, l.last ≠ (s.core (coreNo k)).pc) (hp : (s.core (coreNo k)).pc.toNat + 16 < 2 ^ 20)
include hl hp

/-- A STEP that fetches four NOP words stops at the next bundle. -/
theorem step_nops {e : Ecc} {f : Core → Core} {buf : List (Nat × BitVec 128)} (hf : f (s.core (coreNo k)) = { s.core (coreNo k) with loopBuf := buf })
    (hrun : (s.modCore (coreNo k) Core.stepBegin).fetchBundle (coreNo k) e =
      (s.modCore (coreNo k) (fun d => (f d).stepped)).runBundle (coreNo k) ((s.modCore (coreNo k) (fun d => (f d).stepped)).bundleOf (coreNo k) 0 e)) :
    exec (.step who k e) s = .next (((s.modCore (coreNo k) (fun d => { (f d).next with st := .stopped, stepping := false })).inc64
      (corePage (coreNo k) 0 + 0x68)).answerCtl 0) := by
  have core : (s.modCore (coreNo k) (fun d => (f d).stepped)).core (coreNo k) = ({ s.core (coreNo k) with loopBuf := buf } : Core).stepped := by
    rw [State.core_modCore_same, hf]
  rw [exec_step hr ht hm hh hq, hrun, runBundle_nops (by rw [core]; rfl) (by rw [core]; rfl) (by rw [core]; exact hq) (by rw [core]; exact hl) (by rw [core]; exact hp),
    State.modCore_modCore]
  rfl

end

theorem stepCommand : Claims.StepCommand := by
  intro s k who n c steps hr ht hm hh hq ho hp hl
  have core : (s.modCore n Core.stepBegin).core n = c.stepped := (State.core_modCore_same ..).trans (Core.stepBegin_held hh)
  refine ⟨fun hb hw hc hz => ?_, fun hb => ?_, fun l below hs hd h1 h2 => ?_, fun hs => ?_⟩
  · obtain ⟨buf, hk⟩ := c.keepBundle_eq
    refine step_nops hr ht hm hh hq hl hp hk ?_
    have kept : (s.modCore n Core.stepBegin).modCore n Core.keepBundle = s.modCore n (fun d => d.keepBundle.stepped) := by
      rw [State.modCore_modCore]
      exact modCore_congr ((congrArg Core.keepBundle (Core.stepBegin_held hh)).trans c.stepped_keepBundle)
    have word : ((s.modCore n (fun d => d.keepBundle.stepped)).core n).bundleWord = 0 := by
      rw [State.core_modCore_same, show s.core n = c from rfl, hk, Core.bundleWord]
      exact congrArg (fun l => BitVec.ofNat 128 (leNat l)) hz
    have clean : c.stepped.readPoisoned c.stepped.pc.toNat 16 ⟨[], []⟩ = false := by
      rw [← hc, Core.readPoisoned, Core.poisonedAt]
      simp
      rfl
    rw [State.fetchBundle, core]
    dsimp only
    rw [show c.stepped.pcOut = none from ho, show c.stepped.buffered = none from hb]
    dsimp only
    rw [show c.stepped.spadWaits = false from hw, if_neg Bool.noConfusion, if_neg (ne_true_of_eq_false clean), eccFound_nil, kept, State.bundleAt, word]
  · refine step_nops (f := id) (buf := c.loopBuf) hr ht hm hh hq hl hp rfl ?_
    have same : s.modCore n Core.stepBegin = s.modCore n (fun d => (id d).stepped) := modCore_congr (Core.stepBegin_held hh)
    rw [State.fetchBundle, core]
    dsimp only
    rw [show c.stepped.pcOut = none from ho, show c.stepped.buffered = some 0 from hb, same]
  · have last : c.loops.getLast? = some l := by rw [hs, List.getLast?_append, List.getLast?_singleton]; rfl
    obtain ⟨d, hd'⟩ := Nat.exists_eq_succ_of_ne_zero hd
    have trip : c.innerTrip = some (d + 1) := by
      rw [Core.innerTrip, last]
      dsimp only
      rw [if_pos (by simp [LoopEntry.holds]; omega), hd']
    rw [Core.buffered, trip]
  · have trip : c.innerTrip = none := by rw [Core.innerTrip, hs]; rfl
    exact ⟨by rw [Core.buffered, trip], by rw [Core.keepBundle, trip]; rfl⟩

/-- Settles O17: what START, STOP, the end of STOPPING and STEP make of a sequencer. -/
theorem sequencerCommands : Obligations.SequencerCommands := ⟨sequencerControl, stepCommand⟩

end Sys2Proof.Machine
end

section
/-! PROOFS. SAVE and RESTORE as commands (04 R151, R153, R155, R156). -/
namespace Sys2Proof.Machine

section
variable {c : Core}

theorem Core.ctxEnds_of (h : c.pendStart = false) (st : SeqState) : c.ctxEnds st = { c with st := st, ctx := none, stall := .none } :=
  if_neg (ne_true_of_eq_false h)

theorem Core.stop_stopping (h : c.st = .stopping) : c.stop = c := if_neg (by rw [h]; decide)

end

section
variable {s : State} {n : Nat}

/-- A context command that fails: its code is in SEQ_CTX_STAT and entered in BLK_ERR, and CTX_FAIL is raised. -/
theorem ctxStat_fails (result : Nat) {code : BitVec 16} (h : code ≠ 0) : s.ctxStat n result code =
    ((s.setReg (corePage n 0 + 0x64) (BitVec.ofNat 32 (result + code.toNat * 2 ^ 16))).raiseIrq (corePage n 0) 8).enterCode (corePage n 0) code := if_neg h

theorem ctxStat_done (result : Nat) :
    s.ctxStat n result 0 = (s.setReg (corePage n 0 + 0x64) (BitVec.ofNat 32 result)).raiseIrq (corePage n 0) 4 := by
  simp [State.ctxStat]

/-! SAVE -/

theorem imageLen_32 : imageLen 32 = 8896 := by decide

theorem saveCmd_busy (h : (s.core n).st = .saving ∨ (s.core n).st = .restoring) : s.saveCmd n = s := if_pos h

section
variable (h : ¬ ((s.core n).st = .saving ∨ (s.core n).st = .restoring))
include h

theorem saveCmd_refused (ha : s.ctxSpot n (s.ctxAddr n) 8896 = none) : s.saveCmd n = s.ctxStat n 4 Code.ctxInvalid := by
  rw [State.saveCmd]
  dsimp only
  rw [if_neg h, imageLen_32, ha, if_pos Option.isNone_none]

theorem saveCmd_taken (ha : s.ctxSpot n (s.ctxAddr n) 8896 ≠ none) : s.saveCmd n = s.modCore n (fun c =>
    if c.st.held then { c with st := .saving, back := c.st, ctx := none } else { c.stop with pendSave := true }) := by
  obtain ⟨p, hp⟩ := Option.ne_none_iff_exists'.1 ha
  rw [State.saveCmd]
  dsimp only
  rw [if_neg h, imageLen_32, hp, if_neg (by simp)]

end

theorem not_busy_of_held (h : (s.core n).st.held = true) : ¬ ((s.core n).st = .saving ∨ (s.core n).st = .restoring) := by
  rintro (e | e) <;> (rw [e] at h; exact absurd h (by decide))

/-! RESTORE -/

theorem restoreCmd_busy (h : (s.core n).st = .saving ∨ (s.core n).st = .restoring) : s.restoreCmd n = s := if_pos h

theorem restoreCmd_refused (h : (s.core n).st = .running ∨ (s.core n).st = .stopping ∨
    (¬ ((s.core n).st = .saving ∨ (s.core n).st = .restoring) ∧ s.ctxSpot n (s.ctxAddr n) 64 = none)) : s.restoreCmd n = s.ctxStat n 4 Code.ctxInvalid := by
  rw [State.restoreCmd]
  rcases h with e | e | ⟨e, ha⟩
  · rw [e, if_neg (by decide), if_pos (by rfl)]
  · rw [e, if_neg (by decide), if_pos (by rfl)]
  · rw [if_neg e, ha, if_pos (by simp)]

theorem restoreCmd_taken (h : (s.core n).st.held = true) (ha : s.ctxSpot n (s.ctxAddr n) 64 ≠ none) :
    s.restoreCmd n = s.modCore n (fun d => { d with st := .restoring, back := d.st, ctx := none }) := by
  obtain ⟨p, hp⟩ := Option.ne_none_iff_exists'.1 ha
  rw [State.restoreCmd]
  rw [if_neg (not_busy_of_held h), h, hp, if_neg (by simp)]

end

theorem contextCommands : Claims.ContextCommands := by
  intro s k who n c pg key addr refused busy spot
  have saves {t : State} (h : s.saveCmd n = t) : s.acts who key (.save who k) t := acts_of (act := fun s => s.saveCmd n) rfl h
  have restores {t : State} (h : s.restoreCmd n = t) : s.acts who key (.restore who k) t := acts_of (act := fun s => s.restoreCmd n) rfl h
  have invalid : s.ctxStat n 4 Code.ctxInvalid = refused := ctxStat_fails 4 (by decide)
  refine ⟨fun hb ha => saves ((saveCmd_refused hb ha).trans invalid), fun hh ha => saves ?_, fun hr ha hs => saves ?_, fun hs ha => saves ?_,
    fun h => restores ((restoreCmd_refused h).trans invalid), fun hh ha => restores (restoreCmd_taken hh ha),
    fun h => ⟨saves (saveCmd_busy h), restores (restoreCmd_busy h)⟩, fun hs hx hz off ho hw => ?_, fun hs hz => ?_, fun hs hp hx => ?_⟩
  · exact (saveCmd_taken (not_busy_of_held hh) ha).trans (modCore_congr (if_pos hh))
  · refine (saveCmd_taken (by rw [show (s.core n).st = .running from hr]; decide) ha).trans (modCore_congr ((if_neg ?_).trans ?_))
    · rw [show (s.core n).st = .running from hr]; decide
    · rw [Core.stop_stalled hr hs]
  · refine (saveCmd_taken (by rw [show (s.core n).st = .stopping from hs]; decide) ha).trans (modCore_congr ((if_neg ?_).trans ?_))
    · rw [show (s.core n).st = .stopping from hs]; decide
    · rw [Core.stop_stopping hs]
  · refine runs_of (act := fun s => if (s.core n).st = .saving ∧ (s.core n).ctx = none ∧ (s.core n).countersZero = true then s.saveImage n else s) rfl
      ((if_pos ⟨hs, hx, hz⟩).trans ?_)
    rw [State.saveImage, show s.ctxSpot n (s.ctxAddr n) (imageLen 32) = some (.own off) from ho]
    dsimp only
    exact if_neg (ne_true_of_eq_false hw)
  · exact runs_of (act := fun s => if (s.core n).st = .saving ∧ (s.core n).ctx = none ∧ (s.core n).countersZero = true then s.saveImage n else s) rfl
      (if_neg fun ⟨_, _, h⟩ => absurd (hz.symm.trans h) Bool.noConfusion)
  · refine runs_of rfl ?_
    dsimp only
    rw [show (s.core (coreNo k)).st = .saving from hs, show (s.core (coreNo k)).ctx = some 0 from hx]
    dsimp only
    rw [if_pos rfl, ctxStat_done]
    exact congrArg (fun t : State => (t.setReg (pg + 0x64) 1).raiseIrq pg 4) (modCore_congr (f := fun d => d.ctxEnds d.back) (Core.ctxEnds_of hp _))

end Sys2Proof.Machine
end

section
/-! PROOFS. The images that RESTORE reads, and the loop entries in them (04 R157, R158; 05 R182). -/
namespace Sys2Proof.Machine

/-! Fields of the bytes at a place -/

theorem imgFld_readN (m : List Host.Cell) (a : Nat) {len o w : Nat} (h : o + w ≤ len) : imgFld (Memory.readN m a len) o w = leNat (Memory.readN m (a + o) w) := by
  obtain ⟨k, rfl⟩ := Nat.exists_eq_add_of_le h
  rw [imgFld, bytesAt_of_le (by simp), Nat.add_assoc, Memory.readN_drop_take]

/-- A field of the first bytes is one of the whole. -/
theorem imgFld_prefix (c : Core) (off : Nat) {len len' o w : Nat} (h : o + w ≤ len) (h' : o + w ≤ len') :
    imgFld (c.spadBytes off len) o w = imgFld (c.spadBytes off len') o w := by
  rw [Core.spadBytes, imgFld_readN _ _ h, Core.spadBytes, imgFld_readN _ _ h']

/-! The bit errors that a read finds mark words of the scratchpad, and change nothing else of the core -/

theorem spadUncs_core (n : Nat) (l : List Nat) (t : State) : ∃ p, (l.foldl (fun s w => s.spadUnc n w) t).core n = { t.core n with poison := p } ∧
    ∀ w, Sparse.get (fun _ => false) p w = ((t.core n).wordPoisoned w || decide (w ∈ l)) := by
  induction l generalizing t with
  | nil => exact ⟨(t.core n).poison, rfl, fun w => by simp [Core.wordPoisoned]⟩
  | cons x l ih =>
    obtain ⟨p, core, marks⟩ := ih (t.spadUnc n x)
    refine ⟨p, ?_, fun w => ?_⟩
    · rw [List.foldl_cons, core, spadUnc_core]
    · rw [marks, Core.wordPoisoned, spadUnc_core]
      dsimp only
      rw [Sparse.get_put]
      by_cases hw : w = x
      · rw [if_pos hw, decide_eq_true (show w ∈ x :: l by simp [hw]), Bool.or_true, Bool.true_or]
      · rw [if_neg hw, decide_eq_decide.2 (show w ∈ x :: l ↔ w ∈ l by simp [hw]), Core.wordPoisoned]

theorem eccFound_marks (s : State) (n : Nat) (ws : List Nat) (e : Ecc) : ∃ p, (s.eccFound n ws e).core n = { s.core n with poison := p } ∧
    ∀ w ∈ ws, Sparse.get (fun _ => false) p w = ((s.core n).wordPoisoned w || e.unc.contains w) := by
  have start (b : Bool) (m : Nat) : (if b then s else s.incSat (spadPage n + 0x54) m).core n = s.core n := by
    cases b
    · rw [if_neg Bool.noConfusion]
      simp
    · rfl
  rw [State.eccFound]
  dsimp only
  obtain ⟨p, core, marks⟩ := spadUncs_core n (ws.filter (fun w => e.unc.contains w && !(s.core n).wordPoisoned w))
    (if (ws.filter (fun w => e.corr.contains w && !e.unc.contains w && !(s.core n).wordPoisoned w)).isEmpty then s
      else s.incSat (spadPage n + 0x54) (ws.filter (fun w => e.corr.contains w && !e.unc.contains w && !(s.core n).wordPoisoned w)).length)
  rw [start] at core marks
  refine ⟨p, core, fun w hw => ?_⟩
  rw [marks]
  cases hp : (s.core n).wordPoisoned w <;> simp [hw, hp]

/-- A read that finds an uncorrectable error has met poison. -/
theorem eccFound_poisoned {s : State} {n off len : Nat} {e : Ecc} (h : (s.core n).readPoisoned off len e = true) :
    ((s.eccFound n (wordsOf off len) e).core n).poisonedAt off len = true := by
  obtain ⟨p, core, marks⟩ := eccFound_marks s n (wordsOf off len) e
  obtain ⟨w, hw, bad⟩ := List.any_eq_true.1 h
  rw [core, Core.poisonedAt, List.any_eq_true]
  exact ⟨w, hw, (marks w hw).trans bad⟩

theorem readPoisoned_nil (c : Core) (off len : Nat) : c.readPoisoned off len ⟨[], []⟩ = c.poisonedAt off len := by
  simp [Core.readPoisoned, Core.poisonedAt]

/-- A part of an unpoisoned place is unpoisoned. -/
theorem poisonedAt_prefix {c : Core} {off len len' : Nat} (h : c.poisonedAt off len' = false) (h0 : 0 < len) (hle : len ≤ len') :
    c.poisonedAt off len = false := by
  rw [Core.poisonedAt, List.any_eq_false] at h ⊢
  refine fun w hw => h w ?_
  rw [wordsOf, if_neg (by omega), List.mem_map] at hw ⊢
  obtain ⟨i, hi, rfl⟩ := hw
  refine ⟨i, ?_, rfl⟩
  rw [List.mem_range] at hi ⊢
  have := Nat.div_le_div_right (c := 8) (show off + len - 1 ≤ off + len' - 1 by omega)
  omega

/-! RESTORE of an image in the own scratchpad -/

section
variable {s : State} {n off : Nat} {e : Ecc} (hw : (s.core n).spadWaits = false) (hs : s.ctxSpot n (s.ctxAddr n) 64 = some (.own off))
include hw hs

theorem restoreImage_poisoned (h : ((s.eccFound n (wordsOf off 8) e).core n).poisonedAt off 8 = true) :
    s.restoreImage n e = (s.eccFound n (wordsOf off 8) e).restoreFails n Code.memUncorrectable := by
  simp only [State.restoreImage, hs, State.spotReady, hw, State.readSpot, h, Bool.not_true, Bool.not_false, Bool.false_eq_true, ↓reduceIte]

theorem restoreImage_badHead (h : (s.core n).poisonedAt off 8 = false) (hb : imageHeadOk ((s.core n).spadBytes off 8) = false) :
    s.restoreImage n ⟨[], []⟩ = s.restoreFails n Code.ctxInvalid := by
  simp only [State.restoreImage, hs, State.spotReady, hw, State.readSpot, eccFound_nil, h, hb, Bool.not_true, Bool.not_false, Bool.false_eq_true, ↓reduceIte]

theorem restoreImage_whole (h : (s.core n).poisonedAt off 8896 = false) (hb : imageHeadOk ((s.core n).spadBytes off 8) = true)
    (h32 : imgFld ((s.core n).spadBytes off 8) 6 1 = 32) (hs' : s.ctxSpot n (s.ctxAddr n) 8896 = some (.own off)) :
    s.restoreImage n ⟨[], []⟩ = if imageCheck ((s.core n).spadBytes off 8896) ≠ 0 then s.restoreFails n (imageCheck ((s.core n).spadBytes off 8896))
      else ((s.applyImage n ((s.core n).spadBytes off 8896)).modCore n (fun c => c.ctxEnds .stopped)).ctxStat n 2 0 := by
  have h8 := poisonedAt_prefix h (by decide : 0 < 8) (by decide)
  simp only [State.restoreImage, hs, State.spotReady, hw, State.readSpot, eccFound_nil, h8, hb, h32, imageLen_32, hs', h, Bool.not_true, Bool.not_false,
    Bool.false_eq_true, ↓reduceIte]

end

theorem restoreFails_of {s : State} {n : Nat} {code : BitVec 16} (hp : (s.core n).pendStart = false) (h : code ≠ 0) : s.restoreFails n code =
    (((s.modCore n (fun d => { d with st := d.back, ctx := none, stall := .none })).setReg (corePage n 0 + 0x64)
      (BitVec.ofNat 32 (3 + code.toNat * 2 ^ 16))).raiseIrq (corePage n 0) 8).enterCode (corePage n 0) code := by
  rw [State.restoreFails, ctxStat_fails _ h, modCore_congr (f := fun c => c.ctxEnds c.back) (g := fun d => { d with st := d.back, ctx := none, stall := .none }) (Core.ctxEnds_of hp _)]

/-! The checks of an image -/

theorem imageHeadOk_iff {l : List Byte} : imageHeadOk l = true ↔
    imgFld l 0 4 = 0x4F564C53 ∧ imgFld l 4 2 = 1 ∧ (imgFld l 6 1 = 8 ∨ imgFld l 6 1 = 16 ∨ imgFld l 6 1 = 32) := by
  simp [imageHeadOk, and_assoc, or_assoc]

section
variable {l : List Byte} (h32 : imgFld l 6 1 = 32)
include h32

theorem imageCheck_badCrc (h : crc32c (l.take 8892) ≠ BitVec.ofNat 32 (imgFld l 8892 4)) : imageCheck l = Code.ctxInvalid := by
  rw [imageCheck, h32, imageLen_32, if_pos h]

theorem imageCheck_good (h : crc32c (l.take 8892) = BitVec.ofNat 32 (imgFld l 8892 4)) (hf : imageFormOk l = true) : imageCheck l = 0 := by
  rw [imageCheck, h32, imageLen_32, if_neg (not_not.2 h), hf, if_neg (by decide), if_neg (by omega)]

end

/-- START is not queued by an image. -/
theorem applyImage_pendStart (s : State) (n : Nat) (l : List Byte) : ((s.applyImage n l).core n).pendStart = (s.core n).pendStart := by
  rw [State.applyImage, State.setVf_core, State.core_modCore_same, State.core_setReg, State.core_modCore_same]
  rfl

theorem restoreImages : Claims.RestoreImages := by
  intro s k off n c pg l head fails hr ht hst hz hp hw hspot hoff
  have restores (e : Ecc) : exec (.contextRestore k e) s = .next (s.restoreImage n e) :=
    congrArg Host.Outcome.next ((State.onIsland_of_up hr ht _).trans (if_pos ⟨hst, hz⟩))
  have s64 := hspot 64 (by omega)
  have s8896 := hspot 8896 hoff
  have field {o w : Nat} (h : o + w ≤ 8) : imgFld (c.spadBytes off 8) o w = imgFld l o w := imgFld_prefix c off h (by omega)
  have headOk : imageHeadOk (c.spadBytes off 8) = true ↔
      imgFld l 0 4 = 0x4F564C53 ∧ imgFld l 4 2 = 1 ∧ (imgFld l 6 1 = 8 ∨ imgFld l 6 1 = 16 ∨ imgFld l 6 1 = 32) := by
    rw [imageHeadOk_iff, field (by decide), field (by decide), field (by decide)]
  have whole (hc : c.poisonedAt off 8896 = false) (hd : head) := restoreImage_whole hw s64 hc (headOk.2 ⟨hd.1, hd.2.1, .inr (.inr hd.2.2)⟩)
    ((field (by decide)).trans hd.2.2) s8896
  refine ⟨fun hc hd hcrc hf => ?_, fun hc hd => ?_, fun hc hd hcrc => ?_, fun e hq => ?_⟩
  · rw [restores, whole hc hd, imageCheck_good hd.2.2 hcrc hf, if_neg (by simp), ctxStat_done]
    exact congrArg (fun t : State => Host.Outcome.next ((t.setReg (pg + 0x64) 2).raiseIrq pg 4)) (modCore_congr (f := fun c => c.ctxEnds .stopped)
      (Core.ctxEnds_of ((applyImage_pendStart s n l).trans hp) _))
  · have bad : imageHeadOk (c.spadBytes off 8) = false := Bool.eq_false_iff.2 (mt headOk.1 hd)
    exact (restores _).trans (congrArg Host.Outcome.next ((restoreImage_badHead hw s64 hc bad).trans (restoreFails_of hp (by decide))))
  · have bad := imageCheck_badCrc hd.2.2 hcrc
    have image : imageCheck ((s.core n).spadBytes off 8896) ≠ 0 := by rw [bad]; decide
    exact (restores _).trans (congrArg Host.Outcome.next ((whole hc hd).trans ((if_pos image).trans (by rw [bad]; exact restoreFails_of hp (by decide)))))
  · obtain ⟨p, core, _⟩ := eccFound_marks s n (wordsOf off 8) e
    exact (restores _).trans (congrArg Host.Outcome.next ((restoreImage_poisoned hw s64 (eccFound_poisoned hq)).trans
      (restoreFails_of (by rw [core]; exact hp) (by decide))))

end Sys2Proof.Machine
end

section
/-! PROOFS. Loop entries in the words of an image (04 R157). -/
namespace Sys2Proof.Machine

theorem LoopEntry.bytes_length (l : LoopEntry) : l.bytes.length = 16 := by
  simp [LoopEntry.bytes]

theorem loopBytes_length (ls : List LoopEntry) : ((ls.map LoopEntry.bytes).flatten).length = 16 * ls.length := by
  induction ls with
  | nil => rfl
  | cons l ls ih => rw [List.map_cons, List.flatten_cons, List.length_append, ih, LoopEntry.bytes_length, List.length_cons, Nat.mul_succ, Nat.add_comm]

/-- The words of entry i, where it stands in an image. -/
theorem imgLoop_at {a rest : List Byte} {i : Nat} (ha : a.length = 0x40 + 16 * i) (l : LoopEntry) :
    imgLoop (a ++ (l.bytes ++ rest)) i 0 = l.first.toNat % 2 ^ 32 ∧
    imgLoop (a ++ (l.bytes ++ rest)) i 1 = (l.last.toNat + (l.stages - 1) * 2 ^ 24 + b2n l.rot * 2 ^ 28) % 2 ^ 32 ∧
    imgLoop (a ++ (l.bytes ++ rest)) i 2 = l.n % 2 ^ 32 ∧ imgLoop (a ++ (l.bytes ++ rest)) i 3 = l.done % 2 ^ 32 := by
  have word {w v : Nat} (hw : w < 4) (h : (l.bytes.drop (4 * w)).take 4 = leBytes 4 v) : imgLoop (a ++ (l.bytes ++ rest)) i w = v % 2 ^ 32 := by
    have len := l.bytes_length
    rw [imgLoop, imgFld, bytesAt_of_le (by simp only [List.length_append, ha, len]; omega), ← ha, ← List.drop_drop, List.drop_left, List.drop_append_of_le_length (by omega),
      List.take_append_of_le_length (by simp only [List.length_drop, len]; omega), h, leNat_leBytes, show 256 ^ 4 = 2 ^ 32 by decide]
  exact ⟨word (by decide) rfl, word (by decide) rfl, word (by decide) rfl, word (by decide) rfl⟩

/-- The fields of the second word of an entry. -/
theorem loopWord_fields {last st r : Nat} (hl : last < 2 ^ 20) (hs : st < 4) (hr : r < 2) :
    (last + st * 2 ^ 24 + r * 2 ^ 28) % 2 ^ 32 = last + st * 2 ^ 24 + r * 2 ^ 28 ∧ (last + st * 2 ^ 24 + r * 2 ^ 28) % 2 ^ 20 = last ∧
    bits (last + st * 2 ^ 24 + r * 2 ^ 28) 24 2 = st ∧ bits (last + st * 2 ^ 24 + r * 2 ^ 28) 28 1 = r := by
  refine ⟨?_, ?_, ?_, ?_⟩
  · exact Nat.mod_eq_of_lt (by omega)
  · omega
  · rw [bits]; omega
  · rw [bits]; omega

theorem imgEntry_at {a rest : List Byte} {i : Nat} (ha : a.length = 0x40 + 16 * i) {l : LoopEntry} (h1 : 1 ≤ l.stages) (h4 : l.stages ≤ 4)
    (hn : l.n < 2 ^ 32) (hd : l.done < 2 ^ 32) : imgEntry (a ++ (l.bytes ++ rest)) i = l := by
  obtain ⟨first, last, n, done⟩ := imgLoop_at (rest := rest) ha l
  have rot : b2n l.rot < 2 := by cases l.rot <;> decide
  obtain ⟨word, lastEq, stagesEq, rotEq⟩ := loopWord_fields l.last.isLt (st := l.stages - 1) (by omega) rot
  rw [imgEntry, first, last, n, done, word, stagesEq, rotEq, Nat.mod_eq_of_lt hn, Nat.mod_eq_of_lt hd]
  have eFirst : BitVec.ofNat 20 (l.first.toNat % 2 ^ 32) = l.first := by
    rw [Nat.mod_eq_of_lt (Nat.lt_trans l.first.isLt (by decide)), BitVec.ofNat_toNat, BitVec.setWidth_eq]
  have eLast : BitVec.ofNat 20 (l.last.toNat + (l.stages - 1) * 2 ^ 24 + b2n l.rot * 2 ^ 28) = l.last := by
    apply BitVec.eq_of_toNat_eq
    rw [BitVec.toNat_ofNat, lastEq]
  have eRot : decide (b2n l.rot = 1) = l.rot := by cases l.rot <;> rfl
  rw [eFirst, eLast, eRot, Nat.sub_add_cancel h1]

theorem loopEntriesRoundTrip : Claims.LoopEntriesRoundTrip := by
  intro ls pre post i l hpre hlen hi h1 h4 hn hd
  obtain ⟨hlt, rfl⟩ := List.getElem?_eq_some_iff.1 hi
  have cut : ls = ls.take i ++ ls[i] :: ls.drop (i + 1) := by rw [List.getElem_cons_drop, List.take_append_drop]
  have whole : bytesAt ((ls.map LoopEntry.bytes).flatten) 0 64 = (ls.map LoopEntry.bytes).flatten ++ List.replicate (64 - 16 * ls.length) 0 := by
    rw [bytesAt, List.drop_zero, List.take_of_length_le (by rw [loopBytes_length]; omega), loopBytes_length]
  have place : pre ++ bytesAt ((ls.map LoopEntry.bytes).flatten) 0 64 ++ post =
      (pre ++ ((ls.take i).map LoopEntry.bytes).flatten) ++ (ls[i].bytes ++
        ((((ls.drop (i + 1)).map LoopEntry.bytes).flatten) ++ List.replicate (64 - 16 * ls.length) 0 ++ post)) := by
    have flat : (ls.map LoopEntry.bytes).flatten =
        ((ls.take i).map LoopEntry.bytes).flatten ++ (ls[i].bytes ++ ((ls.drop (i + 1)).map LoopEntry.bytes).flatten) := by
      conv => lhs; rw [cut]
      rw [List.map_append, List.flatten_append, List.map_cons, List.flatten_cons]
    rw [whole, flat]
    simp only [List.append_assoc]
  rw [place]
  exact imgEntry_at (by rw [List.length_append, hpre, loopBytes_length, List.length_take_of_le (Nat.le_of_lt hlt)]) h1 h4 hn hd

/-- Settles O18: what SAVE and RESTORE do, which images RESTORE takes, and the entries of a restored loop stack. -/
theorem contextImages : Obligations.ContextImages := ⟨contextCommands, restoreImages, loopEntriesRoundTrip⟩

end Sys2Proof.Machine
end

section
/-! PROOFS. The status record and the end of a transfer (06 R207, R208, R210, R211, R213; 04 R145). -/
namespace Sys2Proof.Machine

/-! The record -/

theorem XferJob.nparts_le (j : XferJob) : j.nparts ≤ 64 := by
  rw [XferJob.nparts, bits]
  omega

theorem XferJob.xid_lt (j : XferJob) : j.xid < 2 ^ 16 := Nat.mod_lt _ (by decide)

theorem recordWord_fields {result first parts err xid reason : Nat} (h0 : result < 4) (h1 : first < 64) (h2 : parts ≤ 64) (h3 : err < 2 ^ 16) (h4 : xid < 2 ^ 16)
    (h5 : reason < 16) {x : Nat} (hx : x = result + first * 2 ^ 2 + parts * 2 ^ 8 + err * 2 ^ 16 + xid * 2 ^ 32 + reason * 2 ^ 48) :
    x < 256 ^ 8 ∧ bits x 0 2 = result ∧ bits x 2 6 = first ∧ bits x 8 7 = parts ∧ bits x 15 1 = 0 ∧ bits x 16 16 = err ∧ bits x 32 16 = xid ∧
      bits x 48 4 = reason ∧ bits x 52 12 = 0 := by
  simp only [bits]
  omega

theorem xferRecord_fields (j : XferJob) {result first reason mask : Nat} (err : BitVec 16) (h0 : result < 4) (h1 : first < 64) (h2 : reason < 16) (h3 : mask < 2 ^ 64) :
    (xferRecord j result first err reason mask).length = 16 ∧
    leNat ((xferRecord j result first err reason mask).take 8) =
      result + first * 2 ^ 2 + j.nparts * 2 ^ 8 + err.toNat * 2 ^ 16 + j.xid * 2 ^ 32 + reason * 2 ^ 48 ∧
    leNat ((xferRecord j result first err reason mask).drop 8) = mask := by
  obtain ⟨small, _⟩ := recordWord_fields h0 h1 j.nparts_le err.isLt j.xid_lt h2 rfl
  rw [xferRecord, List.take_left' (leBytes_length ..), List.drop_left' (leBytes_length ..), leNat_leBytes, leNat_leBytes, Nat.mod_eq_of_lt small,
    Nat.mod_eq_of_lt (lt_of_lt_of_eq h3 (by decide))]
  exact ⟨by simp, rfl, rfl⟩

/-! The end of a transfer -/

/-- The failed parts. -/
def XferJob.bad (j : XferJob) : List Part := j.parts.filter (fun p => decide (p.code ≠ 0))

section
variable {s : State} {n : Nat} {j : XferJob}

theorem xferDone_complete (h : j.bad = []) : s.xferDone n j = (s.spadWrite n j.stat (xferRecord j 0 0 0 0 0)).xferLeaves n j := by
  rw [XferJob.bad] at h
  simp only [State.xferDone, h, List.isEmpty_nil, List.head?_nil, Option.map_none, Option.getD_none, List.foldl_nil, ↓reduceIte]

theorem xferDone_failed {p : Part} {ps : List Part} (h : j.bad = p :: ps) : s.xferDone n j =
    ((((s.spadWrite n j.stat (xferRecord j (if j.bad.length = j.parts.length then 2 else 1) p.idx p.code 0 (j.bad.foldl (fun m q => m + 2 ^ q.idx) 0))).enterCode
      (niPage n) (if j.bad.length = j.parts.length then p.code else Code.xferPartial)).raiseIrq (niPage n) (if j.bad.length = j.parts.length then 2 else 1)).coreEvent n
        (if j.bad.length = j.parts.length then p.code else Code.xferPartial) .ni (BitVec.ofNat 32 j.xid)).xferLeaves n j := by
  rw [XferJob.bad] at h ⊢
  by_cases ha : (p :: ps).length = j.parts.length
  · simp only [State.xferDone, h, ha, List.isEmpty_cons, List.head?_cons, Option.map_some, Option.getD_some, ↓reduceIte, Bool.false_eq_true, (show ¬ 2 = 0 by decide),
      (show ¬ 2 = 1 by decide)]
  · simp only [State.xferDone, h, ha, List.isEmpty_cons, List.head?_cons, Option.map_some, Option.getD_some, ↓reduceIte, Bool.false_eq_true, (show ¬ 1 = 0 by decide)]

end

/-- The completion of the transfer with the id of j, the first of its id in the queue. -/
theorem exec_transferComplete {s : State} {k : CoreId} {before rest : List XferJob} {j : XferJob} (hr : s.inReset = false) (ht : s.tripped = false)
    (hw : (s.core (coreNo k)).spadWaits = false) (hj : (s.core (coreNo k)).jobs = before ++ j :: rest) (hb : ∀ x ∈ before, x.id ≠ j.id) (hs : j.started = true) :
    exec (.transferComplete k j.id) s = .next (if j.parts.all (fun p => decide (p.left = 0)) then s.xferDone (coreNo k) j else s) := by
  have found : (s.core (coreNo k)).jobs.find? (fun x => decide (x.id = j.id)) = some j := by
    rw [hj, List.find?_append, List.find?_eq_none.2 (fun x hx => by simpa using hb x hx), List.find?_cons_of_pos (by simp)]
    rfl
  refine congrArg Host.Outcome.next ((State.onIsland_of_up hr ht _).trans ?_)
  dsimp only
  rw [found]
  dsimp only
  rw [hs, hw, Bool.true_and]
  rfl

theorem transferEnded {s : State} {k : CoreId} {before rest : List XferJob} {j : XferJob} (hr : s.inReset = false) (ht : s.tripped = false)
    (hw : (s.core (coreNo k)).spadWaits = false) (hj : (s.core (coreNo k)).jobs = before ++ j :: rest) (hb : ∀ x ∈ before, x.id ≠ j.id) (hs : j.started = true)
    (hl : ∀ p ∈ j.parts, p.left = 0) : exec (.transferComplete k j.id) s = .next (s.xferDone (coreNo k) j) := by
  rw [exec_transferComplete hr ht hw hj hb hs, if_pos (List.all_eq_true.2 fun p hp => decide_eq_true (hl p hp))]

theorem codeWorst_or (a b : BitVec 16) : codeWorst a b = a ∨ codeWorst a b = b := by
  unfold codeWorst
  split
  · exact .inr rfl
  · split
    · exact .inl rfl
    · split
      · exact .inr rfl
      · exact .inl rfl

theorem transferEnds : Claims.TransferEnds := by
  refine ⟨fun s k before rest j hr ht hw hj hb hs => ⟨fun ⟨p, hp, h⟩ => ?_, fun hl => ⟨fun h => ?_, fun p ps h => ?_⟩⟩, codeWorst_or, by decide⟩
  · rw [exec_transferComplete hr ht hw hj hb hs, if_neg]
    exact fun all => h (of_decide_eq_true (List.all_eq_true.1 all p hp))
  · rw [transferEnded hr ht hw hj hb hs hl, xferDone_complete h]
  · rw [transferEnded hr ht hw hj hb hs hl, xferDone_failed h]
    rfl

/-! The example of R213 -/

/-- The descriptor of R213, in its queue with its parts. -/
def exampleXfer : XferJob := ⟨0, [0x00000A21000000F1, 0x0080000000050000, 0x0000004000060000, 0x1000, 0, 63, 0x70000, 0], 0, true, true,
  (List.range 16).map (fun i => ⟨i, 0, if i = 5 then Code.netLinkTimeout else if i = 12 then Code.netRouteNone else 0⟩)⟩

theorem exampleXfer_check : exampleXfer.check (1, 1) [] = none := by decide +kernel

theorem exampleXfer_record : exampleXfer.stat = 0x70000 ∧ exampleXfer.bad = [⟨5, 0, Code.netLinkTimeout⟩, ⟨12, 0, Code.netRouteNone⟩] := by decide +kernel

/-- What the end of a transfer leaves in the scratchpad, where a part has failed: its record. -/
theorem xferDone_spad {s : State} {n : Nat} {j : XferJob} {p : Part} {ps : List Part} (h : j.bad = p :: ps) : ((s.xferDone n j).core n).spad =
    ((s.core n).spadWrite j.stat (xferRecord j (if j.bad.length = j.parts.length then 2 else 1) p.idx p.code 0 (j.bad.foldl (fun m q => m + 2 ^ q.idx) 0))).spad := by
  have leaves (t : State) : ((t.xferLeaves n j).core n).spad = (t.core n).spad := by
    rw [State.xferLeaves, State.core_modCore_same]
    unfold Core.countDown
    split <;> rfl
  have told (t : State) (code : BitVec 16) (x : Word) : (t.coreEvent n code .ni x).core n = t.core n := by
    have logs : t.LogsTo (t.coreEvent n code .ni x) := State.LogsTo.event ..
    rw [State.core, logs.cores, State.core]
  rw [xferDone_failed h, leaves, told]
  simp only [State.raiseIrq_keeps, State.enterCode_keeps, State.spadWrite, State.core_modCore_same]

/-- The two halves of 16 bytes that have been written. -/
theorem spadWrite_halves (c : Core) (off : Nat) {l : List Byte} (h : l.length = 16) :
    (c.spadWrite off l).spadBytes off 8 = l.take 8 ∧ (c.spadWrite off l).spadBytes (off + 8) 8 = l.drop 8 := by
  have whole := spadWrite_readN c off l
  rw [h, Core.spadBytes] at whole
  have low := Memory.readN_drop_take (c.spadWrite off l).spad off 0 8 8
  have high := Memory.readN_drop_take (c.spadWrite off l).spad off 8 8 0
  rw [whole] at low high
  refine ⟨low.symm, high.symm.trans (List.take_of_length_le ?_)⟩
  rw [List.length_drop, h]

theorem exampleXfer_fields : exampleXfer.bad.length ≠ exampleXfer.parts.length ∧
    exampleXfer.bad.foldl (fun m q => m + 2 ^ q.idx) 0 = 0x1020 ∧ exampleXfer.nparts = 16 ∧ exampleXfer.xid = 0xA21 := by
  decide +kernel

/-- The end of the example's transfer writes the record that R213 shows. -/
theorem exampleXfer_ends {s : State} {k : CoreId} (hr : s.inReset = false) (ht : s.tripped = false) (hj : (s.core (coreNo k)).jobs = [exampleXfer])
    (hw : (s.core (coreNo k)).spadWaits = false) : ∃ t, exec (.transferComplete k 0) s = .next t ∧
      leNat ((t.core (coreNo k)).spadBytes 0x70000 8) = 0x00000A2130011015 ∧ leNat ((t.core (coreNo k)).spadBytes 0x70008 8) = 0x1020 := by
  have ended (p : Part) (hp : p ∈ exampleXfer.parts) : p.left = 0 := by
    obtain ⟨i, _, rfl⟩ := List.mem_map.1 hp
    rfl
  refine ⟨_, transferEnded (before := []) (rest := []) (j := exampleXfer) hr ht hw hj (by simp) rfl ended, ?_⟩
  obtain ⟨stat, bad⟩ := exampleXfer_record
  obtain ⟨some_, mask, parts, xid⟩ := exampleXfer_fields
  have written := xferDone_spad (s := s) (n := coreNo k) bad
  rw [mask, if_neg some_, stat] at written
  obtain ⟨len, word, upper⟩ := xferRecord_fields exampleXfer (result := 1) (first := 5) (reason := 0) (mask := 0x1020) Code.netLinkTimeout (by decide) (by decide)
    (by decide) (by decide)
  obtain ⟨low, high⟩ := spadWrite_halves (s.core (coreNo k)) 0x70000 len
  rw [Core.spadBytes] at low high
  rw [Core.spadBytes, Core.spadBytes, written, low, high, word, upper, parts, xid]
  exact ⟨by decide, rfl⟩

theorem transferRecords : Claims.TransferRecords := by
  refine ⟨fun j result first reason err mask h0 h1 h2 h3 => ?_, ?_⟩
  · obtain ⟨len, word, upper⟩ := xferRecord_fields j err h0 h1 h2 h3
    obtain ⟨_, f0, f1, f2, f3, f4, f5, f6, f7⟩ := recordWord_fields h0 h1 j.nparts_le err.isLt j.xid_lt h2 word
    exact ⟨len, f0, f1, f2, f3, f4, f5, f6, f7, upper⟩
  · intro s k n words part j hr ht hj hw
    exact ⟨exampleXfer_check, exampleXfer_ends hr ht hj hw⟩

end Sys2Proof.Machine
end

section
/-! PROOFS. The pieces of a part (07 R229). -/
namespace Sys2Proof.Machine

/-- The length of the first piece. -/
def pieceLen (src dst len sq dq : Nat) : Nat := min len (min (sq - src % sq) (dq - dst % dq))

theorem cuts_done (f src dst sq dq : Nat) : cuts f src dst 0 sq dq = [] := by
  cases f <;> rfl

theorem cuts_more (f : Nat) {src dst len sq dq : Nat} (h : len ≠ 0) : cuts (f + 1) src dst len sq dq =
    (src, dst, pieceLen src dst len sq dq) ::
      cuts f (src + pieceLen src dst len sq dq) (dst + pieceLen src dst len sq dq) (len - pieceLen src dst len sq dq) sq dq := by
  rw [cuts, if_neg h]
  rfl

/-- What is to be cut: multiples of 8 bytes, at places that 8 divides, with pieces of 64 or 256 bytes at either end. -/
structure Cuttable (src dst len sq dq : Nat) : Prop where
  src8 : src % 8 = 0
  dst8 : dst % 8 = 0
  len8 : len % 8 = 0
  sq : sq = 64 ∨ sq = 256
  dq : dq = 64 ∨ dq = 256

section
variable {src dst len sq dq : Nat} (h : Cuttable src dst len sq dq)
include h

/-- The first piece is not empty, lies in what is to be cut and crosses no boundary. -/
theorem pieceLen_bounds (h0 : len ≠ 0) : 8 ≤ pieceLen src dst len sq dq ∧ pieceLen src dst len sq dq % 8 = 0 ∧ pieceLen src dst len sq dq ≤ len ∧
    src % sq + pieceLen src dst len sq dq ≤ sq ∧ dst % dq + pieceLen src dst len sq dq ≤ dq := by
  obtain ⟨src8, dst8, len8, hs, hd⟩ := h
  simp only [pieceLen]
  rcases hs with rfl | rfl <;> rcases hd with rfl | rfl <;> omega

theorem Cuttable.rest (h0 : len ≠ 0) :
    Cuttable (src + pieceLen src dst len sq dq) (dst + pieceLen src dst len sq dq) (len - pieceLen src dst len sq dq) sq dq := by
  obtain ⟨_, mult, le, _, _⟩ := pieceLen_bounds h h0
  obtain ⟨src8, dst8, len8, hs, hd⟩ := h
  exact ⟨by omega, by omega, by omega, hs, hd⟩

end

/-- A piece of what is to be cut: not empty, within one boundary at either end, inside, and at the same distance from both starts. -/
def IsPiece (src dst len sq dq : Nat) (p : Nat × Nat × Nat) : Prop :=
  0 < p.2.2 ∧ p.1 % sq + p.2.2 ≤ sq ∧ p.2.1 % dq + p.2.2 ≤ dq ∧ src ≤ p.1 ∧ p.1 + p.2.2 ≤ src + len ∧ p.2.1 + src = p.1 + dst

theorem cuts_spec {sq dq : Nat} (f : Nat) : ∀ {src dst len : Nat}, Cuttable src dst len sq dq → len < 8 * f →
    ((cuts f src dst len sq dq).map (fun p => p.2.2)).sum = len ∧ (∀ p ∈ cuts f src dst len sq dq, IsPiece src dst len sq dq p) ∧
    (∀ x, src ≤ x → x < src + len → ∃ p ∈ cuts f src dst len sq dq, p.1 ≤ x ∧ x < p.1 + p.2.2) ∧
    List.Pairwise (fun p q => p.1 + p.2.2 ≤ q.1) (cuts f src dst len sq dq) := by
  induction f with
  | zero => exact fun _ h => absurd h (by omega)
  | succ f ih =>
    intro src dst len h hf
    by_cases h0 : len = 0
    · subst h0
      rw [cuts_done]
      exact ⟨rfl, fun p hp => absurd hp List.not_mem_nil, fun x h1 h2 => absurd h2 (by omega), .nil⟩
    · obtain ⟨ge, _, le, inSrc, inDst⟩ := pieceLen_bounds h h0
      obtain ⟨sum, pieces, cover, apart⟩ := ih (h.rest h0) (by omega)
      rw [cuts_more f h0]
      generalize pieceLen src dst len sq dq = k at *
      refine ⟨?_, fun p hp => ?_, fun x h1 h2 => ?_, .cons (fun q hq => ?_) apart⟩
      · rw [List.map_cons, List.sum_cons, sum]
        exact Nat.add_sub_cancel' le
      · rcases List.mem_cons.1 hp with rfl | hp
        · exact ⟨show 0 < k by omega, inSrc, inDst, Nat.le_refl _, show src + k ≤ src + len by omega, Nat.add_comm ..⟩
        · obtain ⟨pos, s, d, lo, hi, off⟩ := pieces p hp
          exact ⟨pos, s, d, by omega, by omega, by omega⟩
      · by_cases hx : x < src + k
        · exact ⟨_, List.mem_cons_self, h1, hx⟩
        · obtain ⟨p, hp, lo, hi⟩ := cover x (by omega) (by omega)
          exact ⟨p, List.mem_cons_of_mem _ hp, lo, hi⟩
      · exact (pieces q hq).2.2.2.1

theorem partPieces : Claims.PartPieces := by
  intro src dst len sq dq hs hd hl hsq hdq
  exact cuts_spec _ ⟨hs, hd, hl, hsq, hdq⟩ (by omega)

end Sys2Proof.Machine
end

section
/-! PROOFS. TRANSFER_START (06 R200, R204, R206; 04 R145). -/
namespace Sys2Proof.Machine

/-! Which transfer starts -/

section
variable {c : Core}

theorem nextXfer_full (h : 4 ≤ (c.jobs.filter (fun x => x.started)).length) : c.nextXfer = none := if_pos h

variable {before rest : List XferJob} {j : XferJob} (hj : c.jobs = before ++ j :: rest) (hs : j.started = false)
  (hb : ∀ x ∈ before, x.started = true ∧ x.id ≠ j.id) (hn : (c.jobs.filter (fun x => x.started)).length < 4)
include hj hs hb hn

/-- The first that has not started waits for the earlier ones where it is to keep the order. -/
theorem nextXfer_first : c.nextXfer = if j.order && !before.isEmpty then none else some j := by
  have found : c.jobs.find? (fun j => !j.started) = some j := by
    rw [hj, List.find?_append, List.find?_eq_none.2 (fun x hx => by simp [(hb x hx).1]), List.find?_cons_of_pos (by simp [hs])]
    rfl
  have earlier : c.jobs.takeWhile (fun x => decide (x.id ≠ j.id)) = before := by
    rw [hj, List.takeWhile_append_of_pos (fun x hx => decide_eq_true (hb x hx).2), List.takeWhile_cons_of_neg (by simp), List.append_nil]
  rw [Core.nextXfer, if_neg (Nat.not_le.2 hn), found]
  dsimp only
  rw [earlier]

end

/-! TRANSFER_START of a scratchpad that does not wait -/

section
variable {s : State} {k : CoreId} {e : Ecc} (hr : s.inReset = false) (ht : s.tripped = false) (hw : (s.core (coreNo k)).spadWaits = false)
include hr ht hw

theorem transferStart_none (hq : (s.core (coreNo k)).nextXfer = none) : exec (.transferStart k e) s = .next s := by
  refine congrArg Host.Outcome.next ((State.onIsland_of_up hr ht _).trans ?_)
  dsimp only
  rw [hw, if_neg Bool.noConfusion, hq]

theorem transferStart_some {j : XferJob} (hq : (s.core (coreNo k)).nextXfer = some j) : exec (.transferStart k e) s = .next (s.xferStart (coreNo k) j e) := by
  refine congrArg Host.Outcome.next ((State.onIsland_of_up hr ht _).trans ?_)
  dsimp only
  rw [hw, if_neg Bool.noConfusion, hq]

end

section
variable {s : State} {n : Nat} {j : XferJob}

/-! A failed check -/

theorem xferStart_refused {reason : Nat} {statBad : Bool} (h : j.check (s.meAt n) (j.entries (s.core n)) = some (reason, statBad)) :
    s.xferStart n j ⟨[], []⟩ = s.xferFault n j reason statBad := by
  rw [State.xferStart, eccFound_nil, h]

theorem xferFault_recorded {reason : Nat} (h16 : j.stat % 16 = 0) (hle : j.stat + 16 ≤ 2 ^ 20) : s.xferFault n j reason false =
    ((s.spadWrite n j.stat (xferRecord j 3 0 Code.xferDescriptor reason 0)).enterCode (niPage n) Code.xferDescriptor).xferLeaves n j := by
  rw [State.xferFault, if_neg]
  simp only [Bool.false_or, Bool.or_eq_true, decide_eq_true_eq]
  omega

theorem xferFault_unrecorded {reason : Nat} : s.xferFault n j reason true = (s.enterCode (niPage n) Code.xferDescriptor).xferLeaves n j := by
  rw [State.xferFault, if_pos]
  rfl

/-! The parts of a transfer that is taken up -/

/-- A transfer has started, and parts have been added to it. -/
def Core.marksXfer (id : Nat) (ps : List Part) (d : Core) : Core :=
  { d with jobs := d.jobs.map (fun x => if x.id = id then { x with started := true, parts := x.parts ++ ps } else x) }

/-- A part has been added to a transfer, with its requests. -/
def Core.addsPart (id : Nat) (p : Part) (reqs : List Outst) (d : Core) : Core :=
  { d with jobs := d.jobs.map (fun x => if x.id = id then { x with parts := x.parts ++ [p] } else x), unsent := d.unsent ++ reqs }

theorem addsPart_marksXfer (id : Nat) (p : Part) (ps : List Part) (reqs : List Outst) (d : Core) :
    (d.marksXfer id ps).addsPart id p reqs = { d.marksXfer id (ps ++ [p]) with unsent := d.unsent ++ reqs } := by
  have twice (x : XferJob) : (if (if x.id = id then { x with started := true, parts := x.parts ++ ps } else x).id = id then
      { (if x.id = id then { x with started := true, parts := x.parts ++ ps } else x) with
        parts := (if x.id = id then { x with started := true, parts := x.parts ++ ps } else x).parts ++ [p] }
      else (if x.id = id then { x with started := true, parts := x.parts ++ ps } else x)) =
      if x.id = id then { x with started := true, parts := x.parts ++ (ps ++ [p]) } else x := by
    by_cases h : x.id = id
    · simp [h]
    · simp [h]
  rw [Core.addsPart, Core.marksXfer, Core.marksXfer]
  simp only [List.map_map, Function.comp_def, twice]

theorem freeCtr_same {t : State} {k : Nat} (h : t.freeCtr = k) : { t with freeCtr := k } = t := by
  subst h
  rfl

/-- A part of no bytes has no requests. -/
theorem startPart_empty (hb : j.bytes = 0) (es : List Nat) (gs i : Nat) : s.startPart n j es gs i = s.modCore n (Core.addsPart j.id ⟨i, 0, 0⟩ []) := by
  simp only [State.startPart, hb, ↓reduceIte, true_or, List.length_nil, Nat.add_zero]
  exact freeCtr_same rfl

/-- All parts of a transfer of no bytes. -/
theorem startParts_empty (hb : j.bytes = 0) (es : List Nat) (gs : Nat) (l : List Nat) (ps : List Part) :
    l.foldl (fun s i => s.startPart n j es gs i) (s.modCore n (Core.marksXfer j.id ps)) =
      s.modCore n (Core.marksXfer j.id (ps ++ l.map (fun i => ⟨i, 0, 0⟩))) := by
  induction l generalizing ps with
  | nil => rw [List.foldl_nil, List.map_nil, List.append_nil]
  | cons i l ih =>
    have one : ((s.core n).marksXfer j.id ps).addsPart j.id ⟨i, 0, 0⟩ [] = (s.core n).marksXfer j.id (ps ++ [⟨i, 0, 0⟩]) := by
      rw [addsPart_marksXfer, List.append_nil]
      rfl
    rw [List.foldl_cons, startPart_empty hb, State.modCore_modCore, modCore_congr one, ih, List.map_cons, List.append_assoc]
    rfl

/-- With no request waiting nothing is sent. -/
theorem pump_none (f : Nat) (h : (s.core n).unsent = []) : State.pump f s n = s := by
  cases f with
  | zero => rfl
  | succ f => rw [State.pump, h]

/-- A transfer without a stream has been taken up: every selected part has been started. -/
def State.xferBegun (s : State) (n : Nat) (j : XferJob) : State :=
  j.selected.foldl (fun t i => t.startPart n j (j.entries (s.core n)) 0 i) (s.modCore n (Core.marksXfer j.id []))

theorem xferStart_taken (h : j.check (s.meAt n) (j.entries (s.core n)) = none) (h0 : j.stream = 0) :
    s.xferStart n j ⟨[], []⟩ = State.pump ((((s.xferBegun n j).core n).unsent.length) + 1) (s.xferBegun n j) n := by
  have marks : s.modCore n (fun c => { c with jobs := c.jobs.map (fun x => if x.id = j.id then { x with started := true } else x) }) =
      s.modCore n (Core.marksXfer j.id []) := by
    unfold Core.marksXfer
    simp only [List.append_nil]
  simp only [State.xferStart, eccFound_nil, h, h0, ne_eq, not_true_eq_false, decide_false, Bool.false_and, true_or, ↓reduceIte, Bool.false_eq_true, marks]
  rfl

theorem xferStart_empty (h : j.check (s.meAt n) (j.entries (s.core n)) = none) (h0 : j.stream = 0) (hb : j.bytes = 0) (hu : (s.core n).unsent = []) :
    s.xferStart n j ⟨[], []⟩ = s.modCore n (Core.marksXfer j.id (j.selected.map (fun i => ⟨i, 0, 0⟩))) := by
  have begun : s.xferBegun n j = s.modCore n (Core.marksXfer j.id (j.selected.map (fun i => ⟨i, 0, 0⟩))) := startParts_empty hb _ _ _ []
  rw [xferStart_taken h h0, begun, pump_none]
  rw [State.core_modCore_same]
  exact hu

end

end Sys2Proof.Machine
end

section
/-! PROOFS. The start of a COPY of 64 own bytes to a line of LPDDR (06 R200 to R206; 07 R229, R254). -/
namespace Sys2Proof.Machine

/-! The addresses: SELF with an offset, and LPDDR with an offset (06 R184) -/

section
variable {a : Nat} (h : a < 2 ^ 20)
include h

theorem self_spaceOf : spaceOf (2 ^ 55 + a) = 0 := by
  rw [spaceOf, bits]
  omega

theorem self_selfOf : selfOf (2 ^ 55 + a) = true := by
  rw [selfOf, bits]
  exact decide_eq_true (by omega)

theorem self_offOf : offOf (2 ^ 55 + a) = a := by
  rw [offOf, self_spaceOf h]
  exact (show (2 ^ 55 + a) / 2 ^ 0 % 2 ^ 20 = a by omega)

end

section
variable {b : Nat} (h : b < 2 ^ 41)
include h

theorem lpddr_spaceOf : spaceOf (2 ^ 56 + b) = 1 := by
  rw [spaceOf, bits]
  omega

theorem lpddr_offOf : offOf (2 ^ 56 + b) = b := by
  rw [offOf, lpddr_spaceOf h]
  exact (show (2 ^ 56 + b) / 2 ^ 0 % 2 ^ 41 = b by omega)

end

/-! The one piece of the one part -/

/-- A COPY in one part of 64 own bytes from a to the line of LPDDR at b. -/
structure XferJob.CopiesLine (j : XferJob) (a b : Nat) : Prop where
  typ : j.typ = 0
  nparts : j.nparts = 1
  mask : j.mask = 0
  bytes : j.bytes = 64
  src : j.src = 2 ^ 55 + a
  dst : j.dst = 2 ^ 56 + b
  own : a < 2 ^ 20
  mem : b < 2 ^ 41
  src64 : a % 64 = 0
  dst64 : b % 64 = 0

/-- The request of its one piece. -/
def lineWrite (j : XferJob) (data : List Byte) : Outst := ⟨0, j.id, 0, false, BitVec.ofNat 64 j.dst, 64, BitVec.ofNat 64 j.dst, 0, false, data⟩

theorem cuts_line {a b : Nat} (ha : a % 64 = 0) (hb : b % 64 = 0) : cuts (64 / 8 + 1) a b 64 256 64 = [(a, b, 64)] := by
  have all : pieceLen a b 64 256 64 = 64 := by
    rw [pieceLen]
    omega
  rw [cuts_more _ (by decide), all, Nat.sub_self, cuts_done]

section
variable {j : XferJob} {a b : Nat} (h : j.CopiesLine a b)
include h

theorem copy_selected : j.selected = [0] := by
  rw [XferJob.selected, h.nparts, h.mask]
  rfl

theorem copy_ends (me : Nat × Nat) (es : List Nat) : j.ends me es 0 = (⟨0, me.1, 0, me.2, a⟩, ⟨1, 0, 0, 0, b⟩) := by
  rw [XferJob.ends, h.typ]
  dsimp only
  rw [h.src, h.dst, XEnd.of, self_spaceOf h.own, self_selfOf h.own, self_offOf h.own, XEnd.of, lpddr_spaceOf h.mem, lpddr_offOf h.mem]
  simp only [Nat.zero_mul, Nat.add_zero, ↓reduceIte]

theorem copy_reqs (c : Core) (me : Nat × Nat) : partReqs j c true 0 ⟨0, me.1, 0, me.2, a⟩ ⟨1, 0, 0, 0, b⟩ 0 = [lineWrite j (c.spadBytes a 64)] := by
  have to_ : (⟨1, 0, 0, 0, b⟩ : XEnd).addr 0 (b - b) = j.dst := by
    rw [h.dst, Nat.sub_self]
    rfl
  rw [partReqs, h.bytes]
  simp only [↓reduceIte, (by decide : ¬ (1 : Nat) = 0), cuts_line h.src64 h.dst64, List.range, List.range.loop, List.map_cons, List.map_nil, List.flatten_cons,
    List.flatten_nil, List.append_nil, to_]
  rfl

/-- Its one part is started with one request. -/
theorem copy_starts {s : State} {n : Nat} (hp : (s.core n).poisonedAt a 64 = false) (ht : s.niTenant n = 0xFF) (es : List Nat) :
    s.startPart n j es 0 0 = s.modCore n (Core.addsPart j.id ⟨0, 1, 0⟩ [lineWrite j ((s.core n).spadBytes a 64)]) := by
  have let_ (e : XEnd) (len : Nat) : s.admits n e len = true := by
    rw [State.admits, ht]
    rfl
  have listed : j.listed = false := by
    rw [XferJob.listed, h.typ]
    rfl
  simp only [State.startPart, copy_ends h, decide_true, listed, let_, h.bytes, hp, copy_reqs h, Bool.false_and,
    Bool.or_true, Bool.and_true, Bool.not_true, Bool.false_eq_true, Bool.or_false, ↓reduceIte, (by decide : ¬ (64 : Nat) = 0), false_or]
  exact freeCtr_same rfl

end

/-! The request is sent -/

theorem copy_far {j : XferJob} {a b : Nat} (h : j.CopiesLine a b) : spaceOf (BitVec.ofNat 64 j.dst).toNat ≠ 0 := by
  rw [BitVec.toNat_ofNat, Nat.mod_eq_of_lt (by rw [h.dst]; have := h.mem; omega), h.dst, lpddr_spaceOf h.mem]
  decide

/-- A request to a memory plane is sent under a free tag, and waits for its answer. -/
theorem sendOut_write {s : State} {n : Nat} {o : Outst} (hs : spaceOf o.addr.toNat ≠ 0) (hr : o.isRead = false) {o1 : Outst}
    (h1 : { o with tag := BitVec.ofNat 12 (s.core n).freeTag, stamp := s.stampBit n } = o1) : s.sendOut n o =
      (s.modCore n (fun c => { c with nextTag := (o1.tag.toNat + 1) % 2048, outst := (s.core n).outst ++ [o1] })).send
        (.plane 6 (s.planeReq n 6 o1.tag o.addr 2) o.data false) := by
  subst h1
  rw [State.sendOut]
  dsimp only
  rw [if_neg hs, hr]
  rfl

theorem pump_one {s : State} {n : Nat} {o : Outst} (hu : (s.core n).unsent = [o]) (hl : (s.core n).outst.length < 2048) (ht : s.niTenant n ≠ 0)
    (hd : (((s.modCore n (fun c => { c with unsent := [] })).sendOut n o).core n).unsent = []) :
    State.pump 2 s n = (s.modCore n (fun c => { c with unsent := [] })).sendOut n o := by
  rw [State.pump, hu]
  dsimp only
  rw [if_pos ⟨hl, ht⟩, pump_none _ hd]

/-- What the transfer's request is when it has been sent. -/
def sentWrite (s : State) (n : Nat) (j : XferJob) (data : List Byte) : Outst :=
  ⟨BitVec.ofNat 12 (s.core n).freeTag, j.id, 0, false, BitVec.ofNat 64 j.dst, 64, BitVec.ofNat 64 j.dst, 0, s.stampBit n, data⟩

/-- The core once the request has been sent. -/
def Core.sentOne (id : Nat) (o : Outst) (d : Core) : Core :=
  { d.marksXfer id [⟨0, 1, 0⟩] with nextTag := (o.tag.toNat + 1) % 2048, outst := d.outst ++ [o], unsent := [] }

theorem xferStart_copy {s : State} {n : Nat} {j : XferJob} {a b : Nat} (h : j.CopiesLine a b) (hc : j.check (s.meAt n) (j.entries (s.core n)) = none)
    (h0 : j.stream = 0) (hu : (s.core n).unsent = []) (hl : (s.core n).outst.length < 2048) (hp : (s.core n).poisonedAt a 64 = false) (ht : s.niTenant n = 0xFF)
    {o : Outst} (ho : sentWrite s n j ((s.core n).spadBytes a 64) = o) : s.xferStart n j ⟨[], []⟩ =
      (s.modCore n (Core.sentOne j.id o)).send (.plane 6 (s.planeReq n 6 o.tag (BitVec.ofNat 64 j.dst) 2) o.data false) := by
  have core : (s.modCore n (Core.marksXfer j.id [])).core n = (s.core n).marksXfer j.id [] := State.core_modCore_same ..
  have begun : s.xferBegun n j = s.modCore n (fun d => { d.marksXfer j.id [⟨0, 1, 0⟩] with unsent := [lineWrite j ((s.core n).spadBytes a 64)] }) := by
    have start := copy_starts (s := s.modCore n (Core.marksXfer j.id [])) h (by rw [core]; exact hp) ht (j.entries (s.core n))
    rw [State.xferBegun, copy_selected h, List.foldl_cons, List.foldl_nil, start, State.modCore_modCore, core]
    exact modCore_congr ((addsPart_marksXfer ..).trans (by rw [hu]; rfl))
  have waits : ((s.xferBegun n j).core n).unsent = [lineWrite j ((s.core n).spadBytes a 64)] := by rw [begun, State.core_modCore_same]
  have free : (((s.xferBegun n j).modCore n (fun c => { c with unsent := [] })).core n).freeTag = (s.core n).freeTag := by
    rw [begun, State.modCore_modCore, State.core_modCore_same]
    rfl
  have sent := sendOut_write (s := (s.xferBegun n j).modCore n (fun c => { c with unsent := [] })) (n := n) (o := lineWrite j ((s.core n).spadBytes a 64)) (o1 := o)
    (copy_far h) rfl (by rw [free, ← ho, begun]; rfl)
  have outst : (((s.xferBegun n j).modCore n (fun c => { c with unsent := [] })).core n).outst = (s.core n).outst := by
    rw [begun, State.modCore_modCore, State.core_modCore_same]
    rfl
  have final : ((s.xferBegun n j).modCore n (fun c => { c with unsent := [] })).sendOut n (lineWrite j ((s.core n).spadBytes a 64)) =
      (s.modCore n (Core.sentOne j.id o)).send (.plane 6 (s.planeReq n 6 o.tag (BitVec.ofNat 64 j.dst) 2) o.data false) := by
    rw [sent, outst, begun, State.modCore_modCore, State.modCore_modCore, ← ho]
    rfl
  have pumped := pump_one waits (by rw [begun, State.core_modCore_same]; exact hl) (by rw [begun]; exact fun e => absurd (ht.symm.trans e) (by decide))
    (by rw [final]; exact congrArg Core.unsent (State.core_modCore_same ..))
  rw [xferStart_taken hc h0, waits]
  exact pumped.trans final

theorem transferStarts : Claims.TransferStarts := by
  intro s k before rest j n c me es start marked hr ht hw
  refine ⟨fun hn => transferStart_none hr ht hw (nextXfer_full hn), fun hj hs hb hn => ?_⟩
  have next := nextXfer_first hj hs hb hn
  refine ⟨fun ho hne => ?_, fun ho => ?_⟩
  · exact transferStart_none hr ht hw (next.trans (if_pos (by simp [ho, hne])))
  · have taken : exec (.transferStart k ⟨[], []⟩) s = .next (s.xferStart n j ⟨[], []⟩) :=
      transferStart_some hr ht hw (next.trans (if_neg (by rcases ho with e | e <;> simp [e])))
    refine ⟨fun reason hc h16 hle => ?_, fun reason hc => ?_, fun hc hb h0 hu => ?_, fun hc h0 hu hl htyp hnp hm hby a b ha ha' hb hb' ha64 hb64 hp hten => ?_⟩
    · exact taken.trans (congrArg Host.Outcome.next ((xferStart_refused hc).trans (xferFault_recorded h16 hle)))
    · exact taken.trans (congrArg Host.Outcome.next ((xferStart_refused hc).trans xferFault_unrecorded))
    · exact taken.trans (congrArg Host.Outcome.next (xferStart_empty hc h0 hb hu))
    · have copied := xferStart_copy ⟨htyp, hnp, hm, hby, ha, hb, ha', hb', ha64, hb64⟩ hc h0 hu hl hp hten rfl
      refine ⟨_, taken.trans (congrArg Host.Outcome.next copied), ?_, ?_, ?_, ?_⟩
      · exact congrArg Core.outst (State.core_modCore_same ..)
      · exact congrArg Core.unsent (State.core_modCore_same ..)
      · exact (congrArg Core.jobs (State.core_modCore_same ..)).trans rfl
      · rfl

/-- Settles O23: the record of a transfer, its start, the pieces of a part, and its end. -/
theorem transfers : Obligations.Transfers := ⟨transferRecords, transferStarts, partPieces, transferEnds⟩

end Sys2Proof.Machine
end

section
/-! PROOFS. LDV at a multiple of 4 that is no multiple of 64 (04 R134, R150). -/
namespace Sys2Proof.Machine

/-- Core 0 RUNNING after reset, with a_0 = 4. -/
def wordPointer : State := State.reset.modCore 0 (fun c => { c.setA 0 4 with st := .running })

theorem wordPointer_executes : wordPointer.executes slotOf0 := by
  unfold State.executes State.issues State.atBundle
  decide

/-- The access of LDV by generator 0 is at address 4. -/
theorem wordPointer_agu : (wordPointer.core 0).agu 0 0 0 128 = some (4, none) := by decide

/-- It meets every other condition that is named for LDV. -/
theorem wordPointer_meets : (4 : Dword).toNat % 4 = 0 ∧ spaceOf (4 : Dword).toNat = 0 ∧ (4 : Dword).toNat % 2 ^ 20 + 128 ≤ 2 ^ 20 ∧
    (wordPointer.core 0).spadWaits = false ∧ (wordPointer.core 0).poisonedAt ((4 : Dword).toNat % 2 ^ 20) (4 * min 32 (wordPointer.core 0).vl) = false := by decide

theorem wordPointer_misaligned : wordPointer.faults slotOf0 (.ldv slotOf0 0 0 0 0 ⟨[], []⟩) 2 0x09 (.misaligned 4) := by
  obtain ⟨_, _, misaligned⟩ := accessFaults wordPointer slotOf0 0 0 0 0 ⟨[], []⟩ 4 none wordPointer_executes (.ldv slotOf0 0 0 0 0 ⟨[], []⟩, .ldv) (by simp [loadsOf])
  exact (misaligned ⟨by decide, .inl rfl⟩ wordPointer_agu).1 (by decide)

/-- After a fault of a running sequencer it is FAULTED; after a bundle whose operation writes a vector register it is as it was. -/
theorem faults_not_gives {s : State} {o : Slot} {i : Instr} {slot op j : Nat} {f : Flt} {w : BitVec 1024} (h : s.executes o) (hf : s.faults o i slot op f) :
    ¬ s.gives o i (s.modCore (coreNo o.core) (fun d => d.setV j w)) := by
  intro hg
  obtain ⟨⟨⟨_, _, hst, _, hr, _⟩, _⟩, _⟩ := h
  have same := congrArg (fun t => (t.core (coreNo o.core)).st) (Host.Outcome.next.inj (hf.symm.trans hg))
  rw [State.seqFault_core, if_pos rfl, Core.rest_at_once .faulted (by rw [hst]; decide) hr, State.issued, State.core_inc64, State.core_modCore_same,
    State.core_modCore_same] at same
  have both : SeqState.faulted = .running := same.trans hst
  exact absurd both (by decide)

/-- Refutes O47: LDV does not complete at every address that 4 divides. In wordPointer its address is 4, in the own scratchpad and unpoisoned, and the
access faults MISALIGNED: the model asks 64 B of it, as R134 does. -/
theorem not_scalarsComplete : ¬ Obligations.ScalarsComplete := by
  intro h
  obtain ⟨_, memory⟩ := h
  obtain ⟨_, _, _, _, _, _, _, _, vectors, _⟩ := memory wordPointer slotOf0 ⟨0, 0⟩ 0 0 0 0 false [] 4 rfl rfl
  obtain ⟨ha, hs, hx, hw, hp⟩ := wordPointer_meets
  obtain ⟨w, gives, _⟩ := (vectors wordPointer_executes wordPointer_agu ha hs hx hw).1 hp
  exact faults_not_gives wordPointer_executes wordPointer_misaligned gives

end Sys2Proof.Machine
end

section
/-! PROOFS. The operations of slot 3 complete (04 R136 to R138; 05 R159 to R178). -/
namespace Sys2Proof.Machine

section
variable {s : State} {o : Slot} {i : Instr} {q : VecOp} {vd va vb : BitVec 6} {mod : BitVec 4} (h : s.executes o)
  (hx : exec i s = .next (s.issueOp o 3 (vecOp q vd va vb mod))) (hi : q.illegal = false)
include h hx hi

/-- A legal operation that draws nothing writes vd and the flags. -/
theorem vecOp_plain (hd : q.draws = false) : ∃ r, s.gives o i (s.vecDone (coreNo o.core) (physV (s.core (coreNo o.core)).rotV vd) r) := by
  have gives := vecOp_gives h hx hi (fun e => absurd (hd.symm.trans e) Bool.noConfusion)
  rw [VecOp.drawn_of_not_draws _ _ _ hd] at gives
  exact ⟨_, gives⟩

/-- A legal operation that draws advances what it draws from too. -/
theorem vecOp_draws (hd : q.draws = true) (hr : mod.getLsbD 3 = false → (s.core (coreNo o.core)).rngPosted = 0) :
    ∃ e r, s.gives o i ((s.afterDraw (coreNo o.core) (mod.getLsbD 3) e).vecDone (coreNo o.core) (physV (s.core (coreNo o.core)).rotV vd) r) := by
  have gives := vecOp_gives h hx hi (fun _ => hr)
  rw [VecOp.drawn_of_draws _ _ _ hd] at gives
  exact ⟨_, _, gives⟩

end

/-! The floating-point operations rounded once per element -/

/-- The floating-point operations of R136 and R137; a square root names no second source. -/
def floatInstrs (o : Slot) (vd va vb : BitVec 6) (mod : BitVec 4) : List Instr :=
  [.faddS o vd va vb mod, .fsubS o vd va vb mod, .fmulS o vd va vb mod, .fmaS o vd va vb mod, .fdivS o vd va vb mod, .fsqrtS o vd va 0 mod, .faddD o vd va vb mod,
    .fsubD o vd va vb mod, .fmulD o vd va vb mod, .fmaD o vd va vb mod, .fdivD o vd va vb mod, .fsqrtD o vd va 0 mod, .haddB o vd va vb mod, .hmulB o vd va vb mod,
    .hfmaB o vd va vb mod, .haddH o vd va vb mod, .hmulH o vd va vb mod, .hfmaH o vd va vb mod]

theorem floatInstrs_fpOp {s : State} {o : Slot} {vd va vb : BitVec 6} {mod : BitVec 4} {i : Instr} (hi : i ∈ floatInstrs o vd va vb mod) :
    ∃ op f g vb', exec i s = .next (s.issueOp o 3 (vecOp (fpOp op f mod g) vd va vb' mod)) := by
  revert i
  simp only [floatInstrs, List.forall_mem_cons]
  refine ⟨?_, ?_, ?_, ?_, ?_, ?_, ?_, ?_, ?_, ?_, ?_, ?_, ?_, ?_, ?_, ?_, ?_, ?_, fun _ hn => absurd hn List.not_mem_nil⟩
  all_goals exact ⟨_, _, _, _, rfl⟩

/-! MOD fields -/

/-- RM 0 and 1 alone neither draw nor name a field that an operation lacks. -/
theorem mod_below_two {mod : BitVec 4} (h : mod.toNat < 2) : modBad mod true false false = false ∧ modBad mod true true true = false ∧ modSr mod = false ∧
    mod.toNat % 4 ≠ 3 ∧ mod.getLsbD 2 = false := by
  revert mod
  decide

theorem mod_stochastic {mod : BitVec 4} (h : mod.toNat % 8 = 2) : modSr mod = true ∧ mod.toNat % 4 ≠ 3 ∧ mod.getLsbD 2 = false := by
  revert mod
  decide

theorem mod_generator {mod : BitVec 4} (h : mod.toNat % 8 = 0) : modBad mod false false true = false := by
  rw [modBad_gen, decide_eq_false (not_not.2 h)]

/-- Settles O48: each operation is legal under the conditions on MOD and vb, and a legal one writes vd and the flags, beside the draws it makes. -/
theorem vectorsComplete : Obligations.VectorsComplete := by
  intro s o vd va vb mod h n c plain draws
  refine ⟨?_, fun hb => ?_, fun hm i hi => ?_, fun hm i hi hr => ?_, fun hm hb => ?_, fun hm hb => ?_, fun h4 h5 => ?_, ?_, fun hm hb => ?_, fun hb => ?_,
    fun hm => ⟨fun hb hr => ?_, fun hr => ?_, fun hr => ?_⟩⟩
  · simp only [List.forall_mem_cons]
    refine ⟨?_, ?_, ?_, ?_, ?_, ?_, ?_, ?_, ?_, ?_, ?_, ?_, fun _ hn => absurd hn List.not_mem_nil⟩
    all_goals exact vecOp_plain h rfl rfl rfl
  · exact vecOp_plain h (q := opBcast va vb 0) rfl (by rw [opBcast, laneOp, decide_eq_false (by omega)]; rfl) rfl
  · obtain ⟨op, f, g, vb', hx⟩ := floatInstrs_fpOp (s := s) hi
    obtain ⟨_, _, sr, low, sat⟩ := mod_below_two hm
    exact vecOp_plain h hx (fpOp_legal _ _ _ low sat) sr
  · obtain ⟨op, f, g, vb', hx⟩ := floatInstrs_fpOp (s := s) hi
    obtain ⟨sr, low, sat⟩ := mod_stochastic hm
    exact vecOp_draws h hx (fpOp_legal _ _ _ low sat) sr hr
  · obtain ⟨_, legal, sr, _⟩ := mod_below_two hm
    refine vecOp_plain h (q := cvtOp vb mod) rfl ?_ ?_
    · rw [cvtOp]
      dsimp only
      rw [legal, cvtIllegal, decide_eq_false (show ¬ vb.toNat / 8 = 6 by omega),
        decide_eq_false (show ¬ vb.toNat / 8 = 7 by omega)]
      rfl
    · rw [cvtOp]
      dsimp only
      rw [sr]
      rfl
  · obtain ⟨legal, _, sr, _⟩ := mod_below_two hm
    exact vecOp_plain h (q := normOp vb mod) rfl (by rw [normOp]; dsimp only; rw [legal, sr, decide_eq_false (by omega)]; rfl) rfl
  · have fields : (decide (vb.toNat % 4 ≠ 0) || decide (5 < vb.toNat / 4) || modBad 0 false false false) = false := by
      rw [decide_eq_false (not_not.2 h4), decide_eq_false (Nat.not_lt.2 h5)]
      rfl
    exact ⟨vecOp_plain h (q := mxqOp vb 0) rfl fields rfl, vecOp_plain h (q := mxdOp vb 0) rfl fields rfl⟩
  · exact vecOp_plain h rfl rfl rfl
  · obtain ⟨legal, _, sr, _⟩ := mod_below_two hm
    exact vecOp_plain h (q := redOp vb mod) rfl (by rw [redOp]; dsimp only; rw [legal, sr, decide_eq_false (by omega)]; rfl) rfl
  · exact vecOp_plain h (q := apxOp vb 0) rfl (by rw [apxOp, laneOp, decide_eq_false (by omega)]; rfl) rfl
  · exact vecOp_draws h (q := randOp 0 vb mod) rfl (by rw [randOp, drawOp, mod_generator hm,
      decide_eq_false (show ¬ 3 < vb.toNat by omega)]; rfl) rfl hr
  · exact vecOp_draws h (q := sampleOp 0 mod) rfl (mod_generator hm) rfl hr
  · exact vecOp_draws h (q := dropOp 0 0 mod) rfl (mod_generator hm) rfl hr

end Sys2Proof.Machine
end

section
/-! PROOFS. The exponents that GETEXP reads (05 R163). -/
namespace Sys2Proof.Machine

theorem log2_sigOf {t : Nat} (h : 2 ^ 23 ≤ t) : Nat.log2 (sigOf t) = 23 := by
  rw [sigOf, if_neg (Nat.not_lt.2 h)]
  exact (Nat.log2_eq_iff (by omega)).2 (by omega)

/-- The exponent of a finite magnitude field's leading bit. -/
theorem topBit_sigOf (t : Nat) :
    topBit (sigOf t) (expOf t) = if t < 2 ^ 23 then (Nat.log2 t : Int) - 149 else ((t / 2 ^ 23 : Nat) : Int) - 127 := by
  rw [topBit, expOf]
  by_cases h : t < 2 ^ 23
  · rw [sigOf, if_pos h, if_pos h, if_pos h]
    omega
  · rw [log2_sigOf (Nat.not_lt.1 h), if_neg h, if_neg h]
    omega

/-- The exponent of the 32 bits x, with the limits that stand for a zero, an infinity and a NaN. -/
def exponentOf (x : Nat) : Int :=
  if infMag ≤ magOf x then 2 ^ 31 - 1 else if magOf x = 0 then -2 ^ 31
  else if magOf x < 2 ^ 23 then (Nat.log2 (magOf x) : Int) - 149 else ((magOf x / 2 ^ 23 : Nat) : Int) - 127

theorem getexpLane_unpack {x : Nat} (hx : x < 2 ^ 32) : getexpLane (Fmt.fp32.unpack x) =
    ((exponentOf x % 2 ^ 32).toNat, if decide (infMag < magOf x) && decide (magOf x % 2 ^ 23 < 2 ^ 22) then fInvalid else 0) := by
  have field : magOf x % 2 ^ 23 = x % 2 ^ 23 := by rw [magOf]; omega
  obtain h | h | h := Nat.lt_trichotomy (magOf x) infMag
  case inl =>
    rw [unpack_fin hx h, getexpLane, exponentOf, decide_eq_false (Nat.not_lt_of_lt h), if_neg (Nat.not_le.2 h), topBit_sigOf]
    by_cases h0 : magOf x = 0
    · rw [if_pos (sigOf_eq_zero.2 h0), if_pos h0]
      rfl
    · rw [if_neg (mt sigOf_eq_zero.1 h0), if_neg h0]
      rfl
  case inr.inl =>
    rw [unpack_inf hx h, exponentOf, decide_eq_false (Nat.not_lt.2 h.le), if_pos h.ge]
    rfl
  case inr.inr =>
    rw [unpack_nan hx h, exponentOf, decide_eq_true h, if_pos h.le, field]
    rfl

/-- Settles O12: GETEXP maps a function of one lane, which is read off the sign and magnitude fields. -/
theorem exponentsRead : Obligations.ExponentsRead := by
  intro s o vd va vb h c A m exponent signalling
  have lane (j : Nat) : getexpLane (Fmt.fp32.unpack (A j)) = ((exponent (A j) % 2 ^ 32).toNat, if signalling (A j) then fInvalid else 0) :=
    getexpLane_unpack (x := A j) (elemOf_lt ..)
  obtain ⟨results, -⟩ := laneOp_rule h (vd := vd) (va := va) (vb := 0) (f := fun m => .getexp o vd va 0 m) (fun _ => rfl) fun j => agree (lane j)
  refine ⟨results, fun mod hb => vecOp_illegal (q := opGetexp va vb mod) h rfl ?_⟩
  have legal : (opGetexp va vb mod).illegal = (decide (vb ≠ 0) || modBad mod false false false) := rfl
  rw [legal, modBad_none, Bool.or_eq_true, decide_eq_true_iff, decide_eq_true_iff]
  exact hb

end Sys2Proof.Machine
end

section
/-! PROOFS. The tree of a reduction (05 R166). -/
namespace Sys2Proof.Machine

section
variable {α β : Type} (op : α → α → α)

/-! One level -/

theorem treeLevel_length (l : List α) : (treeLevel op l).length = (l.length + 1) / 2 := by
  induction l using List.twoStepInduction with
  | nil => simp [treeLevel]
  | singleton a => simp [treeLevel]
  | cons_cons a b r ih _ =>
    simp only [treeLevel, List.length_cons, ih]
    omega

theorem treeLevel_pair (l : List α) {j : Nat} (hj : 2 * j + 1 < l.length) :
    (treeLevel op l)[j]? = (do let a ← l[2 * j]?; let b ← l[2 * j + 1]?; pure (op a b)) := by
  induction l using List.twoStepInduction generalizing j with
  | nil => exact absurd hj (Nat.not_lt_zero _)
  | singleton a => exact absurd hj (by simp)
  | cons_cons a b r ih _ =>
    cases j with
    | zero => rfl
    | succ j => exact ih (Nat.lt_of_add_lt_add_right (n := 2) hj)

theorem treeLevel_odd (l : List α) (hl : l.length % 2 = 1) : (treeLevel op l)[l.length / 2]? = l[l.length - 1]? := by
  induction l using List.twoStepInduction with
  | nil => exact absurd hl (by simp)
  | singleton a => simp [treeLevel]
  | cons_cons a b r ih _ =>
    simp only [List.length_cons] at hl ⊢
    have half : (r.length + 1 + 1) / 2 = r.length / 2 + 1 := by omega
    have last : r.length + 1 + 1 - 1 = r.length - 1 + 1 + 1 := by omega
    rw [half, last]
    exact ih (by omega)

/-! All levels -/

/-- Levels beyond those that the count of elements needs change nothing. -/
theorem treeRed_succ {n : Nat} {l : List α} (hl : l.length ≤ 2 ^ n) : treeRed op n l = treeRed op (n + 1) l := by
  induction n generalizing l with
  | zero =>
    match l, hl with
    | [], _ => rfl
    | [a], _ => rfl
  | succ n ih =>
    exact ih (by rw [treeLevel_length]; omega)

theorem treeRed_singleton (n : Nat) (a : α) : treeRed op n [a] = some a := by
  induction n with
  | zero => rfl
  | succ n ih => exact ih

variable {op} {op' : β → β → β} {g : α → β} (hg : ∀ a b, g (op a b) = op' (g a) (g b))
include hg

theorem treeLevel_map (l : List α) : treeLevel op' (l.map g) = (treeLevel op l).map g := by
  induction l using List.twoStepInduction with
  | nil => rfl
  | singleton a => rfl
  | cons_cons a b r ih _ => simp only [List.map_cons, treeLevel, ih, hg]

/-- A reduction of images is the image of the reduction. -/
theorem treeRed_map (n : Nat) (l : List α) : treeRed op' n (l.map g) = (treeRed op n l).map g := by
  induction n generalizing l with
  | zero => exact List.head?_map
  | succ n ih => rw [treeRed, treeRed, treeLevel_map hg, ih]

end

section
variable {α : Type} {op : α → α → α} {P : List α → α → Prop} (join : ∀ s t a b, P s a → P t b → P (s ++ t) (op a b))
include join

/-- A level joins neighbouring parts of the source: where each element stands for a part, so does each element of the next level. -/
theorem treeLevel_parts {parts : List (List α)} {l : List α} (h : List.Forall₂ P parts l) :
    ∃ parts', List.Forall₂ P parts' (treeLevel op l) ∧ parts'.flatten = parts.flatten := by
  induction l using List.twoStepInduction generalizing parts with
  | nil => exact ⟨parts, h, rfl⟩
  | singleton a => exact ⟨parts, h, rfl⟩
  | cons_cons a b r ih _ =>
    obtain _ | ⟨ha, _ | ⟨hb, hr⟩⟩ := h
    obtain ⟨parts', hp, flat⟩ := ih hr
    refine ⟨_, .cons (join _ _ a b ha hb) hp, ?_⟩
    simp [flat]

/-- What holds of single elements and is kept where neighbouring parts are joined holds of a whole reduction. -/
theorem treeRed_parts {n : Nat} {parts : List (List α)} {l : List α} (h : List.Forall₂ P parts l) (h0 : l ≠ []) (hn : l.length ≤ 2 ^ n) :
    ∃ x, treeRed op n l = some x ∧ P parts.flatten x := by
  induction n generalizing parts l with
  | zero =>
    obtain ⟨a, rfl⟩ : ∃ a, l = [a] := List.length_eq_one_iff.1 (by have := List.length_pos_iff.2 h0; omega)
    obtain _ | ⟨ha, _ | _⟩ := h
    exact ⟨a, rfl, by simpa using ha⟩
  | succ n ih =>
    have len := treeLevel_length op l
    have pos := List.length_pos_iff.2 h0
    obtain ⟨parts', hp, flat⟩ := treeLevel_parts join h
    obtain ⟨x, hx, hP⟩ := ih hp (List.length_pos_iff.1 (by omega)) (by omega)
    exact ⟨x, hx, flat ▸ hP⟩

theorem treeRed_induction {n : Nat} {l : List α} (single : ∀ a, P [a] a) (h0 : l ≠ []) (hn : l.length ≤ 2 ^ n) :
    ∃ x, treeRed op n l = some x ∧ P l x := by
  have parts : List.Forall₂ P (l.map fun a => [a]) l :=
    List.forall₂_map_left_iff.2 (List.forall₂_same.2 fun a _ => single a)
  obtain ⟨x, hx, hP⟩ := treeRed_parts join parts h0 hn
  have flat : (l.map fun a => [a]).flatten = l := by simp [← List.flatMap_def]
  exact ⟨x, hx, flat ▸ hP⟩

end

/-! Sums, minima and maxima: the bits without the flags -/

/-- The addition of a sum, with the flags so far. -/
def addFlagged (f : Fmt) (rm : Rm) (a b : Nat × Flags) : Nat × Flags :=
  ((f.add rm (f.unpack a.1) (f.unpack b.1)).1, a.2 ||| b.2 ||| (f.add rm (f.unpack a.1) (f.unpack b.1)).2)

/-- The operation of MAX.S and MIN.S, with the flags so far. -/
def minmaxFlagged (isMax : Bool) (a b : Nat × Flags) : Nat × Flags :=
  ((Fmt.fp32.minmax isMax a.1 b.1).1, a.2 ||| b.2 ||| (Fmt.fp32.minmax isMax a.1 b.1).2)

theorem redSum_eq (f : Fmt) (rm : Rm) (l : List (Nat × Flags)) : redSum f rm l = (treeRed (addFlagged f rm) 6 l).getD (0, 0) := rfl

theorem redSum_bits (f : Fmt) (rm : Rm) (l : List (Nat × Flags)) :
    (redSum f rm l).1 = (treeRed (fun a b => (f.add rm (f.unpack a) (f.unpack b)).1) 6 (l.map (fun p => p.1))).getD 0 := by
  rw [treeRed_map (op := addFlagged f rm) (g := Prod.fst) (fun _ _ => rfl), redSum_eq]
  exact (Option.getD_map Prod.fst (0, 0) _).symm

theorem redMinmax_of_tree {isMax : Bool} {l : List Nat} {x : Nat} {fl : Flags}
    (h : treeRed (minmaxFlagged isMax) 6 (l.map (fun y => (y, sigFlag [Fmt.fp32.unpack y]))) = some (x, fl)) :
    redMinmax isMax l = (if (Fmt.fp32.unpack x).isNan then Fmt.fp32.nanBits (Fmt.fp32.unpack x) else x, fl) := by
  unfold minmaxFlagged at h
  simp only [redMinmax, h]

theorem redMinmax_bits (isMax : Bool) {l : List Nat} {x : Nat} (h : treeRed (fun a b => (Fmt.fp32.minmax isMax a b).1) 6 l = some x) :
    (redMinmax isMax l).1 = if (Fmt.fp32.unpack x).isNan then Fmt.fp32.nanBits (Fmt.fp32.unpack x) else x := by
  have bits : (l.map (fun y => (y, sigFlag [Fmt.fp32.unpack y]))).map Prod.fst = l := by simp [Function.comp_def]
  rw [← bits, treeRed_map (op := minmaxFlagged isMax) (g := Prod.fst) (fun _ _ => rfl)] at h
  obtain ⟨⟨_, fl⟩, hr, rfl⟩ := Option.map_eq_some_iff.1 h
  rw [redMinmax_of_tree hr]

theorem reductionOrder : Claims.ReductionOrder :=
  ⟨fun _ op l => ⟨treeLevel_length op l, fun _ => treeLevel_pair op l, treeLevel_odd op l, fun _ h => treeRed_succ op (n := 6) h, treeRed_singleton op 6⟩,
    redSum_bits, fun isMax _ _ => redMinmax_bits isMax⟩

end Sys2Proof.Machine
end

section
/-! PROOFS. ARGMAX.S, reductions of no elements, and the values of RED (05 R165, R167). -/
namespace Sys2Proof.Machine

/-! The order of the lanes, with every NaN below the numbers -/

/-- A value is read off its mantissa, its exponent and its sign. -/
theorem unpack_congr {f : Fmt} {x y : Nat} (mant : x % 2 ^ f.mb = y % 2 ^ f.mb) (ex : x / 2 ^ f.mb % 2 ^ f.eb = y / 2 ^ f.mb % 2 ^ f.eb)
    (sign : x / 2 ^ (f.mb + f.eb) % 2 = y / 2 ^ (f.mb + f.eb) % 2) : f.unpack x = f.unpack y := by
  rw [Fmt.unpack, Fmt.unpack, mant, ex, sign]

/-- An element's low 32 bits alone matter. -/
theorem unpack_mod (x : Nat) : Fmt.fp32.unpack (x % 2 ^ 32) = Fmt.fp32.unpack x := by
  have mant : x % 2 ^ 32 % 2 ^ 23 = x % 2 ^ 23 := by omega
  have ex : x % 2 ^ 32 / 2 ^ 23 % 2 ^ 8 = x / 2 ^ 23 % 2 ^ 8 := by omega
  have sign : x % 2 ^ 32 / 2 ^ 31 % 2 = x / 2 ^ 31 % 2 := by omega
  exact unpack_congr mant ex sign

/-- The rank of a NaN, below those of all numbers. -/
def nanRank : Int := -2 ^ 31 - 1

/-- The place of an element in the order of ARGMAX.S. -/
def rankOf (x : Nat) : Int := if (Fmt.fp32.unpack x).isNan then nanRank else orderOf (x % 2 ^ 32)

theorem nanRank_lt_orderOf (x : Nat) : nanRank < orderOf x := by
  rw [nanRank, orderOf, magOf]
  split <;> omega

theorem rankOf_nan {x : Nat} (h : (Fmt.fp32.unpack x).isNan = true) : rankOf x = nanRank := if_pos h

theorem rankOf_number {x : Nat} (h : (Fmt.fp32.unpack x).isNan = false) : rankOf x = orderOf (x % 2 ^ 32) := by
  rw [rankOf, h]
  rfl

theorem nanRank_lt_iff {x : Nat} : nanRank < rankOf x ↔ (Fmt.fp32.unpack x).isNan = false := by
  cases h : (Fmt.fp32.unpack x).isNan with
  | true => simp [rankOf_nan h]
  | false => simp [rankOf_number h, nanRank_lt_orderOf]

theorem nanRank_le (x : Nat) : nanRank ≤ rankOf x := by
  cases h : (Fmt.fp32.unpack x).isNan with
  | true => exact (rankOf_nan h).ge
  | false => exact (nanRank_lt_iff.2 h).le

theorem magOf_of_number {x : Nat} (h : (Fmt.fp32.unpack x).isNan = false) : magOf (x % 2 ^ 32) ≤ infMag := by
  rw [← unpack_mod, isNan_unpack (Nat.mod_lt _ (Nat.two_pow_pos 32)), decide_eq_false_iff_not] at h
  exact Nat.not_lt.1 h

theorem fLess_rankOf {x y : Nat} (hx : (Fmt.fp32.unpack x).isNan = false) (hy : (Fmt.fp32.unpack y).isNan = false) :
    fLess (Fmt.fp32.unpack x) (Fmt.fp32.unpack y) = decide (rankOf x < rankOf y) := by
  rw [rankOf_number hx, rankOf_number hy, ← unpack_mod x, ← unpack_mod y]
  exact fLess_numbers (Nat.mod_lt _ (Nat.two_pow_pos 32)) (Nat.mod_lt _ (Nat.two_pow_pos 32)) (magOf_of_number hx) (magOf_of_number hy)

/-! ARGMAX.S -/

/-- Of two lanes the one of higher rank, else the first. -/
def laterIfAbove (a b : Nat × Nat) : Nat × Nat := if rankOf a.1 < rankOf b.1 then b else a

theorem argmax_combine (a b : Nat × Nat) :
    (if (Fmt.fp32.unpack b.1).isNan then a else if (Fmt.fp32.unpack a.1).isNan then b
      else if fLess (Fmt.fp32.unpack a.1) (Fmt.fp32.unpack b.1) then b else a) = laterIfAbove a b := by
  rw [laterIfAbove]
  cases hb : (Fmt.fp32.unpack b.1).isNan with
  | true => rw [rankOf_nan hb, if_pos rfl, if_neg (not_lt.2 (nanRank_le _))]
  | false =>
    cases ha : (Fmt.fp32.unpack a.1).isNan with
    | true => rw [rankOf_nan ha, if_neg Bool.false_ne_true, if_pos rfl, if_pos (nanRank_lt_iff.2 hb)]
    | false => simp [fLess_rankOf ha hb]

/-- Lane a is the first of the highest rank among l. -/
def isFirstMax (l : List (Nat × Nat)) (a : Nat × Nat) : Prop :=
  ∃ before after, l = before ++ a :: after ∧ (∀ b ∈ before, rankOf b.1 < rankOf a.1) ∧ ∀ b ∈ after, rankOf b.1 ≤ rankOf a.1

theorem isFirstMax_singleton (a : Nat × Nat) : isFirstMax [a] a := ⟨[], [], rfl, by simp, by simp⟩

theorem isFirstMax_append (s t : List (Nat × Nat)) (a b : Nat × Nat) (ha : isFirstMax s a) (hb : isFirstMax t b) :
    isFirstMax (s ++ t) (laterIfAbove a b) := by
  obtain ⟨before, after, rfl, lt, le⟩ := ha
  obtain ⟨before', after', rfl, lt', le'⟩ := hb
  rw [laterIfAbove]
  split
  case isTrue h =>
    refine ⟨before ++ a :: after ++ before', after', by simp, fun c hc => ?_, le'⟩
    simp only [List.mem_append, List.mem_cons] at hc
    obtain (hc | rfl | hc) | hc := hc
    · exact (lt c hc).trans h
    · exact h
    · exact (le c hc).trans_lt h
    · exact lt' c hc
  case isFalse h =>
    refine ⟨before, after ++ (before' ++ b :: after'), by simp, lt, fun c hc => ?_⟩
    simp only [List.mem_append, List.mem_cons] at hc
    obtain hc | hc | rfl | hc := hc
    · exact le c hc
    · exact (lt' c hc).le.trans (not_lt.1 h)
    · exact not_lt.1 h
    · exact (le' c hc).trans (not_lt.1 h)

theorem redArgmax_of_tree {l : List Nat} {x j : Nat} (h : treeRed laterIfAbove 6 (l.zip (List.range l.length)) = some (x, j)) :
    redArgmax l = if (Fmt.fp32.unpack x).isNan then (Fmt.fp32.canon, 0) else (x, j) := by
  simp only [redArgmax, argmax_combine, h]

/-- The lanes with their indices. -/
theorem getElem?_lanes (l : List Nat) (i : Nat) : (l.zip (List.range l.length))[i]? = l[i]?.map (·, i) := by
  by_cases h : i < l.length
  · simp [h]
  · simp [h]

/-- The lane that ARGMAX.S finds, by the lanes before and after it. -/
theorem redArgmax_lane {l : List Nat} (h0 : 0 < l.length) (hl : l.length ≤ 64) : ∃ x j,
    redArgmax l = (if (Fmt.fp32.unpack x).isNan then (Fmt.fp32.canon, 0) else (x, j)) ∧ l[j]? = some x ∧
      ∀ i y : Nat, l[i]? = some y → rankOf y ≤ rankOf x ∧ (i < j → rankOf y < rankOf x) := by
  have len : (l.zip (List.range l.length)).length = l.length := by simp
  obtain ⟨⟨x, k⟩, hx, before, after, split, lt, le⟩ :=
    treeRed_induction isFirstMax_append isFirstMax_singleton (n := 6) (l := l.zip (List.range l.length)) (List.length_pos_iff.1 (by omega)) (by omega)
  have here := getElem?_lanes l before.length
  rw [split, List.getElem?_append_right (Nat.le_refl _), Nat.sub_self, List.getElem?_cons_zero] at here
  obtain ⟨_, hj, pair⟩ := Option.map_eq_some_iff.1 here.symm
  obtain ⟨rfl, rfl⟩ := Prod.mk.inj pair
  refine ⟨_, _, redArgmax_of_tree hx, hj, fun i y hy => ?_⟩
  have other := getElem?_lanes l i
  rw [split, hy, Option.map_some] at other
  obtain hi | rfl | hi := Nat.lt_trichotomy i before.length
  · rw [List.getElem?_append_left hi] at other
    have below := lt _ (List.mem_of_getElem? other)
    exact ⟨below.le, fun _ => below⟩
  · obtain rfl := Option.some.inj (hj.symm.trans hy)
    exact ⟨le_refl _, fun h => absurd h (Nat.lt_irrefl _)⟩
  · obtain ⟨k, rfl⟩ := Nat.exists_eq_add_of_lt hi
    rw [List.getElem?_append_right (by omega), show before.length + k + 1 - before.length = k + 1 by omega, List.getElem?_cons_succ] at other
    exact ⟨le _ (List.mem_of_getElem? other), fun h => absurd h (by omega)⟩

theorem emptyAndArgmax : Claims.EmptyAndArgmax := by
  refine ⟨fun _ _ => rfl, rfl, rfl, rfl, fun l h0 hl => ?_, by decide⟩
  obtain ⟨x, j, hr, hj, best⟩ := redArgmax_lane h0 hl
  refine ⟨fun nans => ?_, fun ⟨y, hy, number⟩ => ?_⟩
  · exact hr.trans (if_pos (nans x (List.mem_of_getElem? hj)))
  · obtain ⟨i, hi⟩ := List.getElem?_of_mem hy
    have hx : (Fmt.fp32.unpack x).isNan = false := nanRank_lt_iff.1 ((nanRank_lt_iff.2 number).trans_le (best i y hi).1)
    refine ⟨x, j, by rw [hr, hx]; rfl, hj, hx, fun i y hi hy => ?_⟩
    obtain ⟨le, lt⟩ := best i y hi
    exact ⟨(fLess_rankOf hx hy).trans (decide_eq_false (not_lt.2 le)), fun h => (fLess_rankOf hy hx).trans (decide_eq_true (lt h))⟩

/-! RED -/

theorem reductionValues : Claims.ReductionValues := by
  intro s o vd va vb mod h n c rm f elems lanes red
  have bits {w : Nat} {x : Nat × Flags} : (∃ r, isFirst w x.1 (c.vr vd) r ∧
      s.gives o (.red o vd va vb mod) (s.vecDone n (physV c.rotV vd) (r, x.2, false))) → red w x.1 := fun ⟨r, hr, hg⟩ => ⟨r, x.2, hr, hg⟩
  obtain ⟨results, illegal, -⟩ := reductionFlags s o vd va vb mod h
  refine ⟨fun hm => ?_, illegal⟩
  obtain ⟨sum, max, min, argmax, squares, sumD, sumB, sumH⟩ := results hm
  exact ⟨bits ∘ sum, bits ∘ max, bits ∘ min, bits ∘ argmax, bits ∘ squares, bits ∘ sumD, bits ∘ sumB, bits ∘ sumH⟩

/-- Settles O13: the values of RED from its results with their flags; the tree, level by level; and ARGMAX.S as the first lane of the highest rank, which
holds of single lanes and is kept where neighbouring parts are joined. -/
theorem vectorReductions : Obligations.VectorReductions := ⟨reductionValues, reductionOrder, emptyAndArgmax⟩

end Sys2Proof.Machine
end

section
/-! PROOFS. O26 and O50: a broadcast of a reserved tenant number to NI_TENANT (07 R268, R270). -/
namespace Sys2Proof.Machine

/-! What a broadcast leaves of NI_TENANT -/

/-- NI_TENANT as its table gives it (07 R268). -/
def tenantSpec : RegSpec := .w 0x040 0xFF 0 [⟨0, 8, 0x40, 0xFE, 0⟩]

/-- The low byte of a word with its low byte replaced by 0x50. -/
theorem bits_reserved (old : Word) : bits ((old &&& ~~~(BitVec.ofNat 32 0xFF)) ||| (0x50 &&& BitVec.ofNat 32 0xFF)).toNat 0 8 = 0x50 := by
  apply Nat.eq_of_testBit_eq
  intro i
  rw [testBit_bits, Nat.zero_add, BitVec.testBit_toNat]
  by_cases hi : i < 8
  · interval_cases i <;> simp <;> rfl
  · have hlt : 0x50 < 2 ^ i := Nat.lt_of_lt_of_le (by decide) (Nat.pow_le_pow_right (by decide) (Nat.le_of_not_lt hi))
    simp [hi, Nat.testBit_lt_two_pow hlt]

/-- A reserved tenant number written to NI_TENANT is clamped to 0 (07 R268). -/
theorem tenantSpec_reserved (old : Word) : (tenantSpec.written old 0x50).1.setWidth 8 = 0#8 := by
  have hset := bits_setBits_same ((old &&& ~~~(BitVec.ofNat 32 0xFF)) ||| (0x50 &&& BitVec.ofNat 32 0xFF)).toNat 0 8 0
  have hw : (tenantSpec.written old 0x50).1 = BitVec.ofNat 32 (setBits ((old &&& ~~~(BitVec.ofNat 32 0xFF)) ||| (0x50 &&& BitVec.ofNat 32 0xFF)).toNat 0 8 0) := by
    simp only [RegSpec.written, tenantSpec, RegSpec.w, List.foldl_cons, List.foldl_nil, Clamp.apply, bits_reserved]
    exact and_not_and_zero _ _
  rw [bits_zero] at hset
  rw [hw]
  apply BitVec.eq_of_toNat_eq
  rw [BitVec.toNat_setWidth, BitVec.toNat_ofNat, Nat.mod_mod_of_dvd _ (by decide)]
  exact hset

/-- Clamps change no state but registers. -/
theorem State.clamps_marks (s : State) (page off n : Nat) : (s.clamps page off n).marks = s.marks := by
  rw [State.clamps]
  induction List.range n generalizing s with
  | nil => rfl
  | cons x l ih => rw [List.foldl_cons, ih]; simp

section
variable {i : Nat} (hi : i < 2112)
include hi

theorem keyBlk_tenant : keyBlk (pageAt 0 i 9 + 0x40) = some .ni := by
  rw [keyBlk_pageAt (by omega) (by decide) (by decide), blkAt, if_pos ⟨by decide, hi⟩]

/-- A write of NI_TENANT acts on its fields alone. -/
theorem State.writeCorePage_tenant (s : State) (v : Word) :
    s.writeCorePage .ni (pageAt 0 i 9 + 0x40) v =
      (s.clamps (pageAt 0 i 9) 0x40 (tenantSpec.written (s.reg (pageAt 0 i 9 + 0x40)) v).2).setReg (pageAt 0 i 9 + 0x40)
        (tenantSpec.written (s.reg (pageAt 0 i 9 + 0x40)) v).1 := by
  have ho : keyOff (pageAt 0 i 9 + 0x40) = 0x40 := keyOff_pageAt (by decide)
  have hd : keyDie (pageAt 0 i 9 + 0x40) = 0 := keyDie_pageAt (by omega) (by decide) (by decide)
  have hp : keyPage (pageAt 0 i 9 + 0x40) = 9 := keyPage_pageAt (by decide) (by decide)
  have hb : headPage .ni (pageAt 0 i 9 + 0x40) = pageAt 0 i 9 := headPage_pageAt (by omega) (by decide) (by decide) (by decide)
  have ht : bankTwin (pageAt 0 i 9 + 0x40) = none := by simp [bankTwin, hp, ho]
  have hf : Blk.ni.find 0 0x40 = some tenantSpec := rfl
  have hn : blkOff .ni (pageAt 0 i 9 + 0x40) = 0x40 := by rw [blkOff, if_neg (by decide), ho]
  have hl : listed .ni (pageAt 0 i 9 + 0x40) = true := by rw [listed, hd, hn, hf]; rfl
  have ho' : s.bankOpen (keyCore (pageAt 0 i 9 + 0x40)) (pageAt 0 i 9 + 0x40) = true := by rw [State.bankOpen, ht]
  have hw : s.writeBank .ni (keyCore (pageAt 0 i 9 + 0x40)) (pageAt 0 i 9 + 0x40) v = s.writeFields .ni (pageAt 0 i 9 + 0x40) v := by
    rw [State.writeBank, ho', if_neg (by decide), if_neg (by simp)]
  rw [State.writeCorePage, ho, if_neg (by decide), if_neg (by decide), if_neg (by decide), if_pos hl, State.writeCore, ho]
  rw [if_neg (by decide), hw, State.writeFields, hd, hn, hf, hb]

end

/-- A broadcast word to NI_TENANT of one core of die 0. -/
def State.tenantCast (v : Word) (s : State) (i : Nat) : State :=
  if s.liveCore i then s.writeCorePage .ni (pageAt 0 i 9 + 0x40) v else s

theorem State.tenantCast_marks {v : Word} {s : State} {i : Nat} (hi : i < 2112) : (s.tenantCast v i).marks = s.marks := by
  rw [State.tenantCast]
  split
  · rw [State.writeCorePage_tenant hi]; simp [State.clamps_marks]
  · rfl

theorem State.tenantCasts_marks {v : Word} {n : Nat} (hn : n ≤ 2112) (s : State) : ((List.range n).foldl (State.tenantCast v) s).marks = s.marks := by
  induction n with
  | zero => rfl
  | succ n ih => rw [List.range_succ, List.foldl_append, List.foldl_cons, List.foldl_nil, State.tenantCast_marks (by omega), ih (by omega)]

/-- With page 9 and offset 0x40 set, a broadcast on die 0 writes NI_TENANT of core after core. -/
theorem State.broadcast_tenant {s : State} (he : s.bit (agtPage 0 + 0x50) 4 = true) (hp : s.fld (agtPage 0 + 0x50) 0 4 = 9)
    (ho : s.fld (agtPage 0 + 0x54) 0 12 = 0x40) (v : Word) : s.broadcast 0 v = (List.range 2112).foldl (State.tenantCast v) s := by
  simp only [State.broadcast]
  rw [if_pos ⟨he, by decide⟩, hp, ho]
  refine List.foldl_ext _ _ _ fun t i hi => ?_
  have hk := keyBlk_tenant (List.mem_range.mp hi)
  have hw : t.mayWrite .firmware (pageAt 0 i 9 + 0x40) = true := by simp [State.mayWrite, hk]
  rw [State.tenantCast, hk]
  simp [hw]

/-- After a broadcast of a reserved tenant number the last core of die 0 has no tenant. -/
theorem State.broadcast_reserved {s : State} (he : s.bit (agtPage 0 + 0x50) 4 = true) (hp : s.fld (agtPage 0 + 0x50) 0 4 = 9)
    (ho : s.fld (agtPage 0 + 0x54) 0 12 = 0x40) (hm : s.marks = []) : (s.broadcast 0 0x50).niTenant 2111 = 0#8 := by
  rw [State.broadcast_tenant he hp ho, List.range_succ, List.foldl_append, List.foldl_cons, List.foldl_nil, State.tenantCast]
  have hl : State.liveCore ((List.range 2111).foldl (State.tenantCast 0x50) s) 2111 = true := by
    rw [State.liveCore, State.tenantCasts_marks (by decide), hm]; rfl
  rw [if_pos hl, State.writeCorePage_tenant (by decide), State.niTenant, show corePage 2111 9 + 0x40 = pageAt 0 2111 9 + 0x40 from rfl,
    State.setReg_reg_same]
  exact tenantSpec_reserved _

/-- A module whose agent of die 0 is set to broadcast to NI_TENANT. -/
def State.castReady : State := (State.reset.setReg (agtPage 0 + 0x50) 0x19).setReg (agtPage 0 + 0x54) 0x40

theorem State.castReady_set : State.castReady.bit (agtPage 0 + 0x50) 4 = true ∧ State.castReady.fld (agtPage 0 + 0x50) 0 4 = 9 ∧
    State.castReady.fld (agtPage 0 + 0x54) 0 12 = 0x40 := by decide

/-- AGT_BCAST_DATA of a reserved tenant number to that module leaves the last core of die 0 without a tenant (07 R268, R270). -/
theorem exec_cast_reserved {t : State} (h : exec (.agtBcastData .firmware 0 0x50) State.castReady = .next t) : t.niTenant 2111 = 0#8 := by
  obtain ⟨he, hp, ho⟩ := State.castReady_set
  have hw : State.castReady.mayWrite .firmware (agtPage 0 + 0x58) = true := by decide
  have hx : exec (.agtBcastData .firmware 0 0x50) State.castReady = .next ((State.castReady.broadcast 0 0x50).answerCtl 0) := by
    simp only [exec, execAgtBcastData, done]
    rw [State.whenUp_of_up rfl, show ((0 : Fin 28) : Nat) = 0 from rfl, State.ctl_of_may hw]
  rw [hx] at h
  injection h with h
  have ha (u : State) : (u.answerCtl 0).niTenant 2111 = u.niTenant 2111 := rfl
  rw [← h, ha]
  exact State.broadcast_reserved he hp ho rfl

/-- Refutes O26: AGT_BCAST_DATA on NI_TENANT is a control write and so subject to the clamp of its table (07 R268): the reserved tenant number
0x50 is clamped to 0, and the cores of the die do not take the word that was broadcast. -/
theorem not_epochBanks : ¬ Obligations.EpochBanks := by
  rintro ⟨-, -, hagent, -⟩
  obtain ⟨he, hp, ho⟩ := State.castReady_set
  obtain ⟨-, -, -, -, hcast⟩ := hagent State.castReady .firmware 0 false 0x50
  obtain ⟨t, ht, hten⟩ := hcast he (by decide) rfl (by decide) hp ho
  have h0 := exec_cast_reserved ht
  have h1 := hten 2111 (by decide)
  have hlive : State.castReady.liveCore 2111 = true := rfl
  have ha : (t.answerCtl 0).niTenant 2111 = t.niTenant 2111 := rfl
  rw [show ((0 : Fin 28) : Nat) * 2112 + 2111 = 2111 from rfl, hlive, if_pos rfl, ← ha, h0] at h1
  exact absurd h1 (by decide)

/-- Refutes O50: its last clause lets AGT_BCAST_DATA set NI_TENANT to any word, the reserved tenant number 0x50 too, which is clamped to 0 (07 R268). -/
theorem not_networkCommandsComplete : ¬ Obligations.NetworkCommandsComplete := by
  intro h
  obtain ⟨he, hp, ho⟩ := State.castReady_set
  obtain ⟨-, -, -, -, -, -, -, -, -, -, -, -, -, -, -, -, -, -, -, -, hcast⟩ :=
    h State.castReady ⟨0, 0⟩ .firmware 0 0 0 (.router ⟨0, 0⟩) ⟨0, false, false, 0, []⟩ 0 [] 0 0x50 rfl rfl
  obtain ⟨t, ht, hten⟩ := hcast (by decide) (by decide) he hp ho
  have hlive : State.castReady.liveCore ((0 : Fin 28).val * 2112 + 2111) = true := rfl
  have h1 : t.niTenant 2111 = (0x50 : Word).setWidth 8 := hten 2111 (by decide) hlive
  rw [exec_cast_reserved ht] at h1
  exact absurd h1 (by decide)

end Sys2Proof.Machine
end

section
/-! PROOFS. O51: the read of a poisoned line of LPDDR sends its channel's interrupt beside the answer (12 R383; 17 R515). -/
namespace Sys2Proof.Machine

/-! The interrupts of a channel's page -/

/-- A channel's page with interrupt 0 alone enabled and not pending, neighbour refresh off, and no tenant: what the module has sent. -/
structure State.ChanQuiet (s : State) (p : Nat) (l : List Msg) : Prop where
  sent : s.sent = l
  tenants : s.tenants = []
  enable : s.reg (p + 0x14) = 1
  pending : s.bit (p + 0x10) 0 = false
  threshold : s.fld (p + 0x4C) 0 13 = 0

/-- The page of an uncorrectable line before its window's tenant is told: counted, captured as a and b unless a capture is held, raised and entered. -/
def State.uncNoted (s : State) (p : Nat) (a b : Word) : State :=
  let s1 := s.incSat (p + 0x84)
  let s2 := if s1.bit (p + 0x88) 0 then s1 else (s1.setReg (p + 0x88) a).setReg (p + 0x8C) b
  (s2.raiseIrq p 1).enterCode p Code.memUncorrectable

/-- What lpdUnc does. Its equation is taken of the function, not of its value: to compare values the kernel would search the windows of a state that it does not know. -/
theorem State.lpdUnc_cases (s : State) (pa : Nat) (stored : Bool) : ∃ (a b : Word),
    s.lpdUnc pa stored = s.uncNoted (lpdPage (chanCo pa).1) a b ∨
      ∃ t w, s.lpdUnc pa stored = (s.uncNoted (lpdPage (chanCo pa).1) a b).event t Code.memUncorrectable 0 0xFFFF 0xFFFF Blk.lpd.type w := by
  obtain ⟨f, hf⟩ : ∃ f, f = State.lpdUnc := ⟨_, rfl⟩
  rw [← hf]
  delta State.lpdUnc at hf
  subst hf
  refine ⟨BitVec.ofNat 32 (1 + b2n stored * 2 + (chanCo pa).2 / 64 % 2 ^ 26 * 64), BitVec.ofNat 32 ((chanCo pa).2 / 2 ^ 32 % 4), ?_⟩
  dsimp only
  generalize State.winTenant _ _ _ = w
  cases w with
  | none => exact .inl rfl
  | some x => exact .inr ⟨_, _, rfl⟩
theorem State.irqOut_one {s : State} {p : Nat} (h : s.reg (p + 0x14) = 1) : s.irqOut p = s.bit (p + 0x10) 0 := by
  rw [State.irqOut, h, State.bit, show (1 : Word) = BitVec.twoPow 32 0 from rfl, BitVec.and_twoPow]
  cases (s.reg (p + 0x10)).getLsbD 0 <;> rfl

theorem State.event_of_none {s : State} (h : s.tenants = []) (n : Nat) (c : BitVec 16) (k : Nat) (x y : BitVec 16) (src : Nat) (w : Word) :
    s.event n c k x y src w = s := by
  have hl : (s.tenant n).live = false := by rw [State.tenant, h]; rfl
  simp [State.event, hl]

section
variable {s : State} {p : Nat} {l : List Msg} (h : s.ChanQuiet p l)
include h

/-- A register above the interrupt registers, but not the threshold, may change. -/
theorem State.ChanQuiet.setReg {o : Nat} (ho : 0x50 ≤ o) (v : Word) : (s.setReg (p + o) v).ChanQuiet p l := by
  have hr (j : Nat) (hj : j < 0x50) : (s.setReg (p + o) v).reg (p + j) = s.reg (p + j) := by
    rw [State.setReg_reg, if_neg (by omega)]
  refine ⟨by simp [h.sent], by simp [h.tenants], ?_, ?_, ?_⟩
  · rw [hr _ (by decide), h.enable]
  · rw [State.bit, hr _ (by decide)]; exact h.pending
  · rw [State.fld, hr _ (by decide)]; exact h.threshold

theorem State.ChanQuiet.incSat {o : Nat} (ho : 0x50 ≤ o) : (s.incSat (p + o)).ChanQuiet p l := h.setReg ho _

theorem State.ChanQuiet.incWrap {o : Nat} (ho : 0x50 ≤ o) : (s.incWrap (p + o)).ChanQuiet p l := h.setReg ho _

theorem State.ChanQuiet.draw : s.draw.2.ChanQuiet p l := ⟨h.sent, h.tenants, h.enable, h.pending, h.threshold⟩

/-- LATE is not enabled: raising it sends nothing. -/
theorem State.ChanQuiet.raiseLate : (s.raiseIrq p 4).ChanQuiet p l := by
  have he : (s.raiseIrq p 4).reg (p + 0x14) = 1 := by rw [State.raiseIrq_reg, if_neg (by omega), h.enable]
  have hp : (s.raiseIrq p 4).bit (p + 0x10) 0 = false := by rw [State.raiseIrq_bit, h.pending]; rfl
  refine ⟨?_, by simp [h.tenants], he, hp, ?_⟩
  · have ho : (s.setReg (p + 0x10) (s.reg (p + 0x10) ||| 4)).irqOut p = false := by
      rw [State.irqOut_one (by rw [State.setReg_reg, if_neg (by omega), h.enable]), State.bit, State.setReg_reg_same, BitVec.getLsbD_or]
      exact (Bool.or_eq_false_iff).mpr ⟨h.pending, rfl⟩
    rw [State.raiseIrq, State.irqRise, ho]
    exact h.sent
  · rw [State.fld, State.raiseIrq_reg, if_neg (by omega)]; exact h.threshold

/-- UNCORRECTABLE is enabled: raising it sends the interrupt. -/
theorem State.ChanQuiet.raiseUnc : (s.raiseIrq p 1).sent = l ++ [.irq p (servingEdge (keyDie p))] := by
  have ho : (s.setReg (p + 0x10) (s.reg (p + 0x10) ||| 1)).irqOut p = true := by
    rw [State.irqOut_one (by rw [State.setReg_reg, if_neg (by omega), h.enable]), State.bit, State.setReg_reg_same, BitVec.getLsbD_or]
    exact Bool.or_eq_true_iff.mpr (.inr rfl)
  rw [State.raiseIrq, State.irqRise, ho, State.irqOut_one h.enable, h.pending, ← h.sent]
  rfl

theorem State.ChanQuiet.uncNoted (a b : Word) :
    (s.uncNoted p a b).sent = l ++ [.irq p (servingEdge (keyDie p))] ∧ (s.uncNoted p a b).tenants = [] := by
  have h1 := h.incSat (o := 0x84) (by decide)
  have h2 : (if (s.incSat (p + 0x84)).bit (p + 0x88) 0 then s.incSat (p + 0x84) else ((s.incSat (p + 0x84)).setReg (p + 0x88) a).setReg (p + 0x8C) b).ChanQuiet p l := by
    split
    · exact h1
    · exact (h1.setReg (by decide) _).setReg (by decide) _
  refine ⟨?_, by simp [State.uncNoted, h2.tenants]⟩
  rw [← h2.raiseUnc, State.uncNoted]
  simp

variable {pa : Nat} (hp : lpdPage (chanCo pa).1 = p)
include hp

theorem State.ChanQuiet.served (port : Nat) : (s.served pa port).ChanQuiet p l := by
  have hd := h.draw
  have ha : s.draw.2.activate pa = s.draw.2 := by
    simp only [State.activate, hp]
    exact if_pos hd.threshold
  simp only [State.served, ha, hp, Nat.add_assoc]
  split
  · exact (hd.incSat (by omega)).raiseLate
  · exact hd

theorem State.ChanQuiet.metWrite : (s.metWrite pa).ChanQuiet p l := by
  rw [State.metWrite, hp]
  split
  · exact h.draw.incWrap (by decide)
  · exact h.draw

/-- An uncorrectable line sends its channel's interrupt, and nothing else where there is no tenant to tell. -/
theorem State.ChanQuiet.lpdUnc (stored : Bool) : (s.lpdUnc pa stored).sent = l ++ [.irq p (servingEdge (keyDie p))] := by
  obtain ⟨a, b, hu⟩ := s.lpdUnc_cases pa stored
  obtain ⟨hs, ht⟩ := h.uncNoted a b
  rw [hp] at hu
  obtain hu | ⟨t, w, hu⟩ := hu
  · rw [hu, hs]
  · rw [hu, State.event_of_none ht, hs]

/-- A read of a poisoned line that has not been lost finds it, and sends the interrupt. -/
theorem State.ChanQuiet.readLine (port : Nat) (hl : s.lineLost pa = false) (hx : Sparse.get (fun _ => false) s.lpoison (pa / 64) = true) :
    (s.readLine port pa .clean).2.2 = true ∧ (s.readLine port pa .clean).1.sent = l ++ [.irq p (servingEdge (keyDie p))] := by
  have hq := ((h.served hp port).metWrite hp).incWrap (o := 0xA4) (by decide)
  have hs : s.sameLines (((s.served pa port).metWrite pa).incWrap (p + 0xA4)) :=
    State.sameLines_trans (State.sameLines_trans (s.served_sameLines pa port) (State.metWrite_sameLines _ _)) (State.incWrap_sameLines _ _ _)
  simp only [State.readLine, hp, State.sameLines_lost hs, hl, hs.2.1, hx]
  exact ⟨rfl, hq.lpdUnc hp true⟩

end

/-- An uncached read that is found uncorrectable: the answer comes after what the read itself sends. -/
theorem State.dirServe_rd {s : State} {pl : Nat} {d : DirEntry} {x : DirTxn} {pa : Nat} (hx : x.op = 5) (he : x.err = .clean)
    (hpa : pl * 64 = pa) (hr : (s.readLine (reqPort x.req) pa .clean).2.2 = true) :
    (s.dirServe pl d x).sent.length = (s.readLine (reqPort x.req) pa .clean).1.sent.length + 1 := by
  subst hpa
  simp only [State.dirServe, hx, he]
  rw [if_pos hr]
  simp [State.ack, State.answer, State.send]

/-- An uncached read of a line cached nowhere is served at once. -/
theorem State.dirStart_rd {s : State} {pl : Nat} {x : DirTxn} (hx : x.op = 5) (hd : (s.dirAt pl).st = .u) :
    s.dirStart pl x = s.dirServe pl (s.dirAt pl) x := by
  cases x
  cases hx
  simp [State.dirStart, hd]

/-- A write or an uncached read of a line without a transaction, in a channel that serves, starts at once. -/
theorem State.dirRequest_start {s : State} {x : DirTxn} {pa : Nat}
    (hr : ¬ (x.req.dstDie.toNat < 24 ∨ 27 < x.req.dstDie.toNat ∨ 3 ≤ x.req.size.toNat ∨ spaceOf x.req.addr.toNat ≠ 1))
    (ht : s.translate (reqEdge x.req) x.req.tenant (x.req.addr.toNat % 2 ^ 41 / 64 * 64) 64 = .ok pa) (hc : (s.chan (chanCo pa).1).st = .active)
    (hd : (s.dirAt (pa / 64)).txn = none) (hx : 3 < x.op) : s.dirRequest x = s.dirStart (pa / 64) x := by
  rw [State.dirRequest, if_neg hr, ht]
  simp [State.chanOffline, State.chanServes, hc, hd, hx]

/-- A module whose channel 0 serves, with interrupt 0 enabled and line 0 poisoned. -/
def State.poisonedLine : State :=
  { (((State.reset.setReg (lpdPage 0 + 0x14) 1).setReg (lpdPage 0 + 0x4C) 0).setChan 0 { ChanRun.reset with st := .active }) with lpoison := [(0, true)] }

/-- An RD of line 0 by TENANT 0xFF, from unit 0 of die 0. -/
def readOfLine0 : PReq := ⟨5, 0, 0, 0xFF, 0, 24, 0, BitVec.ofNat 64 (2 ^ 56), 0⟩

theorem State.poisonedLine_quiet : State.poisonedLine.ChanQuiet (lpdPage 0) [] := ⟨rfl, rfl, by decide, by decide, by decide⟩

theorem State.poisonedLine_serves : (State.poisonedLine.chan (chanCo 0).1).st = .active := rfl

theorem State.poisonedLine_kept : State.poisonedLine.lineLost 0 = false := by
  have hl : (State.poisonedLine.chan (chanCo 0).1).lost = 0 := rfl
  rw [State.lineLost, hl]
  simp

theorem State.poisonedLine_carries (n : Nat) (src dst : PlaneEnd) : State.poisonedLine.planeCarries n src dst = true := rfl

theorem State.poisonedLine_free : (State.poisonedLine.dirAt (0 / 64)).st = .u ∧ (State.poisonedLine.dirAt (0 / 64)).txn = none := ⟨rfl, rfl⟩

theorem translate_line0 : State.poisonedLine.translate (readOfLine0.dstDie.toNat - 24) readOfLine0.tenant (readOfLine0.addr.toNat % 2 ^ 41 / 64 * 64) 64 = .ok 0 := by
  have hc : 64 ≤ Config.lpddrBytes := by unfold Config.lpddrBytes Config.chanGiB; split <;> decide
  simpa [State.translate, readOfLine0] using hc

/-- The RD of the poisoned line sends two messages: the interrupt of the channel, and the answer. -/
theorem exec_rd_poisoned {t : State} (h : exec (.rd readOfLine0 .clean) State.poisonedLine = .next t) : t.sent.length = 2 := by
  obtain ⟨hp, hs⟩ := State.poisonedLine_quiet.readLine (pa := 0) rfl (reqPort (dirTxn 5 readOfLine0 0 [] .clean).req) State.poisonedLine_kept rfl
  have hx : exec (.rd readOfLine0 .clean) State.poisonedLine = .next (State.poisonedLine.dirRequest (dirTxn 5 readOfLine0 0 [] .clean)) := by
    have hspace : ¬ (spaceOf readOfLine0.addr.toNat = 2 ∧ 24 ≤ readOfLine0.dstDie.toNat ∧ readOfLine0.dstDie.toNat < 28 ∧ readOfLine0.size.toNat < 3) := by decide
    have hop : ¬ (0x0B ≤ readOfLine0.op.toNat ∧ readOfLine0.op.toNat ≤ 0x0F) := by decide
    simp only [exec, execRd, done, State.request, State.overPlane]
    rw [State.whenUp_of_up rfl, if_pos (State.poisonedLine_carries _ _ _), if_neg hop, if_neg Bool.false_ne_true, if_neg hspace]
  have hroute : ¬ (readOfLine0.dstDie.toNat < 24 ∨ 27 < readOfLine0.dstDie.toNat ∨ 3 ≤ readOfLine0.size.toNat ∨ spaceOf readOfLine0.addr.toNat ≠ 1) := by decide
  have hstart := State.dirRequest_start (x := dirTxn 5 readOfLine0 0 [] .clean) (pa := 0) hroute translate_line0 State.poisonedLine_serves
    State.poisonedLine_free.2 (show 3 < 5 by decide)
  rw [hx, hstart, State.dirStart_rd rfl State.poisonedLine_free.1] at h
  rw [← Host.Outcome.next.inj h,
    State.dirServe_rd (s := State.poisonedLine) (pl := 0 / 64) (pa := 0) (x := dirTxn 5 readOfLine0 0 [] .clean) rfl rfl rfl hp, hs]
  rfl

/-- Refutes O51: the read of a poisoned line raises the interrupt of its channel (12 R383), so an RD may send the interrupt beside its answer. -/
theorem not_planeCommandsComplete : ¬ Obligations.PlaneCommandsComplete := by
  intro h
  obtain ⟨hline, -⟩ := h State.poisonedLine readOfLine0 ⟨0, 0⟩ [] 0 0 rfl rfl (.inl (by decide)) (by decide)
  have hspace : readOfLine0.addr.toNat / 2 ^ 56 = 1 := rfl
  obtain ⟨-, hrd, -⟩ := hline 0 (show 24 ≤ 24 from le_rfl) (show 24 < 28 by decide) hspace ⟨State.poisonedLine_carries _ _ _, State.poisonedLine_carries _ _ _⟩ translate_line0 State.poisonedLine_serves
  obtain ⟨⟨t, ht, -, m, hm⟩, -⟩ := hrd State.poisonedLine_free.1 State.poisonedLine_free.2
  have h2 := exec_rd_poisoned ht
  rw [hm, State.poisonedLine_quiet.sent] at h2
  exact absurd h2 (by simp)
end Sys2Proof.Machine
end

section
/-! PROOFS. SPAD_CTRL, the write-backs of the line buffer, and retention (06 R193 to R195, R199). -/
namespace Sys2Proof.Machine

/-! Write-backs of the remote-line buffer (06 R196, R198, R199) -/

/-- The write-back of a line, as it is sent. -/
def State.backMsg (s : State) (n : Nat) (keep : Bool) (l : RlbLine) : Msg :=
  .plane 4 { s.lineReq n l.line with op := 4, tag := 0xFFC, be := if keep then 0 else 0xFF } l.data l.poisoned

/-- The write-backs of some lines in their order: of those that are dirty, from a core with a tenant. -/
def State.backMsgs (s : State) (n : Nat) (keep : Bool) (l : List RlbLine) : List Msg :=
  (l.filter (fun l => l.dirty && decide (s.niTenant n ≠ 0))).map (s.backMsg n keep)

theorem State.sendAll_nil (s : State) : s.sendAll [] = s := by simp [State.sendAll]

theorem State.sendAll_append (s : State) (l m : List Msg) : (s.sendAll l).sendAll m = s.sendAll (l ++ m) := by simp [State.sendAll]

theorem State.writeBack_eq (s : State) (n : Nat) (keep : Bool) (l : RlbLine) : s.writeBack n keep l = s.sendAll (s.backMsgs n keep [l]) := by
  rw [State.writeBack, State.backMsgs]
  split
  · rename_i h
    rw [List.filter_cons_of_pos (by simpa using h)]; rfl
  · rename_i h
    rw [List.filter_cons_of_neg (by simpa using h)]; exact s.sendAll_nil.symm

theorem State.backMsgs_cons (s : State) (n : Nat) (keep : Bool) (x : RlbLine) (l : List RlbLine) :
    s.backMsgs n keep (x :: l) = s.backMsgs n keep [x] ++ s.backMsgs n keep l := by
  rw [← List.singleton_append, State.backMsgs, List.filter_append, List.map_append]; rfl

theorem State.writeBacks_eq (s : State) (n : Nat) (keep : Bool) (l : List RlbLine) :
    l.foldl (fun s l => s.writeBack n keep l) s = s.sendAll (s.backMsgs n keep l) := by
  induction l generalizing s with
  | nil => exact s.sendAll_nil.symm
  | cons x l ih => rw [List.foldl_cons, ih, State.writeBack_eq, s.backMsgs_cons n keep x l, ← State.sendAll_append]; rfl

/-- A flush sends every line's write-back, least recently used first. -/
theorem State.flushLines_eq (s : State) (n : Nat) (keep : Bool) : s.flushLines n keep = s.sendAll (s.backMsgs n keep (s.core n).rlb) :=
  s.writeBacks_eq n keep _

/-! SPAD_CTRL and the end of zeroing (06 R193, R199) -/

theorem State.rlbEnds_flush {s : State} {n : Nat} (h : (s.core n).rlbOp = 1) :
    s.rlbEnds n = ((s.flushLines n true).modCore n (fun d => { d with
      rlbOp := 0, rlb := d.rlb.map (fun l => if l.dirty then { l with dirty := false, own := false } else l) })).raiseIrq (spadPage n) 4 := by
  have hgo : ¬ ((s.core n).rlbOp = 0 ∨ ((s.core n).rlbOp = 3 ∧ (s.core n).zeroing = true)) := by omega
  rw [State.rlbEnds, if_neg hgo]
  simp [h]

theorem State.rlbEnds_invalidate {s : State} {n : Nat} (h : (s.core n).rlbOp = 2) :
    s.rlbEnds n = ((s.flushLines n false).modCore n (fun d => { d with rlbOp := 0, rlb := [] })).raiseIrq (spadPage n) 4 := by
  have hgo : ¬ ((s.core n).rlbOp = 0 ∨ ((s.core n).rlbOp = 3 ∧ (s.core n).zeroing = true)) := by omega
  rw [State.rlbEnds, if_neg hgo]
  simp [h]

theorem scratchpadControl : Claims.ScratchpadControl := by
  intro s k who n c pg key flushed
  have hflush (keep : Bool) : s.flushLines n keep = flushed keep := s.flushLines_eq n keep
  refine ⟨fun hz => acts_of rfl ?_, fun hz => acts_of rfl ?_, fun hz => runs_of rfl ?_, fun hz => runs_of rfl ?_, acts_of rfl rfl, acts_of rfl rfl,
    fun ho => runs_of rfl ?_, fun ho => runs_of rfl ?_⟩
  · exact if_neg (ne_true_of_eq_false hz)
  · exact if_pos hz
  · exact if_pos hz
  · exact if_neg (ne_true_of_eq_false hz)
  · exact (State.rlbEnds_flush ho).trans (by rw [hflush]; exact congrArg (fun t : State => t.raiseIrq pg 4) (modCore_congr rfl))
  · exact (State.rlbEnds_invalidate ho).trans (by rw [hflush]; rfl)

/-! Retention (06 R194, R195) -/

section
variable {s : State} {n : Nat}

theorem State.setRetain_ready (h : (s.core n).retention = .on) :
    s.setRetain n true = (s.setReg (spadPage n + 0x44) 1).modCore n (fun d => { d with retention := .entering, wake := false }) := by
  rw [State.setRetain]
  exact modCore_congr (by rw [State.core_setReg, h])

theorem State.setRetain_entering (on : Bool) (h : (s.core n).retention = .entering) :
    s.setRetain n on = (s.setReg (spadPage n + 0x44) (if on then 1 else 0)).modCore n (fun d => { d with wake := !on }) := by
  have hv : (if on then 1 else 0 : Word) = BitVec.ofNat 32 (b2n on) := by cases on <;> rfl
  rw [hv]
  rw [State.setRetain]
  exact modCore_congr (by rw [State.core_setReg, h])

theorem State.setRetain_retained (h : (s.core n).retention = .retained) :
    s.setRetain n false = (s.setReg (spadPage n + 0x44) 0).modCore n (fun d => { d with retention := .waking }) := by
  rw [State.setRetain]
  exact modCore_congr (by rw [State.core_setReg, h])

/-- A transition ends at once where no SOFT_RESET waits for it. -/
theorem State.spadResetDue_of_none (h : (s.blk (spadPage n)).resetDue = false) : s.spadResetDue n = s := by
  rw [State.spadResetDue, if_neg (ne_true_of_eq_false h)]

end

theorem scratchpadRetention : Claims.ScratchpadRetention := by
  intro s k who on n c pg set flushed
  have hflush : s.flushLines n false = flushed := s.flushLines_eq n false
  refine ⟨fun h ho => acts_of rfl ?_, fun h => acts_of rfl ?_, fun h ho => acts_of rfl ?_, fun hd => ?_,
    fun h => runs_of rfl ?_, fun h => runs_of rfl ?_⟩
  · subst ho; exact State.setRetain_ready h
  · exact State.setRetain_entering on h
  · subst ho; exact State.setRetain_retained h
  · have hd' : (s.blk (spadPage n)).resetDue = false := hd
    refine ⟨fun h hz => runs_of rfl ?_, fun h => runs_of rfl ?_⟩
    · refine (if_pos ⟨h, hz⟩).trans ((State.spadResetDue_of_none ?_).trans ?_)
      · rw [hflush]; exact hd'
      · rw [hflush]; rfl
    · refine (if_pos h).trans ((State.spadResetDue_of_none ?_).trans (modCore_congr ?_))
      · exact hd'
      · rw [show (s.blk (spadPage (coreNo k))).resetDue = false from hd, Bool.not_false, Bool.and_true]
        rfl
  · exact if_neg (fun hp => h hp.1)
  · exact if_neg h

end Sys2Proof.Machine
end

section
/-! PROOFS. The bit errors that a read of the scratchpad finds (06 R190). -/
namespace Sys2Proof.Machine

/-! The bit errors that a read finds (06 R190) -/

/-- What an uncorrectable word leaves in the registers of its page: its code, its interrupt, the capture, the counter. -/
theorem State.spadUnc_reg (s : State) (n w o : Nat) : (s.spadUnc n w).reg (spadPage n + o) =
    if o = 0x18 then errEntered (s.reg (spadPage n + 0x18)) [Code.memUncorrectable]
    else if o = 0x10 then s.reg (spadPage n + 0x10) ||| 1
    else if o = 0x5C then (if s.bit (spadPage n + 0x5C) 0 then s.reg (spadPage n + 0x5C) else BitVec.ofNat 32 (1 + w * 8))
    else if o = 0x58 then BitVec.ofNat 32 (min 0xFFFFFFFF ((s.reg (spadPage n + 0x58)).toNat + 1))
    else s.reg (spadPage n + o) := by
  unfold State.spadUnc
  generalize spadPage n = p
  have hmod (f : Core → Core) (k : Nat) : (s.modCore n f).reg k = s.reg k := rfl
  have hsend (t : State) (c : BitVec 16) (k : Nat) : (t.selfReport n 5 c).reg k = t.reg k := rfl
  have hbit : ((s.modCore n (fun c => { c with poison := Sparse.put (fun _ => false) c.poison w true })).incSat (p + 0x58)).bit (p + 0x5C) 0 = s.bit (p + 0x5C) 0 := by
    rw [State.bit, State.incSat_reg, if_neg (by omega)]; rfl
  simp only [hsend, State.enterCode, State.enterCodes_reg, State.raiseIrq_reg, hbit, Nat.add_left_cancel_iff]
  cases hb : s.bit (p + 0x5C) 0
  · simp [State.setReg_reg, State.incSat_reg, hmod]
  · by_cases ho : o = 0x5C
    · subst ho; simp [State.incSat_reg, hmod]
    · simp [State.incSat_reg, hmod, ho]

/-- The counter of uncorrectable words counts a list of them. -/
theorem State.spadUncs_count (n : Nat) (l : List Nat) (s : State) : ((l.foldl (fun s w => s.spadUnc n w) s).reg (spadPage n + 0x58)).toNat =
    min (2 ^ 32 - 1) ((s.reg (spadPage n + 0x58)).toNat + l.length) := by
  induction l generalizing s with
  | nil => have := (s.reg (spadPage n + 0x58)).isLt; simp only [List.foldl_nil, List.length_nil]; omega
  | cons w l ih =>
    rw [List.foldl_cons, ih, State.spadUnc_reg, if_neg (by decide), if_neg (by decide), if_neg (by decide), if_pos rfl, BitVec.toNat_ofNat, List.length_cons]
    omega

/-- What stays through a list of uncorrectable words: the other counter, a capture that is held, a pending interrupt, and the first code. -/
theorem State.spadUncs_kept (n : Nat) (l : List Nat) (s : State) : let t := l.foldl (fun s w => s.spadUnc n w) s
    t.reg (spadPage n + 0x54) = s.reg (spadPage n + 0x54) ∧
    (s.bit (spadPage n + 0x5C) 0 = true → t.reg (spadPage n + 0x5C) = s.reg (spadPage n + 0x5C)) ∧
    (s.bit (spadPage n + 0x10) 0 = true → t.bit (spadPage n + 0x10) 0 = true) ∧
    ((s.reg (spadPage n + 0x18)).setWidth 16 ≠ (0 : BitVec 16) → (t.reg (spadPage n + 0x18)).setWidth 16 = ((s.reg (spadPage n + 0x18)).setWidth 16 : BitVec 16)) := by
  induction l generalizing s with
  | nil => exact ⟨rfl, fun _ => rfl, id, fun _ => rfl⟩
  | cons w l ih =>
    obtain ⟨hcorr, hcap, hirq, hcode⟩ := ih (s.spadUnc n w)
    have h54 : (s.spadUnc n w).reg (spadPage n + 0x54) = s.reg (spadPage n + 0x54) := by simp [State.spadUnc_reg]
    have h5C (hb : s.bit (spadPage n + 0x5C) 0 = true) : (s.spadUnc n w).reg (spadPage n + 0x5C) = s.reg (spadPage n + 0x5C) := by simp [State.spadUnc_reg, hb]
    have h18 (hc : (s.reg (spadPage n + 0x18)).setWidth 16 ≠ (0 : BitVec 16)) :
        ((s.spadUnc n w).reg (spadPage n + 0x18)).setWidth 16 = ((s.reg (spadPage n + 0x18)).setWidth 16 : BitVec 16) := by
      rw [State.spadUnc_reg, if_pos rfl, (errEntered_one _ _).1, if_neg hc]
    refine ⟨hcorr.trans h54, fun hb => (hcap ?_).trans (h5C hb), fun hb => hirq ?_, fun hc => (hcode ?_).trans (h18 hc)⟩
    · rw [State.bit, h5C hb]; exact hb
    · rw [State.bit, State.spadUnc_reg, if_neg (by decide), if_pos rfl, BitVec.getLsbD_or]
      exact Bool.or_eq_true_iff.mpr (.inl hb)
    · rw [h18 hc]; exact hc

/-- The first of some uncorrectable words raises the interrupt, is captured unless a capture is held, and its code is entered. -/
theorem State.spadUncs_first (n w : Nat) (l : List Nat) (s : State) : let t := (w :: l).foldl (fun s w => s.spadUnc n w) s
    t.bit (spadPage n + 0x10) 0 = true ∧
    (s.bit (spadPage n + 0x5C) 0 = false → t.reg (spadPage n + 0x5C) = BitVec.ofNat 32 (1 + w * 2 ^ 3)) ∧
    ((s.reg (spadPage n + 0x18)).setWidth 16 = (0 : BitVec 16) → (t.reg (spadPage n + 0x18)).setWidth 16 = Code.memUncorrectable) := by
  obtain ⟨-, hcap, hirq, hcode⟩ := State.spadUncs_kept n l (s.spadUnc n w)
  refine ⟨hirq ?_, fun hb => ?_, fun hc => ?_⟩
  · rw [State.bit, State.spadUnc_reg, if_neg (by decide), if_pos rfl, BitVec.getLsbD_or]
    exact Bool.or_eq_true_iff.mpr (.inr rfl)
  · have h5C : (s.spadUnc n w).reg (spadPage n + 0x5C) = BitVec.ofNat 32 (1 + w * 2 ^ 3) := by simp [State.spadUnc_reg, hb]
    refine (hcap ?_).trans h5C
    rw [State.bit, h5C, BitVec.getLsbD_ofNat, Nat.testBit_zero]
    simp
    omega
  · have h18 : ((s.spadUnc n w).reg (spadPage n + 0x18)).setWidth 16 = Code.memUncorrectable := by
      rw [State.spadUnc_reg, if_pos rfl, (errEntered_one _ _).1, if_pos hc]
    exact (hcode (by rw [h18]; decide)).trans h18

/-- The words of an aligned line. -/
theorem wordsOf_line (line : Nat) : wordsOf (line * 64) 64 = (List.range 8).map (fun i => 8 * line + i) := by
  have h1 : line * 64 / 8 = 8 * line := by omega
  have h2 : (line * 64 + 64 - 1) / 8 = 8 * line + 7 := by omega
  rw [wordsOf, if_neg (by decide), h1, h2, Nat.add_sub_cancel_left]

/-- The words that a read corrects are counted. -/
def State.corrCounted (s : State) (n : Nat) (corr : List Nat) : State := if corr.isEmpty then s else s.incSat (spadPage n + 0x54) corr.length

section
variable (s : State) (n : Nat) (corr : List Nat)

theorem State.corrCounted_core : (s.corrCounted n corr).core n = s.core n := by
  rw [State.corrCounted]
  split
  · rfl
  · simp

theorem State.corrCounted_count : ((s.corrCounted n corr).reg (spadPage n + 0x54)).toNat = min (2 ^ 32 - 1) ((s.reg (spadPage n + 0x54)).toNat + corr.length) := by
  have hlt := (s.reg (spadPage n + 0x54)).isLt
  rw [State.corrCounted]
  split
  · rename_i h
    rw [List.isEmpty_iff.mp h, List.length_nil]; omega
  · rw [State.incSat_reg, if_pos rfl, BitVec.toNat_ofNat]; omega

theorem State.corrCounted_reg {o : Nat} (ho : o ≠ 0x54) : (s.corrCounted n corr).reg (spadPage n + o) = s.reg (spadPage n + o) := by
  rw [State.corrCounted]
  split
  · rfl
  · rw [State.incSat_reg, if_neg (by omega)]

theorem State.corrCounted_bit {o : Nat} (ho : o ≠ 0x54) (b : Nat) : (s.corrCounted n corr).bit (spadPage n + o) b = s.bit (spadPage n + o) b := by
  rw [State.bit, State.corrCounted_reg s n corr ho, State.bit]

end

theorem eccErrors : Claims.EccErrors := by
  refine ⟨fun s k words e _ => ?_, fun s k line e => ?_⟩
  · intro n c pg t unc corr
    have ht : t = unc.foldl (fun s w => s.spadUnc n w) (s.corrCounted n corr) := rfl
    obtain ⟨p, hcore, hmarks⟩ := spadUncs_core n unc (s.corrCounted n corr)
    obtain ⟨hcorr, hcap, -, -⟩ := State.spadUncs_kept n unc (s.corrCounted n corr)
    rw [State.corrCounted_core] at hcore hmarks
    rw [← ht] at hcore hcorr hcap
    refine ⟨fun w => ?_, by rw [hcore], ?_, ?_, fun w rest hu => ?_, fun hb => ?_⟩
    · have hp : (t.core n).wordPoisoned w = (c.wordPoisoned w || decide (w ∈ unc)) := by rw [Core.wordPoisoned, hcore, hmarks]
      rw [hp]
      cases hw : c.wordPoisoned w <;> simp [unc, hw]
    · exact (congrArg BitVec.toNat hcorr).trans (s.corrCounted_count n corr)
    · have hcount := State.spadUncs_count n unc (s.corrCounted n corr)
      rw [State.corrCounted_reg s n corr (by decide)] at hcount
      exact hcount
    · obtain ⟨hirq, hfirst, hcode⟩ := State.spadUncs_first n w rest (s.corrCounted n corr)
      rw [← hu, ← ht] at hirq hfirst hcode
      rw [State.corrCounted_bit s n corr (by decide)] at hfirst
      rw [State.corrCounted_reg s n corr (by decide)] at hcode
      exact ⟨hirq, hfirst, hcode⟩
    · have hkept := hcap (by rw [State.corrCounted_bit s n corr (by decide)]; exact hb)
      rw [State.corrCounted_reg s n corr (by decide)] at hkept
      exact hkept
  · intro n on
    refine ⟨fun ho => runs_of rfl ?_, fun ho => runs_of rfl ?_⟩
    · exact (if_pos ho).trans (by rw [wordsOf_line])
    · exact if_neg (ne_true_of_eq_false ho)

end Sys2Proof.Machine
end

section
/-! PROOFS. Fills of the line buffer, and snoops (06 R196; 07 R257, R258). -/
namespace Sys2Proof.Machine

/-! Fills of the line buffer (06 R196; 07 R257) -/

theorem bytesAt_full {d : List Byte} (h : d.length = 64) : bytesAt d 0 64 = d := by
  rw [bytesAt_of_le (by omega), List.drop_zero, ← h, List.take_length]

section
variable {s : State} {n line : Nat}

/-- A set with a free way gives none up. -/
theorem State.rlbRoom_free (h : ((s.core n).rlb.filter (fun l => decide (l.line % 64 = line % 64))).length < 8) : s.rlbRoom n line = s := by
  rw [State.rlbRoom]
  split
  · rfl
  · rename_i l r hl
    rw [hl, List.length_cons] at h
    rw [if_neg (by omega)]

/-- A full set gives up its least recently used line. -/
theorem State.rlbRoom_full {v : RlbLine} {vs : List RlbLine} (hv : (s.core n).rlb.filter (fun l => decide (l.line % 64 = line % 64)) = v :: vs)
    (h : 8 ≤ (v :: vs).length) : s.rlbRoom n line = (s.writeBack n false v).modCore n (fun c => c.rlbDrop v.line) := by
  rw [State.rlbRoom, hv]
  exact if_pos (by simpa using h)

end

theorem State.writeBack_modCore (s : State) (n : Nat) (f : Core → Core) (keep : Bool) (l : RlbLine) :
    (s.modCore n f).writeBack n keep l = (s.writeBack n keep l).modCore n f := by
  have ht : (s.modCore n f).niTenant n = s.niTenant n := rfl
  rw [State.writeBack, State.writeBack, ht]
  split <;> rfl

theorem State.writeBack_core (s : State) (n m : Nat) (keep : Bool) (l : RlbLine) : (s.writeBack n keep l).core m = s.core m := by
  rw [State.writeBack]; split <;> rfl

theorem lineFills : Claims.LineFills := by
  intro s k data poisoned n c hlen
  refine ⟨fun hm => runs_of rfl ?_, fun m rest hm => ?_⟩
  · rw [State.rlbFill, hm]
  intro others inSet new put
  -- the buffer after the dropped line, and what the fill makes of it
  have hset (l : List RlbLine) (hl : ∀ x ∈ l, x.line ≠ m.line) : l.filter (fun x => decide (x.line ≠ m.line)) ++ [new] = l ++ [new] := by
    rw [List.filter_eq_self.mpr (by simpa using hl)]
  have hothers : ∀ x ∈ others, x.line ≠ m.line := fun x hx => by simpa using (List.mem_filter.mp hx).2
  have hnew : (⟨m.line, m.own, false, poisoned, true, bytesAt data 0 64⟩ : RlbLine) = new := by rw [bytesAt_full hlen]
  have hfill : s.rlbFill n data poisoned =
      (((s.modCore n (fun c => { (c.rlbDrop m.line) with misses := c.misses.erase m })).rlbRoom n m.line).modCore n (fun c => c.rlbSet new)).send
        (.plane 0x1B (s.lineReq n m.line) [] false) := by
    rw [State.rlbFill, hm, ← hnew]
  have hdrop : ((s.modCore n (fun c => { (c.rlbDrop m.line) with misses := c.misses.erase m })).core n).rlb = others := by
    rw [State.core_modCore_same]; rfl
  refine ⟨fun hin => runs_of rfl ?_, fun v vs hv h8 => runs_of rfl ?_⟩
  · rw [hfill, State.rlbRoom_free (by rw [hdrop]; exact hin), State.modCore_modCore]
    refine congrArg (fun t : State => t.send _) (modCore_congr ?_)
    exact congrArg (fun l => ({ c with misses := c.misses.erase m, rlb := l } : Core)) (hset others hothers)
  · rw [hfill, State.rlbRoom_full (by rw [hdrop]; exact hv) (by rw [← hv]; exact h8), State.writeBack_modCore, State.modCore_modCore, State.modCore_modCore]
    have hback : s.writeBack n false v = if v.dirty = true ∧ s.niTenant n ≠ 0 then
        s.send (.plane 4 { s.lineReq n v.line with op := 4, tag := 0xFFC, be := 0xFF } v.data v.poisoned) else s := by
      rw [State.writeBack]
      exact if_congr (by simp) rfl rfl
    rw [← hback]
    refine congrArg (fun t : State => t.send _) (modCore_congr ?_)
    rw [State.writeBack_core]
    exact congrArg (fun l => ({ c with misses := c.misses.erase m, rlb := l } : Core))
      (hset (others.filter (fun x => decide (x.line ≠ v.line))) fun x hx => hothers x (List.mem_filter.mp hx).1)

/-! Snoops (07 R258) -/

section
variable {s : State} {n line : Nat} (keep : Bool)

theorem State.snooped_none (h : (s.core n).rlbFind line = none) : s.snooped n line keep = s.snpAnswer n line 0 [] false := by
  rw [State.snooped, h]

theorem State.snooped_held {l : RlbLine} (h : (s.core n).rlbFind line = some l) : s.snooped n line keep =
    let s1 := s.modCore n (fun c =>
      if keep then { c with rlb := c.rlb.map (fun x => if x.line = line then { x with own := false, dirty := false } else x) } else c.rlbDrop line)
    (if l.dirty then s1.snpAnswer n line 1 l.data l.poisoned else s1.snpAnswer n line 2 [] false).incWrap (spadPage n + 0x70) := by
  rw [State.snooped, h]

end

theorem lineSnoops : Claims.LineSnoops := by
  intro s k line n c answer carried
  refine ⟨fun hc => ⟨runs_of rfl ?_, runs_of rfl ?_⟩, fun hc hf => ⟨runs_of rfl ?_, runs_of rfl ?_⟩, fun l hc hf => ⟨runs_of rfl ?_, runs_of rfl ?_⟩⟩
  · exact if_neg (ne_true_of_eq_false hc)
  · exact if_neg (ne_true_of_eq_false hc)
  · exact (if_pos hc).trans (State.snooped_none _ hf)
  · exact (if_pos hc).trans (State.snooped_none _ hf)
  · exact (if_pos hc).trans (State.snooped_held _ hf)
  · exact (if_pos hc).trans (State.snooped_held _ hf)
/-- Settles O22: the scratchpad's control and retention, the bit errors of its words, and the line buffer's fills and snoops. -/
theorem scratchpadCommands : Obligations.ScratchpadCommands := ⟨scratchpadControl, scratchpadRetention, eccErrors, lineFills, lineSnoops⟩

end Sys2Proof.Machine
end

section
/-! PROOFS. Packets at a receiving interface, and the answers to a transfer's requests (06 R189 to R191; 07 R229, R250, R259 to R262). -/
namespace Sys2Proof.Machine

/-! Bytes written under enables (06 R189) -/

theorem Memory.read_writeBE (m : List Host.Cell) (a x : Nat) (l : List (Bool × Byte)) : Memory.read (Memory.writeBE m a l) x =
    if a ≤ x ∧ x < a + l.length ∧ (l.getD (x - a) (false, 0)).1 = true then (l.getD (x - a) (false, 0)).2 else Memory.read m x := by
  induction l generalizing m a with
  | nil =>
    rw [if_neg (by simp)]
    rfl
  | cons p r ih =>
    obtain ⟨e, b⟩ := p
    rw [Memory.writeBE, ih]
    by_cases h0 : x = a
    · subst h0
      cases e <;> simp [Memory.read_write]
    · have hm : Memory.read (if e then Memory.write m a b else m) x = Memory.read m x := by
        cases e
        · rfl
        · exact (Memory.read_write m a x b).trans (if_neg h0)
      rw [hm]
      by_cases h1 : a + 1 ≤ x
      · have hget : ((e, b) :: r).getD (x - a) (false, 0) = r.getD (x - (a + 1)) (false, 0) := by
          rw [show x - a = (x - (a + 1)) + 1 by omega, List.getD_cons_succ]
        rw [hget, List.length_cons]
        exact if_congr (and_congr (by omega) (and_congr (by omega) Iff.rfl)) rfl rfl
      · rw [if_neg (by omega), if_neg (by omega)]

/-- The byte of a WRITE at a place in its lines: FIRST_WE enables it in the first, LAST_WE in the last (07 R229). -/
theorem writeBytes_getD {h : BitVec 168} {data : List Byte} {i : Nat} (hi : i < 64 * hdrFld h 46 3) : (writeBytes h data).getD i (false, 0) =
    ((decide (i / 64 ≠ 0) || decide (hdrFld h (83 + i % 64 / 8) 1 = 1)) && (decide (i / 64 + 1 ≠ hdrFld h 46 3) || decide (hdrFld h (91 + i % 64 / 8) 1 = 1)),
      data.getD i 0) := by
  simp [writeBytes, hi]

theorem writeBytes_length (h : BitVec 168) (data : List Byte) : (writeBytes h data).length = 64 * hdrFld h 46 3 := by simp [writeBytes]

/-- What a WRITE leaves at an address. -/
theorem spadWriteBE_read (c : Core) (h : BitVec 168) (data : List Byte) (off a : Nat) (ho : off % 64 = 0) :
    Memory.read (c.spadWriteBE off (writeBytes h data)).spad a =
      if off ≤ a ∧ a < off + 64 * hdrFld h 46 3 ∧ ((a - off) / 64 = 0 → hdrFld h (83 + a % 64 / 8) 1 = 1) ∧
        ((a - off) / 64 + 1 = hdrFld h 46 3 → hdrFld h (91 + a % 64 / 8) 1 = 1)
      then data.getD (a - off) 0 else Memory.read c.spad a := by
  rw [Core.spadWriteBE, Memory.read_writeBE, writeBytes_length]
  by_cases hin : off ≤ a ∧ a < off + 64 * hdrFld h 46 3
  · have hmod : (a - off) % 64 = a % 64 := by omega
    rw [writeBytes_getD (by omega), hmod]
    refine if_congr (and_congr Iff.rfl (and_congr Iff.rfl ?_)) rfl rfl
    simp [imp_iff_not_or]
  · rw [if_neg (by tauto), if_neg (by tauto)]

/-! Arriving packets and answers (07 R229, R260, R262) -/

theorem tenantOk_iff {owner t : BitVec 8} : tenantOk owner t = true ↔ owner ≠ 0 ∧ (t = owner ∨ t = 0xFF ∨ owner = 0xFF) := by
  simp [tenantOk, or_assoc]

section
variable (s : State) (n : Nat) (h : BitVec 168)

theorem State.ejected_core (m : Nat) : (s.ejected n h).core m = s.core m := by simp [State.ejected]

theorem State.ejected_meAt (m : Nat) : (s.ejected n h).meAt m = s.meAt m := by
  have hr : (s.ejected n h).remap = s.remap := by simp [State.ejected]
  rw [State.meAt, State.logOf, hr, State.meAt, State.logOf]

/-- The count of ejected flits is not NI_TENANT. -/
theorem State.ejected_niTenant : (s.ejected n h).niTenant n = s.niTenant n := by
  rw [State.niTenant, State.ejected, State.incWrap_reg, if_neg (show corePage n 9 + 0x40 ≠ niPage n + 0x64 + 4 * hdrFld h 2 1 by rw [niPage]; omega), State.niTenant]

end

section
variable {s : State} {n : Nat} {h : BitVec 168} {act : State → State}

/-- A packet of a served TENANT whose lines lie in the scratchpad. -/
theorem State.arrives_served (ht : tenantOk (s.niTenant n) (BitVec.ofNat 8 (hdrFld h 38 8)) = true) (hl : 64 * hdrFld h 69 14 + 64 * hdrFld h 46 3 ≤ 2 ^ 20) :
    s.arrives n h act = act (s.ejected n h) := by
  rw [State.arrives, State.ejected_niTenant, ht, if_neg (by decide), if_neg (by omega)]

/-- A packet of another TENANT (R262). -/
theorem State.arrives_refused (ht : ¬ tenantOk (s.niTenant n) (BitVec.ofNat 8 (hdrFld h 38 8)) = true) :
    s.arrives n h act = ((s.ejected n h).refused n (BitVec.ofNat 8 (hdrFld h 38 8)) (hdrFld h 22 9) (hdrFld h 31 7)).respond n h 2 0x3002 [] := by
  rw [State.arrives, State.ejected_niTenant, Bool.eq_false_of_not_eq_true ht, if_pos (by decide)]
  rfl

theorem State.answerIn_served (ht : tenantOk (s.niTenant n) (BitVec.ofNat 8 (hdrFld h 38 8)) = true) : s.answerIn n h act = act (s.ejected n h) := by
  rw [State.answerIn, State.ejected_niTenant, if_pos ht]

theorem State.answerIn_refused (ht : ¬ tenantOk (s.niTenant n) (BitVec.ofNat 8 (hdrFld h 38 8)) = true) :
    s.answerIn n h act = (s.ejected n h).refused n (BitVec.ofNat 8 (hdrFld h 38 8)) (hdrFld h 22 9) (hdrFld h 31 7) := by
  rw [State.answerIn, State.ejected_niTenant, if_neg ht]

/-- An access to a scratchpad that is not RETAINED wakes nothing. -/
theorem State.spadTouch_on (hr : (s.core n).retention = .on) : s.spadTouch n = s := by
  rw [State.spadTouch, if_neg (by rw [hr]; decide)]

end

/-- Read data for the own scratchpad, which is on, is written at once. -/
theorem State.readData_here {s : State} {n : Nat} {o : Outst} {lines : List Byte} (hsp : spaceOf o.dst.toNat = 0)
    (hme : (colOf o.dst.toNat, rowOf o.dst.toNat) = s.meAt n) (hon : (s.core n).retention = .on) :
    s.readData n o lines = (s.spadWrite n (offOf o.dst.toNat) (bytesAt lines (offOf o.addr.toNat % 64) o.len)).answered n o 0 := by
  rw [State.readData]
  simp only [hsp, hme, and_self, if_true]
  rw [State.spadTouch_on hon]

theorem exec_writePacket {s : State} {k : CoreId} {h : BitVec 168} (hr : s.inReset = false) (ht : s.tripped = false) (hk : hdrFld h 0 2 = 0) (hm : malformed h = false)
    (data : List Byte) : exec (.writePacket k h data) s = .next (s.arrives (coreNo k) h fun s =>
      ((s.spadTouch (coreNo k)).modCore (coreNo k) (fun c => c.spadWriteBE (64 * hdrFld h 69 14) (writeBytes h data))).respond (coreNo k) h 2 0 []) := by
  refine congrArg Host.Outcome.next ((State.onIsland_of_up hr ht _).trans (if_neg ?_))
  simp [hk, hm]

theorem exec_readPacket {s : State} {k : CoreId} {h : BitVec 168} (hr : s.inReset = false) (ht : s.tripped = false) (hk : hdrFld h 0 2 = 1) (hm : malformed h = false)
    (e : Ecc) : exec (.readPacket k h e) s = .next (s.arrives (coreNo k) h fun s =>
      let off := 64 * hdrFld h 69 14
      let len := 64 * hdrFld h 46 3
      let s1 := (s.spadTouch (coreNo k)).eccFound (coreNo k) (wordsOf off len) e
      if (s1.core (coreNo k)).poisonedAt off len then s1.respond (coreNo k) h 2 Code.memUncorrectable []
      else s1.respond (coreNo k) h 3 0 ((s1.core (coreNo k)).spadBytes off len)) := by
  refine congrArg Host.Outcome.next ((State.onIsland_of_up hr ht _).trans (if_neg ?_))
  simp [hk, hm]

/-- A WRITE of a served TENANT at a scratchpad that is on (R229). -/
theorem exec_write_served {s : State} {k : CoreId} {h : BitVec 168} (hr : s.inReset = false) (ht : s.tripped = false) (hk : hdrFld h 0 2 = 0) (hm : malformed h = false)
    (hon : (s.core (coreNo k)).retention = .on) (hs : tenantOk (s.niTenant (coreNo k)) (BitVec.ofNat 8 (hdrFld h 38 8)) = true)
    (hl : 64 * hdrFld h 69 14 + 64 * hdrFld h 46 3 ≤ 2 ^ 20) (data : List Byte) : exec (.writePacket k h data) s =
      .next (((s.ejected (coreNo k) h).setCore (coreNo k) ((s.core (coreNo k)).spadWriteBE (64 * hdrFld h 69 14) (writeBytes h data))).respond (coreNo k) h 2 0 []) := by
  rw [exec_writePacket hr ht hk hm, State.arrives_served hs hl, State.spadTouch_on (by rw [State.ejected_core]; exact hon), State.modCore, State.ejected_core]

/-- A READ of a served TENANT at a scratchpad that is on, where no new bit error is found (R229; 06 R191). -/
theorem exec_read_served {s : State} {k : CoreId} {h : BitVec 168} (hr : s.inReset = false) (ht : s.tripped = false) (hk : hdrFld h 0 2 = 1) (hm : malformed h = false)
    (hon : (s.core (coreNo k)).retention = .on) (hs : tenantOk (s.niTenant (coreNo k)) (BitVec.ofNat 8 (hdrFld h 38 8)) = true)
    (hl : 64 * hdrFld h 69 14 + 64 * hdrFld h 46 3 ≤ 2 ^ 20) : exec (.readPacket k h ⟨[], []⟩) s =
      .next (if (s.core (coreNo k)).poisonedAt (64 * hdrFld h 69 14) (64 * hdrFld h 46 3) then (s.ejected (coreNo k) h).respond (coreNo k) h 2 Code.memUncorrectable []
        else (s.ejected (coreNo k) h).respond (coreNo k) h 3 0 ((s.core (coreNo k)).spadBytes (64 * hdrFld h 69 14) (64 * hdrFld h 46 3))) := by
  rw [exec_readPacket hr ht hk hm, State.arrives_served hs hl]
  simp only [eccFound_nil]
  rw [State.spadTouch_on (by rw [State.ejected_core]; exact hon), State.ejected_core]

theorem packetsReceived : Claims.PacketsReceived := by
  intro s k hdr data n c off len from_ served refused hr ht hm hon hin
  have hserved : served ↔ tenantOk (s.niTenant n) from_ = true := tenantOk_iff.symm
  refine ⟨fun hk => ⟨fun hs => ?_, fun hs => ?_⟩, fun hk => ⟨fun hs hp => ?_, fun hs hp => ?_, fun hs => ?_⟩⟩
  · exact ⟨c.spadWriteBE off (writeBytes hdr data), exec_write_served hr ht hk hm hon (hserved.mp hs) hin data,
      fun a => spadWriteBE_read c hdr data off a (Nat.mul_mod_right 64 _), rfl⟩
  · rw [exec_writePacket hr ht hk hm, State.arrives_refused (fun h => hs (hserved.mpr h))]
  · exact (exec_read_served hr ht hk hm hon (hserved.mp hs) hin).trans (congrArg Host.Outcome.next (if_neg (ne_true_of_eq_false hp)))
  · exact (exec_read_served hr ht hk hm hon (hserved.mp hs) hin).trans (congrArg Host.Outcome.next (if_pos hp))
  · rw [exec_readPacket hr ht hk hm, State.arrives_refused (fun h => hs (hserved.mpr h))]

theorem packetAnswers : Claims.PacketAnswers := by
  intro s k hdr data n c tag st s1 from_ served refused hr ht
  have hserved : served ↔ tenantOk (s.niTenant n) from_ = true := tenantOk_iff.symm
  have hack (hk : hdrFld hdr 0 2 = 2) : exec (.ackPacket k hdr) s = .next (s.answerIn n hdr fun s1 =>
      match (s1.core n).waiting tag false false, (s1.core n).waiting tag false true with
      | some o, _ => s1.answered n o st
      | none, some o => if st = 0 then s1 else s1.answered n o st
      | none, none => s1) := congrArg Host.Outcome.next ((State.onIsland_of_up hr ht _).trans (if_neg (not_not_intro hk)))
  have hdata (hk : hdrFld hdr 0 2 = 3) : exec (.rdata k hdr data) s = .next (s.answerIn n hdr fun s1 =>
      match (s1.core n).waiting tag false true with
      | some o => if st = 0 then s1.readData n o data else s1.answered n o st
      | none => s1) := congrArg Host.Outcome.next ((State.onIsland_of_up hr ht _).trans (if_neg (not_not_intro hk)))
  refine ⟨fun hs => ⟨fun hk => ?_, fun hk => ?_⟩, fun hs hk => ⟨fun o hw => ?_, fun o hw hw' hst => ?_, fun hw hw' => ?_⟩,
    fun hs hk => ⟨fun o hw => ⟨fun hst => ?_, fun hst hsp hme hon => ?_⟩, fun hw => ?_⟩, fun hb o ho => ?_, fun hb => ?_⟩
  · rw [hack hk, State.answerIn_refused (fun h => hs (hserved.mpr h))]
  · rw [hdata hk, State.answerIn_refused (fun h => hs (hserved.mpr h))]
  · rw [hack hk, State.answerIn_served (hserved.mp hs), State.ejected_core, hw]
  · rw [hack hk, State.answerIn_served (hserved.mp hs), State.ejected_core, hw, hw']
    exact congrArg Host.Outcome.next (if_neg hst)
  · rw [hack hk, State.answerIn_served (hserved.mp hs), State.ejected_core, hw, hw']
  · rw [hdata hk, State.answerIn_served (hserved.mp hs), State.ejected_core, hw]
    exact congrArg Host.Outcome.next (if_neg hst)
  · rw [hdata hk, State.answerIn_served (hserved.mp hs), State.ejected_core, hw]
    refine congrArg Host.Outcome.next ((if_pos hst).trans (State.readData_here hsp ?_ ?_))
    · rw [State.ejected_meAt]; exact hme
    · rw [State.ejected_core]; exact hon
  · rw [hdata hk, State.answerIn_served (hserved.mp hs), State.ejected_core, hw]
  · refine congrArg Host.Outcome.next ((State.onIsland_of_up hr ht _).trans ((if_neg (ne_true_of_eq_false hb)).trans ?_))
    rw [ho]
    rfl
  · exact congrArg Host.Outcome.next ((State.onIsland_of_up hr ht _).trans (if_pos hb))

/-- Settles O24: the packets that an interface receives, and the answers to its own requests. -/
theorem interfacePackets : Obligations.InterfacePackets := ⟨packetsReceived, packetAnswers⟩

end Sys2Proof.Machine
end

section
/-! PROOFS. What the commands of the tenants keep while a halyard takes a stream (11 R352 to R367). -/
namespace Sys2Proof.Machine

/-! What a halyard leaves of the tenants: events alone (14 R454, R455) -/

/-- t is s, as far as the commands of every tenant go: those that wait or run, the replies, and the measurement. -/
structure State.SameCmds (s t : State) : Prop where
  cmds : ∀ n, (t.tenant n).cmds = (s.tenant n).cmds
  replies : ∀ n, (t.tenant n).replies = (s.tenant n).replies
  measure : ∀ n, (t.tenant n).measure = (s.tenant n).measure

namespace State.SameCmds

theorem of_tenants {s t : State} (h : t.tenants = s.tenants) : s.SameCmds t := by
  have ht (n : Nat) : t.tenant n = s.tenant n := by rw [State.tenant, h, State.tenant]
  exact ⟨fun n => by rw [ht], fun n => by rw [ht], fun n => by rw [ht]⟩

theorem refl (s : State) : s.SameCmds s := of_tenants rfl

theorem trans {s t u : State} (h : s.SameCmds t) (g : t.SameCmds u) : s.SameCmds u :=
  ⟨fun n => (g.cmds n).trans (h.cmds n), fun n => (g.replies n).trans (h.replies n), fun n => (g.measure n).trans (h.measure n)⟩

/-- A later step that leaves the tenants. -/
theorem then_tenants {s t u : State} (h : s.SameCmds t) (hu : u.tenants = t.tenants) : s.SameCmds u := h.trans (of_tenants hu)

theorem foldl {β : Type} {f : State → β → State} (h : ∀ (s : State) (x : β), s.SameCmds (f s x)) (l : List β) (s : State) : s.SameCmds (l.foldl f s) := by
  induction l generalizing s with
  | nil => exact refl s
  | cons x l ih => exact (h s x).trans (ih (f s x))

theorem setTenant (s : State) {t : Nat} {v : Tenant} (hc : v.cmds = (s.tenant t).cmds) (hr : v.replies = (s.tenant t).replies)
    (hm : v.measure = (s.tenant t).measure) : s.SameCmds (s.setTenant t v) := by
  have hfield {α : Type} (f : Tenant → α) (hf : f v = f (s.tenant t)) (n : Nat) : f ((s.setTenant t v).tenant n) = f (s.tenant n) := by
    rw [State.setTenant_tenant]
    split
    · rename_i h
      rw [hf, h]
    · rfl
  exact ⟨hfield (·.cmds) hc, hfield (·.replies) hr, hfield (·.measure) hm⟩

theorem event (s : State) (t : Nat) (code : BitVec 16) (kind : Nat) (x y : BitVec 16) (src : Nat) (detail : Word) :
    s.SameCmds (s.event t code kind x y src detail) := by
  unfold State.event
  simp only []
  split
  · exact refl s
  · split
    · exact setTenant s rfl rfl rfl
    · split
      · exact setTenant s rfl rfl rfl
      · refine trans (t := s.setTenant t { s.tenant t with lostEvents := (s.tenant t).lostEvents + 1 }) (setTenant s rfl rfl rfl) (of_tenants ?_)
        simp

end State.SameCmds

/-! Folds that leave the tenants -/

theorem foldl_tenants {β : Type} {f : State → β → State} (h : ∀ (s : State) (x : β), (f s x).tenants = s.tenants) (l : List β) (s : State) :
    (l.foldl f s).tenants = s.tenants := by
  induction l generalizing s with
  | nil => rfl
  | cons x l ih => exact (ih (f s x)).trans (h s x)

theorem State.ite_tenants {p : Prop} [Decidable p] {a b : State} {l : Map Tenant} (ha : a.tenants = l) (hb : b.tenants = l) :
    (if p then a else b).tenants = l := by
  split
  · exact ha
  · exact hb

section
variable (s : State)

@[simp] theorem State.setReset_tenants (r : Nat) : (s.setReset r).tenants = s.tenants := by
  unfold State.setReset
  simp only []
  split
  · rfl
  · refine foldl_tenants (fun t i => ?_) _ _
    unfold State.showPin
    split <;> rfl

@[simp] theorem State.unready_tenants (r : Nat) : (s.unready r).tenants = s.tenants := by
  unfold State.unready
  refine foldl_tenants (fun t e => ?_) _ _
  simp only []
  split <;> simp

@[simp] theorem State.clearMemory_tenants (r : Nat) : (s.clearMemory r).tenants = s.tenants := s.setReset_tenants r

@[simp] theorem State.regionLoads_tenants (loader r : Nat) : (s.regionLoads loader r).tenants = s.tenants := by
  unfold State.regionLoads
  exact State.ite_tenants (by simp) (by simp)

@[simp] theorem State.setStm_tenants (p : Pusher) (x : Stream) : (s.setStm p x).tenants = s.tenants := by simp [State.setStm]

@[simp] theorem State.showOpen_tenants (p : Pusher) (v : Bool) : (s.showOpen p v).tenants = s.tenants := by simp [State.showOpen]

@[simp] theorem State.closeStm_tenants (p : Pusher) : (s.closeStm p).tenants = s.tenants := by simp [State.closeStm]

@[simp] theorem State.takeWords_tenants (p : Pusher) (ws : List Word) : (s.takeWords p ws).tenants = s.tenants := by simp [State.takeWords]

@[simp] theorem State.setBuf_tenants (p : Pusher) (l : List Word) : (s.setBuf p l).tenants = s.tenants := by
  unfold State.setBuf State.showRdy
  exact State.ite_tenants (by simp) (by simp)

@[simp] theorem State.addReady_tenants (p : Pusher) (l : List (BitVec 24)) : (s.addReady p l).tenants = s.tenants := by simp [State.addReady]

@[simp] theorem State.setBoot_tenants (b : Nat) : (s.setBoot b).tenants = s.tenants := by simp [State.setBoot]

@[simp] theorem State.setReady_tenants (b : Nat) (v : Bool) : (s.setReady b v).tenants = s.tenants := by
  unfold State.setReady
  exact State.ite_tenants rfl (by simp)

@[simp] theorem State.gather_tenants : s.gather.tenants = s.tenants := by
  unfold State.gather
  simp only [State.addReady_tenants]
  exact foldl_tenants (fun t e => by simp) _ _

@[simp] theorem State.putFrame_tenants (r f : Nat) (ws : List Word) : (s.putFrame r f ws).tenants = s.tenants := by
  unfold State.putFrame
  exact State.ite_tenants rfl rfl

@[simp] theorem State.setForTenant_tenants (e : Nat) (v : Bool) : (s.setForTenant e v).tenants = s.tenants := by simp [State.setForTenant]

@[simp] theorem State.logClamp_tenants (e : Nat) (r : BitVec 24) (idx : Nat) (c : Nat × Nat) : (s.logClamp e r idx c).tenants = s.tenants := by
  unfold State.logClamp
  have hlog (c : Prop) [Decidable c] (a b : Hal) (m : Word) (s1 : State) (h : s1.tenants = s.tenants) :
      (if c then (s1.setHal e a).raiseIrq (halPage e) m else s1.setHal e b).tenants = s.tenants := State.ite_tenants (by simp [h]) (by simp [h])
  refine State.ite_tenants ?_ ?_
  · simp [hlog]
  · simp [hlog]

@[simp] theorem State.foreignFrame_tenants (p : Pusher) (r : BitVec 24) (idx : Nat) : (s.foreignFrame p r idx).tenants = s.tenants := by
  unfold State.foreignFrame
  simp only [State.setStm_tenants]
  split <;> simp

theorem State.passFirmware_tenants (p : Pusher) (x : Stream) : (s.passFirmware p x).tenants = s.tenants := by
  unfold State.passFirmware
  exact State.ite_tenants (by simp) (by simp)

theorem State.passStatic_tenants (p : Pusher) (x : Stream) : (s.passStatic p x).tenants = s.tenants := by
  unfold State.passStatic
  exact State.ite_tenants (by simp) (by simp)

theorem State.passShell_tenants (p : Pusher) (x : Stream) : (s.passShell p x).tenants = s.tenants := by
  unfold State.passShell
  exact State.ite_tenants (by simp) (by simp)

/-- A stream that passes tells no tenant. -/
theorem State.passes_tenants (p : Pusher) : (s.passes p).tenants = s.tenants := by
  have hclosed : ((s.closeStm p).setReg (resKey p) 1).tenants = s.tenants := by simp
  unfold State.passes
  simp only []
  split
  · exact (State.addReady_tenants ..).trans hclosed
  · exact (State.passFirmware_tenants ..).trans hclosed
  · exact (State.passStatic_tenants ..).trans hclosed
  · exact (State.passShell_tenants ..).trans hclosed

end

namespace State.SameCmds

theorem ite {s a b : State} {p : Prop} [Decidable p] (ha : s.SameCmds a) (hb : s.SameCmds b) : s.SameCmds (if p then a else b) := by
  split
  · exact ha
  · exact hb

section
variable (s : State) (p : Pusher)

theorem regionFails (code : BitVec 16) (r : Nat) : s.SameCmds (s.regionFails code r) := by
  unfold State.regionFails
  refine ite (trans (of_tenants ?_) (event ..)) (of_tenants ?_)
  · simp
  · simp

/-- The regions of a rejected stream fail, and their owners are told. -/
theorem reject (code : BitVec 16) (reason : Nat) : s.SameCmds (s.reject p code reason) := by
  unfold State.reject
  have hfail := foldl (f := fun (t : State) (r : BitVec 24) => t.regionFails code r.toNat) (fun t r => regionFails t code r.toNat) (s.stm p).effective s
  exact ite (hfail.then_tenants (by simp)) (hfail.then_tenants (by simp))

theorem syncWords (hdr len svn : Word) : s.SameCmds (s.syncWords p hdr len svn) := by
  unfold State.syncWords
  simp only []
  have hold : s.SameCmds (if (s.stm p).opened && !(s.stm p).rejected then s.reject p Code.cfgTruncated 0 else s) := ite (reject ..) (refl s)
  generalize (if (s.stm p).opened && !(s.stm p).rejected then s.reject p Code.cfgTruncated 0 else s) = s0 at hold ⊢
  split
  · refine trans ?_ (reject ..)
    exact ite (hold.then_tenants (by simp)) (hold.then_tenants (by simp))
  · exact ite (hold.then_tenants (by simp)) (hold.then_tenants (by simp))

theorem beginWeave : s.SameCmds (s.beginWeave p) := by
  unfold State.beginWeave
  refine ite (refl s) (ite (reject ..) (of_tenants ?_))
  exact (State.setStm_tenants ..).trans (foldl_tenants (fun t r => by simp) _ _)

theorem privSet (r : BitVec 24) : s.SameCmds (s.privSet p r) := by
  unfold State.privSet
  exact ite (reject ..) (of_tenants (by simp))

theorem clampFrame (r : BitVec 24) (idx : Nat) (ws : List Word) : s.SameCmds (s.clampFrame p r idx ws) := by
  unfold State.clampFrame
  simp only []
  split
  · exact refl s
  · exact ite ((of_tenants (State.logClamp_tenants ..)).trans (reject ..)) (of_tenants (foldl_tenants (fun t c => by simp) _ _))

theorem frameTo (idx : Nat) (ws : List Word) (r : BitVec 24) : s.SameCmds (State.frameTo p idx ws s r) := by
  unfold State.frameTo
  exact ite (refl s) (ite (of_tenants (by simp)) ((clampFrame ..).trans (of_tenants (State.putFrame_tenants ..))))

theorem frameAll (idx : Nat) (ws : List Word) : s.SameCmds (s.frameAll p idx ws) := by
  unfold State.frameAll
  exact ite (refl s) (foldl (fun t r => frameTo t p idx ws r) _ _)

theorem writeCmd (idx : Nat) (ws : List Word) : s.SameCmds (s.writeCmd p idx ws) := by
  unfold State.writeCmd
  exact ite (refl s) ((of_tenants (State.setStm_tenants ..)).trans (frameAll ..))

theorem repeatCmd (n : Nat) : s.SameCmds (s.repeatCmd p n) := by
  unfold State.repeatCmd
  exact (foldl (fun t i => frameAll t p _ _) _ _).trans (of_tenants (State.setStm_tenants ..))

theorem crcValue (value : Word) : s.SameCmds (s.crcValue p value) := by
  unfold State.crcValue
  exact ite (of_tenants (by simp)) ((of_tenants (State.takeWords_tenants ..)).trans (reject ..))

theorem startCmd : s.SameCmds (s.startCmd p) := by
  unfold State.startCmd
  exact ite ((reject ..).trans (of_tenants (State.closeStm_tenants ..))) (ite (of_tenants (by simp)) (of_tenants (s.passes_tenants p)))

theorem streamEffect (op : Nat) (arg : BitVec 24) (rest : List Word) : s.SameCmds (s.streamEffect p op arg rest) := by
  have hset (x : Stream) : s.SameCmds (s.setStm p x) := of_tenants (State.setStm_tenants ..)
  unfold State.streamEffect
  simp only []
  split
  case h_3 => exact ite (hset _) (privSet ..)
  case h_7 => exact writeCmd ..
  case h_8 => exact repeatCmd ..
  case h_9 => exact crcValue ..
  case h_11 => exact startCmd ..
  case h_12 => exact refl s
  all_goals exact hset _

theorem streamCmd (op : Nat) (arg : BitVec 24) (rest : List Word) : s.SameCmds (s.streamCmd p op arg rest).1 := by
  have htake (t : State) (ws : List Word) : t.SameCmds (t.takeWords p ws) := of_tenants (State.takeWords_tenants ..)
  unfold State.streamCmd
  simp only []
  split
  · exact ite ((htake ..).trans (of_tenants (State.closeStm_tenants ..))) (htake ..)
  · split
    · exact (htake ..).trans (reject ..)
    · have hbegin : s.SameCmds (if op = 7 then s.beginWeave p else s) := ite (beginWeave ..) (refl s)
      generalize (if op = 7 then s.beginWeave p else s) = s1 at hbegin ⊢
      split
      · exact hbegin
      · exact (hbegin.trans (htake ..)).trans (streamEffect ..)

end

/-- A run of the words at a port. -/
theorem feed (fuel : Nat) (s : State) (p : Pusher) (l : List Word) : s.SameCmds (State.feed fuel s p l).1 := by
  induction fuel generalizing s l with
  | zero => exact refl s
  | succ fuel ih =>
    unfold State.feed
    simp only []
    split
    · exact refl s
    · split
      · exact refl s
      · split
        · split
          · exact refl s
          · exact (syncWords ..).trans (ih ..)
        · split
          · exact ih ..
          · split
            · exact refl s
            · split
              · exact (streamCmd ..).trans (ih ..)
              · exact streamCmd ..

theorem pushWords (s : State) (p : Pusher) (ws : List Word) : s.SameCmds (s.pushWords p ws) := by
  unfold State.pushWords
  exact ite (refl s) ((feed ..).trans (of_tenants (State.setBuf_tenants ..)))

end State.SameCmds
end Sys2Proof.Machine
end

section
/-! PROOFS. What the reads of LPDDR leave of the commands and of the lines (12 R383 to R389). -/
namespace Sys2Proof.Machine

/-! Reads of LPDDR: what they leave of the tenants' commands and of the lines (12 R383 to R389) -/

section
variable (s : State) (pa : Nat)

@[simp] theorem State.activate_tenants : (s.activate pa).tenants = s.tenants := by
  have h (p : Prop) [Decidable p] (a b : Nat) : (if p then (s.draw.2.incWrap a).incSat b else s.draw.2).tenants = s.tenants :=
    State.ite_tenants (by simp [State.draw]) rfl
  unfold State.activate
  exact State.ite_tenants rfl (State.ite_tenants rfl (h ..))

@[simp] theorem State.served_tenants (port : Nat) : (s.served pa port).tenants = s.tenants := by
  have h : (s.draw.2.activate pa).tenants = s.tenants := s.draw.2.activate_tenants pa
  unfold State.served
  exact State.ite_tenants (by simp) h

@[simp] theorem State.metWrite_tenants : (s.metWrite pa).tenants = s.tenants := by
  unfold State.metWrite
  exact State.ite_tenants (by simp [State.draw]) rfl

end

theorem State.event_lpddr (s : State) (t : Nat) (code : BitVec 16) (kind : Nat) (x y : BitVec 16) (src : Nat) (detail : Word) :
    (s.event t code kind x y src detail).lpddr = s.lpddr := by
  unfold State.event
  simp only []
  split
  · rfl
  · split
    · simp
    · split <;> simp

theorem State.uncNoted_keeps (s : State) (p : Nat) (a b : Word) : (s.uncNoted p a b).tenants = s.tenants ∧ (s.uncNoted p a b).lpddr = s.lpddr := by
  unfold State.uncNoted
  simp only []
  split <;> simp

/-- An uncorrectable line is told to a tenant, and stays as it is. -/
theorem State.lpdUnc_keeps (s : State) (pa : Nat) (stored : Bool) : s.SameCmds (s.lpdUnc pa stored) ∧ (s.lpdUnc pa stored).lpddr = s.lpddr := by
  obtain ⟨a, b, h | ⟨t, w, h⟩⟩ := s.lpdUnc_cases pa stored
  · obtain ⟨ht, hl⟩ := s.uncNoted_keeps (lpdPage (chanCo pa).1) a b
    rw [h]
    exact ⟨.of_tenants ht, hl⟩
  · obtain ⟨ht, hl⟩ := s.uncNoted_keeps (lpdPage (chanCo pa).1) a b
    rw [h]
    exact ⟨(State.SameCmds.of_tenants ht).trans (.event ..), (State.event_lpddr ..).trans hl⟩

/-- What happens before a read looks at its line leaves the tenants and the lines. -/
theorem State.met_keeps (s : State) (port pa k : Nat) :
    (((s.served pa port).metWrite pa).incWrap k).tenants = s.tenants ∧ s.sameLines (((s.served pa port).metWrite pa).incWrap k) :=
  ⟨by simp, State.sameLines_trans (State.sameLines_trans (s.served_sameLines pa port) (State.metWrite_sameLines _ _)) (State.incWrap_sameLines _ _ _)⟩

/-- Where a read of a line ends: with counters changed, or with an uncorrectable line told besides. -/
theorem State.readLine_cases {P : State → Prop} (s : State) (port pa : Nat) (e : LineEcc)
    (h : ∀ u : State, u.tenants = s.tenants → u.lpddr = s.lpddr → P u ∧ ∀ b, P (u.lpdUnc pa b)) : P (s.readLine port pa e).1 := by
  obtain ⟨ht, hl, -⟩ := s.met_keeps port pa (lpdPage (chanCo pa).1 + 0xA4)
  unfold State.readLine
  simp only []
  generalize ((s.served pa port).metWrite pa).incWrap (lpdPage (chanCo pa).1 + 0xA4) = s0 at ht hl ⊢
  obtain ⟨h0, hunc⟩ := h s0 ht hl
  obtain ⟨h1, hunc1⟩ := h { s0 with freeCtr := s0.freeCtr + 65 } ht hl
  generalize ({ s0 with freeCtr := s0.freeCtr + 65 } : State) = s1 at h1 hunc1 ⊢
  split
  · split
    · exact hunc1 false
    · exact h1
  · split
    · exact hunc true
    · cases e with
      | clean => exact h0
      | corrected => exact (h (s0.incSat (lpdPage (chanCo pa).1 + 0x80)) (by simp [ht]) (by simp [hl])).1
      | uncorrectable => exact hunc false

/-- A read of a line tells tenants of errors, and changes no line. -/
theorem State.readLine_keeps (s : State) (port pa : Nat) (e : LineEcc) : s.SameCmds (s.readLine port pa e).1 ∧ (s.readLine port pa e).1.lpddr = s.lpddr := by
  refine State.readLine_cases (P := fun u => s.SameCmds u ∧ u.lpddr = s.lpddr) s port pa e fun u ht hl => ⟨⟨.of_tenants ht, hl⟩, fun b => ?_⟩
  obtain ⟨hu, hul⟩ := u.lpdUnc_keeps pa b
  exact ⟨(State.SameCmds.of_tenants ht).trans hu, hul.trans hl⟩

end Sys2Proof.Machine
end

section
/-! PROOFS. The start and the end of a host command; CLEAR_REGION and CTRL_READ (14 R446 to R448). -/
namespace Sys2Proof.Machine

/-! A host command's start and its end (14 R446 to R448) -/

section
variable {s v : State} {t op : Nat} {c : QCmd} {st : BitVec 16} {data : List Byte} {bad : List Byte → Bool} {f : State → QCmd → State}

/-- A command's answer changes its tenant alone. -/
@[simp] theorem State.finish_keeps (s : State) (t : Nat) (c : QCmd) (st : BitVec 16) (data : List Byte) :
    (s.finish t c st data).cores = s.cores ∧ (s.finish t c st data).lpddr = s.lpddr ∧ (s.finish t c st data).regions = s.regions := by
  simp [State.finish]

@[simp] theorem State.finish_core (s : State) (t : Nat) (c : QCmd) (st : BitVec 16) (data : List Byte) (n : Nat) :
    (s.finish t c st data).core n = s.core n := by
  rw [State.core, (s.finish_keeps t c st data).1, State.core]

/-- An answered command leaves the tenant's queue, and its reply waits. -/
theorem State.SameCmds.finish (h : s.SameCmds v) (t : Nat) (c : QCmd) (st : BitVec 16) (data : List Byte) :
    ((v.finish t c st data).tenant t).cmds = (s.tenant t).cmds.erase c ∧
    ((v.finish t c st data).tenant t).replies = (s.tenant t).replies ++ [⟨c.sess, c.seq, c.id, c.op, st, data⟩] := by
  rw [State.finish, State.setTenant_tenant_same, ← h.cmds, ← h.replies]
  exact ⟨rfl, rfl⟩

theorem State.runCmd_of_next (h : s.nextIs t c op) (hop : op < 2 ^ 16) :
    s.runCmd t op bad f = if bad c.args then s.finish t c Code.ucpMalformed [] else f s c := by
  obtain ⟨-, hnext, hcode, hknown⟩ := h
  have hcode : c.op.toNat = op := by rw [hcode, BitVec.toNat_ofNat, Nat.mod_eq_of_lt hop]
  rw [State.runCmd, hnext]
  exact if_pos ⟨hcode, hknown⟩

/-- The next command runs, if its arguments are well-formed. -/
theorem exec_of_next {i : Instr} (hi : exec i s = .next (s.whenUp fun s => s.runCmd t op bad f)) (h : s.nextIs t c op) (hop : op < 2 ^ 16)
    (hb : bad c.args = false) : exec i s = .next (f s c) := by
  rw [hi, State.whenUp_of_up h.1, State.runCmd_of_next h hop, hb]
  rfl

/-- One with malformed arguments is answered UCP_MALFORMED. -/
theorem exec_of_malformed {i : Instr} (hi : exec i s = .next (s.whenUp fun s => s.runCmd t op bad f)) (h : s.nextIs t c op) (hop : op < 2 ^ 16)
    (hb : bad c.args = true) : exec i s = .next (s.finish t c 0x5005 []) := by
  rw [hi, State.whenUp_of_up h.1, State.runCmd_of_next h hop, hb]
  rfl

end

section
variable {s : State} {x y : Nat} {t8 : BitVec 8} {f : State → Nat → State × BitVec 16}

theorem State.atCore_foreign {t : Nat} (h : (s.tenant t).owns x y = false) : s.atCore t x y f = (s, Code.netPartition) := by
  rw [State.atCore, if_pos h]

theorem State.atCore_reached (h : (s.tenant t8.toNat).owns x y = true ∧ tenantOk (s.niTenant (s.physOf x y)) t8 = true ∧ s.markOf (s.physOf x y) ≠ .removed) :
    s.atCore t8.toNat x y f = f s (s.physOf x y) := by
  obtain ⟨howns, htenant, hmark⟩ := h
  simp only [State.atCore, howns, Bool.true_eq_false, if_false, BitVec.ofNat_toNat, BitVec.setWidth_eq, htenant, Bool.not_true, Bool.false_eq_true, if_neg hmark]

end

/-! CLEAR_REGION and CTRL_READ -/

section
variable {s : State} {t8 : BitVec 8} {c : QCmd}

/-- CLEAR_REGION of one of the tenant's edge regions. -/
theorem State.clearRegion_edge {t : Nat} {r : Fin 4 × Fin 16} (he : beFld c.args 0 1 = 1) (hr : r ∈ (s.tenant t).res.regions)
    (hx : r.1.val * 16 + r.2.val = beFld c.args 2 2) :
    s.clearRegion t c = (s.shrClear (edgeRegion r.1.val r.2.val) (0x100 + 0x20 * r.2.val)).finish t c 0 [] := by
  have hany : (s.tenant t).res.regions.any (fun r => decide (r.1.val * 16 + r.2.val = beFld c.args 2 2)) = true :=
    List.any_eq_true.2 ⟨r, hr, decide_eq_true hx⟩
  have hdiv : beFld c.args 2 2 / 16 = r.1.val := by omega
  have hmod : beFld c.args 2 2 % 16 = r.2.val := by omega
  simp only [State.clearRegion, he, Nat.one_ne_zero, if_false, hany, if_true, hdiv, hmod]


theorem exec_clearRegion (h : s.nextIs t8.toNat c 0x21) (hl : c.args.length = 8) (h0 : beFld c.args 0 1 ≤ 1) (h1 : beFld c.args 1 1 = 0)
    (h6 : beFld c.args 6 2 = 0) :
    let tn := s.tenant t8.toNat
    let x := beFld c.args 2 2
    let y := beFld c.args 4 2
    let k := s.physOf x y
    (beFld c.args 0 1 = 0 → tn.owns x y = false → exec (.clearRegion t8) s = .next (s.finish t8.toNat c 0x3002 [])) ∧
    (beFld c.args 0 1 = 0 → tn.owns x y = true → tenantOk (s.niTenant k) t8 = true → s.markOf k ≠ .removed →
      exec (.clearRegion t8) s = .next ((s.shrClear (collarRegion k) 0x40).finish t8.toNat c 0 [])) ∧
    (beFld c.args 0 1 = 1 → (∀ r ∈ tn.res.regions, r.1.val * 16 + r.2.val ≠ x) → exec (.clearRegion t8) s = .next (s.finish t8.toNat c 0x5007 [])) ∧
    (beFld c.args 0 1 = 1 → ∀ r ∈ tn.res.regions, r.1.val * 16 + r.2.val = x →
      exec (.clearRegion t8) s = .next ((s.shrClear (edgeRegion r.1.val r.2.val) (0x100 + 0x20 * r.2.val)).finish t8.toNat c 0 [])) := by
  have runs : exec (.clearRegion t8) s = .next (s.clearRegion t8.toNat c) :=
    exec_of_next (i := .clearRegion t8) rfl h (by decide) (by simp [hl, h0, h1, h6])
  intro tn x y k
  refine ⟨fun hc ho => ?_, fun hc ho ht hm => ?_, fun he hr => ?_, fun he r hr hx => ?_⟩ <;> rw [runs]
  · have foreign (f : State → Nat → State × BitVec 16) : s.atCore t8.toNat (beFld c.args 2 2) (beFld c.args 4 2) f = (s, Code.netPartition) :=
      State.atCore_foreign ho
    simp only [State.clearRegion, hc, if_true, foreign, Code.netPartition]
  · simp only [State.clearRegion, hc, if_true, State.atCore_reached ⟨ho, ht, hm⟩, k, x, y]
  · have hany : tn.res.regions.any (fun r => decide (r.1.val * 16 + r.2.val = x)) = false := by simpa using hr
    simp only [State.clearRegion, he, Nat.one_ne_zero, if_false, tn, x] at hany ⊢
    simp only [hany, Bool.false_eq_true, if_false, Code.ucpResource]
  · rw [State.clearRegion_edge he hr hx]

/-- A CTRL_READ of COL_RDATA asks the collar, and runs on. -/
theorem State.ctrlRead_waits {t : Nat} {who : ColRead} {n : Nat} (hs : s.shrouded n = false) :
    let u := (s.started_ t c c.args).colRead n who
    (u.core n).colReads = (s.core n).colReads ++ [who] ∧
      (u.tenant t).cmds = (s.tenant t).cmds.map (fun d => if d = c then { c with started := true } else d) ∧ (u.tenant t).replies = (s.tenant t).replies := by
  have hs' : (s.started_ t c c.args).shrouded n = false := hs
  have hc : (s.started_ t c c.args).core n = s.core n := rfl
  have ht : (s.started_ t c c.args).tenant t =
      { s.tenant t with cmds := (s.tenant t).cmds.map (fun d => if d = c then { c with started := true } else d) } := State.setTenant_tenant_same ..
  have htenants (m : Msg) : (((s.started_ t c c.args).modCore n (fun c => { c with colReads := c.colReads ++ [who] })).send m).tenant t =
      (s.started_ t c c.args).tenant t := rfl
  intro u
  simp only [u, State.colRead, hs', Bool.false_eq_true, if_false, htenants, ht, and_true]
  simp only [State.core, State.send_keeps]
  rw [← State.core, State.core_modCore_same, hc]
  rfl

theorem exec_ctrlRead (h : s.nextIs t8.toNat c 0x14) (hl : c.args.length = 8) :
    let tn := s.tenant t8.toNat
    let x := beFld c.args 0 2
    let y := beFld c.args 2 2
    let n := s.physOf x y
    let k := corePage n (beFld c.args 4 1) + beFld c.args 6 2
    let reach : Prop := tn.owns x y = true ∧ tenantOk (s.niTenant n) t8 = true ∧ s.markOf n ≠ .removed
    (x ≤ 383 ∧ y ≤ 127 ∧ beFld c.args 4 1 ≤ 9 ∧ beFld c.args 5 1 = 0 ∧ beFld c.args 6 2 % 4 = 0 ∧ beFld c.args 6 2 ≤ 0xFFF) →
      (tn.owns x y = false → exec (.ctrlRead t8) s = .next (s.finish t8.toNat c 0x3002 [])) ∧
      (reach → s.mayRead (.runtime t8) k = false → exec (.ctrlRead t8) s = .next (s.finish t8.toNat c 0x3002 [])) ∧
      (reach → s.mayRead (.runtime t8) k = true → coversRdata k false = false →
        exec (.ctrlRead t8) s = .next ((s.readReg k).1.finish t8.toNat c 0 (beBytes 4 (s.readReg k).2.toNat))) ∧
      (reach → s.mayRead (.runtime t8) k = true → coversRdata k false = true → s.mayWrite (.runtime t8) k = true → s.shrouded n = false →
        ∃ u, exec (.ctrlRead t8) s = .next u ∧ (u.core n).colReads = (s.core n).colReads ++ [.cmd t8] ∧
          (u.tenant t8.toNat).cmds = tn.cmds.map (fun d => if d = c then { c with started := true } else d) ∧ (u.tenant t8.toNat).replies = tn.replies) := by
  intro tn x y n k reach hb
  obtain ⟨hx, hy, h4, h5, h6, hk⟩ := hb
  have runs : exec (.ctrlRead t8) s = .next (s.ctrlRead t8.toNat c) := by
    refine exec_of_next (i := .ctrlRead t8) rfl h (by decide) ?_
    simp only [x, y] at hx hy
    simp only [ctrlReadBad, hl, h5, h6, ne_eq, not_true, decide_false, Bool.false_or, Bool.or_eq_false_iff, decide_eq_false_iff_not, Nat.not_lt]
    exact ⟨⟨⟨⟨⟨hx, hy⟩, h4⟩, trivial⟩, trivial⟩, hk⟩
  have reached (hr : reach) (f : State → Nat → State × BitVec 16) : s.atCore t8.toNat (beFld c.args 0 2) (beFld c.args 2 2) f = f s n :=
    State.atCore_reached hr
  have ok : ¬ ((0 : BitVec 16) ≠ 0) := by decide
  refine ⟨fun ho => ?_, fun hr hm => ?_, fun hr hm hd => ?_, fun hr hm hd hw hs => ?_⟩ <;> rw [runs]
  · have foreign (f : State → Nat → State × BitVec 16) : s.atCore t8.toNat (beFld c.args 0 2) (beFld c.args 2 2) f = (s, Code.netPartition) :=
      State.atCore_foreign ho
    simp only [State.ctrlRead, foreign]
    rfl
  · simp only [k, n, x, y] at hm
    simp only [State.ctrlRead, reached hr, BitVec.ofNat_toNat, BitVec.setWidth_eq, hm]
    rfl
  · simp only [k, n, x, y] at hm hd ⊢
    simp only [State.ctrlRead, reached hr, BitVec.ofNat_toNat, BitVec.setWidth_eq, hm, if_true, if_neg ok, hd, Bool.false_eq_true, if_false]
  · simp only [k, n, x, y] at hm hd hw
    refine ⟨(s.started_ t8.toNat c c.args).colRead n (.cmd t8), ?_, State.ctrlRead_waits hs⟩
    simp only [State.ctrlRead, reached hr, BitVec.ofNat_toNat, BitVec.setWidth_eq, hm, if_true, if_neg ok, hd, hw, n, x, y]

end
end Sys2Proof.Machine
end

section
/-! PROOFS. Reads of a tenant's window for the host (07 R257; 14 R448). -/
namespace Sys2Proof.Machine

/-! Reads of a tenant's window for the host (07 R257; 14 R448) -/

theorem State.storeLine_tenants (s : State) (pa : Nat) (d : List Byte) (b : Bool) : (s.storeLine pa d b).tenants = s.tenants := rfl
theorem State.setDir_tenants (s : State) (l : Nat) (d : DirEntry) : (s.setDir l d).tenants = s.tenants := rfl

/-- What one line buffer gives up for an engine's access changes no tenant. -/
theorem State.gives_up_tenants (u : State) (p : Prop) [Decidable p] (a k k' n : Nat) (d : List Byte) (b : Bool) (f : Core → Core) :
    (((if p then (u.storeLine a d b).incWrap k else u).modCore n f).incWrap k').tenants = u.tenants := by
  have stored : (if p then (u.storeLine a d b).incWrap k else u).tenants = u.tenants :=
    State.ite_tenants (by simp [State.storeLine_tenants]) rfl
  simp [stored]

/-- A snoop of the line buffers changes no tenant. -/
@[simp] theorem State.recall_tenants (s : State) (pl : Nat) (keep : Bool) : (s.recall pl keep).tenants = s.tenants := by
  unfold State.recall
  rw [State.setDir_tenants]
  refine foldl_tenants (fun u p => ?_) s.cores s
  split
  · rfl
  · split
    · rfl
    · exact State.gives_up_tenants ..

section
variable {s : State} {pl : Nat} {keep : Bool}

/-- Where no line buffer holds a line, the directory alone changes. -/
theorem State.recall_unheld (h : ∀ j line, (s.core j).rlbFind line = none) : s.sameLines (s.recall pl keep) := by
  unfold State.recall
  rw [List.foldl_fixed' fun p => ?_]
  · exact ⟨rfl, rfl, rfl, fun _ => rfl⟩
  · cases s.windowLine p.1 pl with
    | none => rfl
    | some line => simp only [h]

end

/-- A read of a line that is poisoned finds an error. -/
theorem State.readLine_poisoned {s : State} {pa : Nat} (port : Nat) (e : LineEcc) (hl : s.lineLost pa = false)
    (hp : Sparse.get (fun _ => false) s.lpoison (pa / 64) = true) : (s.readLine port pa e).2.2 = true := by
  obtain ⟨-, h⟩ := s.met_keeps port pa (lpdPage (chanCo pa).1 + 0xA4)
  unfold State.readLine
  simp only [State.sameLines_lost h, h.2.1, hl, hp]
  rfl

theorem foldl_sameCmds {β γ : Type} {f : State × β → γ → State × β} (h : ∀ (r : State × β) (x : γ), ∃ u b, f r x = (u, b) ∧ r.1.SameCmds u)
    (l : List γ) (r : State × β) : r.1.SameCmds (l.foldl f r).1 := by
  induction l generalizing r with
  | nil => exact .refl r.1
  | cons x l ih =>
    obtain ⟨u, b, hf, hu⟩ := h r x
    rw [List.foldl_cons, hf]
    exact hu.trans (ih (u, b))

/-- What one line adds to a read of a window: the state after it, its bytes, and whether an error has been found. -/
def windowStep (r : State × List Byte × Bool) (l : Nat) : State × List Byte × Bool :=
  let x := (r.1.recall l true).readLine 2 (l * 64) .clean
  (x.1, r.2.1 ++ x.2.1, r.2.2 || x.2.2)

section
variable {s : State} {t o len l : Nat}

/-- What a read of a window answers, from what its lines answer. -/
theorem State.readWindow_eq {ls : List Nat} {r : State × List Byte × Bool} (h : ls.foldl windowStep (s, [], false) = r) :
    s.readWindow o len ls = (r.1, if r.2.2 then (0x4001, []) else (0, bytesAt r.2.1 (o % 64) len)) := by
  unfold windowStep at h
  unfold State.readWindow
  rw [h]
  obtain ⟨u, m, b⟩ := r
  cases b <;> rfl

/-- A read of a window leaves the commands. -/
theorem State.SameCmds.readWindow (s : State) (o len : Nat) (ls : List Nat) : s.SameCmds (s.readWindow o len ls).1 := by
  rw [State.readWindow_eq rfl]
  refine foldl_sameCmds (fun r l => ?_) ls (s, [], false)
  exact ⟨_, _, rfl, (State.SameCmds.of_tenants (r.1.recall_tenants l true)).trans ((r.1.recall l true).readLine_keeps 2 (l * 64) .clean).1⟩

/-- A read of one line of a window. -/
theorem State.readWindow_line {x : State × List Byte × Bool} (h : (s.recall l true).readLine 2 (l * 64) .clean = x) :
    s.readWindow o len [l] = (x.1, if x.2.2 then (0x4001, []) else (0, bytesAt x.2.1 (o % 64) len)) := by
  have step : [l].foldl windowStep (s, [], false) = (x.1, x.2.1, x.2.2) := by
    rw [List.foldl_cons, List.foldl_nil, windowStep]
    simp only [h, List.nil_append, Bool.false_or]
  exact State.readWindow_eq step

theorem State.atLines_sameCmds {w : State × BitVec 16 × List Byte}
    (h : s.atLines t o len (fun s ls => s.readWindow o len ls) = some w) : s.SameCmds w.1 := by
  unfold State.atLines at h
  cases hl : s.windowLines t o len with
  | error code =>
    simp only [hl, Option.some.injEq] at h
    exact h ▸ .refl s
  | ok ls =>
    simp only [hl] at h
    split at h
    · exact Option.some.inj h ▸ .refl s
    · split at h
      · nomatch h
      · exact Option.some.inj h ▸ .readWindow s o len ls

/-- One line on a channel that serves, with no transaction on it, is read at once. -/
theorem State.atLines_line {f : State → List Nat → State × BitVec 16 × List Byte} (h : s.windowLines t o len = .ok [l])
    (hc : (s.chan (chanCo (l * 64)).1).st = .active) (hd : (s.dirAt l).txn = none) : s.atLines t o len f = some (f s [l]) := by
  rw [State.atLines, h]
  simp [State.chanOffline, State.chanServes, hc, hd]

/-- As many lines as the range touches. -/
theorem State.windowLines_length {ls : List Nat} (h : s.windowLines t o len = .ok ls) : (linesOf o len).length = ls.length := by
  rw [State.windowLines] at h
  generalize linesOf o len = l at h
  induction l generalizing ls with
  | nil => cases h; rfl
  | cons x l ih =>
    rw [List.foldr_cons] at h
    split at h
    · rename_i hrest
      cases h
      rw [List.length_cons, List.length_cons, ih hrest]
    · nomatch h
    · nomatch h

theorem State.windowLines_one (h : s.windowLines t o len = .ok [l]) : o % 64 + len ≤ 64 := by
  have hlen := State.windowLines_length h
  rw [linesOf] at hlen
  split at hlen
  · omega
  · simp at hlen
    omega

/-- What a read of one line answers: its bytes, or that they are poisoned. -/
theorem State.readWindow_clean (h : s.windowLines t o len = .ok [l]) (hr : ∀ j line, (s.core j).rlbFind line = none) (hl : s.lineLost (l * 64) = false)
    (hp : Sparse.get (fun _ => false) s.lpoison l = false) : (s.readWindow o len [l]).2 = (0, Memory.readN s.lpddr (l * 64 + o % 64) len) := by
  have same := State.recall_unheld (pl := l) (keep := true) hr
  have poison : Sparse.get (fun _ => false) (s.recall l true).lpoison (l * 64 / 64) = false := by rw [same.2.1, Nat.mul_div_cancel l (by decide), hp]
  have read := State.readLine_fresh (s.recall l true) 2 (l * 64) .clean (by rw [State.sameLines_lost same, hl]) poison
  have fits := State.windowLines_one h
  have bytes := Memory.readN_drop_take s.lpddr (l * 64) (o % 64) len (64 - (o % 64 + len))
  rw [← Nat.add_assoc, Nat.add_sub_cancel' fits] at bytes
  rw [State.readWindow_line rfl, read, same.1]
  exact congrArg (Prod.mk 0) ((bytesAt_of_le (by rw [Memory.readN_length]; exact fits)).trans bytes)

theorem State.readWindow_unclean (hr : ∀ j line, (s.core j).rlbFind line = none) (hl : s.lineLost (l * 64) = false)
    (hp : Sparse.get (fun _ => false) s.lpoison l = true) : (s.readWindow o len [l]).2 = (0x4001, []) := by
  have same := State.recall_unheld (pl := l) (keep := true) hr
  have poison : Sparse.get (fun _ => false) (s.recall l true).lpoison (l * 64 / 64) = true := by rw [same.2.1, Nat.mul_div_cancel l (by decide), hp]
  have read := State.readLine_poisoned 2 .clean (by rw [State.sameLines_lost same, hl]) poison
  rw [State.readWindow_line rfl, read]
  rfl

/-- A read of one line changes no line. -/
theorem State.readWindow_lpddr (hr : ∀ j line, (s.core j).rlbFind line = none) : (s.readWindow o len [l]).1.lpddr = s.lpddr := by
  obtain ⟨-, kept⟩ := (s.recall l true).readLine_keeps 2 (l * 64) .clean
  obtain ⟨x, hx⟩ : ∃ x, (s.recall l true).readLine 2 (l * 64) .clean = x := ⟨_, rfl⟩
  have line := State.readWindow_line (o := o) (len := len) hx
  rw [hx] at kept
  rw [line]
  exact kept.trans (State.recall_unheld hr).1

end
end Sys2Proof.Machine
end

section
/-! PROOFS. READ_MEM (14 R448; 06 R191). -/
namespace Sys2Proof.Machine

/-! READ_MEM (14 R448; 06 R191) -/

section
variable {s : State} {t8 : BitVec 8} {c : QCmd}

/-- An access that wakes a scratchpad changes no tenant, and no byte of it. -/
theorem State.spadTouch_keeps (s : State) (n : Nat) : (s.spadTouch n).tenants = s.tenants ∧ ((s.spadTouch n).core n).spad = (s.core n).spad := by
  rw [State.spadTouch]
  split
  · refine ⟨by simp, ?_⟩
    simp only [State.core, State.incSat_keeps, State.raiseIrq_keeps, State.setReg_keeps]
    rw [← State.core, State.core_modCore_same]
    rfl
  · exact ⟨rfl, rfl⟩

theorem State.readMem_foreign {t a : Nat} (ha : a = beFld c.args 0 8) (hsp : spaceOf a = 0) (ho : (s.tenant t).owns (colOf a) (rowOf a) = false) :
    s.readMem t c.args = some (s, 0x3002, []) := by
  have foreign (f : State → Nat → State × BitVec 16) : s.atCore t (colOf a) (rowOf a) f = (s, Code.netPartition) := State.atCore_foreign ho
  simp only [State.readMem, ← ha, hsp, foreign]
  rfl

/-- What READ_MEM of a core's scratchpad does, where the tenant reaches the core: poison is an error. -/
theorem State.readMem_core {a : Nat} (ha : a = beFld c.args 0 8) (hsp : spaceOf a = 0)
    (hr : (s.tenant t8.toNat).owns (colOf a) (rowOf a) = true ∧ tenantOk (s.niTenant (s.physOf (colOf a) (rowOf a))) t8 = true ∧
      s.markOf (s.physOf (colOf a) (rowOf a)) ≠ .removed) (hfit : offOf a + beFld c.args 8 4 ≤ 2 ^ 20) :
    let n := s.physOf (colOf a) (rowOf a)
    s.readMem t8.toNat c.args = some (s.spadTouch n, if (s.core n).poisonedAt (offOf a) (beFld c.args 8 4) then (0x4001, [])
      else (0, Memory.readN (s.core n).spad (offOf a) (beFld c.args 8 4))) := by
  have reached (f : State → Nat → State × BitVec 16) : s.atCore t8.toNat (colOf a) (rowOf a) f = f s (s.physOf (colOf a) (rowOf a)) :=
    State.atCore_reached hr
  intro n
  simp only [State.readMem, ← ha, hsp, reached, if_neg (Nat.not_lt.2 hfit)]
  cases hp : (s.core (s.physOf (colOf a) (rowOf a))).poisonedAt (offOf a) (beFld c.args 8 4) with
  | true => simp only [n, if_true]; rfl
  | false => simp only [n, Bool.false_eq_true, if_false]; rfl

theorem State.readMem_window {t a : Nat} (ha : a = beFld c.args 0 8) (hsp : spaceOf a = 1) :
    s.readMem t c.args = s.atLines t (offOf a) (beFld c.args 8 4) (fun s ls => s.readWindow (offOf a) (beFld c.args 8 4) ls) := by
  simp only [State.readMem, ← ha, hsp]

theorem State.readMem_fram {t a : Nat} (ha : a = beFld c.args 0 8) (hsp : spaceOf a = 2) :
    let code := s.framCode t (edgeOf a) (offOf a) (beFld c.args 8 4)
    s.readMem t c.args = some (s, code, if code = 0 then Memory.readN s.fram (framKey (edgeOf a) (offOf a)) (beFld c.args 8 4) else []) := by
  simp only [State.readMem, ← ha, hsp]

/-- What a READ_MEM with well-formed arguments does. -/
theorem exec_readMem (h : s.nextIs t8.toNat c 0x12) (hl : c.args.length = 12) (ha : memAddrOk (beFld c.args 0 8) = true)
    (hlen : beFld c.args 8 4 ≤ 8192) (h8 : beFld c.args 8 4 % 8 = 0) (hroom : beFld c.args 8 4 ≤ s.replyRoom t8.toNat) {u : State} {st : BitVec 16}
    {data : List Byte} (hm : s.readMem t8.toNat c.args = some (u, st, data)) : exec (.readMem t8) s = .next (u.finish t8.toNat c st data) := by
  have runs := exec_of_next (i := .readMem t8) (s := s) rfl h (by decide) (by simp [hl, ha, hlen, h8, hroom])
  rw [runs, hm]

end

theorem hostReads : Claims.HostReads := by
  unfold Claims.HostReads
  intro s t8 c t tn l b reach ends
  refine ⟨fun h hl => ?_, fun h hl => exec_ctrlRead h hl⟩
  intro a len o k
  refine ⟨fun hb => exec_of_malformed (i := .readMem t8) rfl h (by decide) ?_, fun ha hlen h8 hroom => ?_⟩
  · simp only [a, len, b, l, t] at hb hl ⊢
    simpa [hl, ← or_assoc] using hb
  have runs {u : State} {st : BitVec 16} {data : List Byte} (hm : s.readMem t c.args = some (u, st, data)) :
      exec (.readMem t8) s = .next (u.finish t c st data) := exec_readMem h hl ha hlen h8 hroom hm
  have answers {u : State} {st : BitVec 16} {data : List Byte} (hu : s.SameCmds u) : ends (u.finish t c st data) st data := hu.finish t c st data
  have cores (hsp : spaceOf a = 0) (hr : reach (colOf a) (rowOf a)) (hfit : o + len ≤ 2 ^ 20) : s.readMem t c.args =
      some (s.spadTouch k, if (s.core k).poisonedAt o len then (0x4001, []) else (0, Memory.readN (s.core k).spad o len)) :=
    State.readMem_core rfl hsp hr hfit
  obtain ⟨touched, bytes⟩ := s.spadTouch_keeps k
  refine ⟨fun hsp ho => runs (State.readMem_foreign rfl hsp ho), fun hsp hr hfit hp => ?_, fun hsp hr hfit hp => ?_,
    fun hsp pl hw hact htxn hrlb hlost => ?_, fun hsp hf => runs ?_, fun hsp hf => runs ?_⟩
  · have read := cores hsp hr hfit
    rw [hp] at read
    exact ⟨_, runs read, answers (.of_tenants touched), by rw [State.finish_core, bytes]⟩
  · have read := cores hsp hr hfit
    rw [hp] at read
    exact ⟨_, runs read, answers (.of_tenants touched), by rw [State.finish_core, bytes]⟩
  · have read : s.readMem t c.args = some (s.readWindow o len [pl]) :=
      (State.readMem_window rfl hsp).trans (State.atLines_line hw hact htxn)
    have same : s.SameCmds (s.readWindow o len [pl]).1 := .readWindow s o len [pl]
    have lines : (s.readWindow o len [pl]).1.lpddr = s.lpddr := State.readWindow_lpddr hrlb
    have reply {st : BitVec 16} {data : List Byte} (hd : (s.readWindow o len [pl]).2 = (st, data)) :
        ∃ u, exec (.readMem t8) s = .next u ∧ ends u st data ∧ u.lpddr = s.lpddr := by
      generalize s.readWindow o len [pl] = w at read same lines hd
      obtain ⟨u, r⟩ := w
      obtain rfl : r = (st, data) := hd
      exact ⟨_, runs read, answers same, ((State.finish_keeps ..).2.1).trans lines⟩
    exact ⟨fun hp => reply (State.readWindow_clean hw hrlb hlost hp), fun hp => reply (State.readWindow_unclean hrlb hlost hp)⟩
  · rw [State.readMem_fram (t := t) rfl hsp, if_pos hf]
    exact congrArg some (congrArg (Prod.mk s) (congrArg (fun code => (code, _)) hf))
  · rw [State.readMem_fram (t := t) rfl hsp, if_neg hf]

end Sys2Proof.Machine
end

section
/-! PROOFS. LOAD_REGION, its end, and O41 (14 R447 to R450; 15 R472). -/
namespace Sys2Proof.Machine

/-! LOAD_REGION (14 R450; 15 R472) -/

section
variable {s v : State} {t8 : BitVec 8} {c : QCmd}

/-- A command that runs on is marked so in its tenant's queue, with what it keeps. -/
theorem State.SameCmds.started_ (h : s.SameCmds v) (t : Nat) (c : QCmd) (args : List Byte) :
    ((v.started_ t c args).tenant t).cmds = (s.tenant t).cmds.map (fun d => if d = c then { c with started := true, args := args } else d) ∧
    ((v.started_ t c args).tenant t).replies = (s.tenant t).replies ∧ ((v.started_ t c args).tenant t).measure = (s.tenant t).measure := by
  rw [State.started_, State.setTenant_tenant_same, ← h.cmds, ← h.replies, ← h.measure]
  exact ⟨rfl, rfl, rfl⟩

/-- A pushed image leaves its command running on, with the digest of the stream and the regions it declares. -/
theorem State.pushImage_runs_on (v : State) (t : Nat) (c : QCmd) (l : List Word) : ∃ w rest, v.SameCmds w ∧ v.pushImage t c l =
    w.started_ t c (beBytes 48 (Config.sha384 (((l.take (l.length - 1)).map (fun w => leBytes 4 w.toNat)).flatten)).toNat ++ rest) := by
  refine ⟨_, _, ?_, rfl⟩
  refine .then_tenants (.trans ?_ (.pushWords _ _ _)) (State.setForTenant_tenants _ _ _)
  refine .trans (.of_tenants ?_) (.pushWords _ _ _)
  simp only [State.setForTenant_tenants, State.setReg_keeps]

theorem exec_loadRegion (h : s.nextIs t8.toNat c 0x20) (hl : c.args.length = 16) (h12 : beFld c.args 12 4 = 0) :
    exec (.loadRegion t8) s = .next (s.loadRegion t8.toNat c) :=
  exec_of_next (i := .loadRegion t8) rfl h (by decide) (by simp [hl, h12])

end

/-! COMMAND_COMPLETE of a LOAD_REGION (14 R447, R450) -/

section
variable {s u : State} {t8 : BitVec 8} {c : QCmd}

/-- Where every command of a tenant runs, none may start. -/
theorem State.nextCmd_started {t : Nat} (h : ∀ d ∈ (s.tenant t).cmds, d.started = true) : s.nextCmd t = none := by
  have hfind : (s.tenant t).cmds.find? (fun d => !d.started) = none := List.find?_eq_none.2 fun d hd => by simp [h d hd]
  rw [State.nextCmd, Tenant.nextCmd, hfind]
  split
  · rfl
  · split <;> rfl

/-- Without a session nothing is packed, and what the one running command does is all. -/
theorem exec_loadEnds (hu : s.inReset = false) (hc : (s.tenant t8.toNat).cmds = [c]) (hst : c.started = true) (hop : c.op = 0x20)
    (hl : s.loadEnds t8.toNat c = u) (hs : (u.tenant t8.toNat).sess.st = .none) (hd : ∀ d ∈ (u.tenant t8.toNat).cmds, d.started = true) :
    exec (.commandComplete t8) s = .next u := by
  have ends : (s.tenant t8.toNat).cmds.foldl (State.endStarted t8.toNat) s = u := by
    rw [hc, List.foldl_cons, List.foldl_nil, State.endStarted, hst, if_neg (by decide), if_pos hop, hl]
  have unknown : u.endUnknown t8.toNat = u := by
    rw [State.endUnknown, State.nextCmd_started hd]
  have packs : u.packReplies t8.toNat = u := by
    rw [State.packReplies]
    exact if_pos (.inl (by rw [Session.sends, hs]; rfl))
  refine Eq.trans (b := .next (s.whenUp fun s => (((s.tenant t8.toNat).cmds.foldl (State.endStarted t8.toNat) s).endUnknown t8.toNat).packReplies t8.toNat)) rfl ?_
  rw [State.whenUp_of_up hu, ends, unknown, packs]

/-- The regions a running LOAD_REGION declares. -/
def QCmd.declared (c : QCmd) : List Nat := (List.range ((c.args.length - 48) / 3)).map (fun i => beFld c.args (48 + 3 * i) 3)

/-- How many of some regions are RUNNING. -/
def State.runningOf (s : State) (l : List Nat) : Nat := (l.filter (fun r => decide ((s.region r).st = .running))).length

theorem State.runningOf_all {l : List Nat} : s.runningOf l = l.length ↔ ∀ r ∈ l, (s.region r).st = .running := by
  rw [State.runningOf, List.length_filter_eq_length_iff]
  simp

section
variable {t : Nat}

/-- What the halyard's result leaves a running LOAD_REGION to do: its status, the regions it declares, and how many run. -/
theorem State.loadEnds_rejected (h : (s.reg (resKey (s.loadPort t))).toNat % 4 = 2) :
    s.loadEnds t c = s.finish t c (BitVec.ofNat 16 ((s.reg (resKey (s.loadPort t))).toNat / 65536)) [0, 0, 0, 0] := by
  simp only [State.loadEnds, h, if_true]
  rfl

theorem State.loadEnds_pending (h2 : (s.reg (resKey (s.loadPort t))).toNat % 4 ≠ 2) (h1 : (s.reg (resKey (s.loadPort t))).toNat % 4 ≠ 1) :
    s.loadEnds t c = s := by
  simp only [State.loadEnds, if_neg h2, if_pos h1]

/-- The tenant's measurement is extended by the digest that a command keeps (15 R472). -/
def State.loadMeasured (s : State) (t : Nat) (c : QCmd) : State :=
  s.setTenant t { s.tenant t with
    measure := Config.sha384 (beBytes 48 (s.tenant t).measure.toNat ++ c.args.take 48), loads := (s.tenant t).loads + 1 }

/-- An accepted stream: ended by all its regions, or by one that failed. -/
theorem State.loadEnds_accepted (h : (s.reg (resKey (s.loadPort t))).toNat % 4 = 1) :
    s.loadEnds t c = if s.runningOf c.declared = c.declared.length then (s.loadMeasured t c).finish t c 0 (beBytes 4 c.declared.length)
      else match c.declared.find? (fun r => decide ((s.region r).st = .failed)) with
        | some r => s.finish t c (s.region r).err (beBytes 4 (s.runningOf c.declared))
        | none => s := by
  have loads : s.loadEnds t c = if s.runningOf c.declared = c.declared.length then (s.loadMeasured t c).finish t c 0 (beBytes 4 (s.runningOf c.declared))
      else match c.declared.find? (fun r => decide ((s.region r).st = .failed)) with
        | some r => s.finish t c (s.region r).err (beBytes 4 (s.runningOf c.declared))
        | none => s := by
    simp only [State.loadEnds, h, ne_eq, not_true, if_false]
    rfl
  rw [loads]
  split
  · rename_i hall
    rw [hall]
  · rfl

theorem State.loadEnds_all (h : (s.reg (resKey (s.loadPort t))).toNat % 4 = 1) (hall : ∀ r ∈ c.declared, (s.region r).st = .running) :
    s.loadEnds t c = (s.loadMeasured t c).finish t c 0 (beBytes 4 c.declared.length) := by
  rw [State.loadEnds_accepted h, if_pos (State.runningOf_all.2 hall)]

theorem State.loadEnds_failed (h : (s.reg (resKey (s.loadPort t))).toNat % 4 = 1) {r : Nat} (hr : r ∈ c.declared) (hf : (s.region r).st = .failed)
    (hone : ∀ q ∈ c.declared, (s.region q).st = .failed → q = r) : s.loadEnds t c = s.finish t c (s.region r).err (beBytes 4 (s.runningOf c.declared)) := by
  have stopped : ¬ s.runningOf c.declared = c.declared.length := fun hall => by
    have := State.runningOf_all.1 hall r hr
    rw [hf] at this
    nomatch this
  rw [State.loadEnds_accepted h, if_neg stopped]
  cases hfind : c.declared.find? (fun r => decide ((s.region r).st = .failed)) with
  | none => exact absurd hf (by simpa using List.find?_eq_none.1 hfind r hr)
  | some q => rw [hone q (List.mem_of_find?_eq_some hfind) (by simpa using List.find?_some hfind)]

theorem State.loadEnds_waits (h : (s.reg (resKey (s.loadPort t))).toNat % 4 = 1) (hsome : ∃ r ∈ c.declared, (s.region r).st ≠ .running)
    (hf : ∀ r ∈ c.declared, (s.region r).st ≠ .failed) : s.loadEnds t c = s := by
  obtain ⟨r, hr, hrun⟩ := hsome
  have unfailed : c.declared.find? (fun r => decide ((s.region r).st = .failed)) = none := List.find?_eq_none.2 fun r hr => by simpa using hf r hr
  rw [State.loadEnds_accepted h, if_neg fun hall => hrun (State.runningOf_all.1 hall r hr), unfailed]

/-- A running command that ends leaves none. -/
theorem exec_loadEnds_finish (hu : s.inReset = false) (hc : (s.tenant t8.toNat).cmds = [c]) (hst : c.started = true) (hop : c.op = 0x20)
    (hs : (s.tenant t8.toNat).sess.st = .none) {st : BitVec 16} {data : List Byte} (huc : (u.tenant t8.toNat).cmds = [c])
    (hus : (u.tenant t8.toNat).sess = (s.tenant t8.toNat).sess) (hl : s.loadEnds t8.toNat c = u.finish t8.toNat c st data) :
    exec (.commandComplete t8) s = .next (u.finish t8.toNat c st data) := by
  refine exec_loadEnds hu hc hst hop hl ?_ ?_
  · rw [State.finish, State.setTenant_tenant_same, hus, hs]
  · rw [((State.SameCmds.refl u).finish t8.toNat c st data).1, huc, List.erase_cons_head]
    exact fun d hd => nomatch hd

end
end

theorem regionCommands : Claims.RegionCommands := by
  unfold Claims.RegionCommands
  intro s t8 c t tn b reply
  refine ⟨fun h hl h12 => ?_, fun hu hc hst hop hs => ?_, fun h hl h0 h1 h6 => exec_clearRegion h hl h0 h1 h6⟩
  · intro got
    have runs : exec (.loadRegion t8) s = .next (s.loadRegion t c) := exec_loadRegion h hl h12
    have loads (hf : s.portFree ⟨tn.res.home, false⟩ = true) : s.loadRegion t c = match got with
        | none => s
        | some w => if w.2.1 ≠ 0 then w.1.finish t c w.2.1 (beBytes 4 0)
          else if imageCrcOk (wordsOfBytes w.2.2).1 then w.1.pushImage t c (wordsOfBytes w.2.2).1 else w.1.finish t c Code.cfgCrc (beBytes 4 0) :=
      if_neg (by rw [State.loadPort, hf]; decide)
    refine ⟨fun hf => ?_, fun hf hg => ?_, fun hf v code bytes hg => ?_⟩
    · rw [runs]
      exact congrArg _ (if_pos (by rw [State.loadPort, hf]; rfl))
    · rw [runs, loads hf, hg]
    · intro l
      rw [runs, loads hf, hg]
      refine ⟨fun hcode => ?_, fun hcode hcrc => ?_, fun hcode hcrc => ?_⟩
      · exact congrArg _ (if_pos hcode)
      · exact congrArg _ ((if_neg (not_not.2 hcode)).trans (if_neg (Bool.eq_false_iff.1 hcrc)))
      · obtain ⟨w, rest, hw, hpush⟩ := v.pushImage_runs_on t c l
        obtain ⟨cmds, replies, measure⟩ := ((State.atLines_sameCmds hg).trans hw).started_ t c
          (beBytes 48 (Config.sha384 (((l.take (l.length - 1)).map (fun w => leBytes 4 w.toNat)).flatten)).toNat ++ rest)
        exact ⟨_, rest, congrArg _ ((if_neg (not_not.2 hcode)).trans ((if_pos hcrc).trans hpush)), replies, measure, cmds⟩
  · have stays (hl : s.loadEnds t c = s) : exec (.commandComplete t8) s = .next s :=
      exec_loadEnds hu hc hst hop hl hs (by rw [hc]; simpa using hst)
    have ends {st : BitVec 16} {data : List Byte} (hl : s.loadEnds t c = s.finish t c st data) : exec (.commandComplete t8) s = .next (s.finish t c st data) :=
      exec_loadEnds_finish hu hc hst hop hs hc rfl hl
    intro v regions up
    refine ⟨fun hv => ends (State.loadEnds_rejected hv), fun h2 h1 => stays (State.loadEnds_pending h2 h1), fun hv hall => ?_,
      fun hv r hr hf hone => ends (State.loadEnds_failed hv hr hf hone), fun hv hsome hf => stays (State.loadEnds_waits hv hsome hf)⟩
    have measured : (s.loadMeasured t c).tenant t = { tn with measure := Config.sha384 (beBytes 48 tn.measure.toNat ++ c.args.take 48), loads := tn.loads + 1 } :=
      State.setTenant_tenant_same ..
    have final : ((s.loadMeasured t c).finish t c 0 (beBytes 4 regions.length)).tenant t =
        { (s.loadMeasured t c).tenant t with
          cmds := ((s.loadMeasured t c).tenant t).cmds.erase c, replies := ((s.loadMeasured t c).tenant t).replies ++ [reply 0 (beBytes 4 regions.length)] } :=
      State.setTenant_tenant_same ..
    refine ⟨(s.loadMeasured t c).finish t c 0 (beBytes 4 regions.length), ?_, ?_, ?_, ?_, ?_, ?_⟩
    · exact exec_loadEnds_finish hu hc hst hop hs (by rw [measured]; exact hc) (by rw [measured]) (State.loadEnds_all hv hall)
    · rw [final, measured, hc, List.erase_cons_head]
    · rw [final, measured]
    · rw [final, measured]
    · rw [final, measured]
    · exact (State.finish_keeps ..).2.2

/-- Settles O41: READ_MEM, CTRL_READ, LOAD_REGION and CLEAR_REGION, each by what its handler answers; a read of a window and
the pushing of a stream leave the tenants' commands as they are, but for events. -/
theorem hostReadsAndRegions : Obligations.HostReadsAndRegions := ⟨hostReads, regionCommands⟩

end Sys2Proof.Machine
end
